-- ==== Sys2Proof/Word.lean ====
section
/-! DEFINITION. The byte, the word and the byte string. -/
namespace Sys2Proof

abbrev Byte := BitVec 8
abbrev Word := BitVec 32
/-- A byte string, first byte first. -/
abbrev Bytes := List Byte

end Sys2Proof
end

