-- ==== Sys2Proof/Syntax.lean ====
section
/-! DEFINITION. The names the commands speak of, and the commands: one constructor for each row of spec/opcode_table.json. -/
namespace Sys2Proof

/-- The eight dictionary users, in the fixed order of R10. -/
inductive User where
  | L | M | U | A | B | C | N | T
  deriving DecidableEq, Repr

/-- The twelve modes (R77). -/
inductive Mode where
  | factory | calibrate | commission | supervise | verify | alarm | echo | hush | selftest | fault | endOfLife | retired
  deriving DecidableEq, Repr

/-- The five life-cycle states (R78). -/
inductive Lc where
  | blank | maker | owned | field | retired
  deriving DecidableEq, Repr

/-- The three dies (R13). -/
inductive Die where
  | keeper | flyer | spindle
  deriving DecidableEq, Repr

/-- The three host ports (R350). -/
inductive Port where
  | A | B | C
  deriving DecidableEq, Repr

/-- The data lanes of the ply link (R22). -/
inductive Lane where
  | f2s0 | f2s1 | s2f
  deriving DecidableEq, Repr

/-- Why a receiver of the ply link discards a flit (R28). -/
inductive Discard where
  | crc | sequence | reservedType
  deriving DecidableEq, Repr

/-- What the sender of a lane puts into a flit (R25, R110, R148, R184). -/
inductive FlitKind where
  | idle | capture | command (reg val : Nat) | horn | status (kind : Nat) | end_
  deriving DecidableEq, Repr

/-- The payload lengths of an FD frame (ISO 11898-1). -/
def fdLengths : List Nat := [0, 1, 2, 3, 4, 5, 6, 7, 8, 12, 16, 20, 24, 32, 48, 64]

/-- The power domains (R46, R163). -/
inductive Domain where
  | core | code | data | capt | crypto | rng | net | host | plyS
  | opt | heat | gas | horn | ind | plyF | backstop | keep | tag | tamper
  deriving DecidableEq, Repr

/-- The targets of MODE_REQUEST that some row of R84 names for a user. -/
inductive ModeTarget where
  | calibrate | factory | supervise | commission | verify | alarm | hush | selftest
  deriving DecidableEq, Repr

/-- The events of the mode machine (R82, R84) that may fall together in one CLK_AON cycle. -/
inductive ModeEvent where
  | lcRetired
  | backstop (bits : Nat)                     -- payload bits of BACKSTOP_ALARM
  | alarmFw (kinds : Nat)
  | firmwareAlarm
  | relayedCan (kinds : Nat)
  | relayedIc (on : Bool)
  | hushExpiry
  | hushRequest (u : User)
  | hushEnd (u : User)
  | faultSet (b : Nat)
  | faultClear (b : Nat)
  | endOfLife
  | selftestDue
  | selftestDone
  | request (u : User) (t : ModeTarget)
  | verifyTimeout
  | commissionTimeout
  | buttonPress
  | buttonHold
  deriving DecidableEq, Repr

/-- The four captures of an optical measurement (R107): lists of 2048 samples of 12 bits. -/
structure Captures where
  ir : List Nat
  blue : List Nat
  dark : List Nat
  ref : List Nat
  deriving DecidableEq, Repr

/-- The errors of ISO 11898-1 that LAST_ERROR numbers (R349). -/
inductive CanError where
  | bit | stuff | form | crc | ack
  deriving DecidableEq, Repr

/-- What a debugger's abstract command does (R235); `clearError` is its write of 1s to the error field of abstractcs. -/
inductive Abstract where
  | readGpr (r : Nat)
  | writeGpr (r : Nat) (v : Word)
  | readCsr (a : Nat)
  | writeCsr (a : Nat) (v : Word)
  | runProgram (w0 w1 : Word)
  | clearError
  deriving DecidableEq, Repr

/-- The engines whose jobs queue 08 holds, beside the big-number engine (R278). -/
inductive Engine where
  | aes | sha
  deriving DecidableEq, Repr

/-- The commands: one constructor for each row of spec/opcode_table.json, in its order.
Operands `u` and `v` are the user and the value of a dictionary access. -/
inductive Instr where
  | vddInValid (mv : Nat)
  | vddInLost (mv : Nat)
  | keeperPowerOnReset (testmode : Bool)
  | nrstAssert
  | nrstRelease
  | keeperAonCycle (evs : List ModeEvent)
  | sbSendStart
  | sbMessageDropped (dies : List Die)
  | sbMessageCutOff (dies : List Die)
  | sbAckTimeout (die : Die) (ty : Nat)
  | logWriteRetry (die : Die)
  | lockup
  | lockupRepeatTimer
  | lockupResetDelay
  | backstopAlarm
  | backstopAlarmRepeat
  | heartbeat
  | heartbeatSendTimer
  | heartbeatTimeout
  | flyerResetRepeat
  | logWrite
  | ack
  | domain
  | domainResend
  | reset
  | hello
  | peerReset
  | plyQuiet
  | peerResetQuietTimeout
  | captureReady
  | mode
  | modeRepeatTimer
  | time
  | calShadow
  | calShadowResend
  | plyBurstRequest (byFlyer : Bool)
  | plyStartMarkerAligned
  | plyWakeTimeout (lanes : List Lane)
  | plyFlitDiscarded (lane : Lane) (why : Discard × FlitKind)
  | plyCaptureFlit (lane : Lane)
  | plyCommandFlit (reg val : Nat)
  | plyHornFlit
  | plyEndFlit (lane : Lane)
  | plyIdleFlit (lane : Lane)
  | plyRetryTimeout (lane : Lane)
  | plyDrainExpiry
  | captHeldWrite (u : User) (v : Nat)
  | statusOptical (lane : Lane)
  | statusHeat (lane : Lane)
  | statusCo (lane : Lane)
  | statusAux (lane : Lane)
  | statusSupply (lane : Lane)
  | statusQueues (lane : Lane)
  | optMeasurementTick (vddMv : Nat)
  | optMeasurementComplete (caps : Captures) (ledShort : Bool) (loadedMv : Nat)
  | heatMeasurementTick
  | heatConversionComplete (code : Nat)
  | coMeasurementTick
  | coConversionComplete (code : Int)
  | ainMeasurementTick
  | ainConversionComplete (code : Int)
  | dieTempTick (spindle flyer keeper : Int) (clkFlyHz : Nat)
  | optRequest (u : User) (v : Nat)
  | coPulse (u : User) (v : Nat)
  | coPulseRestore (peak : Nat)
  | coPulseSettleEnd
  | coEnableWrite (u : User) (v : Nat)
  | ainPeriodWrite (u : User) (v : Nat)
  | calFactoryWrite (u : User) (idx sub : Nat) (v : Bytes)
  | calDeltaWrite (u : User) (idx sub : Nat) (v : Bytes)
  | alarmFwWrite (u : User) (v : Nat)
  | kindsCommandSend
  | modeRequestCalibrate (u : User)
  | modeRequestFactory (u : User)
  | modeRequestSupervise (u : User)
  | modeRequestCommission (u : User)
  | modeRequestVerify (u : User)
  | modeRequestAlarm (u : User)
  | modeRequestHush (u : User)
  | modeRequestSelftest (u : User)
  | testBtnPress
  | testBtnHold
  | verifyTimeout
  | commissionTimeout
  | hushExpiry
  | flyerHushTimerExpiry
  | faultCauseClear (u : User) (v : Nat)
  | faultRequest (u : User) (v : Nat)
  | serviceSecondTick
  | serviceCommitHourly
  | endOfLifeReached
  | lcRequestArm (u : User) (v : Nat)
  | lcRequestConfirm (u : User) (v : Nat)
  | lcRequestExpiry
  | lcProgramComplete
  | dbgNew (u : User) (v : Nat)
  | dbgSig (u : User) (v : Bytes)
  | dbgChallengeExpiry
  | dbgLockoutExpiry
  | echoTimeoutExpiry
  | icLineRelayStart
  | icLineRelayEnd
  | beaconTimer
  | hornSourceSelect
  | hornPhase
  | hornVboostReady (mv : Nat)
  | hornFbTimeout
  | hornFault
  | hornOvercurrent
  | hornCmdTone (u : User) (rest : Bytes)
  | hornCmdIndicator (u : User) (rest : Bytes)
  | hornCmdStop (u : User) (rest : Bytes)
  | hornQueueTake
  | selftestDue
  | stChamber (caps : Captures) (ledShort : Bool) (loadedMv : Nat)
  | stHorn (ohm riseMs : Nat) (overcurrent : Bool)
  | stBattery (mv : Nat)
  | stCoCell (peak : Nat)
  | stNvm
  | stRngHealth (window : Nat)
  | stKnownAnswer (failing : Nat)
  | stStepResult
  | stStepTimeout
  | stRngWords
  | uidPoolRefill (words : Unit)
  | restWrite (u : User) (ss v : Nat)
  | domainEntryStart (d : Domain)
  | domainEntryRetry (d : Domain)
  | domainEntryComplete (d : Domain)
  | domainWake (source : Nat) (more : List Domain)
  | domainExitComplete (d : Domain)
  | isolationWindowEnd (d : Domain) (low : List Port)
  | aonCrystalLost
  | aonCrystalReturn
  | fllUnlock
  | xoCheckEnd (found : Bool)
  | xoStartFail
  | rtcSecondTick
  | timeSet (u : User) (v : Nat)
  | arbDecision (begins : List (Nat × Nat × Nat)) (stalled : List Nat) (withdrawn : List Nat)
  | creditWindowStart (res : Nat)
  | slotWrapApply (res : Nat)
  | arbConfigWrite (u : User) (idx sub : Nat) (v : Bytes)
  | fabricWatchdogBite (req res : Nat) (write : Bool) (addr : Nat)
  | instrExecute
  | load
  | store
  | coreWindowLoad
  | coreWindowStore
  | coreStageStore
  | csrAccess
  | svctlWrite
  | mpuCsrWrite
  | ecall
  | ebreak
  | mret
  | wfi
  | wfiResume
  | fence
  | fenceI
  | interruptTaken
  | wdtKick (u : User) (v : Nat)
  | wdtExpiry
  | debugHalt
  | debugResume
  | debugSingleStep
  | debugAbstractCommand (c : Abstract)
  | ndmreset
  | tapInstruction (ir : Nat)
  | loaderDiscovery (sfdp : Bytes) (qe : Bool)
  | loaderSelect
  | loaderManifestRead
  | loaderSignatureDone
  | loaderHalfBlock
  | loaderBlockDigest
  | loaderClose
  | bootReport
  | bootAttemptTimeout
  | bootRetryDelayExpiry
  | rollbackCommit (u : User) (v : Nat)
  | rotSig (u : User) (v : Bytes)
  | keyRevoke0 (u : User) (v : Nat)
  | fOneTimeWrite (u : User) (idx sub : Nat) (v : Bytes)
  | flOpRead (u : User)
  | flOpProgram (u : User)
  | flOpErase (u : User)
  | flOpComplete
  | flOpTimeout
  | kdfDerive (u : User) (v : Nat)
  | expKeyRead (u : User)
  | aesStart (u : User) (v : Nat)
  | aesIn (u : User) (v : Bytes)
  | aesOutRead (u : User)
  | aesClear (u : User) (v : Nat)
  | aesMemGo (u : User) (v : Nat)
  | shaInit (u : User) (v : Nat)
  | shaData (u : User) (v : Bytes)
  | shaLast (u : User) (v : Bytes)
  | shaMemGo (u : User) (v : Nat)
  | cryptoJobComplete (e : Engine)
  | bnPublicKey (u : User)
  | bnEcdsaSign (u : User)
  | bnEcdsaVerify (u : User)
  | bnEcdh (u : User)
  | bnX25519Public (u : User)
  | bnX25519Shared (u : User)
  | bnEd25519Verify (u : User)
  | bnNewEphemeralP256 (u : User)
  | bnNewEphemeralX25519 (u : User)
  | bnJobStart
  | bnRngWaitExpiry
  | bnCandidateTimeout
  | bnMsg (u : User) (v : Bytes)
  | bnMemGo (u : User) (v : Nat)
  | bnMsgTimeout (u : User)
  | bnJobComplete
  | bnClear (u : User) (v : Nat)
  | rngWordProduced (raw : BitVec 64)
  | rngRead (u : User) (block : Bool)
  | rngHealthWindowEnd (window : Nat)
  | glitchAlert (kind : Nat) (value threshold : Int)
  | supplyAlert (inst kind : Nat) (value threshold : Int)
  | lightAlert (inst : Nat) (value threshold : Int)
  | meshAlert (inst kind : Nat)
  | enclosureAlert (inst level : Nat)
  | logAppend
  | logAppendComplete
  | ckptDigest
  | ckptSignature
  | ckptSignTimeout
  | logFullRetry
  | tamperFlagsClear (u : User) (v : Nat)
  | monoInc (u : User) (n v : Nat)
  | noticeClear (u : User) (v : Nat)
  | claimTake (u : User) (g lease : Nat)
  | claimRelease (u : User) (g : Nat)
  | claimLeaseExpiry (g : Nat)
  | probeDescRead (u : User)
  | commit (u : User)
  | discard (u : User)
  | dictEngineTake
  | entryWrite (u : User) (idx sub : Nat) (v : Bytes)
  | nvmWriteComplete
  | nvmWriteTimeout
  | canBusJoin
  | canBeaconRx (b0 b1 : Byte)
  | canSourceRx (node : Nat)
  | canRequestRead (target : Nat) (payload : Bytes)
  | canRequestWrite (target : Nat) (payload : Bytes)
  | canRequestStage (target : Nat) (payload : Bytes)
  | canSegmentTimeout
  | canTimeRx (node time : Nat)
  | canHeartbeatRx (node : Nat)
  | canFrameIgnored
  | canTxStart
  | canTxSuccess (loopDelay : Nat)
  | canTxError (e : Option CanError) (pos : Option Nat) (dataPhase : Bool) (tec : Bool × Nat)
  | canBackoffExpiry
  | canBusOff
  | canBusOffRecovered
  | canRestart (u : User) (v : Nat)
  | nodeIdWrite (u : User) (v : Nat)
  | canNoticeTimer
  | canTimeTimer
  | canHeartbeatTimer
  | canResponseSend
  | hostRead (p : Port) (frame : Bytes)
  | hostWrite (p : Port) (frame : Bytes)
  | hostStage (p : Port) (frame : Bytes)
  | hostFrameError (p : Port) (frame : Bytes) (framing : Bool)
  | hostCsFall (p : Port) (mode3 : Bool)
  | hostCsRise (p : Port) (clocked : Nat) (cutRequest : Bool)
  | hostUartGapTimeout
  | hostUartResponseSend
  | keptResponseExpiry (p : Port)
  | hpReset (u : User) (p v : Nat)
  | fieldSessionStart
  | fieldSessionEnd
  | reqa
  | wupa
  | anticollision (level : Nat) (known : Bytes)
  | selectCascade (level : Nat) (uid : Bytes)
  | hlta
  | rats (fsdi : Nat)
  | pps (rate106 : Bool)
  | iBlock (number chain : Bool) (inf : Bytes)
  | rBlock (nak number : Bool)
  | sWtxResponse
  | sDeselect
  | tagWtxTimer
  | tagAnswerTimeout
  | apduSelect
  | apduGetOrigin
  | apduReadLog
  | apduReadEntry
  | apduAuthStep1
  | apduAuthStep2
  | apduWriteEntry
  | canRxError (e : CanError) (id : Nat) (dataPhase : Bool) (rec : Bool × Nat)
  | canResponseNoticeRx
  | clkCoreDeviation (deviation : Int)
  | tamperConditionEnd (ty inst : Nat)
  | tagOtherFrame (bad : Bool)
  | fieldDrop (returns : Bool)
  deriving DecidableEq, Repr

end Sys2Proof
end

