-- ==== Sys2Proof/WellFormed.lean ====
section
/-! DEFINITION. Which commands are well formed: every operand within the width and the range that the spec gives it. -/
namespace Sys2Proof

/-- A number of `w` bits. -/
def fits (w n : Nat) : Bool := n < 2 ^ w

/-- A signed number of `w` bits. -/
def fitsInt (w : Nat) (i : Int) : Bool := decide (-(2 ^ (w - 1) : Int) ≤ i) && decide (i < 2 ^ (w - 1))

/-- Four captures of 2048 samples of 12 bits (R107). -/
def Captures.wf (c : Captures) : Bool :=
  [c.ir, c.blue, c.dark, c.ref].all fun l => l.length == 2048 && l.all fun x => x < 4096

/-- A flit kind whose fields fit: a register number of 8 bits, a value of 32, a STATUS kind of R110. -/
def FlitKind.wf : FlitKind → Bool
  | .command r v => fits 8 r && fits 32 v
  | .status k => 1 ≤ k && k ≤ 6
  | .idle => true
  | .capture => true
  | .horn => true
  | .end_ => true

def ModeEvent.wf : ModeEvent → Bool
  | .backstop b => fits 8 b
  | .alarmFw k => fits 3 k
  | .relayedCan k => fits 3 k
  | .faultSet b => fits 4 b
  | .faultClear b => fits 4 b
  | .lcRetired => true
  | .firmwareAlarm => true
  | .relayedIc _ => true
  | .hushExpiry => true
  | .hushRequest _ => true
  | .hushEnd _ => true
  | .endOfLife => true
  | .selftestDue => true
  | .selftestDone => true
  | .request _ _ => true
  | .verifyTimeout => true
  | .commissionTimeout => true
  | .buttonPress => true
  | .buttonHold => true

def Abstract.wf : Abstract → Bool
  | .readGpr r => r < 32
  | .writeGpr r _ => r < 32
  | .readCsr a => fits 12 a
  | .writeCsr a _ => fits 12 a
  | .runProgram _ _ => true
  | .clearError => true

/-- A value of an entry: at most 64 bytes (R44). -/
def valueWf (idx sub : Nat) (v : Bytes) : Bool := fits 16 idx && fits 8 sub && v.length ≤ 64

/-- A resource of the arbiter (R197). -/
def resWf (k : Nat) : Bool := 1 ≤ k && k ≤ 6

/-- The requests of an arbiter cycle (R198 to R202): 12 requesters, each begins on one resource; a DICT request carries 64 value bytes at most. -/
def asksWf (begins : List (Nat × Nat × Nat)) (stalled withdrawn : List Nat) : Bool :=
  begins.all (fun p => p.1 < 12 && resWf p.2.1 && (if p.2.1 = 5 then p.2.2 ≤ 64 else 1 ≤ p.2.2)) && decide (begins.map (·.1)).Nodup &&
    stalled.all resWf && withdrawn.all (· < 12)

/-- Every operand of a command is in range. -/
def Instr.wf : Instr → Bool
  | .vddInValid mv | .vddInLost mv | .hornVboostReady mv | .optMeasurementTick mv | .stBattery mv => fits 16 mv
  | .keeperPowerOnReset _ | .nrstAssert | .nrstRelease => true
  | .keeperAonCycle evs => evs.all ModeEvent.wf
  | .sbSendStart | .logWriteRetry _ | .lockup | .lockupRepeatTimer | .lockupResetDelay | .backstopAlarm | .backstopAlarmRepeat | .heartbeat
  | .heartbeatSendTimer | .heartbeatTimeout | .flyerResetRepeat | .logWrite | .ack | .domain | .domainResend | .reset | .hello | .peerReset
  | .plyQuiet | .peerResetQuietTimeout | .captureReady | .mode | .modeRepeatTimer | .time | .calShadow | .calShadowResend => true
  | .sbMessageDropped dies | .sbMessageCutOff dies => !dies.isEmpty && dies.length ≤ 3
  | .sbAckTimeout _ ty => fits 4 ty
  | .plyBurstRequest _ | .plyStartMarkerAligned | .plyCaptureFlit _ | .plyHornFlit | .plyEndFlit _ | .plyIdleFlit _
  | .plyRetryTimeout _ | .plyDrainExpiry => true
  | .plyFlitDiscarded _ w => w.2.wf
  | .plyWakeTimeout lanes => !lanes.isEmpty
  | .plyCommandFlit reg val => fits 8 reg && fits 32 val
  | .statusOptical _ | .statusHeat _ | .statusCo _ | .statusAux _ | .statusSupply _ | .statusQueues _ => true
  | .optMeasurementComplete c _ mv | .stChamber c _ mv => c.wf && fits 16 mv
  | .heatMeasurementTick | .coMeasurementTick | .ainMeasurementTick | .coPulseSettleEnd => true
  | .heatConversionComplete code => fits 16 code
  | .coConversionComplete code => fitsInt 20 code
  | .ainConversionComplete code => fitsInt 24 code
  | .dieTempTick a b c hz => fitsInt 16 a && fitsInt 16 b && fitsInt 16 c && fits 32 hz
  | .coPulseRestore peak | .stCoCell peak => fits 32 peak
  | .captHeldWrite _ v | .optRequest _ v | .coPulse _ v | .coEnableWrite _ v | .ainPeriodWrite _ v | .alarmFwWrite _ v | .faultCauseClear _ v
  | .faultRequest _ v | .lcRequestArm _ v | .lcRequestConfirm _ v | .dbgNew _ v | .timeSet _ v | .wdtKick _ v | .rollbackCommit _ v
  | .keyRevoke0 _ v | .kdfDerive _ v | .aesStart _ v | .aesClear _ v | .aesMemGo _ v | .shaInit _ v | .shaMemGo _ v | .bnMemGo _ v
  | .bnClear _ v | .tamperFlagsClear _ v | .noticeClear _ v | .canRestart _ v | .nodeIdWrite _ v => fits 32 v
  | .calFactoryWrite _ i k v | .calDeltaWrite _ i k v | .arbConfigWrite _ i k v | .fOneTimeWrite _ i k v | .entryWrite _ i k v => valueWf i k v
  | .kindsCommandSend | .modeRequestCalibrate _ | .modeRequestFactory _ | .modeRequestSupervise _ | .modeRequestCommission _
  | .modeRequestVerify _ | .modeRequestAlarm _ | .modeRequestHush _ | .modeRequestSelftest _ | .testBtnPress | .testBtnHold | .verifyTimeout
  | .commissionTimeout | .hushExpiry | .flyerHushTimerExpiry | .serviceSecondTick | .serviceCommitHourly | .endOfLifeReached
  | .lcRequestExpiry | .lcProgramComplete | .dbgChallengeExpiry | .dbgLockoutExpiry | .echoTimeoutExpiry | .icLineRelayStart
  | .icLineRelayEnd | .beaconTimer | .hornSourceSelect | .hornPhase | .hornFbTimeout | .hornFault | .hornOvercurrent | .hornQueueTake
  | .selftestDue | .stNvm | .stStepResult | .stStepTimeout | .stRngWords => true
  | .dbgSig _ v | .rotSig _ v | .aesIn _ v | .shaData _ v | .shaLast _ v | .bnMsg _ v => v.length ≤ 64
  | .hornCmdTone _ r | .hornCmdIndicator _ r | .hornCmdStop _ r => r.length == 7
  | .stHorn ohm rise _ => fits 16 ohm && fits 16 rise
  | .stRngHealth w | .rngHealthWindowEnd w => fits 4096 w
  | .stKnownAnswer f => fits 8 f
  | .uidPoolRefill _ | .canResponseNoticeRx => true
  | .restWrite _ ss v => fits 8 ss && fits 32 v
  | .domainEntryStart _ | .domainEntryRetry _ | .domainEntryComplete _ | .domainExitComplete _ | .isolationWindowEnd _ _ | .aonCrystalLost
  | .aonCrystalReturn | .fllUnlock | .xoCheckEnd _ | .xoStartFail | .rtcSecondTick => true
  | .domainWake src _ => fits 8 src
  | .arbDecision a d w => asksWf a d w
  | .creditWindowStart r | .slotWrapApply r => resWf r
  | .fabricWatchdogBite q r _ a => q < 12 && resWf r && fits 32 a
  | .instrExecute | .load | .store | .coreWindowLoad | .coreWindowStore | .coreStageStore | .csrAccess | .svctlWrite | .mpuCsrWrite | .ecall
  | .ebreak | .mret | .wfi | .wfiResume | .fence | .fenceI | .interruptTaken | .wdtExpiry | .debugHalt | .debugResume | .debugSingleStep
  | .ndmreset => true
  | .debugAbstractCommand c => c.wf
  | .tapInstruction ir => fits 5 ir
  | .loaderDiscovery sfdp _ => sfdp.length ≤ 256
  | .loaderSelect | .loaderManifestRead | .loaderSignatureDone | .loaderHalfBlock | .loaderBlockDigest | .loaderClose | .bootReport
  | .bootAttemptTimeout | .bootRetryDelayExpiry | .flOpRead _ | .flOpProgram _ | .flOpErase _ | .flOpComplete | .flOpTimeout | .expKeyRead _
  | .aesOutRead _ | .cryptoJobComplete _ | .bnPublicKey _ | .bnEcdsaSign _ | .bnEcdsaVerify _ | .bnEcdh _ | .bnX25519Public _
  | .bnX25519Shared _ | .bnEd25519Verify _ | .bnNewEphemeralP256 _ | .bnNewEphemeralX25519 _ | .bnJobStart | .bnRngWaitExpiry
  | .bnCandidateTimeout | .bnMsgTimeout _ | .bnJobComplete | .rngWordProduced _ | .rngRead _ _ => true
  | .glitchAlert k v t => fits 8 k && fitsInt 32 v && fitsInt 32 t
  | .supplyAlert i k v t => fits 8 i && fits 8 k && fitsInt 32 v && fitsInt 32 t
  | .lightAlert i v t => fits 8 i && fitsInt 32 v && fitsInt 32 t
  | .meshAlert i k => fits 8 i && fits 8 k
  | .enclosureAlert i l => fits 8 i && fits 1 l
  | .logAppend | .logAppendComplete | .ckptDigest | .ckptSignature | .ckptSignTimeout | .logFullRetry => true
  | .monoInc _ n v => fits 8 n && fits 32 v
  | .claimTake _ g lease => fits 8 g && fits 32 lease
  | .claimRelease _ g => fits 8 g
  | .claimLeaseExpiry g => fits 8 g
  | .probeDescRead _ | .commit _ | .discard _ | .dictEngineTake | .nvmWriteComplete | .nvmWriteTimeout | .canBusJoin | .canBeaconRx _ _
  | .canSegmentTimeout | .canFrameIgnored | .canTxStart | .canBackoffExpiry | .canBusOff | .canBusOffRecovered | .canNoticeTimer
  | .canTimeTimer | .canHeartbeatTimer | .canResponseSend => true
  | .canSourceRx n | .canHeartbeatRx n => fits 7 n
  | .canRequestRead n p | .canRequestWrite n p | .canRequestStage n p => fits 7 n && fdLengths.contains p.length
  | .canTimeRx n t => fits 7 n && fits 32 t
  | .canTxSuccess d => fits 8 d
  | .canTxError _ p _ n => fits 8 n.2 && p.all (· < 512)
  | .canRxError _ id _ n => fits 29 id && fits 8 n.2
  | .hostRead _ _ | .hostWrite _ _ | .hostStage _ _ | .hostFrameError _ _ _ | .hostCsFall _ _ | .hostCsRise _ _ _ | .hostUartGapTimeout | .hostUartResponseSend | .keptResponseExpiry _ => true
  | .hpReset _ p v => fits 8 p && fits 32 v
  | .fieldSessionStart | .fieldSessionEnd | .reqa | .wupa | .hlta | .pps _ | .rBlock _ _ | .sWtxResponse | .sDeselect | .tagWtxTimer
  | .tagAnswerTimeout | .apduSelect | .apduGetOrigin | .apduReadLog | .apduReadEntry | .apduAuthStep1 | .apduAuthStep2 | .apduWriteEntry
  | .tagOtherFrame _ | .fieldDrop _ => true
  | .anticollision l known => (l == 1 || l == 2) && known.length ≤ 4
  | .selectCascade l uid => (l == 1 || l == 2) && uid.length == 4
  | .rats fsdi => fits 4 fsdi
  | .iBlock _ _ inf => inf.length ≤ 253
  | .clkCoreDeviation d => fitsInt 32 d
  | .tamperConditionEnd ty i => fits 8 ty && fits 8 i

end Sys2Proof
end

