-- ==== Sys2Proof/Config.lean ====
section
/-! DEFINITION. What one device fixes, and the free values: constants with no body, so that nothing rests on what they are. -/
namespace Sys2Proof.Config

/-- Free bytes: what an undefined memory holds. First argument the epoch of the loss, second the address. DESIGN CHOICE, log 1. -/
opaque freeByte : Nat → Nat → Byte
/-- Free numbers, one for each count of `State.free`. DESIGN CHOICE, log 1. -/
opaque freeNat : Nat → Nat
/-- Free truth values, one for each count of `State.free`. DESIGN CHOICE, log 1. -/
opaque freeBool : Nat → Bool
/-- A result for which the spec states no number, as a function of what it is computed from. DESIGN CHOICE, log 5. -/
opaque freeResult : Int → Int → Int → Int

/-! Per-device values (R73, R261, R283): fixed at manufacture. Log 4. -/
opaque siliconRev : BitVec 16
opaque originUid : Fin 7 → Byte
opaque serial : Fin 12 → Byte
opaque originSig : Fin 64 → Byte
opaque rootKey : Fin 32 → Byte
opaque attestKey : Fin 32 → Byte

/-- CLK_AON cycles in one second (R179). -/
def aonHz : Nat := 32768

end Sys2Proof.Config
end

