-- ==== Sys2Proof/Machine/Bits.lean ====
section
/-! DEFINITION. Byte strings and numbers, bit fields, two's complement. Multi-byte integers are least significant byte first (R9). -/
namespace Sys2Proof

/-- The byte with the value of the low 8 bits of `n`. -/
def byte (n : Nat) : Byte := BitVec.ofNat 8 n

/-- `n` bytes of `v`, least significant byte first (R9). -/
def leBytes : Nat → Nat → Bytes
  | 0, _ => []
  | n + 1, v => byte v :: leBytes n (v / 256)

/-- The number that a byte string spells, least significant byte first (R9). -/
def leNat : Bytes → Nat
  | [] => 0
  | b :: bs => b.toNat + 256 * leNat bs

/-- `n` bytes of `v`, most significant byte first. -/
def beBytes (n v : Nat) : Bytes := (leBytes n v).reverse

/-- The number that a byte string spells, most significant byte first. -/
def beNat (bs : Bytes) : Nat := leNat bs.reverse

/-- `n` zero bytes. -/
def zeros (n : Nat) : Bytes := List.replicate n 0

/-- `bs` cut or padded with zero bytes to `n` bytes. -/
def fitBytes (n : Nat) (bs : Bytes) : Bytes := bs.take n ++ zeros (n - bs.length)

/-- Bit `i` of `n`. -/
def bit (n i : Nat) : Bool := n.testBit i

/-- Bits `hi` down to `lo` of `n`. -/
def bits (n hi lo : Nat) : Nat := (n / 2 ^ lo) % 2 ^ (hi + 1 - lo)

/-- `n` with bit `i` set to `v`. -/
def withBit (n i : Nat) (v : Bool) : Nat :=
  if v then n ||| 2 ^ i else if n.testBit i then n - 2 ^ i else n

/-- `n` with the bits of `m` cleared. -/
def clearBits (n m : Nat) : Nat := n - (n &&& m)

/-- The signed reading of the low `w` bits of `n`. -/
def toSigned (w n : Nat) : Int :=
  let m := n % 2 ^ w
  if m < 2 ^ (w - 1) then (m : Int) else (m : Int) - 2 ^ w

/-- The low `w` bits of `i` in two's complement. -/
def ofSigned (w : Nat) (i : Int) : Nat := (i % (2 ^ w : Int)).toNat

/-- `i` limited to the range of a signed number of `w` bits. -/
def satSigned (w : Nat) (i : Int) : Int := min (max i (-(2 ^ (w - 1) : Int))) (2 ^ (w - 1) - 1)

/-- The bitwise exclusive or of two byte strings, as long as the shorter. -/
def xorBytes (a b : Bytes) : Bytes := List.zipWith (· ^^^ ·) a b

end Sys2Proof
end

