-- ==== Sys2Proof/Machine/Curve.lean ====
section
/-! DEFINITION. P-256 and ECDSA (FIPS 186-5), the hedged nonce of RFC 6979, X25519 (RFC 7748), Ed25519 verification (RFC 8032): the algorithms
that R282 to R291 name, with the validation of R289 and R290. -/
namespace Sys2Proof

/-- b^e mod m, over `fuel` bits of e. -/
def powMod (m : Nat) : Nat → Nat → Nat → Nat
  | 0, _, _ => 1 % m
  | fuel + 1, b, e =>
    let r := powMod m fuel (b * b % m) (e / 2)
    if e % 2 = 1 then r * b % m else r

/-- The inverse modulo a prime of at most 256 bits. -/
def invMod (p a : Nat) : Nat := powMod p 256 (a % p) (p - 2)

def subMod (p a b : Nat) : Nat := (a + (p - b % p)) % p

/-! ## P-256 -/

def p256P : Nat := 0xFFFFFFFF00000001000000000000000000000000FFFFFFFFFFFFFFFFFFFFFFFF
def p256N : Nat := 0xFFFFFFFF00000000FFFFFFFFFFFFFFFFBCE6FAADA7179E84F3B9CAC2FC632551
def p256B : Nat := 0x5AC635D8AA3A93E7B3EBBD55769886BC651D06B0CC53B0F63BCE3C3E27D2604B
def p256Gx : Nat := 0x6B17D1F2E12C4247F8BCE6E563A440F277037D812DEB33A0F4A13945D898C296
def p256Gy : Nat := 0x4FE342E2FE1A7F9B8EE7EB4A7C0F9E162BCE33576B315ECECBB6406837BF51F5

/-- A point; none is the point at infinity. -/
abbrev EcPoint := Option (Nat × Nat)

/-- The third point of a line of slope `l` through two points, mirrored. -/
def p256Chord (l x1 y1 x2 : Nat) : EcPoint :=
  let x := subMod p256P (l * l) (x1 + x2)
  some (x, subMod p256P (l * subMod p256P x1 x) y1)

def p256Add (a b : EcPoint) : EcPoint :=
  match a, b with
  | none, b => b
  | a, none => a
  | some (x1, y1), some (x2, y2) =>
    if x1 = x2 then
      if (y1 + y2) % p256P = 0 then none
      else p256Chord ((3 * x1 * x1 + (p256P - 3)) * invMod p256P (2 * y1) % p256P) x1 y1 x2
    else p256Chord (subMod p256P y2 y1 * invMod p256P (subMod p256P x2 x1) % p256P) x1 y1 x2

/-- k·P over `n` bits of k. -/
def p256Mul : Nat → Nat → EcPoint → EcPoint
  | 0, _, _ => none
  | n + 1, k, p =>
    let r := p256Mul n (k / 2) (p256Add p p)
    if k % 2 = 1 then p256Add r p else r

def p256Base (k : Nat) : EcPoint := p256Mul 256 k (some (p256Gx, p256Gy))

/-- The attestation key (R283): the scalar that the fuses hold (log 4). -/
def attestScalar : Nat := beNat (List.ofFn Config.attestKey) % (p256N - 1) + 1

/-- x ‖ y, each 32 bytes most significant byte first (R282). -/
def p256Out (p : EcPoint) : Bytes :=
  match p with
  | some (x, y) => beBytes 32 x ++ beBytes 32 y
  | none => zeros 64

/-- ATTEST_PUB: the public key of the attestation key (R283). -/
def attestPub : Bytes := p256Out (p256Base attestScalar)

/-- The validation of R289: the point, or the detail code of R301. -/
def p256In (b : Bytes) : Except Nat (Nat × Nat) :=
  let x := beNat (b.take 32)
  let y := beNat ((b.drop 32).take 32)
  if x = 0 ∧ y = 0 then .error 2
  else if p256P ≤ x ∨ p256P ≤ y then .error 1
  else if y * y % p256P = (x * x * x + (p256P - 3) * x + p256B) % p256P then .ok (x, y) else .error 1

/-- ECDSA verification of a digest under a validated key (R290): none where it verifies, else the detail code. -/
def ecdsaCheck (pub : Nat × Nat) (digest sig : Bytes) : Option Nat :=
  let r := beNat (sig.take 32)
  let s := beNat ((sig.drop 32).take 32)
  if r = 0 ∨ p256N ≤ r ∨ s = 0 ∨ p256N ≤ s then some 4
  else
    let w := invMod p256N s
    let q := p256Add (p256Base (beNat digest * w % p256N)) (p256Mul 256 (r * w % p256N) (some pub))
    match q with
    | some (x, _) => if x % p256N = r then none else some 5
    | none => some 5

/-- Validation of the key, then the signature. -/
def ecdsaVerify (pub digest sig : Bytes) : Option Nat :=
  match p256In pub with
  | .error d => some d
  | .ok p => ecdsaCheck p digest sig

/-! ## The hedged nonce (R291) -/

/-- The update of RFC 6979 3.2 d to g: K and V after absorbing `seed`. -/
def rfcUpdate (k v seed : Bytes) : Bytes × Bytes :=
  let k1 := hmac256 k (v ++ 0x00 :: seed)
  let v1 := hmac256 k1 v
  let k2 := hmac256 k1 (v1 ++ 0x01 :: seed)
  (k2, hmac256 k2 v1)

/-- One signature with nonce k: none where RFC 6979 draws again. -/
def ecdsaTry (d e k : Nat) : Option (Nat × Nat) :=
  if k = 0 ∨ p256N ≤ k then none
  else
    match p256Base k with
    | some (x, _) =>
      let r := x % p256N
      let s := invMod p256N k * ((e + r * d) % p256N) % p256N
      if r = 0 ∨ s = 0 then none else some (r, s)
    | none => none

/-- The draws of RFC 6979 3.2 h. -/
def ecdsaDraw (d e : Nat) : Nat → Bytes → Bytes → Bytes
  | 0, _, _ => zeros 64
  | n + 1, k, v =>
    let v1 := hmac256 k v
    match ecdsaTry d e (beNat v1) with
    | some (r, s) => beBytes 32 r ++ beBytes 32 s
    | none =>
      let k2 := hmac256 k (v1 ++ [0x00])
      ecdsaDraw d e n k2 (hmac256 k2 v1)

/-- r ‖ s over a digest of 32 bytes, with k′ appended after bits2octets(h1) (R291). -/
def ecdsaSign (d : Nat) (digest extra : Bytes) : Bytes :=
  let e := beNat digest % p256N
  let kv := rfcUpdate (zeros 32) (List.replicate 32 0x01) (beBytes 32 d ++ beBytes 32 e ++ extra)
  ecdsaDraw d e 64 kv.1 kv.2

/-! ## X25519 -/

def p25519 : Nat := 2 ^ 255 - 19

/-- One step of the ladder: bit `b`, then x2, z2, x3, z3 without the final swap. -/
def ladderStep (x1 : Nat) (b : Bool) (x2 z2 x3 z3 : Nat) : Nat × Nat × Nat × Nat :=
  let (x2, z2, x3, z3) := if b then (x3, z3, x2, z2) else (x2, z2, x3, z3)
  let p := p25519
  let a := (x2 + z2) % p
  let aa := a * a % p
  let s := subMod p x2 z2
  let bb := s * s % p
  let e := subMod p aa bb
  let da := subMod p x3 z3 * a % p
  let cb := (x3 + z3) * s % p
  let u := (da + cb) % p
  let w := subMod p da cb
  let r := (aa * bb % p, e * ((aa + 121665 * e) % p) % p, u * u % p, x1 * (w * w % p) % p)
  if b then (r.2.2.1, r.2.2.2, r.1, r.2.1) else r

/-- The ladder over the low `n` bits of k. -/
def ladder (k x1 : Nat) : Nat → Nat × Nat × Nat × Nat → Nat × Nat × Nat × Nat
  | 0, t => t
  | n + 1, t => ladder k x1 n (ladderStep x1 (k.testBit n) t.1 t.2.1 t.2.2.1 t.2.2.2)

/-- The scalar clamped as RFC 7748 requires. -/
def clamp25519 (b : Bytes) : Nat :=
  let n := leNat b % 2 ^ 255
  n - n % 8 - (if n.testBit 254 then 2 ^ 254 else 0) + 2 ^ 254

/-- X25519(k, u) with u reduced modulo p. -/
def x25519 (scalar : Bytes) (u : Nat) : Nat :=
  let t := ladder (clamp25519 scalar) u 255 (1, 0, u, 1)
  t.1 * invMod p25519 t.2.1 % p25519

/-- The u-coordinates that R289 rejects: 0, 1, p − 1 and the two of order 8. -/
def lowOrderU : List Nat :=
  [0, 1, p25519 - 1, 325606250916557431795983626356110631294008115727848805560023387167927233504,
   39382357235489614581723060781553021112529911719440698176882885853963445705823]

/-! ## Edwards25519 -/

def edD : Nat := 37095705934669439343138083508754565189542113879843219016388785533085940283555
def edL : Nat := 2 ^ 252 + 27742317777372353535851937790883648493

/-- A point in extended coordinates X, Y, Z, T. -/
structure EdPoint where
  x : Nat
  y : Nat
  z : Nat
  t : Nat
  deriving DecidableEq, Repr

def edZero : EdPoint := ⟨0, 1, 1, 0⟩

def edAdd (a b : EdPoint) : EdPoint :=
  let p := p25519
  let s := subMod p a.y a.x * subMod p b.y b.x % p
  let u := (a.y + a.x) * (b.y + b.x) % p
  let c := 2 * a.t * b.t * edD % p
  let d := 2 * a.z * b.z % p
  let e := subMod p u s
  let f := subMod p d c
  let g := (d + c) % p
  let h := (u + s) % p
  ⟨e * f % p, g * h % p, f * g % p, e * h % p⟩

def edMul : Nat → Nat → EdPoint → EdPoint
  | 0, _, _ => edZero
  | n + 1, k, q =>
    let r := edMul n (k / 2) (edAdd q q)
    if k % 2 = 1 then edAdd r q else r

def edEq (a b : EdPoint) : Bool :=
  a.x * b.z % p25519 == b.x * a.z % p25519 && a.y * b.z % p25519 == b.y * a.z % p25519

/-- Decoding by RFC 8032 section 5.1.3. -/
def edIn (b : Bytes) : Option EdPoint :=
  let p := p25519
  let n := leNat (b.take 32)
  let y := n % 2 ^ 255
  let sign := n / 2 ^ 255 % 2
  if p ≤ y then none
  else
    let u := subMod p (y * y) 1
    let v := (edD * y * y + 1) % p
    let x := u * powMod p 256 v 3 % p * powMod p 256 (u * powMod p 256 v 7 % p) ((p - 5) / 8) % p
    let x := if v * x * x % p = u then some x
      else if v * x * x % p = subMod p 0 u then some (x * powMod p 256 2 ((p - 1) / 4) % p) else none
    match x with
    | none => none
    | some x =>
      if x = 0 ∧ sign = 1 then none
      else
        let x := if x % 2 = sign then x else p - x
        some ⟨x, y, 1, x * y % p⟩

/-- The base point. -/
def edBase : EdPoint :=
  let y := 4 * invMod p25519 5 % p25519
  (edIn (leBytes 32 y)).getD edZero

/-- Ed25519 verification with the cofactored equation (R288 to R290): none where it verifies, else the detail code of R301. -/
def ed25519Check (pub sig msg : Bytes) : Option Nat :=
  match edIn pub, edIn (sig.take 32) with
  | some a, some r =>
    if edEq (edMul 4 8 a) edZero || edEq (edMul 4 8 r) edZero then some 3
    else
      let s := leNat ((sig.drop 32).take 32)
      if edL ≤ s then some 4
      else
        let k := leNat (sha512 (sig.take 32 ++ pub.take 32 ++ msg)) % edL
        if edEq (edMul 4 8 (edMul 256 s edBase)) (edMul 4 8 (edAdd r (edMul 256 k a))) then none else some 5
  | _, _ => some 2

end Sys2Proof
end

