-- ==== Sys2Proof/Machine/Entries.lean ====
section
/-! DEFINITION. The dictionary's entries (R42 to R54 and the entry tables of every chapter): the address of each by name, and one row for each
with its type, class, access string, gates and reset value. An address is index * 256 + subindex (R43). -/
namespace Sys2Proof

/-! ## Addresses by name -/
abbrev Ent.PLY_STATE : Nat := 0x530000  -- R41
abbrev Ent.PLY_BURSTS : Nat := 0x530100  -- R41
abbrev Ent.PLY_CRC_ERR : Nat := 0x530200  -- R41
abbrev Ent.PLY_RETRIES : Nat := 0x530300  -- R41
abbrev Ent.PLY_ABANDONED : Nat := 0x530400  -- R41
abbrev Ent.PLY_FLITS : Nat := 0x530500  -- R41
abbrev Ent.CAPT_HELD : Nat := 0x530600  -- R41
abbrev Ent.PLY_OVERRUN : Nat := 0x530700  -- R41
abbrev Ent.SB_CRC_ERR : Nat := 0x530800  -- R41
abbrev Ent.SB_LOST : Nat := 0x530900  -- R41
abbrev Ent.SB_CRC_ERR_FLY : Nat := 0x530A01  -- R41
abbrev Ent.SB_CRC_ERR_KEEP : Nat := 0x530A02  -- R41
abbrev Ent.PART_ID : Nat := 0x100000  -- R73
abbrev Ent.SILICON_REV : Nat := 0x100100  -- R73
abbrev Ent.ORIGIN_UID : Nat := 0x100200  -- R73
abbrev Ent.SERIAL : Nat := 0x100300  -- R73
abbrev Ent.ORIGIN_SIG : Nat := 0x100400  -- R73
abbrev Ent.ATTEST_PUB : Nat := 0x100500  -- R73
abbrev Ent.OEM_ID : Nat := 0x100600  -- R73
abbrev Ent.PRODUCT_ID : Nat := 0x100700  -- R73
abbrev Ent.NODE_NAME : Nat := 0x100800  -- R73
abbrev Ent.DICT_VERSION : Nat := 0x100900  -- R73
abbrev Ent.PROBE_TARGET : Nat := 0x100A01  -- R73
abbrev Ent.PROBE_DESC : Nat := 0x100A02  -- R73
abbrev Ent.LAST_STATUS : Nat := 0x100B00  -- R73
abbrev Ent.STAGED : Nat := 0x100C00  -- R73
abbrev Ent.COMMIT : Nat := 0x100C01  -- R73
abbrev Ent.RESULT : Nat := 0x100C02  -- R73
abbrev Ent.NOTICE_MASK : Nat := 0x100D00  -- R73
abbrev Ent.NOTICE_PENDING : Nat := 0x100E00  -- R73
abbrev Ent.CLAIM (group : Nat) : Nat := 0x100F00 + group  -- R73
abbrev Ent.BUSY_COUNT (ss : Nat) : Nat := 0x101000 + ss  -- R73
abbrev Ent.HELD_COUNT (ss : Nat) : Nat := 0x101100 + ss  -- R73
abbrev Ent.DENIED_COUNT (ss : Nat) : Nat := 0x101200 + ss  -- R73
abbrev Ent.LAST_DENIED : Nat := 0x101300  -- R73
abbrev Ent.MODE : Nat := 0x101800  -- R103
abbrev Ent.MODE_REQUEST : Nat := 0x101900  -- R103
abbrev Ent.BASE_MODE : Nat := 0x101A00  -- R103
abbrev Ent.MODE_SINCE : Nat := 0x101B00  -- R103
abbrev Ent.MODE_CHANGES : Nat := 0x101C00  -- R103
abbrev Ent.FAULT_CAUSE : Nat := 0x101D00  -- R103
abbrev Ent.FAULT_REQUEST : Nat := 0x101D01  -- R103
abbrev Ent.COMMISSION_LIMIT : Nat := 0x101E00  -- R103
abbrev Ent.COMMISSIONED_AT : Nat := 0x101F00  -- R103
abbrev Ent.SERVICE_SECONDS : Nat := 0x102000  -- R103
abbrev Ent.EOL_DAYS : Nat := 0x102100  -- R103
abbrev Ent.EOL_LEFT : Nat := 0x102200  -- R103
abbrev Ent.LC_STATE : Nat := 0x102300  -- R103
abbrev Ent.LC_VALID : Nat := 0x102400  -- R103
abbrev Ent.LC_REQUEST : Nat := 0x102500  -- R103
abbrev Ent.DEBUG_STATE : Nat := 0x102600  -- R103
abbrev Ent.DBG_NEW : Nat := 0x102701  -- R103
abbrev Ent.DBG_CHALLENGE : Nat := 0x102702  -- R103
abbrev Ent.DBG_KEY : Nat := 0x102703  -- R103
abbrev Ent.DBG_SIG : Nat := 0x102704  -- R103
abbrev Ent.DBG_FAILS : Nat := 0x102705  -- R103
abbrev Ent.OPT_REQUEST : Nat := 0x200000  -- R129
abbrev Ent.OPT_IR_WIDTH : Nat := 0x200101  -- R129
abbrev Ent.OPT_IR_CURRENT : Nat := 0x200102  -- R129
abbrev Ent.OPT_BL_WIDTH : Nat := 0x200201  -- R129
abbrev Ent.OPT_BL_CURRENT : Nat := 0x200202  -- R129
abbrev Ent.OPT_PULSE_OFFSET : Nat := 0x200300  -- R129
abbrev Ent.OPT_SPACING : Nat := 0x200400  -- R129
abbrev Ent.OPT_TAG : Nat := 0x200500  -- R129
abbrev Ent.OPT_TIME : Nat := 0x200600  -- R129
abbrev Ent.OPT_S_IR : Nat := 0x200701  -- R129
abbrev Ent.OPT_S_BL : Nat := 0x200702  -- R129
abbrev Ent.OPT_REF_IR : Nat := 0x200801  -- R129
abbrev Ent.OPT_REF_BL : Nat := 0x200802  -- R129
abbrev Ent.OPT_DARK : Nat := 0x200900  -- R129
abbrev Ent.OPT_Y_IR : Nat := 0x200A01  -- R129
abbrev Ent.OPT_Y_BL : Nat := 0x200A02  -- R129
abbrev Ent.OPT_RATIO : Nat := 0x200B00  -- R129
abbrev Ent.OPT_FLAGS : Nat := 0x200C00  -- R129
abbrev Ent.OPT_COUNT : Nat := 0x200D00  -- R129
abbrev Ent.OPT_SAT_COUNT : Nat := 0x200E00  -- R129
abbrev Ent.OPT_BS_IR : Nat := 0x200F01  -- R129
abbrev Ent.OPT_BS_BL : Nat := 0x200F02  -- R129
abbrev Ent.OPT_BS_RATIO : Nat := 0x200F03  -- R129
abbrev Ent.OPT_CAPT_TAG : Nat := 0x201000  -- R129
abbrev Ent.HEAT_CODE : Nat := 0x210000  -- R130
abbrev Ent.HEAT_TEMP : Nat := 0x210100  -- R130
abbrev Ent.HEAT_ROR : Nat := 0x210200  -- R130
abbrev Ent.HEAT_TIME : Nat := 0x210300  -- R130
abbrev Ent.HEAT_FLAGS : Nat := 0x210400  -- R130
abbrev Ent.HEAT_MIN : Nat := 0x210501  -- R130
abbrev Ent.HEAT_MAX : Nat := 0x210502  -- R130
abbrev Ent.HEAT_COUNT : Nat := 0x210600  -- R130
abbrev Ent.CO_ENABLE : Nat := 0x220000  -- R130
abbrev Ent.CO_CODE : Nat := 0x220100  -- R130
abbrev Ent.CO_CURRENT : Nat := 0x220200  -- R130
abbrev Ent.CO_PPM : Nat := 0x220300  -- R130
abbrev Ent.CO_TIME : Nat := 0x220400  -- R130
abbrev Ent.CO_FLAGS : Nat := 0x220500  -- R130
abbrev Ent.CO_PULSE : Nat := 0x220601  -- R130
abbrev Ent.CO_PULSE_DI : Nat := 0x220602  -- R130
abbrev Ent.CO_PULSE_PASS : Nat := 0x220603  -- R130
abbrev Ent.CO_PULSE_TIME : Nat := 0x220604  -- R130
abbrev Ent.AIN_PERIOD : Nat := 0x220700  -- R130
abbrev Ent.AIN_PGA : Nat := 0x220800  -- R130
abbrev Ent.AIN_EXC_MODE : Nat := 0x220901  -- R130
abbrev Ent.AIN_EXC_VALUE : Nat := 0x220902  -- R130
abbrev Ent.AIN_SETTLE : Nat := 0x220903  -- R130
abbrev Ent.AIN_CODE : Nat := 0x220A00  -- R130
abbrev Ent.AIN_MV : Nat := 0x220B00  -- R130
abbrev Ent.AIN_TIME : Nat := 0x220C00  -- R130
abbrev Ent.AIN_FLAGS : Nat := 0x220D00  -- R130
abbrev Ent.VDD_NOW : Nat := 0x230000  -- R130
abbrev Ent.VDD_LOADED : Nat := 0x230100  -- R130
abbrev Ent.VDD_LOW_LEVEL : Nat := 0x230200  -- R130
abbrev Ent.SUPPLY_TIME : Nat := 0x230300  -- R130
abbrev Ent.DIE_TEMP (ss : Nat) : Nat := 0x230400 + ss  -- R130
abbrev Ent.SUPPLY_LOW_COUNT : Nat := 0x230500  -- R130
abbrev Ent.VDD_MIN : Nat := 0x230600  -- R130
abbrev Ent.CAL_FORMAT : Nat := 0x600000  -- R131
abbrev Ent.IR_BASE (ss : Nat) : Nat := 0x600100 + ss  -- R131
abbrev Ent.BL_BASE (ss : Nat) : Nat := 0x600200 + ss  -- R131
abbrev Ent.IR_SENS (ss : Nat) : Nat := 0x600300 + ss  -- R131
abbrev Ent.BL_SENS (ss : Nat) : Nat := 0x600400 + ss  -- R131
abbrev Ent.REF_NOM_IR : Nat := 0x600501  -- R131
abbrev Ent.REF_NOM_BL : Nat := 0x600502  -- R131
abbrev Ent.WIN_START : Nat := 0x600601  -- R131
abbrev Ent.WIN_LEN : Nat := 0x600602  -- R131
abbrev Ent.DARK_NOM : Nat := 0x600701  -- R131
abbrev Ent.DARK_TOL : Nat := 0x600702  -- R131
abbrev Ent.NTC_NOM : Nat := 0x600801  -- R131
abbrev Ent.NTC_BETA : Nat := 0x600802  -- R131
abbrev Ent.NTC_REF : Nat := 0x600803  -- R131
abbrev Ent.HEAT_OFFSET (ss : Nat) : Nat := 0x600900 + ss  -- R131
abbrev Ent.CO_ZERO (ss : Nat) : Nat := 0x600A00 + ss  -- R131
abbrev Ent.CO_SENS (ss : Nat) : Nat := 0x600B00 + ss  -- R131
abbrev Ent.CO_FITTED : Nat := 0x600C01  -- R131
abbrev Ent.CO_BIAS : Nat := 0x600C02  -- R131
abbrev Ent.CO_PULSE_MV : Nat := 0x600C03  -- R131
abbrev Ent.CO_PULSE_LO : Nat := 0x600C04  -- R131
abbrev Ent.CO_PULSE_HI : Nat := 0x600C05  -- R131
abbrev Ent.AIN_OFFSET (ss : Nat) : Nat := 0x600D00 + ss  -- R131
abbrev Ent.AIN_GAIN (ss : Nat) : Nat := 0x600E00 + ss  -- R131
abbrev Ent.VDD_OFFSET (ss : Nat) : Nat := 0x600F00 + ss  -- R131
abbrev Ent.BS_SMOKE_IR : Nat := 0x601001  -- R131
abbrev Ent.BS_SMOKE_BL : Nat := 0x601002  -- R131
abbrev Ent.BS_RATIO_LO : Nat := 0x601101  -- R131
abbrev Ent.BS_RATIO_HI : Nat := 0x601102  -- R131
abbrev Ent.BS_HEAT_CODE : Nat := 0x601200  -- R131
abbrev Ent.BS_CO_FLOOR : Nat := 0x601301  -- R131
abbrev Ent.BS_CO_DOSE : Nat := 0x601302  -- R131
abbrev Ent.BS_NOHUSH_SMOKE : Nat := 0x601401  -- R131
abbrev Ent.BS_NOHUSH_CO : Nat := 0x601402  -- R131
abbrev Ent.BS_SHADOW_CRC : Nat := 0x601500  -- R131
abbrev Ent.TEMP_OFFSET (ss : Nat) : Nat := 0x601600 + ss  -- R131
abbrev Ent.CAL_DATE : Nat := 0x601700  -- R131
abbrev Ent.IR_BASE_D : Nat := 0x610001  -- R132
abbrev Ent.BL_BASE_D : Nat := 0x610002  -- R132
abbrev Ent.IR_SENS_D : Nat := 0x610003  -- R132
abbrev Ent.BL_SENS_D : Nat := 0x610004  -- R132
abbrev Ent.HEAT_OFFSET_D : Nat := 0x610101  -- R132
abbrev Ent.VDD_OFFSET_D : Nat := 0x610102  -- R132
abbrev Ent.CO_ZERO_D : Nat := 0x610201  -- R132
abbrev Ent.CO_SENS_D : Nat := 0x610202  -- R132
abbrev Ent.AIN_OFFSET_D : Nat := 0x610203  -- R132
abbrev Ent.AIN_GAIN_D : Nat := 0x610204  -- R132
abbrev Ent.ROW_WRITES (row : Nat) : Nat := 0x610010 + 256 * row  -- R132
abbrev Ent.ROW_IMAGE (row : Nat) : Nat := 0x610020 + 256 * row  -- R132
abbrev Ent.CAL_CLAMPED : Nat := 0x610300  -- R132
abbrev Ent.CAL_ROW_BAD : Nat := 0x610400  -- R132
abbrev Ent.BS_ALARM : Nat := 0x240000  -- R157
abbrev Ent.ALARM_FW : Nat := 0x240100  -- R157
abbrev Ent.ALARM_RELAYED : Nat := 0x240200  -- R157
abbrev Ent.ALARM_PATTERN : Nat := 0x240300  -- R157
abbrev Ent.BS_SMOKE_COUNT : Nat := 0x240400  -- R157
abbrev Ent.BS_HEAT_COUNT : Nat := 0x240500  -- R157
abbrev Ent.BS_CO_DOSE_NOW : Nat := 0x240600  -- R157
abbrev Ent.ALARM_COUNT : Nat := 0x240700  -- R157
abbrev Ent.ECHO_COUNT : Nat := 0x240800  -- R157
abbrev Ent.HUSH_COUNT : Nat := 0x240900  -- R157
abbrev Ent.HUSH_REFUSED : Nat := 0x240A00  -- R157
abbrev Ent.HUSH_LEFT : Nat := 0x240B00  -- R157
abbrev Ent.ALARM_ZONE : Nat := 0x240C00  -- R157
abbrev Ent.ECHO_ZONE_MASK : Nat := 0x240D00  -- R157
abbrev Ent.ECHO_SOURCES : Nat := 0x240E00  -- R157
abbrev Ent.ECHO_TIMEOUT : Nat := 0x240F00  -- R157
abbrev Ent.IC_LINE_MODE : Nat := 0x241000  -- R157
abbrev Ent.FW_DECIDE (ss : Nat) : Nat := 0x241100 + ss  -- R157
abbrev Ent.FW_CO_HOLD : Nat := 0x241109  -- R157
abbrev Ent.LAST_ALARM_TIME : Nat := 0x241200  -- R157
abbrev Ent.LAST_ALARM_KIND : Nat := 0x241300  -- R157
abbrev Ent.BS_STATUS : Nat := 0x241400  -- R157
abbrev Ent.BS_TRIPS (ss : Nat) : Nat := 0x241500 + ss  -- R157
abbrev Ent.HORN_CMD : Nat := 0x250000  -- R158
abbrev Ent.HORN_QUEUE : Nat := 0x250100  -- R158
abbrev Ent.HORN_STATE : Nat := 0x250200  -- R158
abbrev Ent.HORN_FREQ : Nat := 0x250300  -- R158
abbrev Ent.HORN_VBOOST : Nat := 0x250400  -- R158
abbrev Ent.HORN_VBOOST_MEAS : Nat := 0x250500  -- R158
abbrev Ent.HORN_ON_TIME : Nat := 0x250600  -- R158
abbrev Ent.HORN_FAULTS : Nat := 0x250700  -- R158
abbrev Ent.IND_CURRENT (ss : Nat) : Nat := 0x250800 + ss  -- R158
abbrev Ent.IND_HEARTBEAT : Nat := 0x250900  -- R158
abbrev Ent.PAD_STATE : Nat := 0x250A00  -- R158
abbrev Ent.CHIRP_COUNT : Nat := 0x250B00  -- R158
abbrev Ent.HORN_CMD_DROPPED : Nat := 0x250C00  -- R158
abbrev Ent.BEACONS_SENT : Nat := 0x250D00  -- R158
abbrev Ent.ST_NEXT_DUE : Nat := 0x260000  -- R159
abbrev Ent.ST_SPREAD : Nat := 0x260100  -- R159
abbrev Ent.ST_STATE : Nat := 0x260200  -- R159
abbrev Ent.ST_LAST_RESULT : Nat := 0x260300  -- R159
abbrev Ent.ST_LAST_TIME : Nat := 0x260400  -- R159
abbrev Ent.ST_LAST_SEQ : Nat := 0x260500  -- R159
abbrev Ent.ST_RUNS : Nat := 0x260600  -- R159
abbrev Ent.ST_FAILS : Nat := 0x260700  -- R159
abbrev Ent.ST_ABORTS : Nat := 0x260800  -- R159
abbrev Ent.ST_UNSIGNED : Nat := 0x260900  -- R159
abbrev Ent.ST_HORN_Z (ss : Nat) : Nat := 0x260A00 + ss  -- R159
abbrev Ent.ST_BATT_LEVEL : Nat := 0x260B00  -- R159
abbrev Ent.ST_REF_TOL : Nat := 0x260C00  -- R159
abbrev Ent.ST_BATT_LOAD : Nat := 0x260D00  -- R159
abbrev Ent.REST (ss : Nat) : Nat := 0x110000 + ss  -- R178
abbrev Ent.DOMAIN_STATE (ss : Nat) : Nat := 0x110100 + ss  -- R178
abbrev Ent.REFUSALS (ss : Nat) : Nat := 0x110200 + ss  -- R178
abbrev Ent.LAST_REFUSER (ss : Nat) : Nat := 0x110300 + ss  -- R178
abbrev Ent.ENTRIES (ss : Nat) : Nat := 0x110400 + ss  -- R178
abbrev Ent.WAKES (ss : Nat) : Nat := 0x110500 + ss  -- R178
abbrev Ent.LAST_WAKE (ss : Nat) : Nat := 0x110600 + ss  -- R178
abbrev Ent.LAST_REFUSAL : Nat := 0x110700  -- R178
abbrev Ent.WAKE_LEVELS : Nat := 0x110800  -- R178
abbrev Ent.LATE_WAKES : Nat := 0x110900  -- R178
abbrev Ent.RTC_TIME : Nat := 0x120000  -- R196
abbrev Ent.TIME_SET : Nat := 0x120100  -- R196
abbrev Ent.RTC_SUBSEC : Nat := 0x120200  -- R196
abbrev Ent.TIME_FLAGS : Nat := 0x120300  -- R196
abbrev Ent.TIME_SETS : Nat := 0x120400  -- R196
abbrev Ent.LAST_SET_FROM : Nat := 0x120501  -- R196
abbrev Ent.LAST_SET_TO : Nat := 0x120502  -- R196
abbrev Ent.LAST_SET_BY : Nat := 0x120503  -- R196
abbrev Ent.RTC_TRIM : Nat := 0x120600  -- R196
abbrev Ent.CLK_STATUS : Nat := 0x120700  -- R196
abbrev Ent.AON_LOSSES : Nat := 0x120800  -- R196
abbrev Ent.FLL_UNLOCKS : Nat := 0x120900  -- R196
abbrev Ent.XO_FAILS : Nat := 0x120A00  -- R196
abbrev Ent.CLK_FLY_MEAS : Nat := 0x120B00  -- R196
abbrev Ent.Q_LEVEL (ss : Nat) : Nat := 0x120C00 + ss  -- R196
abbrev Ent.Q_PEAK (ss : Nat) : Nat := 0x120D00 + ss  -- R196
abbrev Ent.Q_FULL (ss : Nat) : Nat := 0x120E00 + ss  -- R196
abbrev Ent.TIME_NUDGES : Nat := 0x120F00  -- R196
abbrev Ent.ARB_MODE (ss : Nat) : Nat := 0x130000 + ss  -- R209
abbrev Ent.SLOT_TABLE (ss : Nat) : Nat := 0x130100 + ss  -- R209
abbrev Ent.BG_RANK (ss : Nat) : Nat := 0x130200 + ss  -- R209
abbrev Ent.CREDIT_WINDOW (ss : Nat) : Nat := 0x130300 + ss  -- R209
abbrev Ent.CREDIT_REFILL (ss : Nat) : Nat := 0x130400 + ss  -- R209
abbrev Ent.CREDIT_NOW (ss : Nat) : Nat := 0x130500 + ss  -- R209
abbrev Ent.SLOT_NOW (ss : Nat) : Nat := 0x130600 + ss  -- R209
abbrev Ent.OWNER_NOW (ss : Nat) : Nat := 0x130700 + ss  -- R209
abbrev Ent.GRANTS (ss : Nat) : Nat := 0x130800 + ss  -- R209
abbrev Ent.EMPTY_GRANTS (ss : Nat) : Nat := 0x130900 + ss  -- R209
abbrev Ent.DELAY_CYCLES (ss : Nat) : Nat := 0x130A00 + ss  -- R209
abbrev Ent.DELAY_MAX (ss : Nat) : Nat := 0x130B00 + ss  -- R209
abbrev Ent.HELD_CYCLES (ss : Nat) : Nat := 0x130C00 + ss  -- R209
abbrev Ent.FWD_BITES (ss : Nat) : Nat := 0x130D00 + ss  -- R209
abbrev Ent.FWD_TOTAL : Nat := 0x130E00  -- R209
abbrev Ent.FWD_LAST : Nat := 0x130F00  -- R209
abbrev Ent.ARB_REACH (ss : Nat) : Nat := 0x131000 + ss  -- R209
abbrev Ent.ARB_PENDING : Nat := 0x131100  -- R209
abbrev Ent.CORE_STATE : Nat := 0x150000  -- R236
abbrev Ent.RESET_CAUSE : Nat := 0x150100  -- R236
abbrev Ent.SPINDLE_RESETS (ss : Nat) : Nat := 0x150200 + ss  -- R236
abbrev Ent.LOCKUP_CAUSE : Nat := 0x150301  -- R236
abbrev Ent.LOCKUP_EPC : Nat := 0x150302  -- R236
abbrev Ent.LOCKUP_TIME : Nat := 0x150303  -- R236
abbrev Ent.LOCKUPS : Nat := 0x150400  -- R236
abbrev Ent.WDT_TIMEOUT : Nat := 0x150500  -- R236
abbrev Ent.WDT_KICK : Nat := 0x150600  -- R236
abbrev Ent.WDT_LEFT : Nat := 0x150700  -- R236
abbrev Ent.WDT_BITES : Nat := 0x150800  -- R236
abbrev Ent.CODE_LOCKED : Nat := 0x150901  -- R236
abbrev Ent.CODE_LOCK_BY : Nat := 0x150902  -- R236
abbrev Ent.TRAPS (ss : Nat) : Nat := 0x150A00 + ss  -- R236
abbrev Ent.INTERRUPTS (ss : Nat) : Nat := 0x150B00 + ss  -- R236
abbrev Ent.LAST_TRAP : Nat := 0x150C00  -- R236
abbrev Ent.MPU_VIEW (ss : Nat) : Nat := 0x150D00 + ss  -- R236
abbrev Ent.MPU_FAULTS : Nat := 0x150E00  -- R236
abbrev Ent.SMC_INVALIDATES : Nat := 0x150F00  -- R236
abbrev Ent.DEBUG_HALTS : Nat := 0x151000  -- R236
abbrev Ent.ISA : Nat := 0x151100  -- R236
abbrev Ent.LOADER_STATE : Nat := 0x140000  -- R260
abbrev Ent.BOOT_SLOT : Nat := 0x140100  -- R260
abbrev Ent.BOOT_SEQ : Nat := 0x140201  -- R260
abbrev Ent.BOOT_RBV : Nat := 0x140202  -- R260
abbrev Ent.BOOT_KEY : Nat := 0x140203  -- R260
abbrev Ent.BOOT_MODE : Nat := 0x140204  -- R260
abbrev Ent.BOOT_DIV : Nat := 0x140205  -- R260
abbrev Ent.BOOT_FAILS : Nat := 0x140300  -- R260
abbrev Ent.BOOT_ATTEMPTS : Nat := 0x140400  -- R260
abbrev Ent.LAST_FAIL : Nat := 0x140500  -- R260
abbrev Ent.ROLLBACK_COUNTER : Nat := 0x140600  -- R260
abbrev Ent.ROLLBACK_COMMIT : Nat := 0x140700  -- R260
abbrev Ent.OEM_KEY_HASH0 : Nat := 0x140801  -- R260
abbrev Ent.OEM_KEY_HASH1 : Nat := 0x140802  -- R260
abbrev Ent.BOOT_FLAGS : Nat := 0x140900  -- R260
abbrev Ent.ROT_NEW_HASH : Nat := 0x140A01  -- R260
abbrev Ent.ROT_OLD_PUB : Nat := 0x140A02  -- R260
abbrev Ent.ROT_SIG : Nat := 0x140A03  -- R260
abbrev Ent.KEY_REVOKE0 : Nat := 0x140B00  -- R260
abbrev Ent.FL_SIZE : Nat := 0x140C00  -- R260
abbrev Ent.FL_ADDR : Nat := 0x140D00  -- R260
abbrev Ent.FL_DATA : Nat := 0x140E00  -- R260
abbrev Ent.FL_OP : Nat := 0x140F00  -- R260
abbrev Ent.FL_STATUS : Nat := 0x141000  -- R260
abbrev Ent.SLOT_HEADER (ss : Nat) : Nat := 0x141100 + ss  -- R260
abbrev Ent.DIR_STATE : Nat := 0x141200  -- R260
abbrev Ent.KDF_LABEL : Nat := 0x300001  -- R281
abbrev Ent.KDF_KEYLEN : Nat := 0x300002  -- R281
abbrev Ent.KDF_DERIVE : Nat := 0x300003  -- R281
abbrev Ent.KEY_STATE : Nat := 0x300004  -- R281
abbrev Ent.KEY_CHECK : Nat := 0x300005  -- R281
abbrev Ent.EXP_USER : Nat := 0x300101  -- R281
abbrev Ent.EXP_LC : Nat := 0x300102  -- R281
abbrev Ent.EXP_LABEL : Nat := 0x300103  -- R281
abbrev Ent.EXP_KEYLEN : Nat := 0x300104  -- R281
abbrev Ent.EXP_KEY : Nat := 0x300105  -- R281
abbrev Ent.EXP_COUNT : Nat := 0x300106  -- R281
abbrev Ent.AES_MODE : Nat := 0x300200  -- R281
abbrev Ent.AES_IV : Nat := 0x300300  -- R281
abbrev Ent.AAD_LEN : Nat := 0x300401  -- R281
abbrev Ent.MSG_LEN : Nat := 0x300402  -- R281
abbrev Ent.AES_START : Nat := 0x300500  -- R281
abbrev Ent.AES_IN : Nat := 0x300600  -- R281
abbrev Ent.AES_OUT : Nat := 0x300700  -- R281
abbrev Ent.AES_TAG : Nat := 0x300800  -- R281
abbrev Ent.AES_STATUS : Nat := 0x300900  -- R281
abbrev Ent.AES_CLEAR : Nat := 0x300A00  -- R281
abbrev Ent.AES_MEM_SRC : Nat := 0x300B01  -- R281
abbrev Ent.AES_MEM_DST : Nat := 0x300B02  -- R281
abbrev Ent.AES_MEM_LEN : Nat := 0x300B03  -- R281
abbrev Ent.AES_MEM_GO : Nat := 0x300B04  -- R281
abbrev Ent.SHA_INIT : Nat := 0x301000  -- R281
abbrev Ent.SHA_DATA : Nat := 0x301100  -- R281
abbrev Ent.SHA_LAST_LEN : Nat := 0x301201  -- R281
abbrev Ent.SHA_LAST : Nat := 0x301202  -- R281
abbrev Ent.SHA_DIGEST : Nat := 0x301300  -- R281
abbrev Ent.SHA_MEM_ADDR : Nat := 0x301401  -- R281
abbrev Ent.SHA_MEM_LEN : Nat := 0x301402  -- R281
abbrev Ent.SHA_MEM_GO : Nat := 0x301403  -- R281
abbrev Ent.SHA_STATUS : Nat := 0x301500  -- R281
abbrev Ent.ZEROISE_COUNT : Nat := 0x301800  -- R281
abbrev Ent.PAGE_LOSSES (ss : Nat) : Nat := 0x301900 + ss  -- R281
abbrev Ent.BN_OP : Nat := 0x310000  -- R302
abbrev Ent.BN_KEY_SRC : Nat := 0x310100  -- R302
abbrev Ent.BN_LABEL : Nat := 0x310200  -- R302
abbrev Ent.BN_HASH : Nat := 0x310300  -- R302
abbrev Ent.BN_PEER : Nat := 0x310400  -- R302
abbrev Ent.BN_SIG : Nat := 0x310500  -- R302
abbrev Ent.BN_GO : Nat := 0x310600  -- R302
abbrev Ent.BN_RESULT : Nat := 0x310700  -- R302
abbrev Ent.BN_STATUS : Nat := 0x310800  -- R302
abbrev Ent.BN_MSG_LEN : Nat := 0x310901  -- R302
abbrev Ent.BN_MSG : Nat := 0x310902  -- R302
abbrev Ent.BN_MEM_ADDR : Nat := 0x310A01  -- R302
abbrev Ent.BN_MEM_LEN : Nat := 0x310A02  -- R302
abbrev Ent.BN_MEM_GO : Nat := 0x310A03  -- R302
abbrev Ent.BN_CLEAR : Nat := 0x310B00  -- R302
abbrev Ent.BN_JOBS : Nat := 0x310C01  -- R302
abbrev Ent.BN_VAL_FAILS : Nat := 0x310C02  -- R302
abbrev Ent.BN_SIG_FAILS : Nat := 0x310C03  -- R302
abbrev Ent.BN_UNHEDGED : Nat := 0x310C04  -- R302
abbrev Ent.BN_STALE : Nat := 0x310C05  -- R302
abbrev Ent.ATTEST_SIGNS : Nat := 0x310D00  -- R302
abbrev Ent.RNG_DATA : Nat := 0x320000  -- R303
abbrev Ent.RNG_BLOCK : Nat := 0x320100  -- R303
abbrev Ent.RNG_GOT : Nat := 0x320201  -- R303
abbrev Ent.RNG_ERR : Nat := 0x320202  -- R303
abbrev Ent.RNG_LEVEL : Nat := 0x320300  -- R303
abbrev Ent.RNG_IRQ_LEVEL : Nat := 0x320400  -- R303
abbrev Ent.RNG_BIAS : Nat := 0x320501  -- R303
abbrev Ent.RNG_CORR : Nat := 0x320502  -- R303
abbrev Ent.RNG_BIAS_LIM : Nat := 0x320601  -- R303
abbrev Ent.RNG_CORR_LIM : Nat := 0x320602  -- R303
abbrev Ent.RNG_WINDOWS : Nat := 0x320701  -- R303
abbrev Ent.RNG_FAILS : Nat := 0x320702  -- R303
abbrev Ent.RNG_RUN_FAILS : Nat := 0x320703  -- R303
abbrev Ent.RNG_EMPTY_READS : Nat := 0x320800  -- R303
abbrev Ent.RNG_FLAGS : Nat := 0x320900  -- R303
abbrev Ent.TAMPER_FLAGS : Nat := 0x400000  -- R324
abbrev Ent.TAMPER_COUNT (ss : Nat) : Nat := 0x400100 + ss  -- R324
abbrev Ent.TAMPER_UNLOGGED : Nat := 0x400200  -- R324
abbrev Ent.LAST_TAMPER : Nat := 0x400300  -- R324
abbrev Ent.LAST_TAMPER_TIME : Nat := 0x400400  -- R324
abbrev Ent.SWITCH_STATE : Nat := 0x400500  -- R324
abbrev Ent.LOG_NEXT : Nat := 0x410000  -- R325
abbrev Ent.LOG_STATE : Nat := 0x410100  -- R325
abbrev Ent.CHAIN_HEAD : Nat := 0x410200  -- R325
abbrev Ent.LAST_CKPT : Nat := 0x410300  -- R325
abbrev Ent.CKPT_DUE : Nat := 0x410400  -- R325
abbrev Ent.CKPT_COUNT : Nat := 0x410501  -- R325
abbrev Ent.CKPT_MISSED : Nat := 0x410502  -- R325
abbrev Ent.LOG_SUMMARY (ss : Nat) : Nat := 0x410600 + ss  -- R325
abbrev Ent.LOG_REJECTED : Nat := 0x410700  -- R325
abbrev Ent.LOG_CRC_ERR : Nat := 0x410800  -- R325
abbrev Ent.MONO (ss : Nat) : Nat := 0x411000 + ss  -- R325
abbrev Ent.MONO_INC (ss : Nat) : Nat := 0x411100 + ss  -- R325
abbrev Ent.MONO_LAST : Nat := 0x411200  -- R325
abbrev Ent.MONO_FLAGS : Nat := 0x411300  -- R325
abbrev Ent.LOG_SLOT (slot : Nat) : Nat := 0x418000 + slot  -- R325
abbrev Ent.CAN_ENABLE : Nat := 0x500000  -- R349
abbrev Ent.NODE_ID : Nat := 0x500100  -- R349
abbrev Ent.NOM_RATE : Nat := 0x500201  -- R349
abbrev Ent.DATA_RATE : Nat := 0x500202  -- R349
abbrev Ent.LISTEN_ONLY : Nat := 0x500300  -- R349
abbrev Ent.CAN_STATE : Nat := 0x500400  -- R349
abbrev Ent.TEC : Nat := 0x500501  -- R349
abbrev Ent.REC : Nat := 0x500502  -- R349
abbrev Ent.BUSOFF_LIMIT : Nat := 0x500600  -- R349
abbrev Ent.BUSOFF_COUNT : Nat := 0x500700  -- R349
abbrev Ent.CAN_RESTART : Nat := 0x500800  -- R349
abbrev Ent.HB_PERIOD : Nat := 0x500900  -- R349
abbrev Ent.TIME_PERIOD : Nat := 0x500A00  -- R349
abbrev Ent.TIME_ACCEPT : Nat := 0x500B01  -- R349
abbrev Ent.TIME_SOURCE : Nat := 0x500B02  -- R349
abbrev Ent.NOTICE_REPEAT : Nat := 0x500C00  -- R349
abbrev Ent.DUP_COUNT : Nat := 0x500D00  -- R349
abbrev Ent.DUP_LAST : Nat := 0x500E00  -- R349
abbrev Ent.DUP_LAST_TIME : Nat := 0x500F00  -- R349
abbrev Ent.NODE_CONFLICT : Nat := 0x501000  -- R349
abbrev Ent.BACKOFF_LEFT : Nat := 0x501100  -- R349
abbrev Ent.TX_FRAMES : Nat := 0x501201  -- R349
abbrev Ent.RX_FRAMES : Nat := 0x501202  -- R349
abbrev Ent.RX_IGNORED : Nat := 0x501203  -- R349
abbrev Ent.TX_DROPPED : Nat := 0x501204  -- R349
abbrev Ent.RX_OVERRUN : Nat := 0x501205  -- R349
abbrev Ent.BEACON_LOST : Nat := 0x501206  -- R349
abbrev Ent.ERR_COUNT (ss : Nat) : Nat := 0x501300 + ss  -- R349
abbrev Ent.LAST_ERROR : Nat := 0x501400  -- R349
abbrev Ent.TDC_MEAS : Nat := 0x501500  -- R349
abbrev Ent.BEACONS_RX : Nat := 0x501600  -- R349
abbrev Ent.LAST_BEACON : Nat := 0x501700  -- R349
abbrev Ent.RESP_REPEATS : Nat := 0x501800  -- R349
abbrev Ent.SEG_TIMEOUTS : Nat := 0x501900  -- R349
abbrev Ent.CAN_CAPS : Nat := 0x501A00  -- R349
abbrev Ent.HP_ENABLE (ss : Nat) : Nat := 0x510000 + ss  -- R364
abbrev Ent.HP_BAUD : Nat := 0x510100  -- R364
abbrev Ent.HP_IRQ_RESP : Nat := 0x510200  -- R364
abbrev Ent.HP_STATE (ss : Nat) : Nat := 0x510300 + ss  -- R364
abbrev Ent.HP_RESET (ss : Nat) : Nat := 0x510400 + ss  -- R364
abbrev Ent.HP_RX_FRAMES (ss : Nat) : Nat := 0x510500 + ss  -- R364
abbrev Ent.HP_TX_FRAMES (ss : Nat) : Nat := 0x510600 + ss  -- R364
abbrev Ent.HP_CRC_ERR (ss : Nat) : Nat := 0x510700 + ss  -- R364
abbrev Ent.HP_FRAME_ERR (ss : Nat) : Nat := 0x510800 + ss  -- R364
abbrev Ent.HP_RX_OVERRUN (ss : Nat) : Nat := 0x510900 + ss  -- R364
abbrev Ent.HP_REPEAT_SERVED (ss : Nat) : Nat := 0x510A00 + ss  -- R364
abbrev Ent.HP_REPEAT_DROP (ss : Nat) : Nat := 0x510B00 + ss  -- R364
abbrev Ent.HP_ANS_DROPPED (ss : Nat) : Nat := 0x510C00 + ss  -- R364
abbrev Ent.HP_RESP_ABORT (ss : Nat) : Nat := 0x510D00 + ss  -- R364
abbrev Ent.HP_LAST_ERR (ss : Nat) : Nat := 0x510E00 + ss  -- R364
abbrev Ent.HP_RESETS (ss : Nat) : Nat := 0x510F00 + ss  -- R364
abbrev Ent.HP_LAST_SEQ (ss : Nat) : Nat := 0x511000 + ss  -- R364
abbrev Ent.HP_CAPS : Nat := 0x511100  -- R364
abbrev Ent.TAG_UID_MODE : Nat := 0x520000  -- R383
abbrev Ent.TAG_AUTH_LABEL : Nat := 0x520100  -- R383
abbrev Ent.TAG_STATE : Nat := 0x520200  -- R383
abbrev Ent.TAG_UID_NOW : Nat := 0x520300  -- R383
abbrev Ent.TAG_POOL_LEVEL : Nat := 0x520400  -- R383
abbrev Ent.TAG_FLAGS : Nat := 0x520500  -- R383
abbrev Ent.TAG_SESSIONS : Nat := 0x520600  -- R383
abbrev Ent.TAG_FALLBACKS : Nat := 0x520700  -- R383
abbrev Ent.TAG_APDUS : Nat := 0x520800  -- R383
abbrev Ent.TAG_AUTH_OK : Nat := 0x520901  -- R383
abbrev Ent.TAG_AUTH_FAILS : Nat := 0x520902  -- R383
abbrev Ent.TAG_WRITES : Nat := 0x520A00  -- R383
abbrev Ent.TAG_LAST_SW : Nat := 0x520B00  -- R383
abbrev Ent.TAG_FIELD_LAST : Nat := 0x520C00  -- R383
abbrev Ent.TAG_AID : Nat := 0x520D00  -- R383
abbrev Ent.TAG_ATS : Nat := 0x520E00  -- R383
abbrev Ent.TAG_CAPS : Nat := 0x520F00  -- R383

/-! ## Rows -/

/-- The types of R44. -/
inductive Ty where
  | b1 | u8 | u16 | u32 | s16 | s32 | f32 | t32 | c32 | k16 | k32 | id8
  | oct (n : Nat)
  deriving DecidableEq, Repr

/-- The type code that PROBE reports (R44). -/
def Ty.code : Ty → Nat
  | .b1 => 1 | .u8 => 2 | .u16 => 3 | .u32 => 4 | .s16 => 5 | .s32 => 6 | .f32 => 7
  | .t32 => 8 | .c32 => 9 | .k16 => 10 | .k32 => 11 | .oct _ => 12 | .id8 => 13

/-- The size in bytes (R44). -/
def Ty.size : Ty → Nat
  | .b1 => 1 | .u8 => 1 | .u16 => 2 | .u32 => 4 | .s16 => 2 | .s32 => 4 | .f32 => 4
  | .t32 => 4 | .c32 => 4 | .k16 => 2 | .k32 => 4 | .oct n => n | .id8 => 1

/-- The storage classes of R47. -/
inductive Cls where
  | v | n | f
  deriving DecidableEq, Repr

/-- What holds an entry's value, and so which reset returns it to its default (R41, R103, R129, R178, R196, R209, R236, R260, R281, R302, R349, R364, R383). -/
inductive Holder where
  | fuse | nvm | keeper | spindle | net | host | page
  deriving DecidableEq, Repr

/-- The values a gate column lets through. -/
inductive Rng where
  | any
  | nat (lo hi : Nat)
  | int (lo hi : Int)
  | zeroOr (lo hi : Nat)
  | oneOf (vs : List Nat)
  | label                -- byte 0 is not 0xFF
  deriving DecidableEq, Repr

/-- One row of an entry table. `acc` holds the access string of R10 in eight hexadecimal digits, one for each user from L to T:
0 none, 1 read, 2 write only, 3 read and write. `modes` and `lcs` are the gates of R52; empty where the row has none. -/
structure EntryRow where
  idx : Nat
  lo : Nat := 0
  hi : Nat := 0
  ty : Ty
  cls : Cls
  held : Holder
  acc : Nat
  dflt : Nat := 0
  perUser : Bool := false
  action : Bool := false
  modes : List Mode := []
  lcs : List Lc := []
  rng : Rng := .any
  deriving DecidableEq, Repr

def rowsdict : List EntryRow := [
  { idx := 0x1000, ty := .u32, cls := .f, held := .fuse, acc := 0x11111111, dflt := 0x4420 },
  { idx := 0x1001, ty := .u16, cls := .f, held := .fuse, acc := 0x11111111, dflt := Config.siliconRev.toNat },
  { idx := 0x1002, ty := (.oct 7), cls := .f, held := .fuse, acc := 0x11111111, dflt := leNat (List.ofFn Config.originUid) },
  { idx := 0x1003, ty := (.oct 12), cls := .f, held := .fuse, acc := 0x11111111, dflt := leNat (List.ofFn Config.serial) },
  { idx := 0x1004, ty := (.oct 64), cls := .f, held := .fuse, acc := 0x11111111, dflt := leNat (List.ofFn Config.originSig) },
  { idx := 0x1005, ty := (.oct 64), cls := .f, held := .fuse, acc := 0x11111111, dflt := leNat attestPub },
  { idx := 0x1006, ty := .u32, cls := .n, held := .nvm, acc := 0x03111111, lcs := [.maker] },
  { idx := 0x1007, ty := .u32, cls := .n, held := .nvm, acc := 0x03111111, lcs := [.maker] },
  { idx := 0x1008, ty := (.oct 32), cls := .n, held := .nvm, acc := 0x03133311, modes := [.commission] },
  { idx := 0x1009, ty := .u16, cls := .f, held := .fuse, acc := 0x11111111, dflt := 256 },
  { idx := 0x100A, lo := 0x01, hi := 0x01, ty := .u32, cls := .v, held := .spindle, acc := 0x03333333, perUser := true },
  { idx := 0x100A, lo := 0x02, hi := 0x02, ty := .u32, cls := .v, held := .spindle, acc := 0x01111111, perUser := true },
  { idx := 0x100B, ty := .u8, cls := .v, held := .spindle, acc := 0x01111111, perUser := true },
  { idx := 0x100C, ty := .u8, cls := .v, held := .spindle, acc := 0x01111111, perUser := true },
  { idx := 0x100C, lo := 0x01, hi := 0x01, ty := .u8, cls := .v, held := .spindle, acc := 0x02222222, perUser := true, action := true, rng := .nat 1 2 },
  { idx := 0x100C, lo := 0x02, hi := 0x02, ty := .u32, cls := .v, held := .spindle, acc := 0x01111111, dflt := 0xFF00, perUser := true },
  { idx := 0x100D, ty := .u32, cls := .v, held := .spindle, acc := 0x03333333, perUser := true },
  { idx := 0x100E, ty := .u32, cls := .v, held := .spindle, acc := 0x03333333, perUser := true },
  { idx := 0x100F, lo := 0x10, hi := 0x15, ty := .u32, cls := .v, held := .spindle, acc := 0x03333330, dflt := 128, action := true },
  { idx := 0x100F, lo := 0x20, hi := 0x26, ty := .u32, cls := .v, held := .spindle, acc := 0x03333330, dflt := 128, action := true },
  { idx := 0x100F, lo := 0x30, hi := 0x32, ty := .u32, cls := .v, held := .spindle, acc := 0x03333330, dflt := 128, action := true },
  { idx := 0x100F, lo := 0x40, hi := 0x41, ty := .u32, cls := .v, held := .spindle, acc := 0x03333330, dflt := 128, action := true },
  { idx := 0x100F, lo := 0x50, hi := 0x53, ty := .u32, cls := .v, held := .spindle, acc := 0x03333330, dflt := 128, action := true },
  { idx := 0x100F, lo := 0x60, hi := 0x61, ty := .u32, cls := .v, held := .spindle, acc := 0x03333330, dflt := 128, action := true },
  { idx := 0x1010, lo := 0x01, hi := 0x08, ty := .k16, cls := .v, held := .spindle, acc := 0x01111110 },
  { idx := 0x1011, lo := 0x01, hi := 0x08, ty := .k16, cls := .v, held := .spindle, acc := 0x01111110 },
  { idx := 0x1012, lo := 0x01, hi := 0x08, ty := .k16, cls := .v, held := .spindle, acc := 0x01111110 },
  { idx := 0x1013, ty := .u32, cls := .v, held := .spindle, acc := 0x01111110, dflt := 128 }]

def rowsmode : List EntryRow := [
  { idx := 0x1018, ty := .c32, cls := .v, held := .keeper, acc := 0x11111111, dflt := 0x1E1E1E1E },
  { idx := 0x1019, ty := .c32, cls := .v, held := .keeper, acc := 0x02022220, action := true },
  { idx := 0x101A, ty := .c32, cls := .v, held := .keeper, acc := 0x11111111, dflt := 0x4B4B4B4B },
  { idx := 0x101B, ty := .t32, cls := .v, held := .keeper, acc := 0x01111111 },
  { idx := 0x101C, ty := .k32, cls := .v, held := .keeper, acc := 0x01111110 },
  { idx := 0x101D, ty := .u16, cls := .n, held := .nvm, acc := 0x03133311 },
  { idx := 0x101D, lo := 0x01, hi := 0x01, ty := .b1, cls := .v, held := .keeper, acc := 0x02000000, action := true, rng := .nat 1 1 },
  { idx := 0x101E, ty := .u16, cls := .n, held := .nvm, acc := 0x03133310, dflt := 1800, rng := .nat 60 3600 },
  { idx := 0x101F, ty := .t32, cls := .n, held := .nvm, acc := 0x01111111 },
  { idx := 0x1020, ty := .u32, cls := .n, held := .nvm, acc := 0x01111111 },
  { idx := 0x1021, ty := .u16, cls := .f, held := .fuse, acc := 0x11111111, dflt := 3652 },
  { idx := 0x1022, ty := .u16, cls := .v, held := .keeper, acc := 0x01111111, dflt := 3652 },
  { idx := 0x1023, ty := .c32, cls := .n, held := .nvm, acc := 0x11111111, dflt := 0x0F0F0F0F },
  { idx := 0x1024, ty := .b1, cls := .v, held := .keeper, acc := 0x11111111 },
  { idx := 0x1025, ty := .c32, cls := .v, held := .keeper, acc := 0x02022200, action := true },
  { idx := 0x1026, ty := .u8, cls := .v, held := .keeper, acc := 0x11111111, dflt := 2 },
  { idx := 0x1027, lo := 0x01, hi := 0x01, ty := .u8, cls := .v, held := .keeper, acc := 0x00022200, action := true, lcs := [.owned], rng := .nat 1 255 },
  { idx := 0x1027, lo := 0x02, hi := 0x02, ty := (.oct 32), cls := .v, held := .keeper, acc := 0x00011100 },
  { idx := 0x1027, lo := 0x03, hi := 0x03, ty := (.oct 64), cls := .v, held := .keeper, acc := 0x00022200, lcs := [.owned] },
  { idx := 0x1027, lo := 0x04, hi := 0x04, ty := (.oct 64), cls := .v, held := .keeper, acc := 0x00022200, action := true, lcs := [.owned] },
  { idx := 0x1027, lo := 0x05, hi := 0x05, ty := .k16, cls := .n, held := .nvm, acc := 0x01111100 }]

def rowspower : List EntryRow := [
  { idx := 0x1100, lo := 0x20, hi := 0x20, ty := .c32, cls := .v, held := .keeper, acc := 0x03111110, dflt := 0x2D2D2D2D, action := true },
  { idx := 0x1100, lo := 0x21, hi := 0x21, ty := .c32, cls := .v, held := .keeper, acc := 0x03111110, dflt := 0x2D2D2D2D, action := true },
  { idx := 0x1100, lo := 0x22, hi := 0x22, ty := .c32, cls := .v, held := .keeper, acc := 0x03111110, dflt := 0x2D2D2D2D, action := true },
  { idx := 0x1100, lo := 0x23, hi := 0x23, ty := .c32, cls := .v, held := .keeper, acc := 0x03111110, dflt := 0x2D2D2D2D, action := true },
  { idx := 0x1100, lo := 0x24, hi := 0x24, ty := .c32, cls := .v, held := .keeper, acc := 0x03111110, dflt := 0x1E1E1E1E, action := true },
  { idx := 0x1100, lo := 0x25, hi := 0x25, ty := .c32, cls := .v, held := .keeper, acc := 0x03111110, dflt := 0x2D2D2D2D, action := true },
  { idx := 0x1100, lo := 0x26, hi := 0x26, ty := .c32, cls := .v, held := .keeper, acc := 0x03111110, dflt := 0x2D2D2D2D, action := true },
  { idx := 0x1100, lo := 0x27, hi := 0x27, ty := .c32, cls := .v, held := .keeper, acc := 0x03133310, dflt := 0x2D2D2D2D, action := true },
  { idx := 0x1100, lo := 0x28, hi := 0x28, ty := .c32, cls := .v, held := .keeper, acc := 0x03111110, dflt := 0x2D2D2D2D, action := true },
  { idx := 0x1100, lo := 0x29, hi := 0x29, ty := .c32, cls := .v, held := .keeper, acc := 0x03111110, dflt := 0x1E1E1E1E, action := true },
  { idx := 0x1100, lo := 0x2A, hi := 0x2A, ty := .c32, cls := .v, held := .keeper, acc := 0x03111110, dflt := 0x1E1E1E1E, action := true },
  { idx := 0x1100, lo := 0x2B, hi := 0x2B, ty := .c32, cls := .v, held := .keeper, acc := 0x03111110, dflt := 0x2D2D2D2D, action := true },
  { idx := 0x1100, lo := 0x2C, hi := 0x2C, ty := .c32, cls := .v, held := .keeper, acc := 0x03111110, dflt := 0x1E1E1E1E, action := true },
  { idx := 0x1100, lo := 0x2D, hi := 0x2D, ty := .c32, cls := .v, held := .keeper, acc := 0x03111110, dflt := 0x1E1E1E1E, action := true },
  { idx := 0x1100, lo := 0x2E, hi := 0x2E, ty := .c32, cls := .v, held := .keeper, acc := 0x03111110, dflt := 0x2D2D2D2D, action := true },
  { idx := 0x1100, lo := 0x2F, hi := 0x2F, ty := .c32, cls := .v, held := .keeper, acc := 0x03111110, dflt := 0x3C3C3C3C, action := true },
  { idx := 0x1100, lo := 0x30, hi := 0x30, ty := .c32, cls := .v, held := .keeper, acc := 0x03111110, dflt := 0x3C3C3C3C, action := true },
  { idx := 0x1100, lo := 0x31, hi := 0x31, ty := .c32, cls := .v, held := .keeper, acc := 0x03111110, dflt := 0x2D2D2D2D, action := true },
  { idx := 0x1100, lo := 0x32, hi := 0x32, ty := .c32, cls := .v, held := .keeper, acc := 0x03111110, dflt := 0x2D2D2D2D, action := true },
  { idx := 0x1101, lo := 0x20, hi := 0x32, ty := .u8, cls := .v, held := .keeper, acc := 0x01111110, dflt := 2 },
  { idx := 0x1102, lo := 0x20, hi := 0x32, ty := .k16, cls := .v, held := .keeper, acc := 0x01111110 },
  { idx := 0x1103, lo := 0x20, hi := 0x32, ty := .id8, cls := .v, held := .keeper, acc := 0x01111110, dflt := 128 },
  { idx := 0x1104, lo := 0x20, hi := 0x32, ty := .k32, cls := .v, held := .keeper, acc := 0x01111110 },
  { idx := 0x1105, lo := 0x20, hi := 0x32, ty := .k32, cls := .v, held := .keeper, acc := 0x01111110 },
  { idx := 0x1106, lo := 0x20, hi := 0x32, ty := .u8, cls := .v, held := .keeper, acc := 0x01111110 },
  { idx := 0x1107, ty := .u32, cls := .v, held := .keeper, acc := 0x01111110, dflt := 0x808000 },
  { idx := 0x1108, ty := .u16, cls := .v, held := .keeper, acc := 0x01111110 },
  { idx := 0x1109, ty := .k16, cls := .v, held := .keeper, acc := 0x01111110 }]

def rowsclock : List EntryRow := [
  { idx := 0x1200, ty := .t32, cls := .v, held := .keeper, acc := 0x11111111 },
  { idx := 0x1201, ty := .t32, cls := .v, held := .keeper, acc := 0x02022220, action := true },
  { idx := 0x1202, ty := .u16, cls := .v, held := .keeper, acc := 0x01111110 },
  { idx := 0x1203, ty := .u8, cls := .v, held := .keeper, acc := 0x11111111, dflt := 1 },
  { idx := 0x1204, ty := .k16, cls := .n, held := .nvm, acc := 0x01111111 },
  { idx := 0x1205, lo := 0x01, hi := 0x01, ty := .t32, cls := .n, held := .nvm, acc := 0x01111111 },
  { idx := 0x1205, lo := 0x02, hi := 0x02, ty := .t32, cls := .n, held := .nvm, acc := 0x01111111 },
  { idx := 0x1205, lo := 0x03, hi := 0x03, ty := .id8, cls := .n, held := .nvm, acc := 0x01111111, dflt := 128 },
  { idx := 0x1206, ty := .s16, cls := .n, held := .nvm, acc := 0x03133310, modes := [.factory, .calibrate, .commission], rng := .int (-2000) 2000 },
  { idx := 0x1207, ty := .u16, cls := .v, held := .keeper, acc := 0x01111110, dflt := 1 },
  { idx := 0x1208, ty := .k16, cls := .n, held := .nvm, acc := 0x01111111 },
  { idx := 0x1209, ty := .k16, cls := .v, held := .spindle, acc := 0x01111110 },
  { idx := 0x120A, ty := .k16, cls := .v, held := .spindle, acc := 0x01111110 },
  { idx := 0x120B, ty := .u32, cls := .v, held := .keeper, acc := 0x01111110 },
  { idx := 0x120C, lo := 0x01, hi := 0x0F, ty := .u8, cls := .v, held := .spindle, acc := 0x01111110 },
  { idx := 0x120D, lo := 0x01, hi := 0x0F, ty := .u8, cls := .v, held := .spindle, acc := 0x01111110 },
  { idx := 0x120E, lo := 0x01, hi := 0x0F, ty := .k16, cls := .v, held := .spindle, acc := 0x01111110 },
  { idx := 0x120F, ty := .k32, cls := .v, held := .keeper, acc := 0x01111110 }]

def rowsarb : List EntryRow := [
  { idx := 0x1300, lo := 0x01, hi := 0x01, ty := .u8, cls := .v, held := .spindle, acc := 0x03111110, rng := .nat 0 1 },
  { idx := 0x1300, lo := 0x02, hi := 0x02, ty := .u8, cls := .v, held := .spindle, acc := 0x03111110, dflt := 1, rng := .nat 0 1 },
  { idx := 0x1300, lo := 0x03, hi := 0x03, ty := .u8, cls := .v, held := .spindle, acc := 0x03111110, dflt := 1, rng := .nat 0 1 },
  { idx := 0x1300, lo := 0x04, hi := 0x04, ty := .u8, cls := .v, held := .spindle, acc := 0x03111110, rng := .nat 0 1 },
  { idx := 0x1300, lo := 0x05, hi := 0x05, ty := .u8, cls := .v, held := .spindle, acc := 0x03111110, dflt := 1, rng := .nat 0 1 },
  { idx := 0x1300, lo := 0x06, hi := 0x06, ty := .u8, cls := .v, held := .spindle, acc := 0x03111110, dflt := 1, rng := .nat 0 1 },
  { idx := 0x1301, lo := 0x01, hi := 0x01, ty := (.oct 32), cls := .v, held := .spindle, acc := 0x03111110, dflt := 0xFF010201FF010201FF010201FF010201FF010201FF010201FF010201FF010201 },
  { idx := 0x1301, lo := 0x02, hi := 0x02, ty := (.oct 32), cls := .v, held := .spindle, acc := 0x03111110, dflt := 0xFFFFFFFFFFFFFFFFFFFFFFFFFFFFFFFFFFFFFFFFFFFFFFFFFFFFFFFFFFFFFFFF },
  { idx := 0x1301, lo := 0x03, hi := 0x03, ty := (.oct 32), cls := .v, held := .spindle, acc := 0x03111110, dflt := 0xFFFFFFFFFFFFFFFFFFFFFFFFFFFFFFFFFFFFFFFFFFFFFFFFFFFFFFFFFFFFFFFF },
  { idx := 0x1301, lo := 0x04, hi := 0x04, ty := (.oct 32), cls := .v, held := .spindle, acc := 0x03111110, dflt := 0xFF020B02FF020B02FF020B02FF020B02FF020B02FF020B02FF020B02FF020B02 },
  { idx := 0x1301, lo := 0x05, hi := 0x05, ty := (.oct 32), cls := .v, held := .spindle, acc := 0x03111110, dflt := 0xFFFFFFFFFFFFFFFFFFFFFFFFFFFFFFFFFFFFFFFFFFFFFFFFFFFFFFFFFFFFFFFF },
  { idx := 0x1301, lo := 0x06, hi := 0x06, ty := (.oct 32), cls := .v, held := .spindle, acc := 0x03111110, dflt := 0xFFFFFFFFFFFFFFFFFFFFFFFFFFFFFFFFFFFFFFFFFFFFFFFFFFFFFFFFFFFFFFFF },
  { idx := 0x1302, lo := 0x01, hi := 0x06, ty := (.oct 12), cls := .v, held := .spindle, acc := 0x03111110, dflt := 3416467015609337987117220096 },
  { idx := 0x1303, lo := 0x01, hi := 0x06, ty := .u16, cls := .v, held := .spindle, acc := 0x03111110, dflt := 256, rng := .nat 16 4096 },
  { idx := 0x1304, lo := 0x01, hi := 0x01, ty := (.oct 12), cls := .v, held := .spindle, acc := 0x03111110, dflt := 0x40A020 },
  { idx := 0x1304, lo := 0x02, hi := 0x02, ty := (.oct 12), cls := .v, held := .spindle, acc := 0x03111110, dflt := 0x200020000000000000C00000 },
  { idx := 0x1304, lo := 0x03, hi := 0x03, ty := (.oct 12), cls := .v, held := .spindle, acc := 0x03111110, dflt := 0x200020000000000000C00000 },
  { idx := 0x1304, lo := 0x04, hi := 0x04, ty := (.oct 12), cls := .v, held := .spindle, acc := 0x03111110, dflt := 0x400000000000000000C00000 },
  { idx := 0x1304, lo := 0x05, hi := 0x05, ty := (.oct 12), cls := .v, held := .spindle, acc := 0x03111110, dflt := 0x201020202020400010 },
  { idx := 0x1304, lo := 0x06, hi := 0x06, ty := (.oct 12), cls := .v, held := .spindle, acc := 0x03111110, dflt := 0x402040000000000000400020 },
  { idx := 0x1305, lo := 0x01, hi := 0x01, ty := (.oct 12), cls := .v, held := .spindle, acc := 0x01111110, dflt := 0x40A020 },
  { idx := 0x1305, lo := 0x02, hi := 0x02, ty := (.oct 12), cls := .v, held := .spindle, acc := 0x01111110, dflt := 0x200020000000000000C00000 },
  { idx := 0x1305, lo := 0x03, hi := 0x03, ty := (.oct 12), cls := .v, held := .spindle, acc := 0x01111110, dflt := 0x200020000000000000C00000 },
  { idx := 0x1305, lo := 0x04, hi := 0x04, ty := (.oct 12), cls := .v, held := .spindle, acc := 0x01111110, dflt := 0x400000000000000000C00000 },
  { idx := 0x1305, lo := 0x05, hi := 0x05, ty := (.oct 12), cls := .v, held := .spindle, acc := 0x01111110, dflt := 0x201020202020400010 },
  { idx := 0x1305, lo := 0x06, hi := 0x06, ty := (.oct 12), cls := .v, held := .spindle, acc := 0x01111110, dflt := 0x402040000000000000400020 },
  { idx := 0x1306, lo := 0x01, hi := 0x06, ty := .u8, cls := .v, held := .spindle, acc := 0x01111110 },
  { idx := 0x1307, lo := 0x01, hi := 0x06, ty := .id8, cls := .v, held := .spindle, acc := 0x01111110, dflt := 128 },
  { idx := 0x1308, lo := 0x01, hi := 0x0C, ty := .k32, cls := .v, held := .spindle, acc := 0x01111110 },
  { idx := 0x1309, lo := 0x01, hi := 0x0C, ty := .k32, cls := .v, held := .spindle, acc := 0x01111110 },
  { idx := 0x130A, lo := 0x01, hi := 0x0C, ty := .k32, cls := .v, held := .spindle, acc := 0x01111110 },
  { idx := 0x130B, lo := 0x01, hi := 0x0C, ty := .u16, cls := .v, held := .spindle, acc := 0x01111110 },
  { idx := 0x130C, lo := 0x01, hi := 0x06, ty := .k32, cls := .v, held := .spindle, acc := 0x01111110 },
  { idx := 0x130D, lo := 0x01, hi := 0x0C, ty := .k16, cls := .v, held := .spindle, acc := 0x01111110 },
  { idx := 0x130E, ty := .k16, cls := .n, held := .nvm, acc := 0x01111111 },
  { idx := 0x130F, ty := .u32, cls := .v, held := .spindle, acc := 0x01111110, dflt := 0x8000 },
  { idx := 0x1310, lo := 0x01, hi := 0x01, ty := .u16, cls := .f, held := .fuse, acc := 0x11111111, dflt := 7 },
  { idx := 0x1310, lo := 0x02, hi := 0x02, ty := .u16, cls := .f, held := .fuse, acc := 0x11111111, dflt := 2564 },
  { idx := 0x1310, lo := 0x03, hi := 0x03, ty := .u16, cls := .f, held := .fuse, acc := 0x11111111, dflt := 2564 },
  { idx := 0x1310, lo := 0x04, hi := 0x04, ty := .u16, cls := .f, held := .fuse, acc := 0x11111111, dflt := 2052 },
  { idx := 0x1310, lo := 0x05, hi := 0x05, ty := .u16, cls := .f, held := .fuse, acc := 0x11111111, dflt := 509 },
  { idx := 0x1310, lo := 0x06, hi := 0x06, ty := .u16, cls := .f, held := .fuse, acc := 0x11111111, dflt := 3589 },
  { idx := 0x1311, ty := .u8, cls := .v, held := .spindle, acc := 0x01111110 }]

def rowscore : List EntryRow := [
  { idx := 0x1500, ty := .u8, cls := .v, held := .spindle, acc := 0x01111110, dflt := 1 },
  { idx := 0x1501, ty := .u8, cls := .v, held := .keeper, acc := 0x01111111 },
  { idx := 0x1502, lo := 0x01, hi := 0x08, ty := .k16, cls := .n, held := .nvm, acc := 0x01111111 },
  { idx := 0x1503, lo := 0x01, hi := 0x01, ty := .u32, cls := .n, held := .nvm, acc := 0x01111111 },
  { idx := 0x1503, lo := 0x02, hi := 0x02, ty := .u32, cls := .n, held := .nvm, acc := 0x01111111 },
  { idx := 0x1503, lo := 0x03, hi := 0x03, ty := .t32, cls := .n, held := .nvm, acc := 0x01111111 },
  { idx := 0x1504, ty := .k16, cls := .n, held := .nvm, acc := 0x01111111 },
  { idx := 0x1505, ty := .u8, cls := .n, held := .nvm, acc := 0x03111110, dflt := 16, rng := .nat 1 64 },
  { idx := 0x1506, ty := .u8, cls := .v, held := .keeper, acc := 0x02000000, action := true, rng := .nat 1 1 },
  { idx := 0x1507, ty := .u32, cls := .v, held := .keeper, acc := 0x01111110 },
  { idx := 0x1508, ty := .k16, cls := .n, held := .nvm, acc := 0x01111111 },
  { idx := 0x1509, lo := 0x01, hi := 0x01, ty := .b1, cls := .v, held := .spindle, acc := 0x01111110 },
  { idx := 0x1509, lo := 0x02, hi := 0x02, ty := .u8, cls := .v, held := .spindle, acc := 0x01111110 },
  { idx := 0x150A, lo := 0x01, hi := 0x0C, ty := .k32, cls := .v, held := .spindle, acc := 0x01111110 },
  { idx := 0x150B, lo := 0x01, hi := 0x04, ty := .k32, cls := .v, held := .spindle, acc := 0x01111110 },
  { idx := 0x150C, ty := (.oct 16), cls := .v, held := .spindle, acc := 0x01111110 },
  { idx := 0x150D, lo := 0x01, hi := 0x10, ty := .u32, cls := .v, held := .spindle, acc := 0x01111110 },
  { idx := 0x150E, ty := .k16, cls := .v, held := .spindle, acc := 0x01111110 },
  { idx := 0x150F, ty := .k32, cls := .v, held := .spindle, acc := 0x01111110 },
  { idx := 0x1510, ty := .k16, cls := .v, held := .spindle, acc := 0x01111110 },
  { idx := 0x1511, ty := .u32, cls := .f, held := .fuse, acc := 0x11111111, dflt := 0x40101104 }]

def rowsboot : List EntryRow := [
  { idx := 0x1400, ty := .c32, cls := .v, held := .spindle, acc := 0x11111110, dflt := 0x1E1E1E1E },
  { idx := 0x1401, ty := .u8, cls := .v, held := .spindle, acc := 0x01111110 },
  { idx := 0x1402, lo := 0x01, hi := 0x01, ty := .u32, cls := .v, held := .spindle, acc := 0x01111110 },
  { idx := 0x1402, lo := 0x02, hi := 0x02, ty := .u16, cls := .v, held := .spindle, acc := 0x01111110 },
  { idx := 0x1402, lo := 0x03, hi := 0x03, ty := .u8, cls := .v, held := .spindle, acc := 0x01111110 },
  { idx := 0x1402, lo := 0x04, hi := 0x04, ty := .u8, cls := .v, held := .spindle, acc := 0x01111110 },
  { idx := 0x1402, lo := 0x05, hi := 0x05, ty := .u8, cls := .v, held := .spindle, acc := 0x01111110, dflt := 1 },
  { idx := 0x1403, ty := .u16, cls := .v, held := .keeper, acc := 0x01111111 },
  { idx := 0x1404, ty := .k16, cls := .n, held := .nvm, acc := 0x01111111 },
  { idx := 0x1405, ty := .u32, cls := .n, held := .nvm, acc := 0x01111111 },
  { idx := 0x1406, ty := .k16, cls := .n, held := .nvm, acc := 0x11111111 },
  { idx := 0x1407, ty := .u8, cls := .v, held := .spindle, acc := 0x02000000, action := true, rng := .nat 1 1 },
  { idx := 0x1408, lo := 0x01, hi := 0x01, ty := (.oct 32), cls := .f, held := .fuse, acc := 0x13133311, lcs := [.maker] },
  { idx := 0x1408, lo := 0x02, hi := 0x02, ty := (.oct 32), cls := .f, held := .fuse, acc := 0x11111111 },
  { idx := 0x1409, ty := .u8, cls := .v, held := .spindle, acc := 0x11111111 },
  { idx := 0x140A, lo := 0x01, hi := 0x01, ty := (.oct 32), cls := .v, held := .spindle, acc := 0x03033300 },
  { idx := 0x140A, lo := 0x02, hi := 0x02, ty := (.oct 64), cls := .v, held := .spindle, acc := 0x03033300 },
  { idx := 0x140A, lo := 0x03, hi := 0x03, ty := (.oct 64), cls := .v, held := .spindle, acc := 0x02022200, action := true, lcs := [.maker, .owned, .field] },
  { idx := 0x140B, ty := .u8, cls := .v, held := .spindle, acc := 0x02000000, action := true, lcs := [.owned, .field], rng := .nat 1 1 },
  { idx := 0x140C, ty := .u32, cls := .v, held := .spindle, acc := 0x01111110 },
  { idx := 0x140D, ty := .u32, cls := .v, held := .spindle, acc := 0x03033300 },
  { idx := 0x140E, ty := (.oct 64), cls := .v, held := .spindle, acc := 0x03033300 },
  { idx := 0x140F, ty := .u8, cls := .v, held := .spindle, acc := 0x02022200, action := true },
  { idx := 0x1410, ty := .u16, cls := .v, held := .spindle, acc := 0x01011100 },
  { idx := 0x1411, lo := 0x01, hi := 0x01, ty := (.oct 24), cls := .v, held := .spindle, acc := 0x01111110 },
  { idx := 0x1411, lo := 0x02, hi := 0x02, ty := (.oct 24), cls := .v, held := .spindle, acc := 0x01111110 },
  { idx := 0x1412, ty := .u8, cls := .v, held := .spindle, acc := 0x01111110 }]

def rowssense : List EntryRow := [
  { idx := 0x2000, ty := .u8, cls := .v, held := .spindle, acc := 0x02022200, action := true, rng := .nat 1 1 },
  { idx := 0x2001, lo := 0x01, hi := 0x01, ty := .u8, cls := .n, held := .nvm, acc := 0x03133310, dflt := 100, modes := [.factory, .calibrate], rng := .nat 10 200 },
  { idx := 0x2001, lo := 0x02, hi := 0x02, ty := .u16, cls := .n, held := .nvm, acc := 0x03133310, dflt := 200, modes := [.factory, .calibrate], rng := .nat 10 400 },
  { idx := 0x2002, lo := 0x01, hi := 0x01, ty := .u8, cls := .n, held := .nvm, acc := 0x03133310, dflt := 100, modes := [.factory, .calibrate], rng := .nat 10 200 },
  { idx := 0x2002, lo := 0x02, hi := 0x02, ty := .u16, cls := .n, held := .nvm, acc := 0x03133310, dflt := 300, modes := [.factory, .calibrate], rng := .nat 10 400 },
  { idx := 0x2003, ty := .u16, cls := .n, held := .nvm, acc := 0x03133310, dflt := 256, modes := [.factory, .calibrate], rng := .nat 64 512 },
  { idx := 0x2004, ty := .u16, cls := .n, held := .nvm, acc := 0x03133310, dflt := 20, modes := [.factory, .calibrate], rng := .nat 10 200 },
  { idx := 0x2005, ty := .u16, cls := .v, held := .spindle, acc := 0x01111110 },
  { idx := 0x2006, ty := .t32, cls := .v, held := .spindle, acc := 0x01111110 },
  { idx := 0x2007, lo := 0x01, hi := 0x01, ty := .s32, cls := .v, held := .spindle, acc := 0x01111110 },
  { idx := 0x2007, lo := 0x02, hi := 0x02, ty := .s32, cls := .v, held := .spindle, acc := 0x01111110 },
  { idx := 0x2008, lo := 0x01, hi := 0x01, ty := .u32, cls := .v, held := .spindle, acc := 0x01111110 },
  { idx := 0x2008, lo := 0x02, hi := 0x02, ty := .u32, cls := .v, held := .spindle, acc := 0x01111110 },
  { idx := 0x2009, ty := .u16, cls := .v, held := .spindle, acc := 0x01111110 },
  { idx := 0x200A, lo := 0x01, hi := 0x01, ty := .f32, cls := .v, held := .spindle, acc := 0x01111110 },
  { idx := 0x200A, lo := 0x02, hi := 0x02, ty := .f32, cls := .v, held := .spindle, acc := 0x01111110 },
  { idx := 0x200B, ty := .f32, cls := .v, held := .spindle, acc := 0x01111110 },
  { idx := 0x200C, ty := .u16, cls := .v, held := .spindle, acc := 0x01111110 },
  { idx := 0x200D, ty := .k32, cls := .v, held := .spindle, acc := 0x01111110 },
  { idx := 0x200E, ty := .k16, cls := .v, held := .spindle, acc := 0x01111110 },
  { idx := 0x200F, lo := 0x01, hi := 0x01, ty := .s32, cls := .v, held := .spindle, acc := 0x01111110 },
  { idx := 0x200F, lo := 0x02, hi := 0x02, ty := .s32, cls := .v, held := .spindle, acc := 0x01111110 },
  { idx := 0x200F, lo := 0x03, hi := 0x03, ty := .f32, cls := .v, held := .spindle, acc := 0x01111110 },
  { idx := 0x2010, ty := .u16, cls := .v, held := .spindle, acc := 0x01111110 },
  { idx := 0x2100, ty := .u16, cls := .v, held := .spindle, acc := 0x01111110 },
  { idx := 0x2101, ty := .f32, cls := .v, held := .spindle, acc := 0x01111110 },
  { idx := 0x2102, ty := .f32, cls := .v, held := .spindle, acc := 0x01111110 },
  { idx := 0x2103, ty := .t32, cls := .v, held := .spindle, acc := 0x01111110 },
  { idx := 0x2104, ty := .u8, cls := .v, held := .spindle, acc := 0x01111110 },
  { idx := 0x2105, lo := 0x01, hi := 0x01, ty := .f32, cls := .v, held := .spindle, acc := 0x01111110 },
  { idx := 0x2105, lo := 0x02, hi := 0x02, ty := .f32, cls := .v, held := .spindle, acc := 0x01111110 },
  { idx := 0x2106, ty := .k32, cls := .v, held := .spindle, acc := 0x01111110 },
  { idx := 0x2200, ty := .b1, cls := .n, held := .nvm, acc := 0x03133310, modes := [.factory, .calibrate] },
  { idx := 0x2201, ty := .s32, cls := .v, held := .spindle, acc := 0x01111110 },
  { idx := 0x2202, ty := .f32, cls := .v, held := .spindle, acc := 0x01111110 },
  { idx := 0x2203, ty := .f32, cls := .v, held := .spindle, acc := 0x01111110 },
  { idx := 0x2204, ty := .t32, cls := .v, held := .spindle, acc := 0x01111110 },
  { idx := 0x2205, ty := .u8, cls := .v, held := .spindle, acc := 0x01111110 },
  { idx := 0x2206, lo := 0x01, hi := 0x01, ty := .u8, cls := .v, held := .spindle, acc := 0x02000000, action := true, rng := .nat 1 1 },
  { idx := 0x2206, lo := 0x02, hi := 0x02, ty := .f32, cls := .v, held := .spindle, acc := 0x01111110 },
  { idx := 0x2206, lo := 0x03, hi := 0x03, ty := .b1, cls := .v, held := .spindle, acc := 0x01111110 },
  { idx := 0x2206, lo := 0x04, hi := 0x04, ty := .t32, cls := .v, held := .spindle, acc := 0x01111110 },
  { idx := 0x2207, ty := .u16, cls := .n, held := .nvm, acc := 0x03133310, rng := .nat 0 3600 },
  { idx := 0x2208, ty := .u8, cls := .n, held := .nvm, acc := 0x03133310, rng := .nat 0 7 },
  { idx := 0x2209, lo := 0x01, hi := 0x01, ty := .u8, cls := .n, held := .nvm, acc := 0x03133310, rng := .nat 0 2 },
  { idx := 0x2209, lo := 0x02, hi := 0x02, ty := .u16, cls := .n, held := .nvm, acc := 0x03133310 },
  { idx := 0x2209, lo := 0x03, hi := 0x03, ty := .u16, cls := .n, held := .nvm, acc := 0x03133310, dflt := 10, rng := .nat 0 1000 },
  { idx := 0x220A, ty := .s32, cls := .v, held := .spindle, acc := 0x01111110 },
  { idx := 0x220B, ty := .f32, cls := .v, held := .spindle, acc := 0x01111110 },
  { idx := 0x220C, ty := .t32, cls := .v, held := .spindle, acc := 0x01111110 },
  { idx := 0x220D, ty := .u8, cls := .v, held := .spindle, acc := 0x01111110 },
  { idx := 0x2300, ty := .u16, cls := .v, held := .spindle, acc := 0x01111111 },
  { idx := 0x2301, ty := .u16, cls := .v, held := .spindle, acc := 0x01111111 },
  { idx := 0x2302, ty := .u16, cls := .n, held := .nvm, acc := 0x03133310, dflt := 2500, modes := [.factory, .calibrate, .commission], rng := .nat 2200 3300 },
  { idx := 0x2303, ty := .t32, cls := .v, held := .spindle, acc := 0x01111110 },
  { idx := 0x2304, lo := 0x01, hi := 0x03, ty := .f32, cls := .v, held := .spindle, acc := 0x01111110 },
  { idx := 0x2305, ty := .k16, cls := .n, held := .nvm, acc := 0x01111111 },
  { idx := 0x2306, ty := .u16, cls := .v, held := .spindle, acc := 0x01111110, dflt := 0xFFFF },
  { idx := 0x6000, ty := .u16, cls := .f, held := .fuse, acc := 0x03133311, modes := [.calibrate] },
  { idx := 0x6001, lo := 0x01, hi := 0x03, ty := .s32, cls := .f, held := .fuse, acc := 0x03133311, modes := [.calibrate] }]

def rowssense2 : List EntryRow := [
  { idx := 0x6002, lo := 0x01, hi := 0x03, ty := .s32, cls := .f, held := .fuse, acc := 0x03133311, modes := [.calibrate] },
  { idx := 0x6003, lo := 0x01, hi := 0x03, ty := .s32, cls := .f, held := .fuse, acc := 0x03133311, modes := [.calibrate] },
  { idx := 0x6004, lo := 0x01, hi := 0x03, ty := .s32, cls := .f, held := .fuse, acc := 0x03133311, modes := [.calibrate] },
  { idx := 0x6005, lo := 0x01, hi := 0x01, ty := .u32, cls := .f, held := .fuse, acc := 0x03133311, modes := [.calibrate] },
  { idx := 0x6005, lo := 0x02, hi := 0x02, ty := .u32, cls := .f, held := .fuse, acc := 0x03133311, modes := [.calibrate] },
  { idx := 0x6006, lo := 0x01, hi := 0x01, ty := .u8, cls := .f, held := .fuse, acc := 0x03133311, modes := [.calibrate] },
  { idx := 0x6006, lo := 0x02, hi := 0x02, ty := .u16, cls := .f, held := .fuse, acc := 0x03133311, modes := [.calibrate], rng := .nat 16 511 },
  { idx := 0x6007, lo := 0x01, hi := 0x01, ty := .u16, cls := .f, held := .fuse, acc := 0x03133311, modes := [.calibrate] },
  { idx := 0x6007, lo := 0x02, hi := 0x02, ty := .u16, cls := .f, held := .fuse, acc := 0x03133311, modes := [.calibrate] },
  { idx := 0x6008, lo := 0x01, hi := 0x01, ty := .u32, cls := .f, held := .fuse, acc := 0x03133311, modes := [.calibrate] },
  { idx := 0x6008, lo := 0x02, hi := 0x02, ty := .f32, cls := .f, held := .fuse, acc := 0x03133311, modes := [.calibrate] },
  { idx := 0x6008, lo := 0x03, hi := 0x03, ty := .u32, cls := .f, held := .fuse, acc := 0x03133311, modes := [.calibrate] },
  { idx := 0x6009, lo := 0x01, hi := 0x03, ty := .f32, cls := .f, held := .fuse, acc := 0x03133311, modes := [.calibrate] },
  { idx := 0x600A, lo := 0x01, hi := 0x03, ty := .f32, cls := .f, held := .fuse, acc := 0x03133311, modes := [.calibrate] },
  { idx := 0x600B, lo := 0x01, hi := 0x03, ty := .f32, cls := .f, held := .fuse, acc := 0x03133311, modes := [.calibrate] },
  { idx := 0x600C, lo := 0x01, hi := 0x01, ty := .b1, cls := .f, held := .fuse, acc := 0x03133311, modes := [.calibrate] },
  { idx := 0x600C, lo := 0x02, hi := 0x02, ty := .s16, cls := .f, held := .fuse, acc := 0x03133311, modes := [.calibrate], rng := .int (-300) 300 },
  { idx := 0x600C, lo := 0x03, hi := 0x03, ty := .s16, cls := .f, held := .fuse, acc := 0x03133311, modes := [.calibrate], rng := .int (-300) 300 },
  { idx := 0x600C, lo := 0x04, hi := 0x04, ty := .f32, cls := .f, held := .fuse, acc := 0x03133311, modes := [.calibrate] },
  { idx := 0x600C, lo := 0x05, hi := 0x05, ty := .f32, cls := .f, held := .fuse, acc := 0x03133311, modes := [.calibrate] },
  { idx := 0x600D, lo := 0x01, hi := 0x03, ty := .s32, cls := .f, held := .fuse, acc := 0x03133311, modes := [.calibrate] },
  { idx := 0x600E, lo := 0x01, hi := 0x03, ty := .f32, cls := .f, held := .fuse, acc := 0x03133311, modes := [.calibrate] },
  { idx := 0x600F, lo := 0x01, hi := 0x03, ty := .s16, cls := .f, held := .fuse, acc := 0x03133311, modes := [.calibrate] },
  { idx := 0x6010, lo := 0x01, hi := 0x01, ty := .s32, cls := .f, held := .fuse, acc := 0x03133311, modes := [.calibrate] },
  { idx := 0x6010, lo := 0x02, hi := 0x02, ty := .s32, cls := .f, held := .fuse, acc := 0x03133311, modes := [.calibrate] },
  { idx := 0x6011, lo := 0x01, hi := 0x01, ty := .f32, cls := .f, held := .fuse, acc := 0x03133311, modes := [.calibrate] },
  { idx := 0x6011, lo := 0x02, hi := 0x02, ty := .f32, cls := .f, held := .fuse, acc := 0x03133311, modes := [.calibrate] },
  { idx := 0x6012, ty := .u16, cls := .f, held := .fuse, acc := 0x03133311, modes := [.calibrate] },
  { idx := 0x6013, lo := 0x01, hi := 0x01, ty := .s32, cls := .f, held := .fuse, acc := 0x03133311, modes := [.calibrate] },
  { idx := 0x6013, lo := 0x02, hi := 0x02, ty := .u32, cls := .f, held := .fuse, acc := 0x03133311, modes := [.calibrate] },
  { idx := 0x6014, lo := 0x01, hi := 0x01, ty := .s32, cls := .f, held := .fuse, acc := 0x03133311, modes := [.calibrate] },
  { idx := 0x6014, lo := 0x02, hi := 0x02, ty := .s32, cls := .f, held := .fuse, acc := 0x03133311, modes := [.calibrate] },
  { idx := 0x6015, ty := .u16, cls := .f, held := .fuse, acc := 0x03133311, modes := [.calibrate] },
  { idx := 0x6016, lo := 0x01, hi := 0x03, ty := .s16, cls := .f, held := .fuse, acc := 0x03133311, modes := [.calibrate] },
  { idx := 0x6017, ty := .t32, cls := .f, held := .fuse, acc := 0x03133311, modes := [.calibrate] },
  { idx := 0x6100, lo := 0x01, hi := 0x01, ty := .s32, cls := .n, held := .nvm, acc := 0x03133310, modes := [.factory, .calibrate, .commission, .supervise] },
  { idx := 0x6100, lo := 0x02, hi := 0x02, ty := .s32, cls := .n, held := .nvm, acc := 0x03133310, modes := [.factory, .calibrate, .commission, .supervise] },
  { idx := 0x6100, lo := 0x03, hi := 0x03, ty := .s32, cls := .n, held := .nvm, acc := 0x03133310, modes := [.factory, .calibrate, .commission, .supervise] },
  { idx := 0x6100, lo := 0x04, hi := 0x04, ty := .s32, cls := .n, held := .nvm, acc := 0x03133310, modes := [.factory, .calibrate, .commission, .supervise] },
  { idx := 0x6101, lo := 0x01, hi := 0x01, ty := .f32, cls := .n, held := .nvm, acc := 0x03133310, modes := [.factory, .calibrate, .commission, .supervise] },
  { idx := 0x6101, lo := 0x02, hi := 0x02, ty := .s16, cls := .n, held := .nvm, acc := 0x03133310, modes := [.factory, .calibrate, .commission, .supervise] },
  { idx := 0x6102, lo := 0x01, hi := 0x01, ty := .f32, cls := .n, held := .nvm, acc := 0x03133310, modes := [.factory, .calibrate, .commission, .supervise] },
  { idx := 0x6102, lo := 0x02, hi := 0x02, ty := .f32, cls := .n, held := .nvm, acc := 0x03133310, modes := [.factory, .calibrate, .commission, .supervise] },
  { idx := 0x6102, lo := 0x03, hi := 0x03, ty := .s32, cls := .n, held := .nvm, acc := 0x03133310, modes := [.factory, .calibrate, .commission, .supervise] },
  { idx := 0x6102, lo := 0x04, hi := 0x04, ty := .f32, cls := .n, held := .nvm, acc := 0x03133310, modes := [.factory, .calibrate, .commission, .supervise] },
  { idx := 0x6100, lo := 0x10, hi := 0x10, ty := .k16, cls := .n, held := .nvm, acc := 0x01111110 },
  { idx := 0x6101, lo := 0x10, hi := 0x10, ty := .k16, cls := .n, held := .nvm, acc := 0x01111110 },
  { idx := 0x6102, lo := 0x10, hi := 0x10, ty := .k16, cls := .n, held := .nvm, acc := 0x01111110 },
  { idx := 0x6100, lo := 0x20, hi := 0x20, ty := (.oct 64), cls := .n, held := .nvm, acc := 0x01111110 },
  { idx := 0x6101, lo := 0x20, hi := 0x20, ty := (.oct 64), cls := .n, held := .nvm, acc := 0x01111110 },
  { idx := 0x6102, lo := 0x20, hi := 0x20, ty := (.oct 64), cls := .n, held := .nvm, acc := 0x01111110 },
  { idx := 0x6103, ty := .u16, cls := .v, held := .spindle, acc := 0x01111110 },
  { idx := 0x6104, ty := .u8, cls := .v, held := .keeper, acc := 0x01111110 }]

def rowsalarm : List EntryRow := [
  { idx := 0x2400, ty := .u8, cls := .v, held := .keeper, acc := 0x01111111 },
  { idx := 0x2401, ty := .u8, cls := .v, held := .keeper, acc := 0x03100000, rng := .nat 0 7 },
  { idx := 0x2402, ty := .u8, cls := .v, held := .keeper, acc := 0x01111111 },
  { idx := 0x2403, ty := .u8, cls := .v, held := .keeper, acc := 0x01111110 },
  { idx := 0x2404, ty := .u8, cls := .v, held := .keeper, acc := 0x01111110 },
  { idx := 0x2405, ty := .u8, cls := .v, held := .keeper, acc := 0x01111110 },
  { idx := 0x2406, ty := .u32, cls := .v, held := .keeper, acc := 0x01111110 },
  { idx := 0x2407, ty := .k16, cls := .n, held := .nvm, acc := 0x01111111 },
  { idx := 0x2408, ty := .k16, cls := .n, held := .nvm, acc := 0x01111111 },
  { idx := 0x2409, ty := .k16, cls := .n, held := .nvm, acc := 0x01111111 },
  { idx := 0x240A, ty := .k16, cls := .n, held := .nvm, acc := 0x01111111 },
  { idx := 0x240B, ty := .u16, cls := .v, held := .keeper, acc := 0x01111111 },
  { idx := 0x240C, ty := .u8, cls := .n, held := .nvm, acc := 0x03133310, modes := [.commission], rng := .nat 0 15 },
  { idx := 0x240D, ty := .u16, cls := .n, held := .nvm, acc := 0x03133310, dflt := 0xFFFF, modes := [.commission] },
  { idx := 0x240E, ty := .u8, cls := .n, held := .nvm, acc := 0x03133310, dflt := 3, modes := [.commission], rng := .nat 0 3 },
  { idx := 0x240F, ty := .u8, cls := .n, held := .nvm, acc := 0x03133310, dflt := 5, modes := [.commission], rng := .nat 3 30 },
  { idx := 0x2410, ty := .u8, cls := .n, held := .nvm, acc := 0x03133310, dflt := 2, modes := [.factory, .calibrate], rng := .nat 0 2 },
  { idx := 0x2411, lo := 0x01, hi := 0x01, ty := .f32, cls := .n, held := .nvm, acc := 0x03133310, dflt := 3277, modes := [.factory, .calibrate, .commission] },
  { idx := 0x2411, lo := 0x02, hi := 0x02, ty := .f32, cls := .n, held := .nvm, acc := 0x03133310, dflt := 6554, modes := [.factory, .calibrate, .commission] },
  { idx := 0x2411, lo := 0x03, hi := 0x03, ty := .f32, cls := .n, held := .nvm, acc := 0x03133310, dflt := 9830, modes := [.factory, .calibrate, .commission] },
  { idx := 0x2411, lo := 0x04, hi := 0x04, ty := .f32, cls := .n, held := .nvm, acc := 0x03133310, dflt := 0x16666, modes := [.factory, .calibrate, .commission] },
  { idx := 0x2411, lo := 0x05, hi := 0x05, ty := .f32, cls := .n, held := .nvm, acc := 0x03133310, dflt := 0x40000, modes := [.factory, .calibrate, .commission] },
  { idx := 0x2411, lo := 0x06, hi := 0x06, ty := .f32, cls := .n, held := .nvm, acc := 0x03133310, dflt := 0x84CCD, modes := [.factory, .calibrate, .commission] },
  { idx := 0x2411, lo := 0x07, hi := 0x07, ty := .f32, cls := .n, held := .nvm, acc := 0x03133310, dflt := 0x390000, modes := [.factory, .calibrate, .commission] },
  { idx := 0x2411, lo := 0x08, hi := 0x08, ty := .f32, cls := .n, held := .nvm, acc := 0x03133310, dflt := 0x320000, modes := [.factory, .calibrate, .commission] },
  { idx := 0x2411, lo := 0x09, hi := 0x09, ty := .u8, cls := .n, held := .nvm, acc := 0x03133310, dflt := 6, modes := [.factory, .calibrate, .commission] },
  { idx := 0x2412, ty := .t32, cls := .n, held := .nvm, acc := 0x01111111 },
  { idx := 0x2413, ty := .u8, cls := .n, held := .nvm, acc := 0x01111111 },
  { idx := 0x2414, ty := .u16, cls := .v, held := .keeper, acc := 0x01111111 },
  { idx := 0x2415, lo := 0x01, hi := 0x03, ty := .k16, cls := .n, held := .nvm, acc := 0x01111111 },
  { idx := 0x2500, ty := (.oct 8), cls := .v, held := .spindle, acc := 0x02022200, action := true, modes := [.factory, .calibrate, .commission] },
  { idx := 0x2501, ty := .u8, cls := .v, held := .spindle, acc := 0x01111110 },
  { idx := 0x2502, ty := .u8, cls := .v, held := .keeper, acc := 0x01111111 },
  { idx := 0x2503, ty := .u16, cls := .n, held := .nvm, acc := 0x03133310, dflt := 3200, modes := [.factory, .calibrate], rng := .nat 2000 5000 },
  { idx := 0x2504, ty := .u8, cls := .n, held := .nvm, acc := 0x03133310, dflt := 12, modes := [.factory, .calibrate], rng := .nat 6 15 },
  { idx := 0x2505, ty := .u16, cls := .v, held := .keeper, acc := 0x01111110 },
  { idx := 0x2506, ty := .k32, cls := .n, held := .nvm, acc := 0x01111111 },
  { idx := 0x2507, ty := .k16, cls := .n, held := .nvm, acc := 0x01111111 },
  { idx := 0x2508, lo := 0x01, hi := 0x01, ty := .u8, cls := .n, held := .nvm, acc := 0x03133310, dflt := 5, modes := [.factory, .calibrate], rng := .nat 1 20 },
  { idx := 0x2508, lo := 0x02, hi := 0x02, ty := .u8, cls := .n, held := .nvm, acc := 0x03133310, dflt := 5, modes := [.factory, .calibrate], rng := .nat 1 20 },
  { idx := 0x2508, lo := 0x03, hi := 0x03, ty := .u8, cls := .n, held := .nvm, acc := 0x03133310, dflt := 2, modes := [.factory, .calibrate], rng := .nat 1 20 },
  { idx := 0x2509, ty := .b1, cls := .n, held := .nvm, acc := 0x03133310, modes := [.commission] },
  { idx := 0x250A, ty := .u8, cls := .v, held := .keeper, acc := 0x01111111 },
  { idx := 0x250B, ty := .k32, cls := .v, held := .keeper, acc := 0x01111110 },
  { idx := 0x250C, ty := .k16, cls := .v, held := .spindle, acc := 0x01111110 },
  { idx := 0x250D, ty := .k32, cls := .v, held := .spindle, acc := 0x01111110 },
  { idx := 0x2600, ty := .u32, cls := .v, held := .keeper, acc := 0x01111111, dflt := 0x15180 },
  { idx := 0x2601, ty := .u16, cls := .v, held := .keeper, acc := 0x01111110 },
  { idx := 0x2602, ty := .u8, cls := .v, held := .keeper, acc := 0x01111111 },
  { idx := 0x2603, ty := (.oct 12), cls := .n, held := .nvm, acc := 0x01111111 },
  { idx := 0x2604, ty := .t32, cls := .n, held := .nvm, acc := 0x01111111 },
  { idx := 0x2605, ty := .u32, cls := .n, held := .nvm, acc := 0x01111111 },
  { idx := 0x2606, ty := .k16, cls := .n, held := .nvm, acc := 0x01111111 },
  { idx := 0x2607, ty := .k16, cls := .n, held := .nvm, acc := 0x01111111 },
  { idx := 0x2608, ty := .k16, cls := .n, held := .nvm, acc := 0x01111111 },
  { idx := 0x2609, ty := .k16, cls := .n, held := .nvm, acc := 0x01111111 },
  { idx := 0x260A, lo := 0x01, hi := 0x01, ty := .u16, cls := .n, held := .nvm, acc := 0x03133310, dflt := 200, modes := [.factory, .calibrate] },
  { idx := 0x260A, lo := 0x02, hi := 0x02, ty := .u16, cls := .n, held := .nvm, acc := 0x03133310, dflt := 2000, modes := [.factory, .calibrate] },
  { idx := 0x260B, ty := .u16, cls := .n, held := .nvm, acc := 0x03133310, dflt := 2600, modes := [.factory, .calibrate, .commission], rng := .nat 2200 3300 },
  { idx := 0x260C, ty := .u8, cls := .n, held := .nvm, acc := 0x03133310, dflt := 25, modes := [.factory, .calibrate], rng := .nat 5 50 }]

def rowsalarm2 : List EntryRow := [
  { idx := 0x260D, ty := .u8, cls := .n, held := .nvm, acc := 0x03133310, dflt := 50, modes := [.factory, .calibrate], rng := .nat 10 100 }]

def rowscipher : List EntryRow := [
  { idx := 0x3000, lo := 0x01, hi := 0x01, ty := (.oct 16), cls := .v, held := .spindle, acc := 0x03333330, perUser := true, rng := .label },
  { idx := 0x3000, lo := 0x02, hi := 0x02, ty := .u8, cls := .v, held := .spindle, acc := 0x03333330, dflt := 16, perUser := true, rng := .oneOf [16, 32] },
  { idx := 0x3000, lo := 0x03, hi := 0x03, ty := .u8, cls := .v, held := .spindle, acc := 0x02222220, perUser := true, action := true, rng := .nat 1 1 },
  { idx := 0x3000, lo := 0x04, hi := 0x04, ty := .u8, cls := .v, held := .page, acc := 0x01111110, perUser := true },
  { idx := 0x3000, lo := 0x05, hi := 0x05, ty := (.oct 4), cls := .v, held := .page, acc := 0x01111110, perUser := true },
  { idx := 0x3001, lo := 0x01, hi := 0x01, ty := .id8, cls := .v, held := .spindle, acc := 0x00033300, dflt := 128, perUser := true, lcs := [.maker] },
  { idx := 0x3001, lo := 0x02, hi := 0x02, ty := .c32, cls := .v, held := .spindle, acc := 0x00033300, dflt := 0xE1E1E1E1, perUser := true, lcs := [.maker] },
  { idx := 0x3001, lo := 0x03, hi := 0x03, ty := (.oct 16), cls := .v, held := .spindle, acc := 0x00033300, perUser := true, lcs := [.maker], rng := .label },
  { idx := 0x3001, lo := 0x04, hi := 0x04, ty := .u8, cls := .v, held := .spindle, acc := 0x00033300, dflt := 16, perUser := true, lcs := [.maker], rng := .oneOf [16, 32] },
  { idx := 0x3001, lo := 0x05, hi := 0x05, ty := (.oct 32), cls := .v, held := .spindle, acc := 0x00011100, perUser := true },
  { idx := 0x3001, lo := 0x06, hi := 0x06, ty := .k16, cls := .n, held := .nvm, acc := 0x01111111 },
  { idx := 0x3002, ty := .u8, cls := .v, held := .spindle, acc := 0x03333330, perUser := true, rng := .nat 0 6 },
  { idx := 0x3003, ty := (.oct 16), cls := .v, held := .page, acc := 0x03333330, perUser := true },
  { idx := 0x3004, lo := 0x01, hi := 0x01, ty := .u32, cls := .v, held := .spindle, acc := 0x03333330, perUser := true },
  { idx := 0x3004, lo := 0x02, hi := 0x02, ty := .u32, cls := .v, held := .spindle, acc := 0x03333330, perUser := true },
  { idx := 0x3005, ty := .u8, cls := .v, held := .spindle, acc := 0x02222220, perUser := true, action := true, rng := .nat 1 1 },
  { idx := 0x3006, ty := (.oct 64), cls := .v, held := .page, acc := 0x02222220, perUser := true, action := true },
  { idx := 0x3007, ty := (.oct 64), cls := .v, held := .page, acc := 0x01111110, perUser := true },
  { idx := 0x3008, ty := (.oct 16), cls := .v, held := .page, acc := 0x03333330, perUser := true },
  { idx := 0x3009, ty := .u32, cls := .v, held := .page, acc := 0x01111110, perUser := true },
  { idx := 0x300A, ty := .u8, cls := .v, held := .spindle, acc := 0x02222220, perUser := true, action := true, rng := .nat 1 1 },
  { idx := 0x300B, lo := 0x01, hi := 0x01, ty := .u32, cls := .v, held := .spindle, acc := 0x03000000 },
  { idx := 0x300B, lo := 0x02, hi := 0x02, ty := .u32, cls := .v, held := .spindle, acc := 0x03000000 },
  { idx := 0x300B, lo := 0x03, hi := 0x03, ty := .u32, cls := .v, held := .spindle, acc := 0x03000000 },
  { idx := 0x300B, lo := 0x04, hi := 0x04, ty := .u8, cls := .v, held := .spindle, acc := 0x02000000, action := true, rng := .nat 1 1 },
  { idx := 0x3010, ty := .u8, cls := .v, held := .spindle, acc := 0x02222220, perUser := true, action := true, rng := .nat 1 1 },
  { idx := 0x3011, ty := (.oct 64), cls := .v, held := .spindle, acc := 0x02222220, perUser := true, action := true },
  { idx := 0x3012, lo := 0x01, hi := 0x01, ty := .u8, cls := .v, held := .spindle, acc := 0x03333330, perUser := true, rng := .nat 0 64 },
  { idx := 0x3012, lo := 0x02, hi := 0x02, ty := (.oct 64), cls := .v, held := .spindle, acc := 0x02222220, perUser := true, action := true },
  { idx := 0x3013, ty := (.oct 32), cls := .v, held := .spindle, acc := 0x01111110, perUser := true },
  { idx := 0x3014, lo := 0x01, hi := 0x01, ty := .u32, cls := .v, held := .spindle, acc := 0x03000000 },
  { idx := 0x3014, lo := 0x02, hi := 0x02, ty := .u32, cls := .v, held := .spindle, acc := 0x03000000 },
  { idx := 0x3014, lo := 0x03, hi := 0x03, ty := .u8, cls := .v, held := .spindle, acc := 0x02000000, action := true, rng := .nat 1 1 },
  { idx := 0x3015, ty := .u32, cls := .v, held := .spindle, acc := 0x01111110, perUser := true },
  { idx := 0x3018, ty := .k16, cls := .n, held := .nvm, acc := 0x01111111 },
  { idx := 0x3019, lo := 0x01, hi := 0x08, ty := .k16, cls := .v, held := .spindle, acc := 0x01111110 }]

def rowscurve : List EntryRow := [
  { idx := 0x3100, ty := .u8, cls := .v, held := .spindle, acc := 0x03333330, perUser := true, rng := .nat 0 9 },
  { idx := 0x3101, ty := .u8, cls := .v, held := .spindle, acc := 0x03333330, dflt := 1, perUser := true, rng := .nat 0 2 },
  { idx := 0x3102, ty := (.oct 16), cls := .v, held := .spindle, acc := 0x03333330, perUser := true, rng := .label },
  { idx := 0x3103, ty := (.oct 32), cls := .v, held := .spindle, acc := 0x03333330, perUser := true },
  { idx := 0x3104, ty := (.oct 64), cls := .v, held := .spindle, acc := 0x03333330, perUser := true },
  { idx := 0x3105, ty := (.oct 64), cls := .v, held := .spindle, acc := 0x03333330, perUser := true },
  { idx := 0x3106, ty := .u8, cls := .v, held := .spindle, acc := 0x02222220, perUser := true, action := true, rng := .nat 1 1 },
  { idx := 0x3107, ty := (.oct 64), cls := .v, held := .spindle, acc := 0x01111110, perUser := true },
  { idx := 0x3108, ty := .u32, cls := .v, held := .spindle, acc := 0x01111110, perUser := true },
  { idx := 0x3109, lo := 0x01, hi := 0x01, ty := .u32, cls := .v, held := .spindle, acc := 0x03333330, perUser := true },
  { idx := 0x3109, lo := 0x02, hi := 0x02, ty := (.oct 64), cls := .v, held := .spindle, acc := 0x02222220, perUser := true, action := true },
  { idx := 0x310A, lo := 0x01, hi := 0x01, ty := .u32, cls := .v, held := .spindle, acc := 0x03000000 },
  { idx := 0x310A, lo := 0x02, hi := 0x02, ty := .u32, cls := .v, held := .spindle, acc := 0x03000000 },
  { idx := 0x310A, lo := 0x03, hi := 0x03, ty := .u8, cls := .v, held := .spindle, acc := 0x02000000, action := true, rng := .nat 1 1 },
  { idx := 0x310B, ty := .u8, cls := .v, held := .spindle, acc := 0x02222220, perUser := true, action := true, rng := .nat 1 1 },
  { idx := 0x310C, lo := 0x01, hi := 0x01, ty := .k32, cls := .v, held := .spindle, acc := 0x01111110 },
  { idx := 0x310C, lo := 0x02, hi := 0x02, ty := .k16, cls := .v, held := .spindle, acc := 0x01111110 },
  { idx := 0x310C, lo := 0x03, hi := 0x03, ty := .k16, cls := .v, held := .spindle, acc := 0x01111110 },
  { idx := 0x310C, lo := 0x04, hi := 0x04, ty := .k16, cls := .n, held := .nvm, acc := 0x01111111 },
  { idx := 0x310C, lo := 0x05, hi := 0x05, ty := .k16, cls := .v, held := .spindle, acc := 0x01111110 },
  { idx := 0x310D, ty := .k32, cls := .n, held := .nvm, acc := 0x01111111 },
  { idx := 0x3200, ty := .u32, cls := .v, held := .spindle, acc := 0x01111110 },
  { idx := 0x3201, ty := (.oct 32), cls := .v, held := .spindle, acc := 0x01111110 },
  { idx := 0x3202, lo := 0x01, hi := 0x01, ty := .u8, cls := .v, held := .spindle, acc := 0x01111110, perUser := true },
  { idx := 0x3202, lo := 0x02, hi := 0x02, ty := .b1, cls := .v, held := .spindle, acc := 0x01111110, perUser := true },
  { idx := 0x3203, ty := .u8, cls := .v, held := .spindle, acc := 0x01111110 },
  { idx := 0x3204, ty := .u8, cls := .v, held := .spindle, acc := 0x03000000, dflt := 8, rng := .nat 1 8 },
  { idx := 0x3205, lo := 0x01, hi := 0x01, ty := .s16, cls := .v, held := .spindle, acc := 0x01111110 },
  { idx := 0x3205, lo := 0x02, hi := 0x02, ty := .s16, cls := .v, held := .spindle, acc := 0x01111110 },
  { idx := 0x3206, lo := 0x01, hi := 0x01, ty := .u16, cls := .n, held := .nvm, acc := 0x03133310, dflt := 256, modes := [.factory, .calibrate], rng := .nat 64 1024 },
  { idx := 0x3206, lo := 0x02, hi := 0x02, ty := .u16, cls := .n, held := .nvm, acc := 0x03133310, dflt := 256, modes := [.factory, .calibrate], rng := .nat 64 1024 },
  { idx := 0x3207, lo := 0x01, hi := 0x01, ty := .k32, cls := .v, held := .spindle, acc := 0x01111110 },
  { idx := 0x3207, lo := 0x02, hi := 0x02, ty := .k16, cls := .n, held := .nvm, acc := 0x01111111 },
  { idx := 0x3207, lo := 0x03, hi := 0x03, ty := .k16, cls := .v, held := .spindle, acc := 0x01111110 },
  { idx := 0x3208, ty := .k32, cls := .v, held := .spindle, acc := 0x01111110 },
  { idx := 0x3209, ty := .u8, cls := .v, held := .spindle, acc := 0x01111110 }]

def rowslog : List EntryRow := [
  { idx := 0x4000, ty := .u16, cls := .n, held := .nvm, acc := 0x03111111 },
  { idx := 0x4001, lo := 0x01, hi := 0x0A, ty := .k16, cls := .n, held := .nvm, acc := 0x01111111 },
  { idx := 0x4002, ty := .k16, cls := .n, held := .nvm, acc := 0x01111111 },
  { idx := 0x4003, ty := .u32, cls := .n, held := .nvm, acc := 0x01111111 },
  { idx := 0x4004, ty := .t32, cls := .n, held := .nvm, acc := 0x01111111 },
  { idx := 0x4005, ty := .u8, cls := .v, held := .keeper, acc := 0x01111111 },
  { idx := 0x4100, ty := .u16, cls := .n, held := .nvm, acc := 0x01111111 },
  { idx := 0x4101, ty := .u8, cls := .v, held := .keeper, acc := 0x01111111 },
  { idx := 0x4102, ty := (.oct 32), cls := .n, held := .nvm, acc := 0x01111111 },
  { idx := 0x4103, ty := .u16, cls := .n, held := .nvm, acc := 0x01111111, dflt := 0xFFFF },
  { idx := 0x4104, ty := .u16, cls := .v, held := .keeper, acc := 0x01111111 },
  { idx := 0x4105, lo := 0x01, hi := 0x01, ty := .k16, cls := .n, held := .nvm, acc := 0x01111111 },
  { idx := 0x4105, lo := 0x02, hi := 0x02, ty := .k16, cls := .n, held := .nvm, acc := 0x01111111 },
  { idx := 0x4106, lo := 0x01, hi := 0x05, ty := .k16, cls := .n, held := .nvm, acc := 0x01111111 },
  { idx := 0x4107, ty := .k16, cls := .v, held := .keeper, acc := 0x01111110 },
  { idx := 0x4108, ty := .k16, cls := .n, held := .nvm, acc := 0x01111111 },
  { idx := 0x4110, lo := 0x01, hi := 0x08, ty := .k16, cls := .n, held := .nvm, acc := 0x01111111 },
  { idx := 0x4111, lo := 0x01, hi := 0x01, ty := .u8, cls := .v, held := .keeper, acc := 0x02000000, action := true, rng := .nat 1 1 },
  { idx := 0x4111, lo := 0x02, hi := 0x02, ty := .u8, cls := .v, held := .keeper, acc := 0x02000000, action := true, rng := .nat 1 1 },
  { idx := 0x4111, lo := 0x03, hi := 0x03, ty := .u8, cls := .v, held := .keeper, acc := 0x00020000, action := true, rng := .nat 1 1 },
  { idx := 0x4111, lo := 0x04, hi := 0x04, ty := .u8, cls := .v, held := .keeper, acc := 0x00002000, action := true, rng := .nat 1 1 },
  { idx := 0x4111, lo := 0x05, hi := 0x05, ty := .u8, cls := .v, held := .keeper, acc := 0x00000200, action := true, rng := .nat 1 1 },
  { idx := 0x4111, lo := 0x06, hi := 0x06, ty := .u8, cls := .v, held := .keeper, acc := 0x00000020, action := true, rng := .nat 1 1 },
  { idx := 0x4111, lo := 0x07, hi := 0x07, ty := .u8, cls := .v, held := .keeper, acc := 0x00000000, action := true, rng := .nat 1 1 },
  { idx := 0x4111, lo := 0x08, hi := 0x08, ty := .u8, cls := .v, held := .keeper, acc := 0x00000000, action := true, rng := .nat 1 1 },
  { idx := 0x4112, ty := .u16, cls := .v, held := .keeper, acc := 0x01111111, perUser := true },
  { idx := 0x4113, ty := .u8, cls := .n, held := .nvm, acc := 0x01111111 },
  { idx := 0x4180, hi := 0xFF, ty := (.oct 32), cls := .n, held := .nvm, acc := 0x01111111 },
  { idx := 0x4181, hi := 0xFF, ty := (.oct 32), cls := .n, held := .nvm, acc := 0x01111111 },
  { idx := 0x4182, hi := 0xFF, ty := (.oct 32), cls := .n, held := .nvm, acc := 0x01111111 },
  { idx := 0x4183, hi := 0xFF, ty := (.oct 32), cls := .n, held := .nvm, acc := 0x01111111 },
  { idx := 0x4184, hi := 0xFF, ty := (.oct 32), cls := .n, held := .nvm, acc := 0x01111111 },
  { idx := 0x4185, hi := 0xFF, ty := (.oct 32), cls := .n, held := .nvm, acc := 0x01111111 },
  { idx := 0x4186, hi := 0xFF, ty := (.oct 32), cls := .n, held := .nvm, acc := 0x01111111 },
  { idx := 0x4187, hi := 0xFF, ty := (.oct 32), cls := .n, held := .nvm, acc := 0x01111111 },
  { idx := 0x4188, hi := 0xFF, ty := (.oct 32), cls := .n, held := .nvm, acc := 0x01111111 },
  { idx := 0x4189, hi := 0xFF, ty := (.oct 32), cls := .n, held := .nvm, acc := 0x01111111 },
  { idx := 0x418A, hi := 0xFF, ty := (.oct 32), cls := .n, held := .nvm, acc := 0x01111111 },
  { idx := 0x418B, hi := 0xFF, ty := (.oct 32), cls := .n, held := .nvm, acc := 0x01111111 }]

def rowscan : List EntryRow := [
  { idx := 0x5000, ty := .b1, cls := .n, held := .nvm, acc := 0x03133310, modes := [.factory, .calibrate, .commission] },
  { idx := 0x5001, ty := .u8, cls := .n, held := .nvm, acc := 0x03133310, modes := [.factory, .calibrate, .commission], rng := .nat 0 127 },
  { idx := 0x5002, lo := 0x01, hi := 0x01, ty := .u8, cls := .n, held := .nvm, acc := 0x03133310, dflt := 2, modes := [.factory, .calibrate, .commission], rng := .nat 0 3 },
  { idx := 0x5002, lo := 0x02, hi := 0x02, ty := .u8, cls := .n, held := .nvm, acc := 0x03133310, modes := [.factory, .calibrate, .commission], rng := .nat 0 3 },
  { idx := 0x5003, ty := .b1, cls := .v, held := .net, acc := 0x03133300, modes := [.factory, .calibrate, .commission] },
  { idx := 0x5004, ty := .u8, cls := .v, held := .net, acc := 0x01111111, dflt := 8 },
  { idx := 0x5005, lo := 0x01, hi := 0x01, ty := .u16, cls := .v, held := .net, acc := 0x01111110 },
  { idx := 0x5005, lo := 0x02, hi := 0x02, ty := .u16, cls := .v, held := .net, acc := 0x01111110 },
  { idx := 0x5006, ty := .u8, cls := .n, held := .nvm, acc := 0x03133310, dflt := 16, rng := .nat 1 255 },
  { idx := 0x5007, ty := .k16, cls := .n, held := .nvm, acc := 0x01111111 },
  { idx := 0x5008, ty := .u8, cls := .v, held := .net, acc := 0x02022200, action := true, rng := .nat 1 1 },
  { idx := 0x5009, ty := .u16, cls := .n, held := .nvm, acc := 0x03133310, rng := .zeroOr 10 3600 },
  { idx := 0x500A, ty := .u16, cls := .n, held := .nvm, acc := 0x03133310, modes := [.commission], rng := .zeroOr 60 65535 },
  { idx := 0x500B, lo := 0x01, hi := 0x01, ty := .b1, cls := .n, held := .nvm, acc := 0x03133310, modes := [.commission] },
  { idx := 0x500B, lo := 0x02, hi := 0x02, ty := .u8, cls := .n, held := .nvm, acc := 0x03133310, modes := [.commission], rng := .nat 0 127 },
  { idx := 0x500C, ty := .u16, cls := .n, held := .nvm, acc := 0x03133330, dflt := 10, rng := .nat 0 3600 },
  { idx := 0x500D, ty := .k16, cls := .n, held := .nvm, acc := 0x01111111 },
  { idx := 0x500E, ty := .u32, cls := .n, held := .nvm, acc := 0x01111111 },
  { idx := 0x500F, ty := .t32, cls := .n, held := .nvm, acc := 0x01111111 },
  { idx := 0x5010, ty := .b1, cls := .v, held := .net, acc := 0x03133331 },
  { idx := 0x5011, ty := .u16, cls := .v, held := .net, acc := 0x01111110 },
  { idx := 0x5012, lo := 0x01, hi := 0x01, ty := .k32, cls := .v, held := .net, acc := 0x01111110 },
  { idx := 0x5012, lo := 0x02, hi := 0x02, ty := .k32, cls := .v, held := .net, acc := 0x01111110 },
  { idx := 0x5012, lo := 0x03, hi := 0x03, ty := .k32, cls := .v, held := .net, acc := 0x01111110 },
  { idx := 0x5012, lo := 0x04, hi := 0x04, ty := .k32, cls := .v, held := .net, acc := 0x01111110 },
  { idx := 0x5012, lo := 0x05, hi := 0x05, ty := .k16, cls := .v, held := .net, acc := 0x01111110 },
  { idx := 0x5012, lo := 0x06, hi := 0x06, ty := .k16, cls := .v, held := .net, acc := 0x01111110 },
  { idx := 0x5013, lo := 0x01, hi := 0x05, ty := .k16, cls := .v, held := .net, acc := 0x01111110 },
  { idx := 0x5014, ty := .u32, cls := .v, held := .net, acc := 0x01111110 },
  { idx := 0x5015, ty := .u8, cls := .v, held := .net, acc := 0x01111110 },
  { idx := 0x5016, ty := .k32, cls := .v, held := .net, acc := 0x01111110 },
  { idx := 0x5017, ty := .u16, cls := .v, held := .net, acc := 0x01111110 },
  { idx := 0x5018, ty := .k16, cls := .v, held := .net, acc := 0x01111110 },
  { idx := 0x5019, ty := .k16, cls := .v, held := .net, acc := 0x01111110 },
  { idx := 0x501A, ty := .u32, cls := .f, held := .fuse, acc := 0x11111111, dflt := 31 }]

def rowshost : List EntryRow := [
  { idx := 0x5100, lo := 0x01, hi := 0x03, ty := .b1, cls := .n, held := .nvm, acc := 0x03100000, dflt := 1, modes := [.factory, .calibrate, .commission] },
  { idx := 0x5101, ty := .u8, cls := .n, held := .nvm, acc := 0x03111310, rng := .nat 0 7 },
  { idx := 0x5102, ty := .b1, cls := .v, held := .host, acc := 0x00033300, perUser := true },
  { idx := 0x5103, lo := 0x01, hi := 0x03, ty := .u8, cls := .v, held := .host, acc := 0x01111110, dflt := 1 },
  { idx := 0x5104, lo := 0x01, hi := 0x03, ty := .u8, cls := .v, held := .host, acc := 0x02000000, action := true, rng := .nat 1 1 },
  { idx := 0x5105, lo := 0x01, hi := 0x03, ty := .k32, cls := .v, held := .host, acc := 0x01111110 },
  { idx := 0x5106, lo := 0x01, hi := 0x03, ty := .k32, cls := .v, held := .host, acc := 0x01111110 },
  { idx := 0x5107, lo := 0x01, hi := 0x03, ty := .k16, cls := .v, held := .host, acc := 0x01111110 },
  { idx := 0x5108, lo := 0x01, hi := 0x03, ty := .k16, cls := .v, held := .host, acc := 0x01111110 },
  { idx := 0x5109, lo := 0x01, hi := 0x03, ty := .k16, cls := .v, held := .host, acc := 0x01111110 },
  { idx := 0x510A, lo := 0x01, hi := 0x03, ty := .k16, cls := .v, held := .host, acc := 0x01111110 },
  { idx := 0x510B, lo := 0x01, hi := 0x03, ty := .k16, cls := .v, held := .host, acc := 0x01111110 },
  { idx := 0x510C, lo := 0x01, hi := 0x03, ty := .k16, cls := .v, held := .host, acc := 0x01111110 },
  { idx := 0x510D, lo := 0x01, hi := 0x03, ty := .k16, cls := .v, held := .host, acc := 0x01111110 },
  { idx := 0x510E, lo := 0x01, hi := 0x03, ty := .u16, cls := .v, held := .host, acc := 0x01111110 },
  { idx := 0x510F, lo := 0x01, hi := 0x03, ty := .k16, cls := .v, held := .host, acc := 0x01111110 },
  { idx := 0x5110, lo := 0x01, hi := 0x03, ty := .u8, cls := .v, held := .host, acc := 0x01111110 },
  { idx := 0x5111, ty := .u32, cls := .f, held := .fuse, acc := 0x11111111, dflt := 31 }]

def rowstag : List EntryRow := [
  { idx := 0x5200, ty := .u8, cls := .n, held := .nvm, acc := 0x03133310, dflt := 1, modes := [.factory, .calibrate, .commission], rng := .nat 0 1 },
  { idx := 0x5201, ty := (.oct 16), cls := .n, held := .nvm, acc := 0x03033300, modes := [.commission], rng := .label },
  { idx := 0x5202, ty := .u8, cls := .v, held := .keeper, acc := 0x01111111 },
  { idx := 0x5203, ty := (.oct 7), cls := .v, held := .keeper, acc := 0x01111111 },
  { idx := 0x5204, ty := .u8, cls := .n, held := .nvm, acc := 0x01111110 },
  { idx := 0x5205, ty := .u8, cls := .v, held := .keeper, acc := 0x01111111 },
  { idx := 0x5206, ty := .k32, cls := .v, held := .keeper, acc := 0x01111110 },
  { idx := 0x5207, ty := .k16, cls := .n, held := .nvm, acc := 0x01111111 },
  { idx := 0x5208, ty := .k32, cls := .v, held := .keeper, acc := 0x01111110 },
  { idx := 0x5209, lo := 0x01, hi := 0x01, ty := .k16, cls := .n, held := .nvm, acc := 0x01111111 },
  { idx := 0x5209, lo := 0x02, hi := 0x02, ty := .k16, cls := .n, held := .nvm, acc := 0x01111111 },
  { idx := 0x520A, ty := .k32, cls := .v, held := .keeper, acc := 0x01111110 },
  { idx := 0x520B, ty := .u16, cls := .v, held := .keeper, acc := 0x01111111 },
  { idx := 0x520C, ty := .t32, cls := .v, held := .keeper, acc := 0x01111110 },
  { idx := 0x520D, ty := (.oct 7), cls := .f, held := .fuse, acc := 0x11111111, dflt := 13565998679872496 },
  { idx := 0x520E, ty := (.oct 5), cls := .f, held := .fuse, acc := 0x11111111, dflt := 1610643461 },
  { idx := 0x520F, ty := .u32, cls := .f, held := .fuse, acc := 0x11111111, dflt := 31 }]

def rowsply : List EntryRow := [
  { idx := 0x5300, ty := .u8, cls := .v, held := .spindle, acc := 0x01111110 },
  { idx := 0x5301, ty := .k32, cls := .v, held := .spindle, acc := 0x01111110 },
  { idx := 0x5302, ty := .k32, cls := .v, held := .spindle, acc := 0x01111110 },
  { idx := 0x5303, ty := .k32, cls := .v, held := .spindle, acc := 0x01111110 },
  { idx := 0x5304, ty := .k16, cls := .n, held := .nvm, acc := 0x01111111 },
  { idx := 0x5305, ty := .k32, cls := .v, held := .spindle, acc := 0x01111110 },
  { idx := 0x5306, ty := .b1, cls := .v, held := .spindle, acc := 0x03100000, rng := .nat 0 0 },
  { idx := 0x5307, ty := .k16, cls := .v, held := .spindle, acc := 0x01111110 },
  { idx := 0x5308, ty := .k32, cls := .v, held := .spindle, acc := 0x01111110 },
  { idx := 0x5309, ty := .k16, cls := .v, held := .spindle, acc := 0x01111110 },
  { idx := 0x530A, lo := 0x01, hi := 0x01, ty := .k16, cls := .v, held := .keeper, acc := 0x01111110 },
  { idx := 0x530A, lo := 0x02, hi := 0x02, ty := .k16, cls := .v, held := .keeper, acc := 0x01111110 }]

/-- Every entry of the dictionary. -/
def entryRows : List EntryRow :=
  rowsdict ++ rowsmode ++ rowspower ++ rowsclock ++ rowsarb ++ rowscore ++ rowsboot ++ rowssense ++ rowssense2 ++ rowsalarm ++ rowsalarm2 ++ rowscipher ++ rowscurve ++ rowslog ++ rowscan ++ rowshost ++ rowstag ++ rowsply

/-- The row of an address, or none where the device implements none (R43). -/
def findRow (e : Nat) : Option EntryRow :=
  entryRows.find? fun r => r.idx == e / 256 && r.lo <= e % 256 && e % 256 <= r.hi

end Sys2Proof
end

