-- ==== Sys2Proof/Machine/State.lean ====
section
/-! DEFINITION. The state of the device: plain data. Every dictionary entry's value stands in `ent` (an entry that is not listed holds its default);
what the spec gives the device beside its entries stands in the structures of its three dies. Each field's comment names the rules that give it. -/
namespace Sys2Proof.Machine

/-- Values by key, keys strictly rising, no value equal to what an unlisted key reads as. -/
abbrev Sparse (α : Type) := List (Nat × α)

/-- What the bytes of a memory that no write has listed read as. -/
inductive Fill where
  | zero               -- zero bytes
  | ones               -- 0xFF, as an erased flash
  | free (epoch : Nat) -- undefined: `Config.freeByte epoch`
  deriving DecidableEq, Repr

/-- A memory: its listed bytes in rising order of address, and what the others read as. -/
structure Region where
  cells : List Host.Cell := []
  fill : Fill := .zero
  deriving DecidableEq, Repr

/-- One value for each dictionary user (R49). -/
structure PerUser (α : Type) where
  l : α
  m : α
  u : α
  a : α
  b : α
  c : α
  n : α
  t : α
  deriving DecidableEq, Repr

/-- One value for each host port (R350). -/
structure PerPort (α : Type) where
  a : α
  b : α
  c : α
  deriving DecidableEq, Repr

/-! ## The sideband -/

/-- A sideband message (R17): type, source, destination (0 keeper, 1 flyer, 2 spindle, 3 all), payload. -/
structure SbMsg where
  ty : Nat
  src : Die
  dst : Nat
  payload : Bytes
  deriving DecidableEq, Repr

/-- One die's sideband transmitter (R19, R21). -/
structure SbDie where
  txq : List SbMsg := []             -- queue 04: 8 messages
  acks : List SbMsg := []            -- filled ACK slots
  wait : List (SbMsg × Nat × Bool) := [] -- unacknowledged messages, the attempts made, whether the next attempt is due
  hold : List SbMsg := []            -- queue 05: LOG_WRITE records waiting for an ACK
  holdSent : Bool := false           -- the oldest record has been sent and its ACK is awaited
  holdDue : Bool := false            -- its 1 ms retry is due
  rxq : List SbMsg := []             -- queue 06: messages received and not yet taken, 2 at most (R190)
  deriving DecidableEq, Repr

structure Sideband where
  wire : Option SbMsg := none        -- the message on the line (R18)
  keeper : SbDie := {}
  flyer : SbDie := {}
  spindle : SbDie := {}
  deriving DecidableEq, Repr

/-! ## The ply link -/

/-- A flit of a data lane as its sender holds it for go-back-N (R28): TYPE, TAG and the 24 payload bytes (R25). -/
structure SentFlit where
  ty : Nat
  tag : Nat
  payload : Bytes
  deriving DecidableEq, Repr

/-- One data lane of the ply link (R25, R28, R31). Flits are counted from 0 in each burst; an ordinal modulo 16 is the SEQ (log 80). -/
structure LaneState where
  out : List SentFlit := []          -- flits sent and not acknowledged, oldest first: 4 at most
  acked : Nat := 0                   -- ordinal of the oldest flit not acknowledged
  next : Nat := 0                    -- ordinal of the flit that the sender sends next
  recv : Nat := 0                    -- ordinal of the next in-order flit that the receiver expects
  retries : Nat := 0                 -- retransmissions of the oldest unacknowledged flit
  data : Nat := 0                    -- CAPTURE flits placed on the lane
  got : Nat := 0                     -- CAPTURE flits received in order
  ended : Bool := false              -- the sender's END has been sent
  last : Bytes := []                 -- the 32 bytes of the flit last sent
  deriving DecidableEq, Repr

/-- A command of the horn and indicator queue (R148). -/
structure HornCmd where
  op : Nat
  arg : Nat
  onMs : Nat
  offMs : Nat
  reps : Nat
  deriving DecidableEq, Repr

structure Ply where
  f2s0 : LaneState := {}
  f2s1 : LaneState := {}
  s2f : LaneState := {}
  reqFlyer : Bool := false           -- burst request wires (R30)
  reqSpindle : Bool := false
  carry : Bool := false              -- the burst carries the buffered measurement
  written : Bool := false            -- its 512 CAPTURE flits are written, their last acknowledgements are awaited (R110)
  waiting : Bool := false            -- a CAPTURE_READY is waiting (R33, R164)
  q : List (List HornCmd) := []      -- queue 03: HORN flits, 8 at most
  kinds : Option (Nat × Nat) := none -- the op 0x04 slot: firmware and relayed kinds (R139, R192)
  deriving DecidableEq, Repr

/-! ## The flyer -/

/-- An optical STATUS result (R110 kind 0x01). -/
structure OptResult where
  sIr : Int
  sBl : Int
  rIr : Nat
  rBl : Nat
  dark : Nat
  flags : Nat
  tag : Nat
  loaded : Nat
  tick : Nat
  offered : Bool                     -- offered for delivery and neither delivered nor given up (R110)
  deriving DecidableEq, Repr

/-- Heat (0x02) and auxiliary (0x04) results. -/
structure CodeResult where
  code : Int
  flags : Nat
  count : Nat
  tick : Nat
  deriving DecidableEq, Repr

/-- A CO result (0x03), with the pulse fields valid while flags bit 7 is set. -/
structure CoResult where
  code : Int
  flags : Nat
  di : Nat
  stepAt : Nat
  count : Nat
  tick : Nat
  deriving DecidableEq, Repr

structure SupplyResult where
  vdd : Nat
  flyerT : Int
  keeperT : Int
  count : Nat
  tick : Nat
  deriving DecidableEq, Repr

/-- A queue report (0x06). -/
structure QueueReport where
  level : Nat
  removed : Nat
  mark : Bool
  q06 : Nat
  q07 : Nat
  q04 : Nat
  q05 : Nat
  discarded : Nat
  count : Nat
  time : Nat
  deriving DecidableEq, Repr

/-- A STATUS result sent in the running burst. -/
inductive Flight where
  | opt (r : OptResult)
  | heat (r : CodeResult)
  | co (r : CoResult)
  | aux (r : CodeResult)
  | supply (r : SupplyResult)
  | queues (r : QueueReport)
  deriving DecidableEq, Repr

/-- The pending results of the flyer, one slot for each kind (R110), and the results of the running burst that are not acknowledged (R36). -/
structure Results where
  opt : Option OptResult := none
  heat : Option CodeResult := none
  co : Option CoResult := none
  aux : Option CodeResult := none
  supply : Option SupplyResult := none
  queues : Option QueueReport := none
  heatN : Nat := 0
  coN : Nat := 0
  auxN : Nat := 0
  supplyN : Nat := 0
  queuesN : Nat := 0
  flight : List (Lane × Nat × Flight) := []  -- sent and not acknowledged: lane and ordinal
  mark : Bool := true                -- byte 2 bit 0 of reports until one is acknowledged (R110)
  deriving DecidableEq, Repr

/-- The backstop (R134 to R137, R141). -/
structure Backstop where
  blocks : List (Option Bytes) := [none, none, none, none]  -- CAL_SHADOW blocks 0 to 3
  armed : Bool := false
  kinds : Nat := 0
  smoke : Nat := 0
  smokeClear : Nat := 0
  heat : Nat := 0
  heatClear : Nat := 0
  dose : Nat := 0
  noHushSmoke : Bool := false
  noHushCo : Bool := false
  lastSent : Nat := 0                -- payload bits last sent in BACKSTOP_ALARM
  owed : Bool := true                -- the BACKSTOP_ALARM of the first evaluation after a reset is owed (R136)
  off : Bool := false                -- RETIRED: measurements stopped, disconnected from the horn (R89)
  suppressed : Nat := 0
  hushTimer : Bool := false
  deriving DecidableEq, Repr

/-- An optical measurement in progress. -/
structure OptRun where
  requested : Bool
  tick : Nat
  vdd : Nat
  deriving DecidableEq, Repr

/-- A measurement in the 12 KiB capture buffer (R33). -/
structure Measurement where
  tag : Nat
  caps : Captures
  dead : Bool := false               -- it can no longer be delivered: CAPT_HELD was set when it was offered (R110)
  deriving DecidableEq, Repr

/-- The phases of the CO integrity pulse (R119). -/
inductive PulsePhase where
  | idle
  | step (at_ : Nat)
  | settling
  deriving DecidableEq, Repr

/-- The measurement sequencer (R104 to R120). -/
structure Sensing where
  opt : Option OptRun := none
  reqAccepted : Bool := false
  reqBegan : Option Nat := none      -- CLK_AON count at which the last requested measurement began
  optWaiting : Option Nat := none    -- a scheduled measurement fell due while one was in progress (R104): VDD_IN at its tick
  tag : Nat := 0
  buf : Option Measurement := none
  heat : Option Nat := none          -- tick times of conversions in progress
  co : Option Nat := none
  aux : Option Nat := none
  heatWait : Bool := false           -- a measurement fell due while one of its sensor was in progress (R104)
  coWait : Bool := false
  auxWait : Bool := false
  pulse : PulsePhase := .idle
  pulseResult : Option (Nat × Nat) := none  -- peak and time of the step, not yet in a CO result
  loadedRaw : Nat := 0
  loadedCount : Nat := 0
  flyerT : Int := 0
  keeperT : Int := 0
  deriving DecidableEq, Repr

/-- What the horn plays (R147): no sound, the two alarm patterns, the chirps, the 24 kHz check, a command of queue 01. -/
inductive Pattern where
  | none_ | t3 | co | faultChirp | eolChirp | check24 | command
  deriving DecidableEq, Repr

/-- What the indicators show beside the horn (R147). -/
inductive Indication where
  | none_ | relayed | hush | commissioning | selftest | heartbeat
  deriving DecidableEq, Repr

/-- The horn, the indicators and the flyer's pads (R144 to R149). Times run in milliseconds from the start of what is played or shown. -/
structure Horn where
  queue : List HornCmd := []         -- queue 01
  removed : Nat := 0
  discarded : Nat := 0
  row : Nat := 9
  pattern : Pattern := .none_
  phase : Nat := 0                   -- time into the pattern
  playing : Option HornCmd := none   -- the command being played
  drive : Bool := false              -- an on-phase
  on : Bool := false                 -- the horn is driven
  onAt : Nat := 0                    -- CLK_AON count at which the drive began
  onCycles : Nat := 0                -- CLK_AON cycles sounded and not yet committed (R158)
  boost : Nat := 0                   -- target of VBOOST in mV, 0 discharged (R145)
  toneHz : Nat := 0                  -- HORN_FREQ as the tone being played took it (R145)
  ready : Bool := false              -- VBOOST at 90 % of its target, or 20 ms passed (R145)
  fallback : Bool := false           -- driven at 3,200 Hz (R145)
  stopped : Bool := false            -- drive stopped for the rest of the on-phase (R149)
  fault : Bool := false
  vboost : Nat := 0
  chirps : Nat := 0
  show_ : Indication := .none_
  shown : Nat := 0                   -- time into the indication
  refused : Option Nat := none       -- time into the hush-refused indication (R140)
  test : Option (Bool × Nat) := none -- the result of a TEST_BTN self-test being shown, and the time into it
  ind1 : Bool := false
  ind2 : Bool := false
  ind3 : Bool := false
  fwKinds : Option Nat := none       -- kinds of the last op 0x04 (R146)
  relKinds : Nat := 0
  check : Bool := false              -- self-test horn step running
  alarmOut : Bool := false
  icDriven : Bool := false
  icLevel : Bool := false
  icRelayed : Bool := false
  deriving DecidableEq, Repr

/-- A flyer domain as its sequencer on the flyer has it (R160, R161, R177): its rest state as the last DOMAIN message gave it, and its state. -/
structure FlyDom where
  rest : Nat := 1
  state : Nat := 2
  deriving DecidableEq, Repr

/-- OPT, HEAT, GAS, HORN, IND, PLY_F and BACKSTOP after a reset: ON, with the rest states of R163 (log 86). -/
def flyDomsReset : List FlyDom := [{ rest := 0 }, { rest := 0 }, { rest := 1 }, { rest := 0 }, { rest := 0 }, { rest := 1 }, { rest := 2 }]

structure Flyer where
  up : Bool := false
  doms : List FlyDom := flyDomsReset -- the domains 0x29 to 0x2F
  mayBurst : Bool := true            -- PEER_RESET (R38)
  quietOwed : Bool := false          -- PLY_QUIET to be sent when the burst ends
  mode : Option Mode := none         -- copy of the mode (R90, R141)
  rtc : Option Nat := none           -- copy of RTC_TIME (R188)
  drops : Nat := 0                   -- sideband messages dropped (R19)
  bs : Backstop := {}
  sense : Sensing := {}
  res : Results := {}
  horn : Horn := {}
  regs : Sparse Nat := []            -- command registers (R184)
  deriving DecidableEq, Repr

/-! ## The keeper -/

/-- Where the spindle reset sequence of R38 stands. -/
inductive SpindleSeq where
  | released
  | quiet (cause : Nat)              -- PEER_RESET 0 sent
  | held                             -- in reset
  | heldBackoff                      -- in reset until the 64 s of R252 have passed
  deriving DecidableEq, Repr

/-- A request of a dictionary user (R56). -/
structure Request where
  user : User
  op : Nat                           -- 1 read, 2 write, 3 stage
  idx : Nat
  sub : Nat
  value : Bytes
  seq : Nat
  node : Nat                         -- requester's node ID on CAN
  dropped : Bool                     -- its response is discarded (R363)
  ext : Bool := true                 -- a core store's upper bits are the extension of its value (R63)
  deriving DecidableEq, Repr

structure Response where
  req : Request
  status : Nat
  value : Bytes
  deriving DecidableEq, Repr

structure NvmJob where
  req : Request
  writes : List (Nat × Nat)          -- entries and values
  batch : Bool
  deriving DecidableEq, Repr

/-- What the keeper asks a word of the RNG for (R297): the self-test spread, the UID of a field session, a UID for the pool. -/
inductive WordUse where
  | spread | uid | pool
  deriving DecidableEq, Repr

/-- The weekly self-test (R151 to R156). -/
structure SelfTest where
  step : Nat := 0                    -- step running, 0 none
  trigger : Nat := 0
  source : Nat := 0x46
  waiting : Bool := false
  run : Nat := 0
  passed : Nat := 0
  ohm : Nat := 0
  batt : Nat := 0
  di : Nat := 0
  refPct : Nat := 0
  deriving DecidableEq, Repr

/-- A record waiting in queue 02 (R312): its type, source and 12 data bytes. -/
structure LogRec where
  ty : Nat
  src : Nat
  data : Bytes
  keeper : Bool                      -- in the keeper's reserve share (R321)
  deriving DecidableEq, Repr

/-- A record formed for a slot. -/
structure Formed where
  what : LogRec
  slot : Nat
  bytes : Bytes
  pair : Option (Bytes × Bytes)
  deriving DecidableEq, Repr

/-- A record that awaits its signature (R315). -/
structure Await where
  what : LogRec
  slot : Nat
  bytes : Bytes
  digest : Bytes
  parts : List (Nat × Bytes)         -- halves of r and s by step code
  deriving DecidableEq, Repr

structure LogUnit where
  slots : Sparse Bytes := []
  queue : List LogRec := []
  writing : Option Formed := none
  await : Option Await := none
  last : Option Bytes := none
  failAt : Option Nat := none        -- time of the last failed request (R316)
  lastAt : Sparse Nat := []          -- by type: time of the last monitor record (R306), plus one
  since : Sparse Nat := []           -- by type: alerts since that record
  active : List (Nat × Nat) := []    -- monitors whose condition holds: type and instance (R304)
  linkAt : Option Nat := none        -- time of the last LINK record (R36)
  fwdAt : Sparse Nat := []           -- by requester: time of the last FABRIC_WATCHDOG record, plus one (R208)
  deriving DecidableEq, Repr

/-- The contactless front end (R366 to R382). -/
structure Tag where
  session : Bool := false
  uid : Bytes := []
  level : Nat := 1
  selected : Bool := false
  block : Bool := false              -- block number of the device
  fsd : Nat := 256
  chain : Bytes := []                -- command APDU being assembled
  pendingApdu : Option Bytes := none
  out : Bytes := []                  -- rest of a response being chained
  lastBlock : Bytes := []
  answer : Bytes := []               -- the frame last sent to the reader
  wtx : Bool := false
  rndR : Bytes := []
  rndD : Bytes := []
  v : Nat := 0
  step1 : Bool := false
  open_ : Bool := false
  c : Nat := 0
  fails : Nat := 0
  waitingT : Bool := false           -- a dictionary request of user T is being served
  ready : Option Bytes := none       -- a response that waits for the reader's S(WTX) response (R372)
  deriving DecidableEq, Repr

structure Keeper where
  aon : Nat := 0                     -- CLK_AON cycles
  trimAcc : Int := 0                 -- the trim of RTC_TIME not yet a whole cycle, in 0.1 ppm of a cycle (R186)
  tickAt : Option Nat := none        -- the CLK_AON count at which the last second of RTC_TIME ended (R187)
  vddMv : Nat := 0
  vddValid : Bool := false
  notices : Nat := 0                 -- pending notice word (R71)
  savedService : Nat := 0            -- SERVICE_SECONDS as last committed (R94)
  savedTime : Nat := 0               -- RTC_TIME as last committed (R189)
  lcRows : List Nat := [0x0F0F0F0F, 0, 0, 0, 0]
  lcReported : Bool := false
  hbLost : Bool := false
  shadowBad : Bool := false
  shadowOk : Bool := false           -- the CRC last reported by the flyer equals BS_SHADOW_CRC
  hbCrc : Nat := 0                   -- the CRC last reported by the flyer
  words : List WordUse := []         -- words that the keeper asks the spindle die for, one after the other (R297)
  wordsAt : Nat := 0                 -- CLK_AON count at which the first of them was asked for
  startOwed : Bool := false          -- a start of the keeper on field power, not yet counted (R314, R322)
  poolDue : Bool := false            -- the UID pool is to be refilled, or being refilled (R370)
  supplyLow : Bool := false
  bootBad : Bool := false
  stBad : Bool := false
  lcArmed : Option (User × Nat) := none
  lcProgramming : Option (User × Nat) := none
  dbgValid : Bool := false           -- a challenge stands (R101)
  dbgLockout : Bool := false         -- within 10 s of a failed unlock
  seq : SpindleSeq := .held
  helloSeen : Bool := false
  nrstLow : Bool := false
  live : Bool := false               -- the backstop is live (R39, R40)
  lockedUp : Bool := false
  hushEntry : Nat := 0               -- backstop and firmware kinds at hush entry (R84)
  noHush : Bool := false             -- BACKSTOP_ALARM bit 3 (R136)
  relCan : Nat := 0                  -- relayed kinds by path (R142)
  relIc : Bool := false
  judged : Option Nat := none        -- count of the measurement judged last (R121)
  chirpBase : Option Nat := none
  calRows : List Bytes := []
  written : List Nat := []           -- one-time writes used (R47)
  jobs : List NvmJob := []
  altBit : Bool := false
  attempt : Bool := false            -- a boot attempt is running (R253)
  bootRecAt : Option Nat := none
  oem0 : Bool := false
  oem1 : Bool := false
  revoked0 : Bool := false
  wdt : Option Nat := none           -- CLK_AON cycles to the expiry of the watchdog while it runs (R234)
  st : SelfTest := {}
  pool : List Nat := []              -- random UIDs
  testmode : Bool := false           -- TESTMODE seen high in BLANK (R395)
  deriving DecidableEq, Repr

/-! ## The spindle die -/

/-- The dictionary engine (R56 to R68). -/
structure Dict where
  reqs : PerUser (List Request)
  resps : PerUser (List Response)
  held : PerUser Bool                -- a held period is open (R57)
  last : User
  staged : PerUser (List (Nat × Nat))
  xferM : Region
  xferU : Region
  reply : Nat × Bytes                -- the reply last handed to the core or the loader
  deriving DecidableEq, Repr

/-- One resource of the arbiter (R199 to R206). -/
structure ArbRes where
  pend : List (Nat × Nat) := []      -- pending configuration: entry and value
  owner : Option Nat := none         -- holder of an uncompleted transfer
  heldFor : Nat := 0                 -- cycles for which it has not completed (R207)
  window : Nat := 0                  -- cycles into the credit window
  spent : List Nat := []             -- credits spent in the window, by requester
  deriving DecidableEq, Repr

/-- What a requester asks the arbiter for (R198): transfers still to be granted, and their resource. -/
structure ArbAsk where
  res : Nat := 0
  left : Nat := 0
  deriving DecidableEq, Repr

/-- The core (R210 to R236). -/
structure Core where
  gpr : List Word                    -- x1 to x31
  pc : Word
  user : Bool                        -- privilege: true U, false M
  mstatus : Word
  mie : Word
  mtvec : Word
  mscratch : Word
  mepc : Word
  mcause : Word
  mtval : Word
  mcounteren : Word
  mcountinhibit : Word
  mcycle : BitVec 64
  minstret : BitVec 64
  svctl : Word
  lockByMode : Bool                  -- CODE_LOCK set by the mode machine (R230)
  faultinfo : Word
  aontime : Word
  aoncmp : Word
  mpuBase : List Word
  mpuAttr : List Word
  tselect : Word
  tdata1 : List Word
  tdata2 : List Word
  dcsr : Word
  dpc : Word
  dscratch0 : Word
  dscratch1 : Word
  data0 : Word                       -- argument of abstract commands
  cmderr : Nat
  progbuf : List Word                -- program buffer (R235)
  inEntry : Bool
  queue : List (Nat × BitVec 16)     -- prefetch queue (R226)
  waiting : Bool                     -- in WFI
  halted : Bool
  haltOwed : Bool                    -- a halt request held while the in-entry flag is set (R224)
  debugOpen : Bool
  jobDone : Bool                     -- crypto job done (R220)
  asked : Option Request             -- the window access that blocks the core until its response arrives (R64)
  progAt : Option Nat                -- halfword of the program buffer whose window access blocks the debug module
  deriving DecidableEq, Repr

/-- The memories of R213 and the serial flash (R239). -/
structure Mem where
  code : Region
  data : Region
  capt : Region
  scratch : Region
  flash : Region
  deriving DecidableEq, Repr

/-- A transaction on the flash pads (R242): instruction, address where it has one, the lines of instruction, address and data, the clocks between the
address and the data, FL_CLK as a fraction of 72 MHz. -/
structure FlashTx where
  instr : Nat
  addr : Option Nat := none
  lines : Nat := 111
  clocks : Nat := 0
  div : Nat := 8
  deriving DecidableEq, Repr

/-- A job of an AES page (R274, R278): over memory, or a request that waits for the engine. -/
inductive PageJob where
  | mem (src dst len : Nat)
  | req (q : Request)
  deriving DecidableEq, Repr

/-- The request that waits in a job of a page. -/
def PageJob.req? (j : PageJob) : Option Request :=
  match j with
  | .mem _ _ _ => none
  | .req q => some q

/-- One AES page (R267 to R273). -/
structure Page where
  key : Bytes := []
  state : Nat := 0                   -- 0 to 6 of R280
  run : Bytes := []                  -- CBC chaining value or counter block
  mac : Bytes := []                  -- CMAC or GHASH value
  h : Bytes := []                    -- GCM hash subkey
  j0 : Bytes := []
  buf : Bytes := []                  -- bytes of the part not yet taken as whole blocks
  aadLeft : Nat := 0
  msgLeft : Nat := 0
  unread : Bool := false
  jobs : List PageJob := []          -- queue 08: 2 jobs at most
  status : Nat := 0
  chunks : Nat := 0
  mask : Word := 0                   -- the word with which the masking generator was last reseeded (R275)
  blocks : Nat := 0                  -- AES blocks since then
  owes : Bool := false               -- a reseed is due before the next block
  asked : Bool := false              -- its word has been asked for
  words : List Word := []            -- the word, delivered
  deriving DecidableEq, Repr

/-- One SHA-256 context (R277). -/
structure ShaCtx where
  open_ : Bool := false
  ready : Bool := false
  h : List (BitVec 32) := []
  len : Nat := 0
  buf : Bytes := []                  -- bytes not yet hashed as a whole block
  status : Nat := 0
  deriving DecidableEq, Repr

/-- A job of the SHA-256 engine (R249, R274, R278): the loader's half-block, `last` of its block; a memory job of M; a request that waits. -/
inductive ShaJob where
  | half (addr len : Nat) (last : Bool)
  | mem (addr len : Nat)
  | req (q : Request)
  deriving DecidableEq, Repr

/-- The request that waits in a job of the SHA-256 engine. -/
def ShaJob.req? (j : ShaJob) : Option Request :=
  match j with
  | .half _ _ _ => none
  | .mem _ _ => none
  | .req q => some q

/-- The loader (R237 to R255). -/
structure Loader where
  word : Nat := 0x1E1E1E1E           -- the loader state word (R238)
  slot : Nat := 0                    -- slot being tried
  fallback : Bool := false           -- no SFDP (R240)
  size : Nat := 0                    -- flash size used
  mode : Nat := 0                    -- 0 fallback, 1 mode 1-1-1, 2 mode 1-1-4, 3 mode 1-4-4
  read : FlashTx := { instr := 0x03 } -- how the flash is read, as left for the flash data window (R242)
  div : Nat := 1                     -- d
  dir : Nat := 0                     -- 0 valid, 1 absent, 2 invalid (R243)
  eraseOk : Bool := false            -- BFPT DWORD 1 [1:0] is 0b01 (R259)
  erase : Nat := 0                   -- the 4 KiB erase instruction
  headA : Bytes := zeros 32          -- first 32 bytes of the manifests of A and B
  headB : Bytes := zeros 32
  key : Nat := 0                     -- BOOT_KEY
  got : Nat := 0                     -- image bytes read
  hash : ShaCtx := {}                -- the hash of the block being streamed
  digest : Option Bytes := none      -- a block's digest, not yet compared
  block : Nat := 0                   -- blocks whose digest has matched
  failBlock : Nat := 0xFFFF
  report : Option Nat := none        -- BOOT_REPORT written
  deriving DecidableEq, Repr

/-- Who asked for a big-number job (R287). -/
inductive BnBy where
  | loader
  | keeper (digest : Bytes)
  | user (u : User) (op src : Nat)
  deriving DecidableEq, Repr

/-- The big-number engine (R282 to R294). -/
structure Bn where
  loader : Bool := false
  keeper : Option Bytes := none
  users : List (User × Nat × Nat) := []    -- queued: user, op, source
  running : Option BnBy := none
  waiting : List User := []                -- op 7 jobs in state 3
  rngLeft : Nat := 0                       -- words of the running job not yet delivered
  words : List Word := []
  stale : Bool := false
  last : User := .T
  blind : Bytes := zeros 32                -- state of the blinding generator (R292)
  blindN : Nat := 0                        -- its counter
  masks : List Bytes := []                 -- the fresh values that the last secret job drew from it
  sign : List (Nat × Bytes) := []          -- halves of the checkpoint digest received (R315)
  deriving DecidableEq, Repr

/-- A user's big-number state. -/
structure BnUser where
  state : Nat := 0
  status : Nat := 0
  detail : Nat := 0
  msg : Bytes := []
  left : Nat := 0
  ready : Bool := false                    -- an op 7 job whose message is complete
  eph : Bytes := []
  ephX : Bool := false                     -- the ephemeral scalar is for Curve25519
  deriving DecidableEq, Repr

/-- A hardware consumer of the RNG (R297). -/
inductive RngUser where
  | keeperSign | bn | aes (u : User) | debug | spread | pool
  deriving DecidableEq, Repr

/-- The random-number source (R296 to R300). -/
structure Rng where
  pool : Bytes := zeros 32
  counter : Nat := 0
  fifo : List Word := []
  waiting : List (RngUser × Nat) := []
  deriving DecidableEq, Repr

/-- A CAN frame (R331). -/
structure Frame where
  id : Nat
  data : Bytes
  fd : Bool
  deriving DecidableEq, Repr

/-- A frame in the CAN RX FIFO, as its function has it (R331). -/
inductive CanRx where
  | beacon (b0 b1 : Byte)
  | source (node : Nat)
  | request (target : Nat) (payload : Bytes)
  | other                            -- RESPONSE or NOTICE
  | time (node time : Nat)
  | heartbeat (node : Nat)
  deriving DecidableEq, Repr

/-- The CAN controller (R326 to R348). -/
structure Can where
  tx : List Frame := []              -- queue 09
  sending : Option Frame := none
  count : Nat := 0
  lastPos : Nat := 0
  backoff : Option Nat := none       -- CLK_AON count at which the back-off ends (R343)
  busOff : Bool := false
  held : Bool := false
  joined : Bool := false
  sinceOk : Nat := 0
  seg : Option (Request × Bytes) := none
  kept : Option (List Bytes × Request × Nat) := none -- payloads of the response last formed, its request, its time (R338)
  notices : List Bytes := []         -- payloads of the NOTICE frames that bits newly set have called for (R339)
  rx : List CanRx := []              -- queue 12: 16 frames received and not yet parsed (R184, R348)
  beaconDelay : Option Nat := none   -- next BEACON after a lost one, ms (R335)
  deriving DecidableEq, Repr

/-- One host port (R351 to R363). -/
structure HostPort where
  cs : Bool := false                 -- a transaction is running
  mode3 : Bool := false
  chosen : Nat := 0                  -- 0 nothing, 1 answer slot, 2 response queue
  taken : Bool := false              -- the transaction's request is complete or discarded: further bytes are ignored (R355)
  part : Bool := false               -- the transaction has brought a part of a request
  fetch : Bool := false              -- its first byte was 0xFF (R355)
  frames : List Bytes := []          -- queue 13: requests that passed check 1 and wait for the parser, 2 at most (R190)
  out : Bytes := []                  -- what SDO carried in the transaction last ended, or HC_TXD with the response last sent (R356, R359)
  answer : Option Response := none
  kept : Option Response := none
  baud : Option Nat := none          -- the rate in effect while it is not yet HP_BAUD's (R358)
  deriving DecidableEq, Repr

/-- The local sequencer of one domain (R172, R177). -/
structure DomSeq where
  target : Nat := 1                  -- state an entry leads to
  wake : Option Nat := none          -- a wake held during an entry of CORE, CODE or DATA
  idleTried : Bool := false
  owed : Option Nat := none          -- DOMAIN message not yet acknowledged (R161)
  deriving DecidableEq, Repr

structure Spindle where
  alive : Bool := false              -- out of reset
  handed : Bool := false
  lockedUp : Bool := false
  lockupPad : Bool := false
  lockCause : Word := 0
  lockEpc : Word := 0
  mode : Option Mode := none
  rtc : Option Nat := none
  placed : Nat := 0                  -- credit of queue 01 (R192)
  freed : Nat := 0
  dropSeen : Nat := 0
  temps : List (Nat × Int × Int) := [] -- tick times and exact temperatures as fractions, in °C (R116)
  xoFound : Bool := false
  xoChecked : Bool := false
  xoFail : Bool := false             -- CLK_XO failed to start at the last wake of NET (R181)
  tapIr : Nat := 1                   -- instruction of the JTAG TAP; IDCODE after its reset (R100, R235)
  flOp : Option (Nat × Nat) := none  -- flash operation in progress: op and address
  flBus : List FlashTx := []         -- transactions of the last command that used the flash (R242)
  dict : Dict
  arb : List ArbRes
  asks : List ArbAsk                 -- by requester
  delayRun : List Nat
  stq : List Flight := []            -- PLY_STQ: STATUS results received that the result unit has not yet written (R184)
  core : Core
  mem : Mem
  loader : Loader := {}
  pages : PerUser Page
  sha : PerUser ShaCtx
  aesLast : User := .T               -- the user whose AES job was served last (R278)
  shaJobs : List ShaJob := []        -- queue 08 of the SHA-256 engine: 2 jobs at most
  shaLast : User := .T
  bn : Bn := {}
  bnUser : PerUser BnUser
  rng : Rng := {}
  can : Can := {}
  ports : PerPort HostPort
  deriving DecidableEq, Repr

/-- The pads that enter from outside and no other structure holds (R384). -/
structure Pads where
  caseSw : Bool := true
  baseSw : Bool := true
  field : Bool := false
  testBtnLow : Bool := false
  rxdLow : Bool := false             -- HC_RXD is low: a UART frame has started
  caseLatch : Bool := false          -- CASE_SW or BASE_SW has changed, and TAMPER is not yet ON (R170)
  baseLatch : Bool := false
  deriving DecidableEq, Repr

/-- The device. -/
structure State where
  pending : List Instr               -- commands waiting, first in, first out
  free : Nat                         -- the model's own counter of free values; nothing rests on its value (log 1)
  ent : Sparse Nat                   -- values of dictionary entries
  sb : Sideband
  ply : Ply
  flyer : Flyer
  keeper : Keeper
  log : LogUnit
  tag : Tag
  doms : List DomSeq                 -- by domain, 0x20 to 0x32
  spindle : Spindle
  pads : Pads
  deriving DecidableEq, Repr

/-- How a step can stop with a fault. The model raises none: every effect the spec gives is a next state. -/
inductive Fault where
  /-- Raised by nothing: the block has no fault of its own. Safe. -/
  | none_
  deriving DecidableEq, Repr

/-- Why a step can be refused. -/
inductive Refusal where
  /-- A command whose meaning is not written. Raised by arms of `exec` only. Safe. -/
  | notModelled (mnemonic : String)
  deriving DecidableEq, Repr

/-! ## Reset -/

def PerUser.const {α : Type} (x : α) : PerUser α := ⟨x, x, x, x, x, x, x, x⟩
def PerPort.const {α : Type} (x : α) : PerPort α := ⟨x, x, x⟩

/-- The core at handover (R257), with zero where no rule names a value (log 2). -/
def Core.atReset : Core where
  gpr := List.replicate 31 0
  pc := 0x10000000
  user := false
  mstatus := 0x00200000
  mie := 0
  mtvec := 0x10000000
  mscratch := 0
  mepc := 0
  mcause := 0
  mtval := 0
  mcounteren := 0
  mcountinhibit := 0
  mcycle := 0
  minstret := 0
  svctl := 0
  lockByMode := false
  faultinfo := 0
  aontime := 0
  aoncmp := 0xFFFFFFFF
  mpuBase := List.replicate 8 0
  mpuAttr := List.replicate 8 0
  tselect := 0
  tdata1 := [0x20000000, 0x20000000]
  tdata2 := [0, 0]
  dcsr := 0x40000003
  dpc := 0
  dscratch0 := 0
  dscratch1 := 0
  data0 := 0
  cmderr := 0
  progbuf := [0, 0]
  inEntry := false
  queue := []
  waiting := false
  halted := false
  haltOwed := false
  debugOpen := false
  jobDone := false
  asked := none
  progAt := none

def Dict.atReset : Dict where
  reqs := PerUser.const []
  resps := PerUser.const []
  held := PerUser.const false
  last := .T
  staged := PerUser.const []
  xferM := {}
  xferU := {}
  reply := (0, [])

/-- The memories before any write: SRAM undefined, scratch zero (R163, R257), the flash erased (log 3). -/
def Mem.atReset : Mem where
  code := { fill := .free 0 }
  data := { fill := .free 1 }
  capt := { fill := .free 2 }
  scratch := {}
  flash := { fill := .ones }

def Spindle.atReset : Spindle where
  dict := Dict.atReset
  arb := List.replicate 6 {}
  asks := List.replicate 12 {}
  delayRun := List.replicate 12 0
  core := Core.atReset
  mem := Mem.atReset
  pages := PerUser.const {}
  sha := PerUser.const {}
  bnUser := PerUser.const {}
  ports := PerPort.const {}

/-- A row of user calibration with every delta zero, a write count of zero and its CRC-16/CCITT-FALSE (R126). -/
def freshCalRow : Bytes := zeros 62 ++ [0xDB, 0xC9]

/-- The device as it stands before its first VDD_IN: a BLANK part (Imryn programs row 0 at wafer test, R96), every entry at its default,
the spindle die held in reset (R384). Log 2, log 4. -/
def State.reset : State where
  pending := []
  free := 3
  ent := []
  sb := {}
  ply := {}
  flyer := {}
  keeper := { calRows := [freshCalRow, freshCalRow, freshCalRow] }
  log := {}
  tag := {}
  doms := List.replicate 19 {}
  spindle := Spindle.atReset
  pads := {}

end Sys2Proof.Machine
end

