-- ==== Sys2Proof/Machine/Ops.lean ====
section
/-! DEFINITION. The named operations over the state: sparse values and memories, dictionary entries, one part of the state at a time,
the free values, the sideband transmitters and the keeper's log write queue. -/
namespace Sys2Proof.Machine

/-! ## Sparse values -/

/-- The value of a key, `d` where none is listed. -/
def sparseGet {α : Type} (d : α) (k : Nat) : Sparse α → α
  | [] => d
  | p :: l => if p.1 = k then p.2 else sparseGet d k l

/-- Without a key. -/
def sparseDel {α : Type} (k : Nat) (l : Sparse α) : Sparse α := l.filter fun p => p.1 != k

/-- A value inserted before the first greater key. -/
def sparseIns {α : Type} (k : Nat) (v : α) : Sparse α → Sparse α
  | [] => [(k, v)]
  | p :: l => if k < p.1 then (k, v) :: p :: l else p :: sparseIns k v l

/-- A value written; the value that an unlisted key reads as removes the key. -/
def sparseSet {α : Type} [DecidableEq α] (d : α) (k : Nat) (v : α) (l : Sparse α) : Sparse α :=
  if v = d then sparseDel k l else sparseIns k v (sparseDel k l)

/-- Keys strictly rising. -/
abbrev SparseWf {α : Type} (l : Sparse α) : Prop := l.Pairwise fun p q => p.1 < q.1

/-! ## Memories -/

/-- What an unlisted byte reads as. -/
def Fill.value : Fill → Nat → Byte
  | .zero, _ => 0
  | .ones, _ => 0xFF
  | .free n, a => Config.freeByte n a

/-- A byte written: a listed byte equal to a known fill is not kept; bytes over a free fill are (log 3). -/
def Region.put (r : Region) (a : Nat) (b : Byte) : Region :=
  match r.fill with
  | .zero => { r with cells := sparseSet 0 a b r.cells }
  | .ones => { r with cells := sparseSet 0xFF a b r.cells }
  | .free _ => { r with cells := sparseIns a b (sparseDel a r.cells) }

/-- The byte at an address. -/
def Region.get (r : Region) (a : Nat) : Byte := sparseGet (r.fill.value a) a r.cells

/-- Bytes written from an address on. -/
def Region.putAll (r : Region) (a : Nat) : Bytes → Region
  | [] => r
  | b :: bs => (r.put a b).putAll (a + 1) bs

/-- `n` bytes from an address on. -/
def Region.getAll (r : Region) (a n : Nat) : Bytes := (List.range n).map fun i => r.get (a + i)

/-- The canonical form of a memory. -/
abbrev Region.wf (r : Region) : Prop :=
  SparseWf r.cells ∧ ∀ c ∈ r.cells, (r.fill = .zero → c.2 ≠ 0) ∧ (r.fill = .ones → c.2 ≠ 0xFF)

/-! ## One value for each user, each port, each die -/

def PerUser.get {α : Type} (p : PerUser α) : User → α
  | .L => p.l | .M => p.m | .U => p.u | .A => p.a | .B => p.b | .C => p.c | .N => p.n | .T => p.t

def PerUser.set {α : Type} (p : PerUser α) (u : User) (x : α) : PerUser α :=
  match u with
  | .L => { p with l := x } | .M => { p with m := x } | .U => { p with u := x } | .A => { p with a := x }
  | .B => { p with b := x } | .C => { p with c := x } | .N => { p with n := x } | .T => { p with t := x }

def PerPort.get {α : Type} (p : PerPort α) : Port → α
  | .A => p.a | .B => p.b | .C => p.c

def PerPort.set {α : Type} (p : PerPort α) (q : Port) (x : α) : PerPort α :=
  match q with
  | .A => { p with a := x } | .B => { p with b := x } | .C => { p with c := x }

/-- The users in the fixed order of R10. -/
def users : List User := [.L, .M, .U, .A, .B, .C, .N, .T]

/-- Position in that order. -/
def userNum : User → Nat
  | .L => 0 | .M => 1 | .U => 2 | .A => 3 | .B => 4 | .C => 5 | .N => 6 | .T => 7

/-- The ID8 of a user (R46). -/
def userId (u : User) : Nat := 0x10 + userNum u

def portUser : Port → User
  | .A => .A | .B => .B | .C => .C

def portNum : Port → Nat
  | .A => 1 | .B => 2 | .C => 3

/-- The code of a die in sideband headers (R17). -/
def dieNum : Die → Nat
  | .keeper => 0 | .flyer => 1 | .spindle => 2

/-! ## One part of the state at a time -/

namespace State
def onKeeper (s : State) (f : Keeper → Keeper) : State := { s with keeper := f s.keeper }
def onFlyer (s : State) (f : Flyer → Flyer) : State := { s with flyer := f s.flyer }
def onSpindle (s : State) (f : Spindle → Spindle) : State := { s with spindle := f s.spindle }
def onLog (s : State) (f : LogUnit → LogUnit) : State := { s with log := f s.log }
def onTag (s : State) (f : Tag → Tag) : State := { s with tag := f s.tag }
def onPly (s : State) (f : Ply → Ply) : State := { s with ply := f s.ply }
def onPads (s : State) (f : Pads → Pads) : State := { s with pads := f s.pads }
def onSb (s : State) (f : Sideband → Sideband) : State := { s with sb := f s.sb }
def onSelfTest (s : State) (f : SelfTest → SelfTest) : State := s.onKeeper fun k => { k with st := f k.st }
def onHorn (s : State) (f : Horn → Horn) : State := s.onFlyer fun x => { x with horn := f x.horn }
def onSense (s : State) (f : Sensing → Sensing) : State := s.onFlyer fun x => { x with sense := f x.sense }
def onRes (s : State) (f : Results → Results) : State := s.onFlyer fun x => { x with res := f x.res }
def onBs (s : State) (f : Backstop → Backstop) : State := s.onFlyer fun x => { x with bs := f x.bs }
def onDict (s : State) (f : Dict → Dict) : State := s.onSpindle fun x => { x with dict := f x.dict }
def onCore (s : State) (f : Core → Core) : State := s.onSpindle fun x => { x with core := f x.core }
def onMem (s : State) (f : Mem → Mem) : State := s.onSpindle fun x => { x with mem := f x.mem }
def onLoader (s : State) (f : Loader → Loader) : State := s.onSpindle fun x => { x with loader := f x.loader }
def onBn (s : State) (f : Bn → Bn) : State := s.onSpindle fun x => { x with bn := f x.bn }
def onRng (s : State) (f : Rng → Rng) : State := s.onSpindle fun x => { x with rng := f x.rng }
def onCan (s : State) (f : Can → Can) : State := s.onSpindle fun x => { x with can := f x.can }
def onPage (s : State) (u : User) (f : Page → Page) : State :=
  s.onSpindle fun x => { x with pages := x.pages.set u (f (x.pages.get u)) }
def onSha (s : State) (u : User) (f : ShaCtx → ShaCtx) : State :=
  s.onSpindle fun x => { x with sha := x.sha.set u (f (x.sha.get u)) }
def onBnUser (s : State) (u : User) (f : BnUser → BnUser) : State :=
  s.onSpindle fun x => { x with bnUser := x.bnUser.set u (f (x.bnUser.get u)) }
def onPort (s : State) (p : Port) (f : HostPort → HostPort) : State :=
  s.onSpindle fun x => { x with ports := x.ports.set p (f (x.ports.get p)) }

/-- The counter of free values moves on (log 1). -/
def used (s : State) : State := { s with free := s.free + 1 }
end State

/-! ## Entries -/

/-- The reset value of an entry. -/
def entryDefault (e : Nat) : Nat := ((findRow e).map (·.dflt)).getD 0

/-- The size of an entry in bytes. -/
def entrySize (e : Nat) : Nat := ((findRow e).map (·.ty.size)).getD 4

namespace State
/-- The stored value of an entry that is not per-user. -/
def get (s : State) (e : Nat) : Nat := sparseGet (entryDefault e) (e * 8) s.ent

/-- A value stored in an entry that is not per-user. -/
def put (s : State) (e v : Nat) : State := { s with ent := sparseSet (entryDefault e) (e * 8) v s.ent }

/-- The stored value of one user's instance (R51). -/
def getU (s : State) (e : Nat) (u : User) : Nat := sparseGet (entryDefault e) (e * 8 + userNum u) s.ent

/-- A value stored in one user's instance (R51). -/
def putU (s : State) (e : Nat) (u : User) (v : Nat) : State :=
  { s with ent := sparseSet (entryDefault e) (e * 8 + userNum u) v s.ent }

/-- A saturating counter counts `n` (R44, R45). -/
def bumpBy (s : State) (e n : Nat) : State := s.put e (min (s.get e + n) (256 ^ entrySize e - 1))
def bump (s : State) (e : Nat) : State := s.bumpBy e 1

/-- The counter of one user's instance. -/
def bumpU (s : State) (e : Nat) (u : User) : State := s.putU e u (min (s.getU e u + 1) (256 ^ entrySize e - 1))

/-- A signed value of 32 bits, as F32 and S32 entries hold it (R44). -/
def getS (s : State) (e : Nat) : Int := toSigned (8 * entrySize e) (s.get e)
def putS (s : State) (e : Nat) (i : Int) : State := s.put e (ofSigned (8 * entrySize e) (satSigned (8 * entrySize e) i))

/-- Bits of `m` set in an entry. -/
def setBits (s : State) (e m : Nat) : State := s.put e (s.get e ||| m)

/-- Entries returned to their defaults: those whose row satisfies `p`. -/
def dropEntries (s : State) (p : EntryRow → Bool) : State :=
  { s with ent := s.ent.filter fun c => !(((findRow (c.1 / 8)).map p).getD false) }
end State

/-! ## Time -/

/-- The first whole CLK_AON cycle at which `ms` milliseconds have passed (R179). -/
def aonMs (ms : Nat) : Nat := (ms * 32768 + 999) / 1000

/-- The time (R186). -/
def now (s : State) : Nat := s.get Ent.RTC_TIME

/-! ## Domains (R163): ordinals, ID8s, states -/

/-- Position in the order of R46. -/
def domNum : Domain → Nat
  | .core => 0 | .code => 1 | .data => 2 | .capt => 3 | .crypto => 4 | .rng => 5 | .net => 6 | .host => 7 | .plyS => 8
  | .opt => 9 | .heat => 10 | .gas => 11 | .horn => 12 | .ind => 13 | .plyF => 14 | .backstop => 15 | .keep => 16 | .tag => 17
  | .tamper => 18

def allDomains : List Domain :=
  [.core, .code, .data, .capt, .crypto, .rng, .net, .host, .plyS, .opt, .heat, .gas, .horn, .ind, .plyF, .backstop, .keep, .tag, .tamper]

/-- The ID8 of a domain (R46). -/
def domId (d : Domain) : Nat := 0x20 + domNum d

/-- The local sequencer of a domain. -/
def domSeq (s : State) (d : Domain) : DomSeq := s.doms.getD (domNum d) {}

def onDom (s : State) (d : Domain) (f : DomSeq → DomSeq) : State :=
  { s with doms := s.doms.set (domNum d) (f (domSeq s d)) }

/-- The state code of a domain: its DOMAIN_STATE entry (R164). -/
def domState (s : State) (d : Domain) : Nat := s.get (Ent.DOMAIN_STATE (domId d))

/-- Entries of which a write of 1 clears the bits written (R73, R92, R304, R343). -/
def isCleared (e : Nat) : Bool := e == Ent.FAULT_CAUSE || e == Ent.TAMPER_FLAGS || e == Ent.NODE_CONFLICT

/-- The dictionary engine is in service (R61). -/
def engineUp (s : State) : Bool := s.spindle.alive && domState s .core != 0

/-! ## The arbiter's resources, 1 to 6 (R197) -/

def arbRes (s : State) (k : Nat) : ArbRes := s.spindle.arb.getD (k - 1) {}

def onArb (s : State) (k : Nat) (f : ArbRes → ArbRes) : State :=
  s.onSpindle fun x => { x with arb := x.arb.set (k - 1) (f (x.arb.getD (k - 1) {})) }

/-- PLY holds a transfer to the dictionary engine: the result unit waits. -/
def plyHolds (s : State) : Bool := (arbRes s 5).owner == some 8

/-- The users in round-robin order after `u`. -/
def usersAfter (u : User) : List User := (users.drop (userNum u + 1)) ++ (users.take (userNum u + 1))

/-! ## Response queues (R57, R58, R191) -/

/-- The status of a place of a response queue that the engine has claimed for an N write in progress: 0xFF is never returned (R54). -/
abbrev Sc.claimed : Nat := 0xFF

/-- A response queue without its claimed places. -/
def dropClaims (l : List Response) : List Response := l.filter fun r => r.status != Sc.claimed

/-- A response takes the place that its request has claimed. -/
def fillClaim (x : Response) : List Response → List Response
  | [] => []
  | r :: rs => if r.status = Sc.claimed ∧ r.req = x.req then x :: rs else r :: fillClaim x rs

/-- The response that may leave next: the head of the user's queue, unless its place is only claimed (R58). -/
def headResponse (s : State) (u : User) : Option Response :=
  match s.spindle.dict.resps.get u with
  | [] => none
  | r :: _ => if r.status = Sc.claimed then none else some r

/-! ## Queue statistics (R190, R196) -/

/-- The highest level of queue `q`: the spindle die holds it while it is out of reset. -/
def notePeak (s : State) (q n : Nat) : State :=
  if s.spindle.alive && s.get (Ent.Q_PEAK q) < n then s.put (Ent.Q_PEAK q) n else s

/-- The level of a die's instance of queue `q`; the flyer's is known from its reports only (R196). -/
def notePeakOf (s : State) (d : Die) (q n : Nat) : State := if d = .flyer then s else notePeak s q n

/-- A push or a try that found queue `q` full. -/
def noteFull (s : State) (q : Nat) : State := if s.spindle.alive then s.bump (Ent.Q_FULL q) else s

/-! ## The sideband transmitters (R19, R21) -/

def sbDie (s : State) : Die → SbDie
  | .keeper => s.sb.keeper | .flyer => s.sb.flyer | .spindle => s.sb.spindle

def onSbDie (s : State) (d : Die) (f : SbDie → SbDie) : State :=
  match d with
  | .keeper => s.onSb fun b => { b with keeper := f b.keeper }
  | .flyer => s.onSb fun b => { b with flyer := f b.flyer }
  | .spindle => s.onSb fun b => { b with spindle := f b.spindle }

/-- A message placed in a die's transmit queue of 8 (R21); one that finds it full is counted in Q_FULL:04 and not placed (log 14). -/
def sbQueue (s : State) (d : Die) (ty dst : Nat) (payload : Bytes) : State :=
  if (sbDie s d).txq.length < 8 then
    notePeakOf (onSbDie s d fun x => { x with txq := x.txq ++ [⟨ty, d, dst, payload⟩] }) d 4 ((sbDie s d).txq.length + 1)
  else noteFull s 4

/-- The types that are acknowledged (R19). -/
def ackedType (ty : Nat) : Bool := ty == 3 || ty == 5 || ty == 7 || ty == 8 || ty == 0xD || ty == 0xE

/-! ## The log write queue (R190, R312, R321) -/

/-- The class of a record type as a subindex of LOG_SUMMARY (R311): 1 A, 2 T, 3 S, 4 L, 5 Y, 0 K. A MODE_ENTRY has the class of its mode. -/
def recClass (ty : Nat) (data : Bytes) : Nat :=
  if ty = 0x10 then
    let v := (data.getD 0 0).toNat
    if v = 6 ∨ v = 7 ∨ v = 8 then 1 else if v = 0xB ∨ v = 0xC then 4 else 5
  else if ty = 0x11 then 1
  else if ty = 0x20 then 3
  else if 0x30 ≤ ty ∧ ty ≤ 0x35 then 4
  else if 0x40 ≤ ty ∧ ty ≤ 0x49 then 2
  else if 0x50 ≤ ty ∧ ty ≤ 0x56 then 5
  else 0

/-- ST_STATE with no step running and nothing to sign (R159): 1 waiting, 0 idle. -/
def stIdle (s : State) : Nat := if s.keeper.st.waiting then 1 else 0

/-- The record of a completed self-test is written, or will not be: the signing state ends (R159). -/
def stSigned (s : State) (ty : Nat) : State := if ty = 0x20 ∧ s.get Ent.ST_STATE = 9 then s.put Ent.ST_STATE (stIdle s) else s

/-- A record not written is counted under its class (R318, R320, R321). -/
def countSummary (s : State) (ty : Nat) (data : Bytes) : State :=
  let s := stSigned s ty
  if recClass ty data = 0 then s else s.bump (Ent.LOG_SUMMARY (recClass ty data))

/-- The keeper's own record: into its share of 4, or counted (R321, R195). While VDD_IN is absent the keeper appends nothing (R314). -/
def logKeeper (s : State) (ty src : Nat) (data : Bytes) : State :=
  if (s.log.queue.filter (·.keeper)).length < 4 then
    notePeak (s.onLog fun l => { l with queue := l.queue ++ [⟨ty, src, fitBytes 12 data, true⟩] }) 2 (s.log.queue.length + 1)
  else countSummary (noteFull s 2) ty (fitBytes 12 data)

/-- A record of the flyer or the spindle die: into its log hold buffer of 4, or lost (R21). -/
def logDie (s : State) (d : Die) (ty src : Nat) (data : Bytes) : State :=
  if (sbDie s d).hold.length < 4 then
    notePeakOf (onSbDie s d fun x => { x with hold := x.hold ++ [⟨3, d, 0, [byte ty, byte src] ++ fitBytes 12 data⟩] }) d 5
      ((sbDie s d).hold.length + 1)
  else (noteFull s 5).bump Ent.SB_LOST

end Sys2Proof.Machine
end

