-- ==== Sys2Proof/Machine/Operands.lean ====
section
/-! DEFINITION. The forms of operands: wide-distance codes of modes and life-cycle states (R76 to R79), ID8 values (R46), and whether a byte string
is a value of an entry's type and allowed set (R44). -/
namespace Sys2Proof.Machine

/-! ## Status codes (R54) -/

abbrev Sc.ok : Nat := 0
abbrev Sc.busy : Nat := 1
abbrev Sc.denied : Nat := 2
abbrev Sc.noEntry : Nat := 3
abbrev Sc.type : Nat := 4
abbrev Sc.range : Nat := 5
abbrev Sc.state : Nat := 6
abbrev Sc.exhausted : Nat := 7
abbrev Sc.locked : Nat := 8
abbrev Sc.timeout : Nat := 9
abbrev Sc.integrity : Nat := 10

/-! ## Wide-distance codes -/

/-- The C32 code of a 4-bit value: each byte is (v << 4) | (~v & 0xF) (R76). -/
def wideCode (v : Nat) : Nat := (v * 16 + (15 - v)) * 0x01010101

/-- The value v of a mode (R77). -/
def modeVal : Mode → Nat
  | .factory => 1 | .calibrate => 2 | .commission => 3 | .supervise => 4 | .verify => 5 | .alarm => 6 | .echo => 7 | .hush => 8
  | .selftest => 9 | .fault => 0xA | .endOfLife => 0xB | .retired => 0xC

def allModes : List Mode :=
  [.factory, .calibrate, .commission, .supervise, .verify, .alarm, .echo, .hush, .selftest, .fault, .endOfLife, .retired]

def modeCode (m : Mode) : Nat := wideCode (modeVal m)

/-- The mode of a word; none where the word is no mode code (R79). -/
def modeOf (w : Nat) : Option Mode := allModes.find? fun m => modeCode m == w

/-- The value v of a life-cycle state (R78). -/
def lcVal : Lc → Nat
  | .blank => 0 | .maker => 0xD | .owned => 0xE | .field => 0xF | .retired => 7

def allLc : List Lc := [.blank, .maker, .owned, .field, .retired]

/-- The fuse row of a life-cycle state (R78). -/
def lcRow : Lc → Nat
  | .blank => 0 | .maker => 1 | .owned => 2 | .field => 3 | .retired => 4

def lcCode (l : Lc) : Nat := wideCode (lcVal l)
def lcOf (w : Nat) : Option Lc := allLc.find? fun l => lcCode l == w

/-- The highest fuse row that is not zero (R96). -/
def lcTop (s : State) : Nat :=
  (List.range 5).foldl (fun h i => if s.keeper.lcRows.getD i 0 = 0 then h else i) 0

/-- The raw life-cycle word (R96). -/
def lcWord (s : State) : Nat := s.keeper.lcRows.getD (lcTop s) 0

/-- The life-cycle word is valid: every row up to the highest that is not zero holds its own code (R96). -/
def lcValid (s : State) : Bool :=
  (allLc.filter fun l => lcRow l ≤ lcTop s).all fun l => s.keeper.lcRows.getD (lcRow l) 0 == lcCode l

/-- The life-cycle state that gates see: FIELD while the word is invalid (R81). -/
def lcNow (s : State) : Lc := if lcValid s then (lcOf (lcWord s)).getD .field else .field

/-- The life-cycle word is valid and holds RETIRED. -/
def lcIsRetired (s : State) : Bool := lcValid s && lcNow s == .retired

/-- The mode, by its word; none while the word is invalid. -/
def modeNow (s : State) : Option Mode := modeOf (s.get Ent.MODE)

def modeIs (s : State) (m : Mode) : Bool := s.get Ent.MODE == modeCode m
def modeIn (s : State) (ms : List Mode) : Bool := ms.any (modeIs s)

/-! ## Values of a type -/

/-- An ID8 value that names a party (R46). -/
def id8Ok (v : Nat) : Bool :=
  v ≤ 0x0B || (0x10 ≤ v && v ≤ 0x17) || (0x20 ≤ v && v ≤ 0x32) || (0x40 ≤ v && v ≤ 0x46) || (0x80 ≤ v && v ≤ 0xFF)

/-- A value of the type, beside its size (R44). -/
def tyOk (t : Ty) (v : Nat) : Bool :=
  match t with
  | .b1 => v ≤ 1
  | .id8 => id8Ok v
  | _ => true

/-- The type's values are signed. -/
def tySigned (t : Ty) : Bool := t == .s16 || t == .s32 || t == .f32

/-- A value in the set that an entry's gate column lists. -/
def rngOk (r : EntryRow) (v : Nat) : Bool :=
  match r.rng with
  | .any => true
  | .nat lo hi => lo ≤ v && v ≤ hi
  | .int lo hi => decide (lo ≤ toSigned (8 * r.ty.size) v) && decide (toSigned (8 * r.ty.size) v ≤ hi)
  | .zeroOr lo hi => v == 0 || (lo ≤ v && v ≤ hi)
  | .oneOf vs => vs.contains v
  | .label => v % 256 != 0xFF

/-- The right of a user in an access string: 0 none, 1 read, 2 write only, 3 read and write (R10). -/
def right (r : EntryRow) (u : User) : Nat := r.acc / 16 ^ (7 - userNum u) % 16

end Sys2Proof.Machine
end

