-- ==== Sys2Proof/Machine/Flags.lean ====
section
/-! DEFINITION. Flags: notice bits (R71, R72), the status words that are formed from the state when they are read, and the tamper flags (R304). -/
namespace Sys2Proof.Machine

/-- The notice events that arise on the spindle die (R71). ZEROISED (19) is not among them: a monitor zeroises also while the die is in reset (R305), and
its notice is then held as the keeper's are (DESIGN CHOICE, log 99). -/
def spindleNotice (k : Nat) : Bool := k == 8 || k == 9 || k == 12 || k == 16 || k == 18

/-- The pending events that a user is signalled for (R72). -/
def signalled (s : State) (u : User) : Nat := s.getU Ent.NOTICE_PENDING u &&& s.getU Ent.NOTICE_MASK u

/-- The payload of a NOTICE frame (R339). -/
def noticePayload (s : State) : Bytes := leBytes 4 (signalled s .N) ++ leBytes 4 (s.getU Ent.NOTICE_PENDING .N) ++ leBytes 4 (now s)

/-- A change of user N's pending bits or mask, from `s` to `t`, calls for a NOTICE frame where a bit becomes set among those signalled (R339). -/
def noticed (s t : State) : State :=
  if clearBits (signalled t .N) (signalled s .N) = 0 then t else t.onCan fun c => { c with notices := c.notices ++ [noticePayload t] }

/-- Bits `m` set in NOTICE_PENDING of every user (R71). -/
def setNotices (s : State) (m : Nat) : State :=
  noticed s (users.foldl (fun s u => s.putU Ent.NOTICE_PENDING u (s.getU Ent.NOTICE_PENDING u ||| m)) s)

/-- A notice event (R71): its bit in every user's NOTICE_PENDING; a keeper-side event while the engine is out of service is held by the keeper. -/
def raise (s : State) (k : Nat) : State :=
  if engineUp s then setNotices s (2 ^ k)
  else if spindleNotice k then s
  else s.onKeeper fun x => { x with notices := x.notices ||| 2 ^ k }

/-! ## Tamper alerts (R304 to R306) -/

/-- CLK_AON cycles in 60 s. -/
def aonMinute : Nat := 60 * 32768

/-- A monitor's condition holds (R304). -/
def alertActive (s : State) (ty inst : Nat) : Bool := s.log.active.contains (ty, inst)

/-- What every alert does beside its record (R304). -/
def alertFlags (s : State) (ty inst kind : Nat) : State :=
  raise ((((s.setBits Ent.TAMPER_FLAGS (2 ^ (ty - 0x40))).bump (Ent.TAMPER_COUNT (ty - 0x40 + 1))).put Ent.LAST_TAMPER
    (ty + 256 * (inst % 256) + 65536 * (kind % 256))).put Ent.LAST_TAMPER_TIME (now s)) 4

/-- A record of the type was written within the last 60 s (R306). -/
def recentRecord (s : State) (ty : Nat) : Bool :=
  let t := sparseGet 0 ty s.log.lastAt
  t != 0 && s.keeper.aon < t - 1 + aonMinute

/-- A record of a producing die: the keeper's own queue share, or a LOG_WRITE (R13). -/
def record (s : State) (d : Die) (ty src : Nat) (data : Bytes) : State :=
  match d with
  | .keeper => logKeeper s ty src data
  | d => logDie s d ty src data

/-- The data of a monitor's record (R311). -/
def monitorData (inst kind : Nat) (value threshold : Int) (zeroised : Bool) (alerts : Nat) : Bytes :=
  [byte inst, byte kind] ++ leBytes 4 (ofSigned 32 value) ++ leBytes 4 (ofSigned 32 threshold)
    ++ [if zeroised then 1 else 0, byte (min alerts 255)]

/-- A record finds room where it is produced, in a log that still takes records. -/
def recordRoom (s : State) (d : Die) : Bool :=
  s.get Ent.LOG_NEXT < 3069 && (match d with
    | .keeper => decide ((s.log.queue.filter (·.keeper)).length < 4)
    | .flyer | .spindle => decide ((sbDie s d).hold.length < 4))

/-- A monitor's record is lost, or only counted: its alerts stand in byte 11 of the next one, and the 60 s do not run from it (R306, R311). -/
def unlogged (s : State) (r : LogRec) : State :=
  if r.ty < 0x40 ∨ 0x48 < r.ty then s
  else s.onLog fun l => { l with
    lastAt := sparseDel r.ty l.lastAt
    since := sparseSet 0 r.ty (sparseGet 0 r.ty l.since + if r.ty = 0x40 then 1 else (r.data.getD 11 0).toNat) l.since }

/-- The records in the log hold buffer of a die are lost with its power (log 38). -/
def lostHold (s : State) (d : Die) : State :=
  (sbDie s d).hold.foldl (fun s m => unlogged s ⟨(m.payload.getD 0 0).toNat, (m.payload.getD 1 0).toNat, m.payload.drop 2, false⟩) s

/-- An alert with its record, at most one record of a type in any 60 s (R306); byte 11 is formed from the alerts since the last record. A record that finds no
room is counted as lost, and is no record (log 70). -/
def alertRecord (s : State) (d : Die) (ty src : Nat) (data : Nat → Bytes) : State :=
  let n := sparseGet 0 ty s.log.since + 1
  let t := s.onLog fun l => { l with since := sparseSet 0 ty n l.since }
  if recentRecord s ty then t.bump Ent.TAMPER_UNLOGGED
  else if !recordRoom s d then record t d ty src (data n)
  else
    record (s.onLog fun l => { l with since := sparseDel ty l.since, lastAt := sparseSet 0 ty (s.keeper.aon + 1) l.lastAt }) d ty src (data n)

/-- A monitor's condition begins: nothing where it already holds (R304). -/
def monitorAlert (s : State) (d : Die) (ty inst kind src : Nat) (value threshold : Int) (zeroised : Bool) : State :=
  if alertActive s ty inst then s
  else
    alertRecord (alertFlags (s.onLog fun l => { l with active := l.active ++ [(ty, inst)] }) ty inst kind) d ty src
      (monitorData inst kind value threshold zeroised)

/-- A monitor's condition ends. -/
def monitorEnd (s : State) (ty inst : Nat) : State :=
  s.onLog fun l => { l with active := l.active.filter fun c => c != (ty, inst) }

end Sys2Proof.Machine
end

