-- ==== Sys2Proof/Machine/Domains.lean ====
section
/-! DEFINITION. The power domains as their sequencers hold them (R160 to R163, R168 to R170, R177): rest states, states, refusals, exits. -/
namespace Sys2Proof.Machine

/-- The state that a rest word names: 0 OFF, 1 RETENTION, 2 ON; none where the word is invalid (R162). -/
def restOf (w : Nat) : Option Nat :=
  if w = wideCode 1 then some 0 else if w = wideCode 2 then some 1 else if w = wideCode 3 then some 2 else none

/-- The rest state of a domain; ON while its word is invalid (R162). -/
def restState (s : State) (d : Domain) : Nat := (restOf (s.get (Ent.REST (domId d)))).getD 2

def isFlyerDom (d : Domain) : Bool := 9 ≤ domNum d && domNum d ≤ 15
def isSpindleDom (d : Domain) : Bool := domNum d ≤ 8

def setDomState (s : State) (d : Domain) (c : Nat) : State := s.put (Ent.DOMAIN_STATE (domId d)) c

/-- A refusal or an abort is counted and recorded (R169). `target` is 0 OFF or 1 RETENTION. -/
def refuse (s : State) (d : Domain) (refuser target : Nat) : State :=
  raise (((s.bump (Ent.REFUSALS (domId d))).put (Ent.LAST_REFUSER (domId d)) refuser).put Ent.LAST_REFUSAL
    (target + 256 * refuser + 65536 * domId d)) 15

/-- A flyer domain as its own sequencer has it. -/
def flyDom (s : State) (d : Domain) : FlyDom := s.flyer.doms.getD (domNum d - 9) {}

def onFlyDom (s : State) (d : Domain) (f : FlyDom → FlyDom) : State :=
  s.onFlyer fun x => { x with doms := x.doms.set (domNum d - 9) (f (x.doms.getD (domNum d - 9) {})) }

/-- The state of a domain as its local sequencer has it (R160, R161). DOMAIN_STATE of a flyer domain reads its confirmed rest state instead (R177). -/
def domNow (s : State) (d : Domain) : Nat := if isFlyerDom d then (flyDom s d).state else domState s d

def setDomNow (s : State) (d : Domain) (c : Nat) : State := if isFlyerDom d then onFlyDom s d fun x => { x with state := c } else setDomState s d c

/-- The rest state that a domain's sequencer follows (R161): the flyer's as the last DOMAIN message gave it. -/
def restNow (s : State) (d : Domain) : Nat := if isFlyerDom d then (flyDom s d).rest else restState s d

/-- DOMAIN on the sideband: the flyer is told a rest state, and its acknowledgement is owed (R161). -/
def sendDomain (s : State) (d : Domain) (r : Nat) : State :=
  sbQueue (onDom s d fun q => { q with owed := some r }) .keeper 5 1 [byte (domId d), byte r]

/-- TIME on the sideband (R20): sent on change and when a die wakes. -/
def sendTime (s : State) : State := sbQueue s .keeper 0xC 3 (leBytes 4 (now s))

/-- An exit has completed (R177): ON, WAKES counted; flyer subindices read 0 (R178). -/
def turnOn (s : State) (d : Domain) : State :=
  if isFlyerDom d then setDomNow s d 2 else (setDomNow s d 2).bump (Ent.WAKES (domId d))

/-- A domain begins its exit, for a source or for work that no code of R170 names (log 30). CLK_XO is started again with NET (R181), and a held
bus-off recovers where NET was OFF (R347); TIME is sent when the spindle die wakes, with CORE (R20, R33). -/
def beginExit (s : State) (d : Domain) (src : Option Nat) : State :=
  let off := domNow s d == 0
  let s := if d = .core ∧ domNow s d = 1 then sendTime s else s
  let s := setDomNow s d 4
  let s := match src with
    | some n => s.put (Ent.LAST_WAKE (domId d)) n
    | none => s
  if d = .net then s.onSpindle fun x => { x with xoFail := false, can := { x.can with joined := false, held := x.can.held && !off } } else s

/-- A wake reaches one domain (R168, R172, R177): an entry under way is aborted and counted with the owner of the source as its refuser, but for CORE,
CODE and DATA, whose wake is held until the entry completes. -/
def raiseDomain (s : State) (src : Option Nat) (owner d : Domain) : State :=
  match domNow s d with
  | 3 =>
    if d = .core ∨ d = .code ∨ d = .data then onDom s d fun q => { q with wake := some (src.getD 0) }
    else beginExit (refuse s d (domId owner) (domSeq s d).target) d src
  | 1 => beginExit s d src
  | 0 => beginExit s d src
  | _ => s

/-- Work for a domain brings it up on demand; an entry under way is aborted (R168, R330). No code of R170 names this wake (log 30). -/
def demand (s : State) (d : Domain) : State := raiseDomain s none .core d

/-- A measurement or a horn phase raises a domain of the flyer (R170, source 0x0C). -/
def rise (s : State) (d : Domain) : State := raiseDomain s (some 0x0C) d d

/-- A port is in use; one that is not ignores its pads (R351). -/
def portEnabled (s : State) (p : Port) : Bool := s.get (Ent.HP_ENABLE (portNum p)) == 1

/-- The IRQ pad of a port is asserted (R362). -/
def irqAsserted (s : State) (p : Port) : Bool :=
  let u := portUser p
  domState s .host != 0 && portEnabled s p &&
    (signalled s u != 0 || (s.getU Ent.HP_IRQ_RESP u == 1 && ((s.spindle.ports.get p).answer.isSome || (headResponse s u).isSome)))

/-- The chip-select of a port in use, or its HC_RXD, is low. -/
def portLow (s : State) (p : Port) : Bool := portEnabled s p && if p = .C then s.pads.rxdLow else (s.spindle.ports.get p).cs

end Sys2Proof.Machine
end

