-- ==== Sys2Proof/Machine/Crc.lean ====
section
/-! DEFINITION. The checks over byte strings, and exact fractions with the one rounding of R400. -/
namespace Sys2Proof

/-- `n` steps of a CRC of `w` bits, most significant bit first. -/
def crcShift (w poly : Nat) : Nat → Nat → Nat
  | 0, c => c
  | n + 1, c => crcShift w poly n (if c.testBit (w - 1) then (c * 2) % 2 ^ w ^^^ poly else (c * 2) % 2 ^ w)

/-- CRC-16/CCITT-FALSE. -/
def crc16 (bs : Bytes) : Nat :=
  bs.foldl (fun c b => crcShift 16 0x1021 8 (c ^^^ (b.toNat * 256))) 0xFFFF

/-- CRC-8 of the sideband: polynomial 0x07, initial value 0 (R17). -/
def crc8 (bs : Bytes) : Nat := bs.foldl (fun c b => crcShift 8 0x07 8 (c ^^^ b.toNat)) 0

/-- `n` steps of a reflected CRC-32. -/
def crc32Shift : Nat → Nat → Nat
  | 0, c => c
  | n + 1, c => crc32Shift n (if c % 2 = 1 then c / 2 ^^^ 0xEDB88320 else c / 2)

/-- CRC-32/ISO-HDLC. -/
def crc32 (bs : Bytes) : Nat :=
  bs.foldl (fun c b => crc32Shift 8 (c ^^^ b.toNat)) 0xFFFFFFFF ^^^ 0xFFFFFFFF

/-- A fraction with a denominator that is not negative: numerator and denominator. -/
abbrev Frac := Int × Int

/-- n / d with the sign in the numerator. -/
def mkFrac (n d : Int) : Frac := if d < 0 then (-n, -d) else (n, d)

/-- The nearest integer; a value halfway between two goes to the even one (R400). -/
def roundEven (f : Frac) : Int :=
  let q := f.1 / f.2
  let r := f.1 % f.2
  if 2 * r < f.2 then q else if f.2 < 2 * r then q + 1 else if q % 2 = 0 then q else q + 1

/-- The F32 pattern of a fraction, as a signed number: rounded once, then limited (R400). -/
def f32Of (f : Frac) : Int := satSigned 32 (roundEven (f.1 * 65536, f.2))

/-- a ≤ b. -/
def Frac.le (a b : Frac) : Bool := decide (a.1 * b.2 ≤ b.1 * a.2)

end Sys2Proof
end

