-- ==== Sys2Proof/Machine/Calibration.lean ====
section
/-! DEFINITION. Calibration (R123 to R128): the user rows, the overlay, the backstop set and its shadow blocks. -/
namespace Sys2Proof.Machine

/-- A user-calibration row of 64 bytes. -/
def calRow (s : State) (r : Nat) : Bytes := s.keeper.calRows.getD r []

/-- A row's CRC over bytes 0 to 61 checks (R126, R128). -/
def calRowOk (row : Bytes) : Bool := crc16 (row.take 62) == leNat (row.drop 62)

/-- The write count of a row (R126). -/
def calRowCount (row : Bytes) : Nat := leNat ((row.drop 60).take 2)

/-- A delta of a row: slot 1 to 4, read at its type's size; zero while the row is bad (R128). -/
def calDelta (s : State) (r slot size : Nat) : Int :=
  if calRowOk (calRow s r) then toSigned (8 * size) (leNat (((calRow s r).drop (4 * (slot - 1))).take size)) else 0

/-- The row rewritten with new deltas: one write counted, a correct CRC; slots that no write sets are zero where the row was bad (R127, R128). -/
def calRewrite (row : Bytes) (sets : List (Nat × Int)) : Bytes :=
  let base := if calRowOk row then row.take 16 else zeros 16
  let body := sets.foldl (fun b p => b.take (4 * (p.1 - 1)) ++ leBytes 4 (ofSigned 32 p.2) ++ b.drop (4 * p.1)) base
  let head := body ++ zeros 44 ++ leBytes 2 (calRowCount row + 1)
  head ++ leBytes 2 (crc16 head)

/-- Delta subindices of a calibration row. -/
def isDelta (e : Nat) : Bool := 0x6100 ≤ e / 256 && e / 256 ≤ 0x6102 && 1 ≤ e % 256 && e % 256 ≤ 4

def deltaRow (e : Nat) : Nat := e / 256 - 0x6100

/-- The rows that deltas among some writes touch: each is rewritten once (R127), and counted also where every value is the stored one (DESIGN CHOICE,
log 104: the spec does not say). -/
def writeRows (s : State) (ws : List (Nat × Nat)) : State :=
  [0, 1, 2].foldl (fun s k =>
    let sets := (ws.filter fun w => isDelta w.1 && deltaRow w.1 == k).map fun w => (w.1 % 256, toSigned (8 * entrySize w.1) w.2)
    if sets.isEmpty then s else s.onKeeper fun x => { x with calRows := x.calRows.set k (calRewrite (calRow s k) sets) }) s

/-- A one-time write in the keeper's memory (R47, R246). -/
def burn (s : State) (e v : Nat) : State :=
  (s.put e v).onKeeper fun k => { k with written := e :: k.written, oem0 := k.oem0 || e == Ent.OEM_KEY_HASH0 }

/-- An overlaid value: its factory entry at subindex 0, its row, its slot, the size of its type (R132), in the bit order of CAL_CLAMPED. -/
structure Overlay where
  factory : Nat
  row : Nat
  slot : Nat
  size : Nat
  deriving DecidableEq, Repr

def overlays : List Overlay := [
  ⟨Ent.IR_BASE 0, 0, 1, 4⟩, ⟨Ent.BL_BASE 0, 0, 2, 4⟩, ⟨Ent.IR_SENS 0, 0, 3, 4⟩, ⟨Ent.BL_SENS 0, 0, 4, 4⟩, ⟨Ent.HEAT_OFFSET 0, 1, 1, 4⟩,
  ⟨Ent.VDD_OFFSET 0, 1, 2, 2⟩, ⟨Ent.CO_ZERO 0, 2, 1, 4⟩, ⟨Ent.CO_SENS 0, 2, 2, 4⟩, ⟨Ent.AIN_OFFSET 0, 2, 3, 4⟩, ⟨Ent.AIN_GAIN 0, 2, 4, 4⟩]

/-- Factory value plus delta, saturated at the limits of the type (R123). -/
def overlaySum (s : State) (o : Overlay) : Int :=
  satSigned (8 * o.size) (s.getS (o.factory + 1) + calDelta s o.row o.slot o.size)

/-- The effective value of R123. -/
def effective (s : State) (i : Nat) : Int :=
  match overlays[i]? with
  | some o => min (max (overlaySum s o) (s.getS (o.factory + 2))) (s.getS (o.factory + 3))
  | none => 0

/-- The clamp of R123 acts. -/
def clamped (s : State) (i : Nat) : Bool :=
  match overlays[i]? with
  | some o => effective s i != overlaySum s o
  | none => false

/-- CAL_CLAMPED (R123, R132). -/
def calClamped (s : State) : Nat := (List.range 10).foldl (fun n i => if clamped s i then n ||| 2 ^ i else n) 0

/-- CAL_ROW_BAD (R128). -/
def calRowBad (s : State) : Nat := (List.range 3).foldl (fun n i => if calRowOk (calRow s i) then n else n ||| 2 ^ i) 0

/-- Entries of the backstop set with their sizes, in the order of R125. -/
def backstopSet : List (Nat × Nat) := [
  (Ent.IR_BASE 1, 4), (Ent.BL_BASE 1, 4), (Ent.IR_SENS 1, 4), (Ent.BL_SENS 1, 4), (Ent.REF_NOM_IR, 4), (Ent.REF_NOM_BL, 4), (Ent.WIN_START, 1),
  (Ent.WIN_LEN, 2), (Ent.BS_SMOKE_IR, 4), (Ent.BS_SMOKE_BL, 4), (Ent.BS_RATIO_LO, 4), (Ent.BS_RATIO_HI, 4), (Ent.BS_HEAT_CODE, 2),
  (Ent.BS_CO_FLOOR, 4), (Ent.BS_CO_DOSE, 4), (Ent.BS_NOHUSH_SMOKE, 4), (Ent.BS_NOHUSH_CO, 4)]

/-- Every entry of the set has had its one write (R125). -/
def backstopSetWritten (s : State) : Bool := backstopSet.all fun p => s.keeper.written.contains p.1

/-- The 72 bytes of CAL_SHADOW blocks 0 to 2 (R125). -/
def shadowImage (s : State) : Bytes := fitBytes 72 (backstopSet.flatMap fun p => leBytes p.2 (s.get p.1))

/-- The payload of a CAL_SHADOW message (R20). -/
def shadowBlock (s : State) (i : Nat) : Bytes :=
  byte i :: (if i < 3 then ((shadowImage s).drop (24 * i)).take 24 else leBytes 2 (s.get Ent.BS_SHADOW_CRC) ++ zeros 22)

/-- The keeper sends the shadow copy, blocks 0 to 3. -/
def sendShadow (s : State) : State :=
  (List.range 4).foldl (fun s i => sbQueue s .keeper 0xD 1 (shadowBlock s i)) s

/-- VDD_OFFSET_eff (R121). -/
def vddOffset (s : State) : Int := effective s 5

/-- A supply voltage with its offset, limited to 0 to 65,535 (R121). -/
def vddSum (s : State) (raw : Nat) : Nat := (min (max ((raw : Int) + vddOffset s) 0) 65535).toNat

end Sys2Proof.Machine
end

