-- ==== Sys2Proof/Machine/Sensing.lean ====
section
/-! DEFINITION. The flyer's measurements (R104 to R121): integrals, the backstop's evaluation, the pending results. -/
namespace Sys2Proof.Machine

/-! ## The shadow copy (R125, R134) -/

/-- The flyer holds blocks 0 to 2. -/
def shadowHeld (b : Backstop) : Bool := (b.blocks.take 3).all (·.isSome)

/-- The 72 bytes of blocks 0 to 2. -/
def shadowBytes (b : Backstop) : Bytes := (b.blocks.take 3).flatMap fun x => x.getD (zeros 24)

/-- All four blocks are held and blocks 0 to 2 check against block 3 (R134). -/
def shadowChecks (b : Backstop) : Bool :=
  b.blocks.all (·.isSome) && crc16 (shadowBytes b) == leNat (((b.blocks.getD 3 none).getD []).take 2)

/-- A field of the shadow copy. -/
def shadowNat (b : Backstop) (off size : Nat) : Nat := leNat (((shadowBytes b).drop off).take size)
def shadowInt (b : Backstop) (off : Nat) : Int := toSigned 32 (shadowNat b off 4)

/-! ## Integrals (R111) -/

def sumSamples (xs : List Nat) (start len : Nat) : Int := ((xs.drop start).take len).foldl (fun a x => a + (x : Int)) 0

/-- A sample at 0 or 4095 in a window. -/
def railed (xs : List Nat) (start len : Nat) : Bool := ((xs.drop start).take len).any fun x => x == 0 || x == 4095

/-- Results of the flyer's integration: S_ir, S_bl, R_ir, R_bl, D, flag bit 0. -/
structure Integrals where
  sIr : Int
  sBl : Int
  rIr : Nat
  rBl : Nat
  dark : Nat
  rail : Bool
  deriving DecidableEq, Repr

/-- R111, with the window given. -/
def integrate (c : Captures) (offset start len : Nat) : Integrals :=
  let k0 := offset + start
  let dk := sumSamples c.dark k0 len
  let b := sumSamples c.ref 0 offset / (offset : Int)
  { sIr := sumSamples c.ir k0 len - dk
    sBl := sumSamples c.blue k0 len - dk
    rIr := (sumSamples c.ref k0 len - len * b).toNat
    rBl := (sumSamples c.ref (k0 + 1024) len - len * b).toNat
    dark := (sumSamples c.dark 0 2048 / 128).toNat
    rail := railed c.ir k0 len || railed c.blue k0 len || railed c.ref k0 len || railed c.ref (k0 + 1024) len }

/-- The window: that of the shadow copy, or the default 16, 128 (R111). -/
def windowOf (s : State) : Nat × Nat :=
  if shadowHeld s.flyer.bs then (shadowNat s.flyer.bs 24 1, shadowNat s.flyer.bs 25 2) else (16, 128)

def integralsOf (s : State) (c : Captures) : Integrals :=
  integrate c (s.get Ent.OPT_PULSE_OFFSET) (windowOf s).1 (windowOf s).2

/-! ## Normalisation and ratio -/

/-- The reference of a wavelength is low: normalisation is skipped (R112). -/
def refLow (r ref : Nat) : Bool := r == 0 || 2 * r < ref

/-- N of a wavelength, exactly (R112). -/
def normalised (sum : Int) (r ref : Nat) : Frac := if refLow r ref then (sum, 1) else (sum * ref, r)

/-- N rounded down (R113). -/
def normalisedFloor (sum : Int) (r ref : Nat) : Int := (normalised sum r ref).1 / (normalised sum r ref).2

/-- Y of a wavelength, exactly; none where the sensitivity is 0 (R112). -/
def extinction (n : Frac) (base sens : Int) : Option Frac :=
  if sens = 0 then none else some (mkFrac (n.1 - base * n.2) (n.2 * sens))

/-- Q; none where Y_ir is below 0.02 dB/m (R112). A Y that was not computed reads 0. -/
def ratioOf (yIr yBl : Option Frac) : Option Frac :=
  match yIr with
  | some y => if Frac.le (1, 50) y then
      match yBl with
      | some z => some (mkFrac (z.1 * y.2) (z.2 * y.1))
      | none => some (0, 1)
    else none
  | none => none

/-- The F32 of a value that may be absent: 0 where it is. -/
def f32Opt (f : Option Frac) : Int :=
  match f with
  | some x => f32Of x
  | none => 0

/-! ## The backstop's decision (R134 to R136) -/

/-- The horn is active while it plays a pattern, the check or a tone, and not by its on-phases (log 34). -/
def hornActive (h : Horn) : Bool :=
  match h.pattern with
  | .none_ => false
  | .command => (match h.playing with | some c => c.op == 1 | none => false)
  | _ => true

/-- Payload byte of BACKSTOP_ALARM (R20, R136); every bit is clear in RETIRED (R89). -/
def backstopBits (f : Flyer) : Nat :=
  if f.bs.off then 0 else
  f.bs.kinds % 8 + (if f.bs.noHushSmoke || f.bs.noHushCo then 8 else 0) + (if f.horn.icRelayed then 64 else 0) + (if hornActive f.horn then 128 else 0)

/-- BACKSTOP_ALARM placed in the flyer's queue. -/
def sendBackstop (s : State) : State :=
  (sbQueue s .flyer 1 3 [byte (backstopBits s.flyer)]).onBs fun b => { b with lastSent := backstopBits s.flyer }

/-- BACKSTOP_ALARM is sent when any of its bits has changed (R136). -/
def backstopReport (s : State) : State :=
  if s.flyer.bs.lastSent = backstopBits s.flyer then s else sendBackstop s

/-- The end of an evaluation: BACKSTOP_ALARM on a change, and after the first one since a reset of BACKSTOP in any case (R136). -/
def backstopEvaluated (s : State) : State :=
  if s.flyer.bs.owed then (sendBackstop s).onBs fun b => { b with owed := false } else backstopReport s

/-- RETIRED: the backstop is disconnected from the horn, its kinds, counts and dose are cleared (R89). -/
def Backstop.retire (b : Backstop) : Backstop :=
  { b with off := true, kinds := 0, smoke := 0, smokeClear := 0, heat := 0, heatClear := 0, dose := 0, noHushSmoke := false, noHushCo := false }

/-- The measurements in progress, those that wait and an accepted request end with the scheduler (R89, R104). -/
def Sensing.stop (x : Sensing) : Sensing :=
  { x with opt := none, heat := none, co := none, aux := none, optWaiting := none, heatWait := false, coWait := false, auxWait := false,
           reqAccepted := false }

/-- Suppression ends (R141). -/
def endSuppression (b : Backstop) : Backstop := { b with suppressed := 0, hushTimer := false }

/-- A kind is set; one that is not suppressed ends the suppression (R141). -/
def setKind (b : Backstop) (m : Nat) : Backstop :=
  let b' := { b with kinds := b.kinds ||| m }
  if b.kinds &&& m = 0 ∧ b.suppressed &&& m = 0 then endSuppression b' else b'

def clearKind (b : Backstop) (m : Nat) : Backstop := { b with kinds := clearBits b.kinds m }

/-- Above the no-hush level suppression ends (R141). -/
def noHushCheck (b : Backstop) : Backstop := if b.noHushSmoke || b.noHushCo then endSuppression b else b

/-- N − baseline of both wavelengths and the ratio, from the shadow copy (R113). -/
def backstopOptical (b : Backstop) (g : Integrals) : Int × Int × Option Frac :=
  let a := normalisedFloor g.sIr g.rIr (shadowNat b 16 4) - shadowInt b 0
  let c := normalisedFloor g.sBl g.rBl (shadowNat b 20 4) - shadowInt b 4
  (a, c, ratioOf (extinction (a, 1) 0 (shadowInt b 8)) (extinction (c, 1) 0 (shadowInt b 12)))

/-- The measurement meets smoke (R134). -/
def meetsSmoke (b : Backstop) (x : Int × Int × Option Frac) : Bool :=
  decide (shadowInt b 27 ≤ x.1) && decide (shadowInt b 31 ≤ x.2.1) &&
    match x.2.2 with
    | some q => decide (shadowInt b 35 ≤ f32Of q) && decide (f32Of q ≤ shadowInt b 39)
    | none => false

/-- The measurement meets the clearing condition of smoke (R135). -/
def clearsSmoke (b : Backstop) (x : Int × Int × Option Frac) : Bool :=
  decide (4 * x.1 < 3 * shadowInt b 27) || decide (4 * x.2.1 < 3 * shadowInt b 31)

/-- The backstop evaluates an optical measurement (R134 to R136). -/
def evalOptical (b : Backstop) (g : Integrals) : Backstop :=
  if b.armed && !b.off then
    let x := backstopOptical b g
    let n := if meetsSmoke b x then min (b.smoke + 1) 3 else 0
    let c := if clearsSmoke b x then min (b.smokeClear + 1) 3 else 0
    let b1 := noHushCheck { b with smoke := n, smokeClear := c, noHushSmoke := decide (shadowInt b 53 ≤ x.1) }
    if n = 3 then setKind b1 1 else if c = 3 then clearKind b1 1 else b1
  else b

/-- A heat code (R117, R134, R135). -/
def evalHeat (b : Backstop) (code : Nat) : Backstop :=
  if b.armed && !b.off then
    let ignored := 65000 ≤ code || code ≤ 1000
    let thr := shadowNat b 43 2
    let n := if !ignored && code ≤ thr then min (b.heat + 1) 2 else 0
    let c := if !ignored && thr + 1024 < code then min (b.heatClear + 1) 2 else 0
    let b1 := { b with heat := n, heatClear := c }
    if n = 2 then setKind b1 2 else if c = 2 then clearKind b1 2 else b1
  else b

/-- A CO code while CO_ENABLE is 1; the dose is held during a pulse (R119, R134 to R136). -/
def evalCo (b : Backstop) (code : Int) (held : Bool) : Backstop :=
  if b.armed && !b.off then
    let floor_ := shadowInt b 45
    let dose := if held then b.dose
      else if floor_ < code then min (b.dose + (code - floor_).toNat) 0xFFFFFFFF else b.dose - b.dose / 8
    let thr := shadowNat b 49 4
    let b1 := noHushCheck { b with dose := dose, noHushCo := decide (shadowInt b 57 ≤ code) }
    if thr ≤ dose then setKind b1 4 else if 2 * dose < thr then clearKind b1 4 else b1
  else b

/-! ## Pending results (R110) -/

/-- The jobs of queue 07: measurements in progress, an accepted request and measurements that wait, 2 at most (R104, R106, R190; log 84). -/
def measurementJobs (x : Sensing) : Nat :=
  min ([x.opt.isSome, x.heat.isSome, x.co.isSome, x.aux.isSome, x.reqAccepted, x.optWaiting.isSome, x.heatWait, x.coWait, x.auxWait].count true) 2

/-- A queue report, formed afresh: the mark is kept until a report carrying it is acknowledged (R110). -/
def formReport (s : State) : State :=
  s.onRes fun r => { r with queuesN := r.queuesN + 1, queues := some (
    { level := s.flyer.horn.queue.length, removed := s.flyer.horn.removed % 256, mark := r.mark, q06 := s.sb.flyer.rxq.length,
      q07 := measurementJobs s.flyer.sense,
      q04 := s.sb.flyer.txq.length, q05 := s.sb.flyer.hold.length, discarded := s.flyer.horn.discarded % 256,
      count := r.queuesN % 256, time := s.flyer.rtc.getD 0 } : QueueReport) }

/-- Bit 4 of a result whose captures are not written in full (R110, R114). -/
def undelivered (r : OptResult) : OptResult := { r with flags := r.flags ||| 16, offered := false }

/-- The measurement in the buffer can no longer be delivered: its result is released with bit 4. -/
def releaseResult (s : State) : State :=
  s.onRes fun r => { r with opt := r.opt.map fun o => if o.offered then undelivered o else o }

end Sys2Proof.Machine
end

