-- ==== Sys2Proof/Machine/Flits.lean ====
section
/-! DEFINITION. The flits of the ply link as bytes (R25, R26, R110, R148): what a sender forms and what a receiver reads. -/
namespace Sys2Proof.Machine

/-! ## The flit (R25) -/

/-- The 32 bytes of a flit: header word, payload, CRC-32 of bytes 0 to 27, each least significant byte first. -/
def flitBytes (seq ack0 ack1 : Nat) (f : SentFlit) : Bytes :=
  let b := leBytes 4 (f.ty % 16 * 2 ^ 28 + seq % 16 * 2 ^ 24 + ack0 % 16 * 2 ^ 20 + ack1 % 16 * 2 ^ 16 + f.tag % 65536) ++ fitBytes 24 f.payload
  b ++ leBytes 4 (crc32 b)

/-- The fields of the header word: TYPE, SEQ, ACK0, ACK1, TAG. -/
def flitHeader (b : Bytes) : Nat × Nat × Nat × Nat × Nat :=
  let h := leNat (b.take 4)
  (h / 2 ^ 28 % 16, h / 2 ^ 24 % 16, h / 2 ^ 20 % 16, h / 2 ^ 16 % 16, h % 65536)

/-- A receiver finds the CRC of a flit good (R28). -/
def flitCrcOk (b : Bytes) : Bool := leNat (b.drop 28) == crc32 (b.take 28)

/-! ## Samples (R26) -/

/-- Twelve-bit samples side by side, the first in the lowest bits. -/
def packSamples : List Nat → Nat
  | [] => 0
  | x :: xs => x % 4096 + 4096 * packSamples xs

/-- The samples of such a number. -/
def unpackSamples : Nat → Nat → List Nat
  | 0, _ => []
  | n + 1, v => v % 4096 :: unpackSamples n (v / 4096)

/-- The 16 samples of flit `index` of a capture. -/
def captureSamples (xs : List Nat) (index : Nat) : List Nat := (List.range 16).map fun j => xs.getD (index * 16 + j) 0

/-- The payload of a CAPTURE flit. -/
def capturePayload (xs : List Nat) (index : Nat) : Bytes := leBytes 24 (packSamples (captureSamples xs index))

/-- The TAG of a CAPTURE flit: capture number, flit index, measurement tag modulo 128 (R25). -/
def captureTag (capture index tag : Nat) : Nat := (capture * 128 + index) * 128 + tag % 128

/-- A CAPTURE payload as capture SRAM takes it: each sample a halfword with zero above bit 11 (R27). -/
def captureWords (p : Bytes) : Bytes := (unpackSamples 16 (leNat p)).flatMap (leBytes 2)

/-! ## STATUS (R110) -/

/-- The kind of a result. -/
def Flight.kind : Flight → Nat
  | .opt _ => 1 | .heat _ => 2 | .co _ => 3 | .aux _ => 4 | .supply _ => 5 | .queues _ => 6

/-- A signed number of `n` bytes, least significant byte first (R9). -/
def leInt (n : Nat) (i : Int) : Bytes := leBytes n (ofSigned (8 * n) i)

/-- The payload of a STATUS flit. -/
def statusPayload : Flight → Bytes
  | .opt r => leInt 3 r.sIr ++ leInt 3 r.sBl ++ leBytes 3 r.rIr ++ leBytes 3 r.rBl ++ leBytes 2 r.dark ++ [byte r.flags] ++ leBytes 2 r.tag
      ++ leBytes 2 r.loaded ++ [0] ++ leBytes 4 r.tick
  | .heat r => leInt 2 r.code ++ [byte r.flags] ++ zeros 16 ++ [byte r.count] ++ leBytes 4 r.tick
  | .co r => leInt 4 r.code ++ [byte r.flags] ++ leBytes 4 r.di ++ leBytes 4 r.stepAt ++ zeros 6 ++ [byte r.count] ++ leBytes 4 r.tick
  | .aux r => leInt 4 r.code ++ [byte r.flags] ++ zeros 14 ++ [byte r.count] ++ leBytes 4 r.tick
  | .supply r => leBytes 2 r.vdd ++ leInt 2 r.flyerT ++ leInt 2 r.keeperT ++ zeros 13 ++ [byte r.count] ++ leBytes 4 r.tick
  | .queues r => [byte r.level, byte r.removed, if r.mark then 1 else 0, byte r.q06, byte r.q07, byte r.q04, byte r.q05, byte r.discarded]
      ++ zeros 11 ++ [byte r.count] ++ leBytes 4 r.time

/-- The TAG of a STATUS flit: the kind, and the measurement tag modulo 128; for the kinds whose results carry no tag of their own that of the
measurement counter, and 0 for kind 0x06 (R110, log 81). -/
def statusTag (counter : Nat) (f : Flight) : Nat :=
  f.kind * 256 + (match f with | .opt r => r.tag % 128 | .queues _ => 0 | _ => counter % 128)

/-- `n` bytes of a payload from an offset on, as a number. -/
def fieldNat (p : Bytes) (off n : Nat) : Nat := leNat ((p.drop off).take n)
def fieldInt (p : Bytes) (off n : Nat) : Int := toSigned (8 * n) (fieldNat p off n)

/-- The result that a STATUS flit carries; none for a kind that is not 0x01 to 0x06, which the result unit discards (R110). -/
def statusOf (kind : Nat) (p : Bytes) : Option Flight :=
  match kind with
  | 1 => some (.opt {
      sIr := fieldInt p 0 3, sBl := fieldInt p 3 3, rIr := fieldNat p 6 3, rBl := fieldNat p 9 3, dark := fieldNat p 12 2,
      flags := fieldNat p 14 1, tag := fieldNat p 15 2, loaded := fieldNat p 17 2, tick := fieldNat p 20 4, offered := false })
  | 2 => some (.heat {
      code := fieldNat p 0 2, flags := fieldNat p 2 1, count := fieldNat p 19 1, tick := fieldNat p 20 4 })
  | 3 => some (.co {
      code := fieldInt p 0 4, flags := fieldNat p 4 1, di := fieldNat p 5 4, stepAt := fieldNat p 9 4, count := fieldNat p 19 1,
      tick := fieldNat p 20 4 })
  | 4 => some (.aux {
      code := fieldInt p 0 4, flags := fieldNat p 4 1, count := fieldNat p 19 1, tick := fieldNat p 20 4 })
  | 5 => some (.supply {
      vdd := fieldNat p 0 2, flyerT := fieldInt p 2 2, keeperT := fieldInt p 4 2, count := fieldNat p 19 1,
      tick := fieldNat p 20 4 })
  | 6 => some (.queues {
      level := fieldNat p 0 1, removed := fieldNat p 1 1, mark := fieldNat p 2 1 % 2 == 1, q06 := fieldNat p 3 1,
      q07 := fieldNat p 4 1, q04 := fieldNat p 5 1, q05 := fieldNat p 6 1, discarded := fieldNat p 7 1, count := fieldNat p 19 1,
      time := fieldNat p 20 4 })
  | _ => none

/-- A result as its payload carries it: every field within the width of its bytes. -/
def Flight.fit : Flight → Flight
  | .opt r => .opt {
      sIr := toSigned 24 (ofSigned 24 r.sIr), sBl := toSigned 24 (ofSigned 24 r.sBl), rIr := r.rIr % 2 ^ 24, rBl := r.rBl % 2 ^ 24,
      dark := r.dark % 65536, flags := r.flags % 256, tag := r.tag % 65536, loaded := r.loaded % 65536, tick := r.tick % 2 ^ 32, offered := false }
  | .heat r => .heat {
      code := (ofSigned 16 r.code : Nat), flags := r.flags % 256, count := r.count % 256, tick := r.tick % 2 ^ 32 }
  | .co r => .co {
      code := toSigned 32 (ofSigned 32 r.code), flags := r.flags % 256, di := r.di % 2 ^ 32, stepAt := r.stepAt % 2 ^ 32,
      count := r.count % 256, tick := r.tick % 2 ^ 32 }
  | .aux r => .aux {
      code := toSigned 32 (ofSigned 32 r.code), flags := r.flags % 256, count := r.count % 256, tick := r.tick % 2 ^ 32 }
  | .supply r => .supply {
      vdd := r.vdd % 65536, flyerT := toSigned 16 (ofSigned 16 r.flyerT), keeperT := toSigned 16 (ofSigned 16 r.keeperT),
      count := r.count % 256, tick := r.tick % 2 ^ 32 }
  | .queues r => .queues {
      level := r.level % 256, removed := r.removed % 256, mark := r.mark, q06 := r.q06 % 256, q07 := r.q07 % 256,
      q04 := r.q04 % 256, q05 := r.q05 % 256, discarded := r.discarded % 256, count := r.count % 256, time := r.time % 2 ^ 32 }

/-! ## HORN (R148) -/

/-- The 8 bytes of a horn command. -/
def hornBytes (c : HornCmd) : Bytes := [byte c.op, byte c.arg] ++ leBytes 2 c.onMs ++ leBytes 2 c.offMs ++ [byte c.reps, 0]

/-- A command of 8 bytes (R148). -/
def hornCmdOf (v : Bytes) : HornCmd :=
  ⟨(v.getD 0 0).toNat, (v.getD 1 0).toNat, leNat ((v.drop 2).take 2), leNat ((v.drop 4).take 2), (v.getD 6 0).toNat⟩

/-- A HORN flit of up to three commands: TAG is their number. -/
def hornFlit (cs : List HornCmd) : SentFlit := ⟨3, cs.length, fitBytes 24 (cs.flatMap hornBytes)⟩

/-- The commands of a HORN flit. -/
def hornCmds (g : SentFlit) : List HornCmd := (List.range g.tag).map fun i => hornCmdOf ((g.payload.drop (8 * i)).take 8)

/-- Op 0x04: the firmware kinds and the relayed kinds (R139, R148). -/
def kindsCmd (k : Nat × Nat) : HornCmd := ⟨4, k.1 % 8 + k.2 % 8 * 16, 0, 0, 0⟩

/-! ## COMMAND (R184) -/

/-- A COMMAND flit: the spec gives neither the layout of its payload nor its TAG. The model puts the register into byte 0 and the value into bytes
1 to 4 (DESIGN CHOICE, log 82); TAG is free. -/
def commandFlit (s : State) (reg val : Nat) : SentFlit := ⟨2, Config.freeNat s.free % 65536, byte reg :: leBytes 4 val ++ zeros 19⟩

end Sys2Proof.Machine
end

