-- ==== Sys2Proof/Machine/Ply.lean ====
section
/-! DEFINITION. The ply link (R22 to R36): flits and their acknowledgement, bursts, abandonment, the delivery of captures. -/
namespace Sys2Proof.Machine

def plyState (s : State) : Nat := s.get Ent.PLY_STATE
def plySOn (s : State) : Bool := s.spindle.alive && domState s .plyS == 2
/-- PLY_F, the flyer's end of the link, is ON (R30). -/
def plyFOn (s : State) : Bool := s.flyer.up && domNow s .plyF == 2
def captHeld (s : State) : Bool := s.get Ent.CAPT_HELD != 0

def laneOf (p : Ply) : Lane → LaneState
  | .f2s0 => p.f2s0 | .f2s1 => p.f2s1 | .s2f => p.s2f

def onLane (s : State) (l : Lane) (f : LaneState → LaneState) : State :=
  s.onPly fun p =>
    match l with
    | .f2s0 => { p with f2s0 := f p.f2s0 }
    | .f2s1 => { p with f2s1 := f p.f2s1 }
    | .s2f => { p with s2f := f p.s2f }

def laneNum : Lane → Nat
  | .f2s0 => 0 | .f2s1 => 1 | .s2f => 2

/-! ## Results in flight (R36, R110) -/

/-- A result goes back to its pending slot unless a newer one has taken it. -/
def returnFlight (r : Results) (f : Flight) : Results :=
  match f with
  | .opt x => if r.opt.isNone then { r with opt := some x } else r
  | .heat x => if r.heat.isNone then { r with heat := some x } else r
  | .co x => if r.co.isNone then { r with co := some x } else r
  | .aux x => if r.aux.isNone then { r with aux := some x } else r
  | .supply x => if r.supply.isNone then { r with supply := some x } else r
  | .queues x => if r.queues.isNone then { r with queues := some x } else r

/-- Results that no acknowledgement has reached return to their slots. -/
def returnFlights (r : Results) : Results := (r.flight.foldl (fun r x => returnFlight r x.2.2) { r with flight := [] })

/-- A marked queue report has been acknowledged (R110). -/
def unmark (r : Results) (f : Flight) : Results :=
  match f with
  | .queues x => if x.mark then { r with mark := false } else r
  | _ => r

/-- Results on a lane below the acknowledged ordinal are done. -/
def ackFlights (r : Results) (l : Lane) (acked : Nat) : Results :=
  let gone := r.flight.filter fun x => x.1 == l && x.2.1 < acked
  gone.foldl (fun r x => unmark r x.2.2) { r with flight := r.flight.filter fun x => !(x.1 == l && x.2.1 < acked) }

/-- Every flit below an ordinal is acknowledged on a lane. -/
def ackLane (s : State) (l : Lane) (n : Nat) : State :=
  let s := onLane s l fun x =>
    if x.acked < n then { x with acked := n, out := x.out.drop (n - x.acked), next := max x.next n, retries := 0 } else x
  s.onRes fun r => ackFlights r l n

/-- The acknowledgements that a good flit carries: those of the reverse direction (R25). -/
def ackReverse (s : State) (l : Lane) : State :=
  match l with
  | .s2f => ackLane (ackLane s .f2s0 s.ply.f2s0.recv) .f2s1 s.ply.f2s1.recv
  | .f2s0 => ackLane s .s2f s.ply.s2f.recv
  | .f2s1 => ackLane s .s2f s.ply.s2f.recv

/-! ## Flits on a lane (R25, R28) -/

/-- The ordinal after the last flit sent. -/
def LaneState.sentTo (x : LaneState) : Nat := x.acked + x.out.length

/-- A CAPTURE flit of the lane awaits its acknowledgement. -/
def capturesOut (x : LaneState) : Bool := x.out.any fun f => f.ty == 1

/-- Every CAPTURE flit of a written measurement is acknowledged: the flyer lets go of it, and its result may leave (R110). -/
def releaseDelivered (s : State) : State :=
  if s.ply.written && !capturesOut s.ply.f2s0 && !capturesOut s.ply.f2s1 then
    ((s.onPly fun p => { p with carry := false, written := false }).onSense fun x => { x with buf := none }).onRes fun r =>
      { r with opt := r.opt.map fun o => { o with offered := false } }
  else s

/-- The lane's END has been sent and acknowledged (R31). -/
def laneDone (x : LaneState) : Bool := x.ended && x.out.isEmpty

/-- Once the END of every lane is acknowledged the burst drains (R31, R35). -/
def drainCheck (s : State) : State :=
  if plyState s = 2 ∧ laneDone s.ply.f2s0 ∧ laneDone s.ply.f2s1 ∧ laneDone s.ply.s2f then s.put Ent.PLY_STATE 3 else s

/-- The SEQs that a header acknowledges: those of the last in-order good flits of the reverse lanes (R25). -/
def headerAcks (s : State) (l : Lane) : Nat × Nat :=
  match l with
  | .s2f => ((s.ply.f2s0.recv + 15) % 16, (s.ply.f2s1.recv + 15) % 16)
  | .f2s0 => ((s.ply.s2f.recv + 15) % 16, 0)
  | .f2s1 => ((s.ply.s2f.recv + 15) % 16, 0)

/-- The bytes of a flit that the lane sends now. -/
def laneFlit (s : State) (l : Lane) (f : SentFlit) : Bytes :=
  flitBytes (laneOf s.ply l).next (headerAcks s l).1 (headerAcks s l).2 f

/-- A flit leaves on a lane: a new one joins those that await an acknowledgement. The window of 4 means that its sender then holds the acknowledgement
of every flit 4 or more before it (R28). -/
def sendFlit (s : State) (l : Lane) (f : SentFlit) : State :=
  let fresh := (laneOf s.ply l).next == (laneOf s.ply l).sentTo
  let b := laneFlit s l f
  let s := onLane (s.bump Ent.PLY_FLITS) l fun x => { x with next := x.next + 1, out := if fresh then x.out ++ [f] else x.out, last := b }
  if fresh then ackLane s l ((laneOf s.ply l).sentTo - 4) else s

/-- A new flit may be sent: every flit before it has been, and the window has room or gets it by the acknowledgements on their way (R28). -/
def canSendNew (x : LaneState) : Bool := x.next == x.sentTo && (x.out.length < 4 || x.acked < x.recv)

/-- The receiver has taken an in-order good flit: it acknowledges it from now on, and the flit's own acknowledgements reach the other side. -/
def arrive (s : State) (l : Lane) : State :=
  drainCheck (releaseDelivered (ackReverse (onLane s l fun x => { x with recv := x.recv + 1 }) l))

/-! ## The end of a burst without delivery (R35, R36) -/

/-- The carried measurement is discarded; capture SRAM is left undefined and the result says so (R36, R110). One whose 512 flits are written has been
delivered: the flyer lets go of it (log 83). -/
def dropCarried (s : State) : State :=
  if s.ply.carry then
    if s.ply.written then (s.onSense fun x => { x with buf := none }).onRes fun r => { r with opt := r.opt.map fun o => { o with offered := false } }
    else
      let s := (s.onMem fun m => { m with capt := { fill := .free s.free } }).used
      (releaseResult s).onSense fun x => { x with buf := none }
  else s

/-- HORN flits that were sent and not received go back to the front of queue 03, and kinds to their slot unless newer ones stand there (log 83). -/
def returnHorn (p : Ply) : Ply :=
  ((p.s2f.out.drop (p.s2f.recv - p.s2f.acked)).filter fun f => f.ty == 3).foldr (fun f p =>
    match hornCmds f with
    | c :: cs =>
      if c.op = 4 then (if p.kinds.isNone then { p with kinds := some (c.arg % 8, c.arg / 16 % 8) } else p) else { p with q := (c :: cs) :: p.q }
    | [] => p) p

/-- The link goes to OFF: lanes, requests and flights are dropped; a PLY_QUIET that is owed is sent (R38). -/
def plyOff (s : State) : State :=
  let s := ((s.put Ent.PLY_STATE 0).onRes returnFlights).onPly returnHorn
  let s := s.onPly fun p =>
    { p with f2s0 := {}, f2s1 := {}, s2f := {}, reqFlyer := false, reqSpindle := false, carry := false, written := false }
  if s.flyer.quietOwed then sbQueue (s.onFlyer fun f => { f with quietOwed := false }) .flyer 9 0 [] else s

/-- A reset of either die ends the burst at once (R35): its measurement is discarded, nothing is counted or logged. -/
def plyReset (s : State) : State :=
  if plyState s = 0 then s.onPly fun p => { p with reqFlyer := false, reqSpindle := false, waiting := false } else plyOff (dropCarried s)

/-- The link-integrity record (R36). -/
def linkData (lane seq tag ty st : Nat) : Bytes := [byte lane, byte seq] ++ leBytes 2 tag ++ [byte ty, byte st] ++ zeros 6

/-- The record of a detecting die. -/
def linkRecord (s : State) (d : Die) (data : Bytes) : State := logDie s d 0x49 (if d = .flyer then 0x2E else 0x28) data

/-- A burst is abandoned (R36): counted once, the LINK alert of R304 raised, its measurement discarded. -/
def abandon (s : State) (data : Bytes) : State :=
  plyOff (dropCarried (alertFlags (s.bump Ent.PLY_ABANDONED) 0x49 (data.getD 0 0).toNat (data.getD 1 0).toNat))

/-- No start marker within 48 ns: each die whose receiving lanes failed sends its record (R36). -/
def wakeFailed (s : State) (lanes : List Lane) : State :=
  if plyState s ≠ 1 then s
  else
    let down := lanes.contains .f2s0 || lanes.contains .f2s1
    let low := if lanes.contains .f2s0 then 0 else if lanes.contains .f2s1 then 1 else 2
    let s := if down then linkRecord s .spindle (linkData low 0 0 0 1) else s
    let s := if lanes.contains .s2f then linkRecord s .flyer (linkData 2 0 0 0 1) else s
    abandon s (linkData low 0 0 0 1)

/-- The oldest flit is unacknowledged 4 flit times after it ended (R28): it and every later one are sent again, or the burst is abandoned, and the
record names that flit (R36). -/
def retryTimeout (s : State) (l : Lane) : State :=
  if plyState s ≠ 2 then s
  else
    let x := laneOf s.ply l
    match x.out with
    | [] => s
    | f :: _ =>
      if x.retries < 3 then (onLane s l fun x => { x with next := x.acked, retries := x.retries + 1 }).bump Ent.PLY_RETRIES
      else
        let data := linkData (laneNum l) (x.acked % 16) f.tag f.ty 2
        abandon (linkRecord s (if l = .s2f then .spindle else .flyer) data) data

/-! ## Bursts (R30, R31, R35) -/

/-- The flyer has a measurement that it may deliver now (R34, R38, R110). -/
def hasMeasurement (s : State) : Bool := (s.flyer.sense.buf.map fun m => !m.dead).getD false

/-- The flyer carries its measurement in the burst: CAPT_HELD clear, and no reset of the spindle die announced (R34, R38). -/
def mayCarry (s : State) : Bool := hasMeasurement s && !captHeld s && s.flyer.mayBurst

/-- A burst starts. Every lane counts its flits from 0 in each burst (DESIGN CHOICE, log 80: the spec does not say which SEQ a lane's first flit
carries). -/
def startBurst (s : State) (byFlyer : Bool) : State :=
  let carry := mayCarry s
  let s := (s.put Ent.PLY_STATE 1).bump Ent.PLY_BURSTS
  s.onPly fun p => { p with
    f2s0 := {}, f2s1 := {}, s2f := {}, carry := carry, written := false, waiting := false,
    reqFlyer := byFlyer || p.reqFlyer, reqSpindle := !byFlyer || p.reqSpindle }

/-- A request joins the burst (R30, R31): its side's lanes may send data again, and the flyer's brings a measurement that the burst does not carry
yet. -/
def joinBurst (s : State) (byFlyer : Bool) : State :=
  let take := byFlyer && !s.ply.carry && mayCarry s
  s.onPly fun p =>
    if byFlyer then
      let again (x : LaneState) : LaneState := if take then { x with ended := false, data := 0, got := 0 } else { x with ended := false }
      { p with reqFlyer := true, carry := p.carry || take, f2s0 := again p.f2s0, f2s1 := again p.f2s1 }
    else { p with reqSpindle := true, s2f := { p.s2f with ended := false } }

/-- The flyer's CAPTURE_READY (R33). -/
def sendCaptureReady (s : State) : State :=
  match s.flyer.sense.buf with
  | some m => (sbQueue s .flyer 0xA 2 (leBytes 2 m.tag)).onPly fun p => { p with waiting := true }
  | none => s

/-- Both ends of the link are ON (R30, R35). -/
def plyOn (s : State) : Bool := plySOn s && plyFOn s

/-- A request wire is asserted while the link is OFF (R30, R35): the burst starts once both ends are ON; each side's end rises for it. -/
def requestOff (s : State) (byFlyer : Bool) : State :=
  let s := s.onPly fun p => if byFlyer then { p with reqFlyer := true } else { p with reqSpindle := true }
  let s := rise (if byFlyer then s else demand s .plyS) .plyF
  if plyOn s then startBurst s byFlyer else s

/-- An end of the link is ON: a request that waited for it starts its burst. -/
def startWaiting (s : State) : State :=
  if plyState s = 0 ∧ plyOn s then
    if s.ply.reqFlyer && s.flyer.mayBurst then startBurst s true else if s.ply.reqSpindle then startBurst s false else s
  else s

/-- A burst request (R30, R33, R35). -/
def burstRequest (s : State) (byFlyer : Bool) : State :=
  match plyState s with
  | 0 =>
    if byFlyer then
      if !s.flyer.up || !s.flyer.mayBurst then s
      else if !plySOn s then (if s.ply.waiting then s else sendCaptureReady s)
      else requestOff s true
    else if s.spindle.alive then requestOff s false else s
  | 1 => joinBurst s byFlyer
  | 2 => joinBurst s byFlyer
  | 3 => joinBurst (s.put Ent.PLY_STATE 2) byFlyer
  | _ => s

/-! ## The sender's flits -/

/-- The capture that a lane's data flit `k` carries: infrared and dark on F2S0, blue and reference on F2S1 (R26). -/
def laneCapture (c : Captures) (l : Lane) (k : Nat) : List Nat :=
  match l with
  | .f2s0 => if k < 128 then c.ir else c.dark
  | _ => if k < 128 then c.blue else c.ref

/-- No data flit is left for the lane. -/
def laneDrained (s : State) (l : Lane) : Bool :=
  match l with
  | .s2f => s.ply.q.isEmpty && s.ply.kinds.isNone
  | _ => !s.ply.carry || (laneOf s.ply l).data == 256

/-- The next CAPTURE flit of a lane, and the state once it has left the buffer's queue. -/
def sourceCapture (s : State) (l : Lane) : Option (State × SentFlit) :=
  let k := (laneOf s.ply l).data
  match s.flyer.sense.buf with
  | some m =>
    if s.ply.carry && k < 256 then
      some (onLane s l fun x => { x with data := k + 1 },
        ⟨1, captureTag (k / 128 * 2 + laneNum l) (k % 128) m.tag, capturePayload (laneCapture m.caps l k) (k % 128)⟩)
    else none
  | none => none

/-- The next HORN flit: the kinds of op 0x04 from their slot, else up to three commands from queue 03 (R148, R192). -/
def sourceHorn (s : State) : Option (State × SentFlit) :=
  match s.ply.kinds, s.ply.q with
  | some k, _ => some (s.onPly fun p => { p with kinds := none }, hornFlit [kindsCmd k])
  | none, cs :: rest => some (s.onPly fun p => { p with q := rest }, hornFlit cs)
  | none, [] => none

/-- A pending result of a kind, and the results without it; an optical result that waits for its captures stays (R110). -/
def takeResult (r : Results) (kind : Nat) : Option (Results × Flight) :=
  match kind with
  | 1 => match r.opt with
    | some o => if o.offered then none else some ({ r with opt := none }, .opt o)
    | none => none
  | 2 => r.heat.map fun x => ({ r with heat := none }, .heat x)
  | 3 => r.co.map fun x => ({ r with co := none }, .co x)
  | 4 => r.aux.map fun x => ({ r with aux := none }, .aux x)
  | 5 => r.supply.map fun x => ({ r with supply := none }, .supply x)
  | 6 => r.queues.map fun x => ({ r with queues := none }, .queues x)
  | _ => none

/-- A STATUS flit of a kind: its result leaves its slot and stays in flight until it is acknowledged (R36, R110). -/
def sourceStatus (s : State) (l : Lane) (kind : Nat) : Option (State × SentFlit) :=
  (takeResult s.flyer.res kind).map fun x =>
    (s.onRes fun _ => { x.1 with flight := x.1.flight ++ [(l, (laneOf s.ply l).sentTo, x.2)] },
      ⟨4, statusTag s.flyer.sense.tag x.2, statusPayload x.2⟩)

/-- An END flit, once all data of the lane is acknowledged (R31); its TAG is not stated: free. -/
def sourceEnd (s : State) (l : Lane) : Option (State × SentFlit) :=
  if laneDrained s l && (laneOf s.ply l).out.isEmpty then
    some (onLane s.used l fun x => { x with ended := true }, ⟨5, Config.freeNat s.free % 65536, zeros 24⟩)
  else none

/-- A new flit of a kind that the lane's sender has (R22, R25). After its END a lane sends no data until a request joins (R31). -/
def source (s : State) (l : Lane) (k : FlitKind) : Option (State × SentFlit) :=
  if (laneOf s.ply l).ended then none
  else
    match k with
    | .idle => none
    | .capture => if l = .s2f then none else sourceCapture s l
    | .command reg val => if l = .s2f then some (s.used, commandFlit s reg val) else none
    | .horn => if l = .s2f then sourceHorn s else none
    | .status kind => if l = .s2f then none else sourceStatus s l kind
    | .end_ => sourceEnd s l

/-- What the sender of a lane sends next: the flit that it has to repeat, or a new one of the kind named; and the state once it has taken it. -/
def nextFlit (s : State) (l : Lane) (k : FlitKind) : Option (State × SentFlit) :=
  let x := laneOf s.ply l
  match x.out[x.next - x.acked]? with
  | some f => some (s, f)
  | none => if canSendNew x then source s l k else none

/-- The flit is of the kind that a command names. -/
def isOf : FlitKind → SentFlit → Bool
  | .idle, f => f.ty == 0
  | .capture, f => f.ty == 1
  | .command reg val, f => f.ty == 2 && f.payload.take 5 == byte reg :: leBytes 4 val
  | .horn, f => f.ty == 3
  | .status kind, f => f.ty == 4 && f.tag / 256 == kind
  | .end_, f => f.ty == 5

/-- A good in-order flit of a kind arrives on a lane of an ACTIVE link, and the receiver takes it (R28); nothing where its sender has no such flit to
send next, or the receiver waits for an earlier one. -/
def flitArrives (s : State) (l : Lane) (k : FlitKind) (f : State → SentFlit → State) : State :=
  if plyState s ≠ 2 ∨ (laneOf s.ply l).next ≠ (laneOf s.ply l).recv then s
  else
    match nextFlit s l k with
    | some (t, g) => if isOf k g then f (arrive (sendFlit t l g) l) g else s
    | none => s

/-! ## The receivers -/

/-- All 512 CAPTURE flits are written (R34): CAPT_HELD, the tag, the notice. -/
def captureDone (s : State) : State :=
  match s.flyer.sense.buf with
  | some m => releaseDelivered ((raise ((s.put Ent.CAPT_HELD 1).put Ent.OPT_CAPT_TAG m.tag) 8).onPly fun p => { p with written := true })
  | none => s

/-- The flit belongs to the measurement that the burst carries, and not to one that it replaced (R34). -/
def ofCarried (s : State) (g : SentFlit) : Bool := s.ply.carry && (s.flyer.sense.buf.map fun m => m.tag % 128 == g.tag % 128).getD false

/-- The spindle end writes a CAPTURE flit to the place that its TAG names (R27). -/
def takeCapture (s : State) (l : Lane) (g : SentFlit) : State :=
  let s := s.onMem fun x => { x with capt := x.capt.putAll (g.tag / 2 ^ 14 % 4 * 0x1000 + g.tag / 128 % 128 * 32) (captureWords g.payload) }
  if ofCarried s g then
    let s := onLane s l fun x => { x with got := x.got + 1 }
    if s.ply.f2s0.got = 256 ∧ s.ply.f2s1.got = 256 then captureDone s else s
  else s

/-- A COMMAND flit sets a command register of the flyer (R184). -/
def takeCommand (s : State) (g : SentFlit) : State :=
  s.onFlyer fun f => { f with regs := sparseSet 0 (fieldNat g.payload 0 1) (fieldNat g.payload 1 4) f.regs }

/-- A HORN flit (R148): the kinds of op 0x04 go to their slot, commands to queue 01. -/
def takeHorn (s : State) (g : SentFlit) : State :=
  s.onHorn fun h => (hornCmds g).foldl (fun h c =>
    if c.op = 4 then { h with fwKinds := some (c.arg % 8), relKinds := c.arg / 16 % 8 } else { h with queue := (h.queue ++ [c]).take 8 }) h

/-- 4 flit times have passed in DRAINING (R31). -/
def drainExpiry (s : State) : State := if plyState s = 3 then plyOff s else s

/-- An IDLE flit carries acknowledgements only (R29). It has no place in the window, and no number of its own: it carries that of the next flit
(log 80). -/
def idleArrives (s : State) (l : Lane) : State :=
  if (plyState s = 2 ∨ plyState s = 3) ∧ (laneOf s.ply l).next = (laneOf s.ply l).recv then
    let b := laneFlit s l ⟨0, 0, zeros 24⟩
    drainCheck (releaseDelivered (ackReverse (onLane (s.bump Ent.PLY_FLITS) l fun x => { x with last := b }) l))
  else s

/-- A flit is sent, and its receiver discards it (R28): it is counted where its CRC fails, in DRAINING an IDLE flit too. -/
def flitDiscarded (s : State) (l : Lane) (why : Discard) (k : FlitKind) : State :=
  let counted (s : State) : State := if why = .crc then s.bump Ent.PLY_CRC_ERR else s
  if k = .idle then
    if plyState s = 2 ∨ plyState s = 3 then
      let b := laneFlit s l ⟨0, 0, zeros 24⟩
      counted (onLane (s.bump Ent.PLY_FLITS) l fun x => { x with last := b })
    else s
  else if plyState s ≠ 2 then s
  else
    match nextFlit s l k with
    | some (t, g) => counted (sendFlit t l g)
    | none => s

/-! ## Commands -/

def execPlyBurstRequest (byFlyer : Bool) (s : State) : Host.Outcome State Fault Refusal := .next (burstRequest s byFlyer)

def execPlyStartMarkerAligned (s : State) : Host.Outcome State Fault Refusal :=
  .next (if plyState s = 1 then s.put Ent.PLY_STATE 2 else s)

def execPlyWakeTimeout (lanes : List Lane) (s : State) : Host.Outcome State Fault Refusal := .next (wakeFailed s lanes)

/-- Why the receiver discards it, and which flit it is. -/
def execPlyFlitDiscarded (lane : Lane) (why : Discard × FlitKind) (s : State) : Host.Outcome State Fault Refusal :=
  .next (flitDiscarded s lane why.1 why.2)

def execPlyCaptureFlit (lane : Lane) (s : State) : Host.Outcome State Fault Refusal :=
  .next (flitArrives s lane .capture fun s g => takeCapture s lane g)

def execPlyCommandFlit (reg val : Nat) (s : State) : Host.Outcome State Fault Refusal :=
  .next (flitArrives s .s2f (.command reg val) takeCommand)

def execPlyHornFlit (s : State) : Host.Outcome State Fault Refusal := .next (flitArrives s .s2f .horn takeHorn)

def execPlyEndFlit (lane : Lane) (s : State) : Host.Outcome State Fault Refusal := .next (flitArrives s lane .end_ fun s _ => s)

def execPlyIdleFlit (lane : Lane) (s : State) : Host.Outcome State Fault Refusal := .next (idleArrives s lane)

def execPlyRetryTimeout (lane : Lane) (s : State) : Host.Outcome State Fault Refusal := .next (retryTimeout s lane)

def execPlyDrainExpiry (s : State) : Host.Outcome State Fault Refusal := .next (drainExpiry s)

end Sys2Proof.Machine
end

