-- ==== Sys2Proof/Machine/Results.lean ====
section
/-! DEFINITION. The result unit of the spindle die (R110, R112 to R121, R192, R305): what each STATUS flit fills. -/
namespace Sys2Proof.Machine

/-- The notice of a result (R110). -/
def resultNotice (s : State) : State := raise s 9

/-! ## Optical (R112 to R114) -/

/-- An effective baseline stands at one of its factory limits (R114 bit 5). -/
def atLimit (s : State) (i : Nat) : Bool :=
  match overlays[i]? with
  | some o => effective s i == s.getS (o.factory + 2) || effective s i == s.getS (o.factory + 3)
  | none => false

/-- N of both wavelengths, exactly (R112). -/
def resultIr (s : State) (r : OptResult) : Frac := normalised r.sIr r.rIr (s.get Ent.REF_NOM_IR)
def resultBl (s : State) (r : OptResult) : Frac := normalised r.sBl r.rBl (s.get Ent.REF_NOM_BL)

/-- Y of both wavelengths; none where the sensitivity is 0 (R112). -/
def resultYIr (s : State) (r : OptResult) : Option Frac := extinction (resultIr s r) (effective s 0) (effective s 2)
def resultYBl (s : State) (r : OptResult) : Option Frac := extinction (resultBl s r) (effective s 1) (effective s 3)

/-- OPT_FLAGS (R114). -/
def optFlags (s : State) (r : OptResult) : Nat :=
  let low := refLow r.rIr (s.get Ent.REF_NOM_IR) || refLow r.rBl (s.get Ent.REF_NOM_BL)
  let q := ratioOf (resultYIr s r) (resultYBl s r)
  (r.flags &&& 0xD9) ||| (if low then 2 else 0) ||| (if q.isNone then 4 else 0) ||| (if atLimit s 0 || atLimit s 1 then 32 else 0)
    ||| (if effective s 2 = 0 ∨ effective s 3 = 0 then 256 else 0)

/-- The backstop's values of a measurement (R113): the integrals of its result with the shadow copy's factory values. -/
def backstopValues (s : State) (r : OptResult) : Int × Int × Option Frac :=
  backstopOptical s.flyer.bs { sIr := r.sIr, sBl := r.sBl, rIr := r.rIr, rBl := r.rBl, dark := r.dark, rail := false }

/-- A reference below half its nominal value, as a percentage rounded down; 100 where no nominal value is set. -/
def refPercent (r ref : Nat) : Nat := if ref = 0 then 100 else r * 100 / ref

/-- The CHAMBER monitor on an optical result (R305). -/
def chamberCheck (s : State) (r : OptResult) : State :=
  let nom : Int := s.get Ent.DARK_NOM
  let tol : Int := s.get Ent.DARK_TOL
  let d : Int := r.dark
  let s :=
    if tol < (d - nom).natAbs then monitorAlert s .spindle 0x48 0 0 0x20 d (if nom < d then nom + tol else nom - tol) false
    else monitorEnd s 0x48 0
  let refIr := s.get Ent.REF_NOM_IR
  let refBl := s.get Ent.REF_NOM_BL
  if 2 * r.rIr < refIr ∨ 2 * r.rBl < refBl then
    monitorAlert s .spindle 0x48 1 0 0x20 (min (refPercent r.rIr refIr) (refPercent r.rBl refBl) : Nat) 50 false
  else monitorEnd s 0x48 1

/-- An optical result fills its entries (R112 to R114, R121, R129). -/
def optResult (s : State) (r : OptResult) : State :=
  let yIr := resultYIr s r
  let yBl := resultYBl s r
  let flags := optFlags s r
  let b := backstopValues s r
  let vdd := vddSum s r.loaded
  let s := ((s.put Ent.OPT_TAG r.tag).put Ent.OPT_TIME r.tick).putS Ent.OPT_S_IR r.sIr
  let s := ((s.putS Ent.OPT_S_BL r.sBl).put Ent.OPT_REF_IR r.rIr).put Ent.OPT_REF_BL r.rBl
  let s := ((s.put Ent.OPT_DARK r.dark).putS Ent.OPT_Y_IR (f32Opt yIr)).putS Ent.OPT_Y_BL (f32Opt yBl)
  let s := ((s.putS Ent.OPT_RATIO (f32Opt (ratioOf yIr yBl))).put Ent.OPT_FLAGS flags).bump Ent.OPT_COUNT
  let s := if bit flags 0 then s.bump Ent.OPT_SAT_COUNT else s
  let s := ((s.putS Ent.OPT_BS_IR b.1).putS Ent.OPT_BS_BL b.2.1).putS Ent.OPT_BS_RATIO (f32Opt b.2.2)
  let s := (s.put Ent.VDD_LOADED vdd).put Ent.VDD_MIN (min (s.get Ent.VDD_MIN) vdd)
  resultNotice (chamberCheck s r)

/-! ## Heat (R115 to R117) -/

/-- Bits of the fixed point in which the logarithm is formed. -/
abbrev lnBits : Nat := 160

/-- Σ y^(2k+1) / (2k+1) from `k` on, `n` terms; `p` is y^(2k+1) and `q` is y², both in fixed point. -/
def atanhTerms (q : Int) : Nat → Nat → Int → Int
  | 0, _, _ => 0
  | n + 1, k, p => p / (2 * k + 1 : Nat) + atanhTerms q n (k + 1) (p * q / 2 ^ lnBits)

/-- ln of n / d, for n and d above 0 and n / d from 1 to 2, in fixed point: 2 · artanh((n − d) / (n + d)). -/
def lnNear (n d : Nat) : Int :=
  let y : Int := ((n : Int) - d) * 2 ^ lnBits / ((n + d : Nat) : Int)
  2 * atanhTerms (y * y / 2 ^ lnBits) 60 0 y

/-- ln of n / d, for n and d above 0, in fixed point. -/
def lnFix (n d : Nat) : Int :=
  if n < d then
    let k := Nat.log2 (d / n);
    (-1) * (k * lnNear 2 1 + lnNear d (n * 2 ^ k))
  else
    let k := Nat.log2 (n / d)
    k * lnNear 2 1 + lnNear n (d * 2 ^ k)

/-- T of a ratio code, in °C; none where it is not computed (R115). A denominator of zero has no stated result (log 5). -/
def heatTemp (s : State) (c : Nat) : Option Frac :=
  let nom := s.get Ent.NTC_NOM
  let beta := s.getS Ent.NTC_BETA
  let ref := s.get Ent.NTC_REF
  if c = 0 ∨ nom = 0 ∨ beta = 0 ∨ ref = 0 then none
  else
    let ln := lnFix (ref * c) ((65536 - c) * nom)
    let num : Int := 29815 * 2 ^ lnBits * beta
    let den : Int := 100 * 2 ^ lnBits * beta + 29815 * 65536 * ln
    let k := if den = 0 then (Config.freeResult c beta ln, 1) else mkFrac num den
    -- k − 273.15 + offset / 65,536
    some (k.1 * 6553600 + k.2 * (100 * effective s 4 - 27315 * 65536), k.2 * 6553600)

/-- HEAT_ROR from the temperatures held, the newest last (R116). -/
def heatRor (held : List (Nat × Int × Int)) : Frac :=
  match held.head?, held.getLast? with
  | some m, some n =>
    if m.1 < n.1 then ((n.2.1 * m.2.2 - m.2.1 * n.2.2) * 60, n.2.2 * m.2.2 * ((n.1 - m.1 : Nat) : Int)) else (0, 1)
  | _, _ => (0, 1)

/-- The temperatures held when a new one arrives: those with an earlier tick time, and it, the last 9 (R116). -/
def holdTemp (held : List (Nat × Int × Int)) (tick : Nat) (t : Frac) : List (Nat × Int × Int) :=
  let l := held.filter (fun h => h.1 < tick) ++ [(tick, t)]
  l.drop (l.length - 9)

/-- HEAT_MIN and HEAT_MAX (R130): the first temperature since the reset sets both. -/
def heatExtremes (s : State) (t : Int) : State :=
  let first := s.spindle.temps.isEmpty
  let s := if first || decide (t < s.getS Ent.HEAT_MIN) then s.putS Ent.HEAT_MIN t else s
  if first || decide (s.getS Ent.HEAT_MAX < t) then s.putS Ent.HEAT_MAX t else s

/-- HEAT_FLAGS (R117, R130). -/
def heatFlags (s : State) (code : Nat) : Nat :=
  (if 65000 ≤ code then 1 else 0) + (if code ≤ 1000 then 2 else 0) + (if clamped s 4 then 4 else 0) + (if (heatTemp s code).isNone then 8 else 0)

/-- A heat result fills its entries (R115, R116). Where no temperature is computed (R115), HEAT_ROR keeps its value (DESIGN CHOICE, log 103: the spec does
not say what it reads). -/
def heatResult (s : State) (r : CodeResult) : State :=
  let c := r.code.toNat
  let flags := heatFlags s c
  let t := heatTemp s c
  let s := (((s.put Ent.HEAT_CODE c).put Ent.HEAT_TIME r.tick).put Ent.HEAT_FLAGS flags).bump Ent.HEAT_COUNT
  resultNotice (
    match t with
    | none => s.putS Ent.HEAT_TEMP 0
    | some t =>
      let held := holdTemp s.spindle.temps r.tick t
      ((heatExtremes (s.putS Ent.HEAT_TEMP (f32Of t)) (f32Of t)).onSpindle fun x => { x with temps := held }).putS Ent.HEAT_ROR
        (f32Of (heatRor held)))

/-! ## Gas and the auxiliary input (R118 to R120) -/

/-- CO_CURRENT: code × 10,000 / 1,048,576 nA (R118). -/
def coCurrent (code : Int) : Frac := (code * 10000, 1048576)

/-- ppm; none where CO_SENS_eff is 0 (R118). -/
def coPpm (s : State) (code : Int) : Option Frac :=
  if effective s 7 = 0 then none
  else some (mkFrac (code * 10000 * 65536 - effective s 6 * 1048576) (1048576 * effective s 7))

/-- CO_FLAGS (R118, R130). -/
def coFlags (s : State) (r : CoResult) : Nat :=
  let low := match coPpm s r.code with
    | some p => !Frac.le (-10, 1) p
    | none => false
  (if low then 1 else 0) + (if bit r.flags 1 then 2 else 0) + (if bit r.flags 2 then 4 else 0) + (if clamped s 6 || clamped s 7 then 8 else 0)
    + (if effective s 7 = 0 then 16 else 0)

/-- ΔI of a pulse lies in the pass band (R119). -/
def pulsePasses (s : State) (di : Nat) : Bool := decide (s.getS Ent.CO_PULSE_LO ≤ di) && decide ((di : Int) ≤ s.getS Ent.CO_PULSE_HI)

/-- A CO result fills its entries, and publishes the pulse it carries (R118, R119). -/
def coResult (s : State) (r : CoResult) : State :=
  let flags := coFlags s r
  let ppm := coPpm s r.code
  let s := ((s.putS Ent.CO_CODE r.code).putS Ent.CO_CURRENT (f32Of (coCurrent r.code))).putS Ent.CO_PPM (f32Opt ppm)
  let s := (s.put Ent.CO_TIME r.tick).put Ent.CO_FLAGS flags
  let s := if bit r.flags 7 then
      ((s.putS Ent.CO_PULSE_DI r.di).put Ent.CO_PULSE_PASS (if pulsePasses s r.di then 1 else 0)).put Ent.CO_PULSE_TIME r.stepAt
    else s
  resultNotice s

/-- AIN_MV (R120). -/
def ainMv (s : State) (code : Int) : Frac := ((code - effective s 8) * effective s 9 * 1200, 65536 * 8388608 * 2 ^ s.get Ent.AIN_PGA)

/-- AIN_FLAGS (R120, R130). -/
def ainFlags (s : State) (r : CodeResult) : Nat := (if bit r.flags 0 then 1 else 0) + (if clamped s 8 || clamped s 9 then 2 else 0)

/-- An auxiliary result fills its entries (R120). -/
def auxResult (s : State) (r : CodeResult) : State :=
  let mv := ainMv s r.code
  let flags := ainFlags s r
  resultNotice ((((s.putS Ent.AIN_CODE r.code).putS Ent.AIN_MV (f32Of mv)).put Ent.AIN_TIME r.tick).put Ent.AIN_FLAGS flags)

/-! ## Supply and queues (R121, R122, R192) -/

/-- A temperature of 0.1 °C as F32. -/
def tempF32 (t : Int) : Int := f32Of (t, 10)

/-- A supply result fills its entries (R121, R122). -/
def supplyResult (s : State) (r : SupplyResult) : State :=
  let v := vddSum s r.vdd
  resultNotice ((((s.put Ent.VDD_NOW v).putS (Ent.DIE_TEMP 2) (tempF32 r.flyerT)).putS (Ent.DIE_TEMP 3) (tempF32 r.keeperT)).put Ent.SUPPLY_TIME r.tick)

/-- A queue level as the flyer reports it: the stored part of Q_LEVEL, and the peak (R196). -/
def noteLevel (s : State) (q n : Nat) : State := notePeak (s.put (Ent.Q_LEVEL q) n) q n

/-- A queue report (R110, R148, R158, R192, R196). With the mark the flyer's counts have restarted, and the spindle die zeroes its own. -/
def queueResult (s : State) (r : QueueReport) : State :=
  let base := if r.mark then 0 else s.spindle.dropSeen
  let s := (s.put Ent.HORN_QUEUE r.level).bumpBy Ent.HORN_CMD_DROPPED ((r.discarded + 256 - base) % 256)
  let s := s.onSpindle fun x => { x with freed := r.removed, placed := if r.mark then 0 else x.placed, dropSeen := r.discarded }
  noteLevel (noteLevel (noteLevel (noteLevel (noteLevel s 1 r.level) 6 r.q06) 7 r.q07) 4 r.q04) 5 r.q05

/-! ## STATUS flits -/

/-- The result unit takes a result (R110). -/
def resultUnit (s : State) : Flight → State
  | .opt r => optResult s r
  | .heat r => heatResult s r
  | .co r => coResult s r
  | .aux r => auxResult s r
  | .supply r => supplyResult s r
  | .queues r => queueResult s r

/-- A STATUS flit is read by its TAG and payload; one of another kind is discarded (R110). It waits in PLY_STQ while the result unit does (R184). -/
def takeStatus (s : State) (g : SentFlit) : State :=
  match statusOf (g.tag / 256) g.payload with
  | some f => if plyHolds s then s.onSpindle fun x => { x with stq := x.stq ++ [f] } else resultUnit s f
  | none => s

/-- A good STATUS flit of a kind arrives on a lane. A full PLY_STQ takes none: the flit stays unacknowledged (log 91). -/
def statusArrives (s : State) (lane : Lane) (kind : Nat) : State :=
  if 4 ≤ s.spindle.stq.length then s else flitArrives s lane (.status kind) takeStatus

/-! ## Commands -/

def execStatusOptical (lane : Lane) (s : State) : Host.Outcome State Fault Refusal := .next (statusArrives s lane 1)

def execStatusHeat (lane : Lane) (s : State) : Host.Outcome State Fault Refusal := .next (statusArrives s lane 2)

def execStatusCo (lane : Lane) (s : State) : Host.Outcome State Fault Refusal := .next (statusArrives s lane 3)

def execStatusAux (lane : Lane) (s : State) : Host.Outcome State Fault Refusal := .next (statusArrives s lane 4)

def execStatusSupply (lane : Lane) (s : State) : Host.Outcome State Fault Refusal := .next (statusArrives s lane 5)

def execStatusQueues (lane : Lane) (s : State) : Host.Outcome State Fault Refusal := .next (statusArrives s lane 6)

end Sys2Proof.Machine
end

