-- ==== Sys2Proof/Machine/Measure.lean ====
section
/-! DEFINITION. The measurement scheduler and the ends of measurements (R104 to R122, R134): what the flyer does at each. -/
namespace Sys2Proof.Machine

/-- The scheduler runs in every mode except RETIRED (R89, R104). A flyer that holds no copy of the mode yet, after its reset, schedules every
measurement, and offers each for delivery (DESIGN CHOICE, log 85: the spec does not say). -/
def schedules (s : State) : Bool := s.flyer.up && !s.flyer.bs.off

/-- The time as the flyer has learned it (R110, R188). -/
def flyerTime (s : State) : Nat := s.flyer.rtc.getD 0

/-! ## Optical -/

/-- An optical measurement starts at its tick (R108): an accepted request begins with it (R106). -/
def optStart (s : State) (vdd : Nat) : State :=
  let req := s.flyer.sense.reqAccepted
  (rise s .opt).onSense fun x => { x with
    opt := some ⟨req, flyerTime s, vdd⟩, reqAccepted := false, reqBegan := if req then some s.keeper.aon else x.reqBegan }

/-- The optical period expires, or an accepted request begins; one that falls due during a measurement waits (R104). -/
def optTick (s : State) (vdd : Nat) : State :=
  if !schedules s then s
  else if s.flyer.sense.opt.isSome then s.onSense fun x => { x with optWaiting := some vdd }
  else optStart s vdd

/-- The measurement is offered for delivery: in FACTORY and CALIBRATE only a requested one (R105). -/
def optOffered (s : State) (requested : Bool) : Bool :=
  requested || (s.flyer.mode != some .factory && s.flyer.mode != some .calibrate)

/-- OPT_FLAGS bits that the flyer sets (R110, R111, R114). -/
def flyerFlags (s : State) (g : Integrals) (led requested : Bool) : Nat :=
  (if g.rail then 1 else 0) + (if led then 8 else 0) + (if requested then 64 else 0) + (if shadowHeld s.flyer.bs then 0 else 128)

/-- The result of a measurement (R110). -/
def formOpt (s : State) (g : Integrals) (led : Bool) (run : OptRun) (loaded : Nat) : OptResult :=
  { sIr := g.sIr, sBl := g.sBl, rIr := g.rIr, rBl := g.rBl, dark := g.dark, flags := flyerFlags s g led run.requested,
    tag := s.flyer.sense.tag, loaded := loaded, tick := run.tick, offered := true }

/-- The captures take the buffer; a measurement not delivered is replaced and counted (R34). The burst that carried it carries it no more. One whose
CAPT_HELD was set can no longer be delivered (R110). -/
def bufferCaptures (s : State) (caps : Captures) : State :=
  let s := if s.flyer.sense.buf.isSome && !s.ply.written then s.bump Ent.PLY_OVERRUN else s
  let dead := captHeld s
  (s.onPly fun p => { p with carry := false, written := false }).onSense fun x => { x with buf := some ⟨x.tag, caps, dead⟩ }

/-- The measurement is offered: its result waits for its captures, unless CAPT_HELD keeps them back; with PLY_S not ON the spindle die is called
(R33, R110). -/
def offerMeasurement (s : State) (caps : Captures) (r : OptResult) : State :=
  let s := (bufferCaptures s caps).onRes fun x => { x with opt := some (if captHeld s then undelivered r else r) }
  if plySOn s then s else sendCaptureReady s

/-- The supply result of a measurement (R110, R121). -/
def formSupply (s : State) (run : OptRun) : State :=
  s.onRes fun r => { r with supplyN := r.supplyN + 1, supply := some (
    { vdd := run.vdd, flyerT := s.flyer.sense.flyerT, keeperT := s.flyer.sense.keeperT, count := r.supplyN % 256, tick := run.tick } : SupplyResult) }

/-- The backstop evaluates an optical measurement and reports a change (R134 to R136). -/
def backstopOpticalStep (s : State) (g : Integrals) : State := backstopEvaluated (s.onBs fun b => evalOptical b g)

/-- An optical measurement has ended (R108, R110, R111). -/
def optFinish (s : State) (run : OptRun) (caps : Captures) (led : Bool) (loaded : Nat) : State :=
  let g := integralsOf s caps
  let r := formOpt s g led run loaded
  let s := backstopOpticalStep (s.onSense fun x => { x with opt := none, loadedRaw := loaded, loadedCount := (x.loadedCount + 1) % 256 }) g
  let s := if optOffered s run.requested then offerMeasurement s caps r else s.onRes fun x => { x with opt := some (undelivered r) }
  formReport (formSupply (s.onSense fun x => { x with tag := (x.tag + 1) % 65536 }) run)

/-- A scheduled measurement that waited runs now (R104). -/
def optNext (s : State) : State :=
  match s.flyer.sense.optWaiting with
  | some vdd => if schedules s then optStart (s.onSense fun x => { x with optWaiting := none }) vdd else s
  | none => s

def optComplete (s : State) (caps : Captures) (led : Bool) (loaded : Nat) : State :=
  match s.flyer.sense.opt with
  | some run => optNext (optFinish s run caps led loaded)
  | none => s

/-- OPT_REQUEST (R106): the status; STATE comes before BUSY (R55). -/
def optRequestStatus (s : State) : Nat :=
  let x := s.flyer.sense
  if bit (s.get Ent.FAULT_CAUSE) 1 then Sc.state
  else if x.opt.isSome || x.reqAccepted || (match x.reqBegan with
      | some t => decide (s.keeper.aon < t + aonMs 100)
      | none => false) then Sc.busy
  else Sc.ok

def optRequest (s : State) : State × Nat :=
  let c := optRequestStatus s
  (if c = Sc.ok then s.onSense fun x => { x with reqAccepted := true } else s, c)

/-! ## Heat -/

def heatStart (s : State) : State := (rise s .heat).onSense fun x => { x with heat := some (flyerTime s), heatWait := false }

/-- A heat measurement that waited runs now (R104). -/
def heatNext (s : State) : State := if s.flyer.sense.heatWait && schedules s then heatStart s else s

def heatTick (s : State) : State :=
  if !schedules s then s
  else if s.flyer.sense.heat.isSome then s.onSense fun x => { x with heatWait := true }
  else heatStart s

/-- A heat code is ready (R117, R134). -/
def heatComplete (s : State) (code : Nat) : State :=
  match s.flyer.sense.heat with
  | none => s
  | some t =>
    let flags := (if 65000 ≤ code then 1 else 0) + (if code ≤ 1000 then 2 else 0)
    let s := s.onRes fun r => { r with heatN := r.heatN + 1, heat := some ⟨code, flags, r.heatN % 256, t⟩ }
    let s := backstopEvaluated ((s.onSense fun x => { x with heat := none }).onBs fun b => evalHeat b code)
    heatNext s

/-! ## Carbon monoxide -/

/-- The CO channel is on (R118). -/
def coOn (s : State) : Bool := s.get Ent.CO_ENABLE == 1

def coStart (s : State) : State := (rise s .gas).onSense fun x => { x with co := some (flyerTime s), coWait := false }

/-- A CO measurement that waited runs now, while the channel is on (R104, R118). -/
def coNext (s : State) : State := if s.flyer.sense.coWait && schedules s && coOn s then coStart s else s

def coTick (s : State) : State :=
  if !schedules s || !coOn s then s
  else if s.flyer.sense.co.isSome then s.onSense fun x => { x with coWait := true }
  else coStart s

/-- A pulse or its settling is in progress (R119). -/
def pulsing (s : State) : Bool := s.flyer.sense.pulse != .idle

/-- A CO result (R110, R119): the fields of a pulse that no result has carried yet, or those of the pending result it replaces. -/
def formCo (s : State) (code : Int) (t : Nat) : CoResult :=
  let base := (if pulsing s then 2 else 0) + (if code ≤ -524288 ∨ 524287 ≤ code then 4 else 0)
  match s.flyer.sense.pulseResult, s.flyer.res.co with
  | some p, _ => ⟨code, base + 128, p.1, p.2, s.flyer.res.coN % 256, t⟩
  | none, some old =>
    if bit old.flags 7 then ⟨code, base + 128, old.di, old.stepAt, s.flyer.res.coN % 256, t⟩ else ⟨code, base, 0, 0, s.flyer.res.coN % 256, t⟩
  | none, none => ⟨code, base, 0, 0, s.flyer.res.coN % 256, t⟩

/-- A CO code is ready (R118, R119, R134). -/
def coComplete (s : State) (code : Int) : State :=
  match s.flyer.sense.co with
  | none => s
  | some t =>
    let r := formCo s code t
    let held := pulsing s
    let on := coOn s
    let s := (s.onRes fun x => { x with coN := x.coN + 1, co := some r }).onSense fun x => { x with co := none, pulseResult := none }
    let s := backstopEvaluated (s.onBs fun b => if on then evalCo b code held else b)
    coNext s

/-- CO_PULSE (R119): the status, and the step where it is accepted. -/
def pulseStatus (s : State) : Nat :=
  if bit (s.get Ent.BS_ALARM) 2 || !coOn s || bit (s.get Ent.FAULT_CAUSE) 1 then Sc.state else if pulsing s then Sc.busy else Sc.ok

def pulseStep (s : State) : State := (rise s .gas).onSense fun x => { x with pulse := .step (flyerTime s) }

def coPulse (s : State) : State × Nat := (if pulseStatus s = Sc.ok then pulseStep s else s, pulseStatus s)

/-- After 1 s the bias is restored and the peak kept for the next CO result (R119). -/
def pulseRestore (s : State) (peak : Nat) : State :=
  match s.flyer.sense.pulse with
  | .step t => s.onSense fun x => { x with pulse := .settling, pulseResult := some (peak, t) }
  | _ => s

/-- 60 s after the restore (R119). -/
def pulseSettled (s : State) : State := if s.flyer.sense.pulse = .settling then s.onSense fun x => { x with pulse := .idle } else s

/-- A reset of GAS during a pulse or its settling: no result; the restart of the potentiostat counts as the restore (R119). -/
def pulseCut (x : Sensing) : Sensing := if x.pulse = .idle then x else { x with pulse := .settling, pulseResult := none }

/-! ## The auxiliary input -/

def auxStart (s : State) : State := (rise s .gas).onSense fun x => { x with aux := some (flyerTime s), auxWait := false }

/-- An auxiliary measurement that waited runs now (R104). -/
def auxNext (s : State) : State := if s.flyer.sense.auxWait && schedules s then auxStart s else s

def auxTick (s : State) : State :=
  if !schedules s || s.get Ent.AIN_PERIOD == 0 then s
  else if s.flyer.sense.aux.isSome then s.onSense fun x => { x with auxWait := true }
  else auxStart s

def auxComplete (s : State) (code : Int) : State :=
  match s.flyer.sense.aux with
  | none => s
  | some t =>
    let flags := if code ≤ -8388608 ∨ 8388607 ≤ code then 1 else 0
    let s := s.onRes fun r => { r with auxN := r.auxN + 1, aux := some ⟨code, flags, r.auxN % 256, t⟩ }
    let s := s.onSense fun x => { x with aux := none }
    auxNext s

/-! ## Die temperatures and CLK_FLY (R122, R183, R305) -/

/-- A reading in 0.1 °C with the die's factory offset. -/
def dieReading (s : State) (die : Nat) (raw : Int) : Int := raw + s.getS (Ent.TEMP_OFFSET die)

/-- The TEMPERATURE monitor of a die (R305). -/
def temperatureCheck (s : State) (d : Die) (inst : Nat) (t : Int) : State :=
  if t < -450 then monitorAlert s d 0x44 inst 0 inst t (-450) false
  else if 1100 < t then monitorAlert s d 0x44 inst 1 inst t 1100 false
  else monitorEnd s 0x44 inst

/-- Deviation of CLK_FLY from 24 MHz in units of 0.01 %. -/
def clkFlyDeviation (hz : Nat) : Int := ((hz : Int) - 24000000) * 10000 / 24000000

/-- The CLOCK monitor on CLK_FLY_MEAS (R305): more than 3 % from 24 MHz. -/
def clkFlyCheck (s : State) (hz : Nat) : State :=
  if hz < 23280000 then monitorAlert s .flyer 0x43 2 0 0x2F (clkFlyDeviation hz) (-300) false
  else if 24720000 < hz then monitorAlert s .flyer 0x43 2 1 0x2F (clkFlyDeviation hz) 300 false
  else monitorEnd s 0x43 2

/-- Each die measures its temperature (R122): the spindle die while CORE is ON, the flyer while it runs, with CLK_FLY. -/
def dieTempTick (s : State) (spindle flyer keeper : Int) (hz : Nat) : State :=
  let tk := dieReading s 3 keeper
  let s := temperatureCheck s .keeper 0x30 tk
  let s :=
    if s.flyer.up then
      let tf := dieReading s 2 flyer
      let s := s.onSense fun x => { x with flyerT := tf, keeperT := tk }
      clkFlyCheck ((temperatureCheck s .flyer 0x2F tf).put Ent.CLK_FLY_MEAS hz) hz
    else s
  if s.spindle.alive && domState s .core == 2 then
    let ts := dieReading s 1 spindle
    temperatureCheck (s.putS (Ent.DIE_TEMP 1) (tempF32 ts)) .spindle 0x20 ts
  else s

/-! ## Commands -/

def execOptMeasurementTick (vddMv : Nat) (s : State) : Host.Outcome State Fault Refusal := .next (optTick s vddMv)

def execOptMeasurementComplete (caps : Captures) (ledShort : Bool) (loadedMv : Nat) (s : State) : Host.Outcome State Fault Refusal :=
  .next (optComplete s caps ledShort loadedMv)

def execHeatMeasurementTick (s : State) : Host.Outcome State Fault Refusal := .next (heatTick s)

def execHeatConversionComplete (code : Nat) (s : State) : Host.Outcome State Fault Refusal := .next (heatComplete s code)

def execCoMeasurementTick (s : State) : Host.Outcome State Fault Refusal := .next (coTick s)

def execCoConversionComplete (code : Int) (s : State) : Host.Outcome State Fault Refusal := .next (coComplete s code)

def execAinMeasurementTick (s : State) : Host.Outcome State Fault Refusal := .next (auxTick s)

def execAinConversionComplete (code : Int) (s : State) : Host.Outcome State Fault Refusal := .next (auxComplete s code)

def execDieTempTick (spindle flyer keeper : Int) (clkFlyHz : Nat) (s : State) : Host.Outcome State Fault Refusal :=
  .next (dieTempTick s spindle flyer keeper clkFlyHz)

def execCoPulseRestore (peak : Nat) (s : State) : Host.Outcome State Fault Refusal := .next (pulseRestore s peak)

def execCoPulseSettleEnd (s : State) : Host.Outcome State Fault Refusal := .next (pulseSettled s)

end Sys2Proof.Machine
end

