-- ==== Sys2Proof/Machine/Horn.lean ====
section
/-! DEFINITION. The horn, the indicators and the flyer's pads (R139 to R149): source selection, patterns, commands of queue 01. -/
namespace Sys2Proof.Machine

/-! ## Waves: a period in ms and the intervals in which it is on -/

abbrev Wave := Nat × List (Nat × Nat)

/-- A wave that is never on. -/
abbrev Wave.off : Wave := (1, [])

/-- The level of a wave at a time. -/
def waveLevel (w : Wave) (t : Nat) : Bool := w.2.any fun p => p.1 ≤ t % w.1 && t % w.1 < p.2

/-- A wave that is always on has no edge. -/
def waveSteady (w : Wave) : Bool := w.2 == [(0, w.1)]

/-- Time to the next edge of a wave. -/
def waveNext (w : Wave) (t : Nat) : List Nat :=
  if waveSteady w then []
  else (w.2.flatMap fun p => [p.1, p.2]).map fun e => if (e + (w.1 - t % w.1)) % w.1 = 0 then w.1 else (e + (w.1 - t % w.1)) % w.1

/-- The horn's pattern (R147). -/
def patternWave (h : Horn) : Wave :=
  match h.pattern with
  | .t3 => (4000, [(0, 500), (1000, 1500), (2000, 2500)])
  | .co => (5700, [(0, 100), (200, 300), (400, 500), (600, 700)])
  | .faultChirp => (40000, [(0, 30)])
  | .eolChirp => (40000, [(0, 30), (200, 230)])
  | .command =>
    match h.playing with
    | some c => (max 1 (c.onMs + c.offMs), [(0, c.onMs)])
    | none => Wave.off
  | .check24 => Wave.off
  | .none_ => Wave.off

/-- The indicator and the wave of an indication (R147). -/
def showWave (i : Indication) : Nat × Wave :=
  match i with
  | .none_ => (0, Wave.off)
  | .relayed => (1, (4000, [(0, 20)]))
  | .hush => (1, (2000, [(0, 20)]))
  | .commissioning => (3, (1000, [(0, 500)]))
  | .selftest => (3, (1, [(0, 1)]))
  | .heartbeat => (3, (60000, [(0, 10)]))

/-- The hush-refused indication: three times 50 ms, 100 ms apart (R147), read as gaps of 100 ms between the flashes (DESIGN CHOICE, log 106: a period of
100 ms could be read too). -/
abbrev refusedWave : Wave := (1000, [(0, 50), (150, 200), (300, 350)])

/-! ## Outputs -/

/-- The pattern runs: an audible one waits for VBOOST (R145); an indicator command does not. -/
def patternRuns (h : Horn) : Bool := h.ready || (h.pattern == .command && (match h.playing with | some c => c.op == 2 | none => false))

/-- The wave of the pattern is on now. -/
def patternOn (h : Horn) : Bool := patternRuns h && waveLevel (patternWave h) h.phase

/-- The command being played is a tone (1) or an indicator command (2). -/
def playsOp (h : Horn) (op : Nat) : Bool := h.pattern == .command && (match h.playing with | some c => c.op == op | none => false)

/-- The horn is in an on-phase of what it plays. -/
def soundingNow (h : Horn) : Bool := patternOn h && !playsOp h 2

/-- An on-phase begins: a fault of the last one is forgotten, the drive is tried again, a chirp is counted (R149, R158). -/
def phaseBegin (h : Horn) : Horn :=
  if soundingNow h && !h.drive then
    { h with stopped := false, fault := false, chirps := if h.pattern = .faultChirp ∨ h.pattern = .eolChirp then (h.chirps + 1) % 256 else h.chirps }
  else h

/-- The drive follows its on-phase; the time it sounded is kept (R158). -/
def driveNow (h : Horn) (aon : Nat) : Horn :=
  let v := soundingNow h && !h.stopped
  { h with drive := soundingNow h, on := v, onAt := if v && !h.on then aon else h.onAt,
           onCycles := if h.on && !v then h.onCycles + (aon - h.onAt) else h.onCycles }

/-- An indicator is lit by what is shown, by the result of a test, by a refused hush or by a command (R147). -/
def lit (h : Horn) (n : Nat) : Bool :=
  (showWave h.show_).1 == n && waveLevel (showWave h.show_).2 h.shown ||
  (n == 1 && ((h.row == 2 || h.row == 3) && soundingNow h || (match h.refused with | some t => waveLevel refusedWave t | none => false))) ||
  (n == 2 && ((h.row == 6 || h.row == 7) && soundingNow h || (match h.test with | some (ok, _) => !ok | none => false))) ||
  (n == 3 && (match h.test with | some (ok, _) => ok | none => false)) ||
  (playsOp h 2 && patternOn h && (match h.playing with | some c => c.arg == n | none => false))

/-- The frequency at which the bridge is driven, in Hz (R145, R152): HORN_FREQ in a tone, 3,200 Hz after the time limit of HORN_FB, 24 kHz in the check;
0 where it is not driven; none where HORN_FB sets it (self-resonant drive). -/
def driveHz (h : Horn) : Option Nat :=
  if h.pattern = .check24 then some 24000
  else if !h.on then some 0
  else if playsOp h 1 then some h.toneHz
  else if h.fallback then some 3200
  else none

/-- The outputs that follow from what is played and shown. -/
def hornOutputs (aon : Nat) (h : Horn) : Horn :=
  let h := driveNow (phaseBegin h) aon
  { h with ind1 := lit h 1, ind2 := lit h 2, ind3 := lit h 3 }

/-! ## Source selection (R146) -/

/-- Backstop kinds that are not suppressed (R141). -/
def openKinds (b : Backstop) : Nat := clearBits b.kinds b.suppressed

/-- The row of R146; a command that is being played counts with its queue. -/
def hornRow (f : Flyer) : Nat :=
  if f.bs.off then 1
  else if openKinds f.bs ≠ 0 then 2
  else if f.mode = some .alarm then 3
  else if f.mode = some .echo then 4
  else if f.mode = some .selftest ∧ f.horn.check then 5
  else if f.mode = some .fault then 6
  else if f.mode = some .endOfLife then 7
  else if !f.horn.queue.isEmpty || f.horn.playing.isSome then 8
  else 9

/-- The alarm pattern (R146): T3 until the op 0x04 kinds are known in ALARM and ECHO, and where no kind is named (log 36). -/
def alarmPattern (f : Flyer) : Pattern :=
  if (f.mode = some .alarm ∨ f.mode = some .echo) ∧ f.horn.fwKinds = none then .t3
  else
    let k := openKinds f.bs ||| (if f.mode = some .alarm then f.horn.fwKinds.getD 0 else 0) ||| (if f.mode = some .echo then f.horn.relKinds else 0)
    if k = 4 then .co else .t3

def rowPattern (f : Flyer) (row : Nat) : Pattern :=
  if row = 2 ∨ row = 3 ∨ row = 4 then alarmPattern f
  else if row = 5 then .check24
  else if row = 6 then .faultChirp
  else if row = 7 then .eolChirp
  else if row = 8 then .command
  else .none_

/-- What the indicators show beside the horn (R147). -/
def rowShow (f : Flyer) (row : Nat) (heartbeat : Bool) : Indication :=
  if row = 4 then .relayed
  else if row = 2 ∨ row = 3 then .none_
  else
    match f.mode with
    | some .hush => .hush
    | some .commission => .commissioning
    | some .selftest => .selftest
    | some .supervise => if heartbeat then .heartbeat else .none_
    | _ => .none_

/-- Queue 01 is emptied by an alarm row: its commands count as removed and as discarded (R110, R146). -/
def dropCommands (h : Horn) : Horn :=
  { h with queue := [], playing := none, removed := h.removed + h.queue.length, discarded := h.discarded + h.queue.length }

def isAlarmRow (r : Nat) : Bool := r == 2 || r == 3 || r == 4

/-- VBOOST takes a target; it is at a new one once it reaches 90 % of it again (R145). -/
def setBoost (h : Horn) (mv : Nat) : Horn := if h.boost = mv then h else { h with boost := mv, ready := false }

/-- The target of VBOOST that a pattern brings (R145): 12 V for alarm patterns, chirps and the check, none for silence; a tone sets its own. -/
def patternBoost (h : Horn) (p : Pattern) : Nat :=
  match p with
  | .none_ => 0
  | .command => h.boost
  | .t3 | .co | .faultChirp | .eolChirp | .check24 => 12000

/-- A new pattern starts its cycle; the same pattern goes on with it (R146). A change to silence discharges VBOOST. -/
def takePattern (h : Horn) (row : Nat) (p : Pattern) (i : Indication) : Horn :=
  let h := if h.pattern = p then h else setBoost { h with pattern := p, phase := 0, drive := false, fallback := false } (patternBoost h p)
  let h := if h.show_ = i then h else { h with show_ := i, shown := 0 }
  { h with row := row }

/-- ALARM_OUT and IC_LINE with the pattern of a local alarm (R144). -/
def alarmPads (h : Horn) (icMode : Nat) : Horn :=
  let local_ := h.row == 2 || h.row == 3
  { h with alarmOut := local_, icDriven := local_ && icMode == 2 }

/-! ## Times to the next phase -/

/-- Time that the command being played still has. -/
def commandLeft (h : Horn) : List Nat :=
  match h.pattern, h.playing with
  | .command, some c => if patternRuns h then [c.reps * (c.onMs + c.offMs) - h.phase] else []
  | _, _ => []

/-- Times to the next change of anything that is played or shown. -/
def nextChanges (h : Horn) : List Nat :=
  (if patternRuns h then waveNext (patternWave h) h.phase else []) ++ commandLeft h ++ waveNext (showWave h.show_).2 h.shown
    ++ (match h.refused with | some t => waveNext refusedWave t | none => []) ++ (match h.test with | some (_, t) => [2000 - t] | none => [])

/-! ## The domains HORN and IND -/

/-- HORN and IND are idle: the source is row 9 and no phase is due within 25 ms (R164). -/
def hornIdle (h : Horn) : Bool := h.row == 9 && !(nextChanges h).any (· ≤ 25)

/-- A horn phase raises what it needs (R170): HORN while a source sounds it, IND too while an indicator changes. -/
def riseHorn (s : State) : State :=
  let h := s.flyer.horn
  let s := if h.row = 1 ∨ h.row = 9 then s else rise s .horn
  if hornIdle h then s else rise s .ind

/-! ## Source selection and phases -/

/-- Every 1 ms the flyer selects the source (R146). -/
def hornSelect (s : State) : State :=
  if !s.flyer.up then s
  else
    let row := hornRow s.flyer
    let empties := isAlarmRow row && s.flyer.horn.row != row && !s.flyer.horn.queue.isEmpty
    let s := if isAlarmRow row && s.flyer.horn.row != row then s.onHorn dropCommands else s
    let s := if empties then formReport s else s
    let p := rowPattern s.flyer row
    let i := rowShow s.flyer row (s.get Ent.IND_HEARTBEAT == 1)
    let s := s.onHorn fun h => hornOutputs s.keeper.aon (alarmPads (takePattern h row p i) (s.get Ent.IC_LINE_MODE))
    backstopReport (riseHorn (s.put Ent.ALARM_PATTERN (if isAlarmRow row then (if p = .co then 2 else 1) else 0)))

/-- Everything that runs goes on by `d` ms; what has ended is gone. -/
def hornAdvance (h : Horn) (d : Nat) : Horn :=
  let h := if patternRuns h then { h with phase := h.phase + d } else h
  let h := { h with shown := h.shown + d, refused := h.refused.bind fun t => if t + d < 350 then some (t + d) else none,
                    test := h.test.bind fun p => if p.2 + d < 2000 then some (p.1, p.2 + d) else none }
  match h.pattern, h.playing with
  | .command, some c => if c.reps * (c.onMs + c.offMs) ≤ h.phase then { h with playing := none, phase := 0 } else h
  | _, _ => h

/-- A phase ends: the horn and the indicators go to the next (R147). -/
def hornPhase (s : State) : State :=
  if !s.flyer.up then s
  else
    match (nextChanges s.flyer.horn).min? with
    | none => s
    | some d => backstopReport ((riseHorn s).onHorn fun h => hornOutputs s.keeper.aon (hornAdvance h d))

/-- VBOOST reaches 90 % of its target, or 20 ms have passed: the first on-phase starts (R145). -/
def hornReady (s : State) (mv : Nat) : State :=
  if !s.flyer.up then s
  else s.onHorn fun h =>
    if h.boost = 0 then { h with vboost := mv } else hornOutputs s.keeper.aon { h with vboost := mv, ready := true }

/-- A horn fault (R149): it is counted and flagged, and the drive stops for the rest of the on-phase, where one runs. -/
def hornFault (s : State) : State :=
  (s.onHorn fun h => hornOutputs s.keeper.aon { h with stopped := h.drive, fault := true }).bump Ent.HORN_FAULTS

/-- The bridge runs: in an on-phase, or driving the check (R149, R152). -/
def bridgeRuns (h : Horn) : Bool := h.drive || h.check

/-! ## Queue 01 -/

/-- The horn sequencer takes the head command (R148): op 0x03 empties the queue and stops. A tone uses HORN_VBOOST, in V, and HORN_FREQ (R145). -/
def queueTake (volts hz : Nat) (h : Horn) : Horn :=
  match h.queue with
  | [] => h
  | c :: rest =>
    if c.op = 3 then { h with queue := [], playing := none, removed := h.removed + 1 + rest.length, phase := 0 }
    else
      let h := { h with queue := rest, playing := some c, removed := h.removed + 1, phase := 0 }
      if c.op = 1 then setBoost { h with toneHz := hz, fallback := false } (volts * 1000) else h

def hornTake (s : State) : State :=
  if s.flyer.up && s.flyer.horn.row == 8 && s.flyer.horn.playing.isNone && !s.flyer.horn.queue.isEmpty then
    backstopReport (formReport (s.onHorn fun h => hornOutputs s.keeper.aon (queueTake (s.get Ent.HORN_VBOOST) (s.get Ent.HORN_FREQ) { h with drive := false })))
  else s

/-! ## HORN_CMD (R148, R192) -/

/-- Credit for queue 01 (R192). -/
def hornCredit (s : State) : Nat := 8 - (s.spindle.placed + 256 - s.spindle.freed) % 256

/-- The fields of a command are in range (R148); the times and repeats are checked for every op. -/
def hornCmdOk (v : Bytes) : Bool :=
  let c := hornCmdOf v
  (c.op == 1 || c.op == 2 || c.op == 3) && (if c.op == 2 then 1 ≤ c.arg && c.arg ≤ 3 else c.arg == 0) &&
    1 ≤ c.onMs && c.onMs ≤ 10000 && c.offMs ≤ 60000 && 1 ≤ c.reps && c.reps ≤ 255 && (v.getD 7 0).toNat == 0

/-- A command joins the last flit of queue 03, or a new one (R148). -/
def placeCommand (q : List (List HornCmd)) (c : HornCmd) : List (List HornCmd) :=
  match q.getLast? with
  | some l => if l.length < 3 then q.dropLast ++ [l ++ [c]] else q ++ [[c]]
  | none => [[c]]

/-- A HORN_CMD write: RANGE, BUSY with no credit, or placed in queue 03. -/
def hornCmd (s : State) (v : Bytes) : State × Nat :=
  if !hornCmdOk v then (s, Sc.range)
  else if hornCredit s = 0 then (s, Sc.busy)
  else
    let q := placeCommand s.ply.q (hornCmdOf v)
    (notePeak ((s.onPly fun p => { p with q := q }).onSpindle fun x => { x with placed := (x.placed + 1) % 256 }) 3 q.length, Sc.ok)

/-! ## Commands -/

def execHornSourceSelect (s : State) : Host.Outcome State Fault Refusal := .next (hornSelect s)

def execHornPhase (s : State) : Host.Outcome State Fault Refusal := .next (hornPhase s)

def execHornVboostReady (mv : Nat) (s : State) : Host.Outcome State Fault Refusal := .next (hornReady s mv)

/-- HORN_FB shows no oscillation: the flyer drives at 3,200 Hz (R145). -/
def execHornFbTimeout (s : State) : Host.Outcome State Fault Refusal :=
  .next (if s.flyer.up && s.flyer.horn.on && !playsOp s.flyer.horn 1 then s.onHorn fun h => { h with fallback := true } else s)

/-- VBOOST has not reached 90 % of its target within 50 ms (R149). -/
def execHornFault (s : State) : Host.Outcome State Fault Refusal :=
  .next (if s.flyer.up && s.flyer.horn.boost != 0 then hornFault s else s)

/-- The bridge current exceeds 300 mA (R149). -/
def execHornOvercurrent (s : State) : Host.Outcome State Fault Refusal :=
  .next (if s.flyer.up && bridgeRuns s.flyer.horn then hornFault s else s)

def execHornQueueTake (s : State) : Host.Outcome State Fault Refusal := .next (hornTake s)

/-- The engine sends the kinds in a HORN command of op 0x04 (R139). -/
def execKindsCommandSend (s : State) : Host.Outcome State Fault Refusal :=
  .next (
    if s.spindle.alive && modeIn s [.alarm, .echo] then
      s.onPly fun p => { p with kinds := some (s.get Ent.ALARM_FW, s.get Ent.ALARM_RELAYED % 8) }
    else s)

/-- IC_LINE has been high for 500 ms while the device does not drive it (R142). -/
def execIcLineRelayStart (s : State) : Host.Outcome State Fault Refusal :=
  .next (
    if s.flyer.up && !s.flyer.horn.icDriven && s.get Ent.IC_LINE_MODE != 0 then
      backstopReport (s.onHorn fun h => { h with icRelayed := true, icLevel := true })
    else s)

/-- IC_LINE has been low for 3 s (R142). -/
def execIcLineRelayEnd (s : State) : Host.Outcome State Fault Refusal :=
  .next (if s.flyer.up then backstopReport (s.onHorn fun h => { h with icRelayed := false, icLevel := false }) else s)

/-- The flyer's own 600 s have passed (R141). -/
def execFlyerHushTimerExpiry (s : State) : Host.Outcome State Fault Refusal :=
  .next (if s.flyer.bs.hushTimer then s.onBs endSuppression else s)

end Sys2Proof.Machine
end

