-- ==== Sys2Proof/Machine/SelfTest.lean ====
section
/-! DEFINITION. The weekly self-test (R151 to R156): its steps, its outcome, its record. -/
namespace Sys2Proof.Machine

/-- The spindle die has sent HELLO since its last reset and is not locked up (R316). -/
def spindleReady (s : State) : Bool := s.spindle.alive && s.keeper.helloSeen && !s.keeper.lockedUp

/-- Attestation signatures are refused while the debug port is open in OWNED (R102). -/
def attestRefused (s : State) : Bool := s.spindle.core.debugOpen && lcNow s == .owned

/-- The argument of a step's request (R153). -/
def stArgs (s : State) (k : Nat) : Bytes :=
  match k with
  | 1 => leBytes 1 (s.get Ent.ST_REF_TOL) ++ leBytes 2 (s.get Ent.DARK_NOM) ++ leBytes 2 (s.get Ent.DARK_TOL)
  | 2 => leBytes 2 (s.get (Ent.ST_HORN_Z 1)) ++ leBytes 2 (s.get (Ent.ST_HORN_Z 2))
  | 3 => leBytes 1 (s.get Ent.ST_BATT_LOAD) ++ leBytes 2 (min (max ((s.get Ent.ST_BATT_LEVEL : Int) - vddOffset s) 0) 65535).toNat
  | 4 => leBytes 2 (s.get Ent.CO_PULSE_MV) ++ leBytes 4 (s.get Ent.CO_PULSE_LO) ++ leBytes 4 (s.get Ent.CO_PULSE_HI)
  | _ => []

/-- The die that runs a step, as a sideband destination: step 5 runs in the keeper (R152). -/
def stDie (k : Nat) : Nat := if k ≤ 4 then 1 else if k = 5 then 0 else 2

/-- The step after `k`: step 4 is skipped while CO_ENABLE is 0 (R152). -/
def stNextStep (s : State) (k : Nat) : Nat := if k + 1 = 4 ∧ s.get Ent.CO_ENABLE = 0 then 5 else k + 1

/-- A step begins: its request is sent, or it runs inside the keeper (R153). -/
def stBegin (s : State) (k : Nat) : State :=
  let s := (s.onSelfTest fun t => { t with step := k }).put Ent.ST_STATE (k + 1)
  if k = 5 then s else sbQueue s .keeper 0xE (stDie k) (byte k :: stArgs s k)

/-- A test starts (R151, R152): trigger 0 scheduled, 1 TEST_BTN, 2 request; `src` the source of its record (R155). A scheduled test that waits goes on
waiting beside a test of another trigger, which does not move the schedule (R87, R151). -/
def stStart (s : State) (trigger src : Nat) : State :=
  let t0 := s.keeper.st
  stBegin ((s.onSelfTest fun _ => { trigger := trigger, source := src, waiting := t0.waiting && trigger != 0 }).bump Ent.ST_RUNS) 1

/-- The outcome of a completed test (R154): 0 pass, 1 fail, 3 partial. -/
def stOutcome (t : SelfTest) : Nat :=
  if t.run &&& t.passed != t.run then 1 else if t.run &&& 0x60 = 0x60 then 0 else 3

/-- The data bytes of the record (R155). -/
def stData (t : SelfTest) (outcome sig : Nat) : Bytes :=
  [byte t.trigger, byte t.run, byte t.passed, byte outcome, byte sig] ++ leBytes 2 t.ohm ++ leBytes 2 t.batt ++ leBytes 2 t.di ++ [byte t.refPct]

/-- The next due date takes its spread (R151). -/
def stSpread (s : State) (spread : Nat) : State :=
  let due := s.get Ent.ST_NEXT_DUE
  let base := due - (due - 86400) % 604800
  (s.put Ent.ST_SPREAD spread).put Ent.ST_NEXT_DUE (base + spread)

/-- The spread without the RNG: the first two bytes of the chain head modulo 3,601 (R151). -/
def stSpreadFallback (s : State) : State := stSpread s (s.get Ent.CHAIN_HEAD % 65536 % 3601)

/-- SELFTEST step 0x20: the request for words, or its answer. -/
def isWords (m : SbMsg) : Bool := m.ty == 0xE && m.payload.take 1 == [0x20]

/-- The keeper's request for words, or its answer, is under way, or waits at the RNG. -/
def wordsUnderWay (s : State) : Bool :=
  let under (x : SbDie) : Bool := x.txq.any isWords || x.rxq.any isWords || x.wait.any fun w => isWords w.1
  s.sb.wire.any isWords || under s.sb.keeper || under s.sb.spindle || s.spindle.rng.waiting.any fun w => w.1 == .pool

/-- The keeper asks for the first word of its list: step 0x20 with the number of bytes (R297). -/
def sendWords (s : State) : State :=
  if s.keeper.words.isEmpty then s else sbQueue (s.onKeeper fun k => { k with wordsAt := k.aon }) .keeper 0xE 2 [0x20, 4]

/-- A word that was asked for does not come: the spread is formed without it (R151), the refill stops (R370), a session does without (R369). -/
def wordsGone (s : State) (w : WordUse) : State :=
  match w with
  | .spread => stSpreadFallback s
  | .uid => s
  | .pool => s.onKeeper fun k => { k with poolDue := false }

/-- Where nothing of the first request is under way any more, its word does not come, and the next is asked for: for at most `n` of them. -/
def wordsLost : Nat → State → State
  | 0, s => s
  | n + 1, s =>
    match s.keeper.words with
    | [] => s
    | w :: ws => if wordsUnderWay s then s else wordsLost n (sendWords (wordsGone (s.onKeeper fun k => { k with words := ws }) w))

/-- Requests that nothing is left of are given up. -/
def wordsCheck (s : State) : State := wordsLost s.keeper.words.length s

/-- The keeper asks for a word, behind those it has asked for. -/
def askWords (s : State) (w : WordUse) : State :=
  let s' := s.onKeeper fun k => { k with words := k.words ++ [w] }
  wordsCheck (if s.keeper.words.isEmpty then sendWords s' else s')

/-- A scheduled test has ended: the next spread is drawn from the RNG, or formed without it (R151, R297). -/
def stDrawSpread (s : State) : State :=
  if s.keeper.st.trigger != 0 then s else if spindleReady s then askWords s .spread else stSpreadFallback s

/-- The end of a test but for FAULT_CAUSE bit 4 and the mode: counters, notice bit 5, the record, the next spread (R154 to R156). The refill of the UID
pool is due where it completed (R370). -/
def stEnd (s : State) (outcome : Nat) : State :=
  let t := s.keeper.st
  let s := if outcome = 1 then s.bump Ent.ST_FAILS else if outcome = 2 then s.bump Ent.ST_ABORTS else s
  let s := if outcome = 2 then s else s.onKeeper fun k => { k with poolDue := true }
  let s := (s.onSelfTest fun t => { t with step := 0 }).put Ent.ST_STATE (if outcome = 2 then stIdle s else 9)
  stDrawSpread (logKeeper (raise s 5) 0x20 t.source (stData t outcome (if outcome = 2 then 4 else 0)))

/-- A mode change out of SELFTEST other than completion aborts the test; the flyer stops the 24 kHz drive (R154). -/
def stAbort (s : State) : State :=
  if s.keeper.st.step = 0 then s
  else (stEnd s 2).onHorn fun h => { h with check := false }

end Sys2Proof.Machine
end

