-- ==== Sys2Proof/Machine/Modes.lean ====
section
/-! DEFINITION. The keeper's mode machine (R80 to R95, R133, R139, R140, R142, R150): what each event does, and what follows every event. -/
namespace Sys2Proof.Machine

/-! ## Conditions -/

/-- End of life has been reached (R95): a device never commissioned never reaches it. -/
def eolReached (s : State) : Bool :=
  s.get Ent.COMMISSIONED_AT != 0 && s.get Ent.EOL_DAYS * 86400 ≤ s.get Ent.SERVICE_SECONDS

/-- Whole days remaining, rounded up (R95). -/
def eolLeft (s : State) : Nat :=
  (s.get Ent.EOL_DAYS * 86400 - (if s.get Ent.COMMISSIONED_AT = 0 then 0 else s.get Ent.SERVICE_SECONDS) + 86399) / 86400

/-- The base mode (R83). -/
def baseMode (s : State) : Mode :=
  if s.get Ent.FAULT_CAUSE ≠ 0 then .fault else if eolReached s then .endOfLife else .supervise

/-- A local alarm is present (R133). -/
def localAlarm (s : State) : Bool := s.get Ent.BS_ALARM != 0 || s.get Ent.ALARM_FW != 0

/-- A relayed alarm is present (R133). -/
def relayedAlarm (s : State) : Bool := s.get Ent.ALARM_RELAYED % 8 != 0

/-- A request for HUSH is refused (R140). -/
def hushRefused (s : State) : Bool := s.keeper.noHush || bit (s.get Ent.BS_ALARM ||| s.get Ent.ALARM_FW) 1

/-- Where ALARM and HUSH lead when they end (R84). -/
def afterAlarm (s : State) : Mode :=
  if localAlarm s then .alarm else if relayedAlarm s then .echo else baseMode s

/-- FAULT_OUT (R93): the mode is FAULT, HEARTBEAT is lost (R37) or the shadow copy mismatches (R40). -/
def faultOut (s : State) : Bool := modeIs s .fault || s.keeper.hbLost || s.keeper.shadowBad

/-! ## Entering a mode -/

/-- MODE on the sideband (R90). -/
def sendMode (s : State) : State := sbQueue s .keeper 0xB 3 (leBytes 4 (s.get Ent.MODE))

/-- The data of a MODE_ENTRY record (R311). The value v of an invalid old word is given as 0 (log 16). -/
def modeEntryData (s : State) (new : Mode) (old : Option Mode) : Bytes :=
  [byte (modeVal new), byte ((old.map modeVal).getD 0), byte (s.get Ent.BS_ALARM), byte (s.get Ent.ALARM_FW), byte (s.get Ent.ALARM_RELAYED)]
    ++ leBytes 2 (s.get Ent.FAULT_CAUSE) ++ leBytes 2 (s.get Ent.BS_STATUS)

/-- The modes whose entry is logged (R90). -/
def loggedMode (m : Mode) : Bool :=
  m == .commission || m == .alarm || m == .echo || m == .hush || m == .fault || m == .endOfLife || m == .retired

/-- What leaving a mode does: the first end of COMMISSION (R94), the end of HUSH (R140), the abort of a self-test (R154). -/
def leaveMode (s : State) (old : Option Mode) : State :=
  match old with
  | some .commission =>
    if (lcNow s == .owned || lcNow s == .field) && s.get Ent.COMMISSIONED_AT == 0 then
      (s.put Ent.COMMISSIONED_AT (now s)).put Ent.SERVICE_SECONDS 0
    else s
  | some .hush => raise (s.put Ent.HUSH_LEFT 0) 10
  | some .selftest => stAbort s
  | _ => s

/-- RETIRED: the backstop's measurements stop, it clears its kinds, counts and dose, and sends BACKSTOP_ALARM with every bit clear (R89). -/
def retireBackstop (s : State) : State :=
  let s := (s.onBs Backstop.retire).onSense Sensing.stop
  (if s.flyer.up then sendBackstop s else s).put Ent.BS_ALARM 0

/-- What entering a mode does beside the change itself: the counters, times and notices of R140 and R150, R89, and the end of a held bus-off (R347). -/
def arriveMode (s : State) (new : Mode) : State :=
  match new with
  | .alarm =>
    let s := s.onCan fun c => { c with held := false }
    raise (((s.put Ent.LAST_ALARM_TIME (now s)).put Ent.LAST_ALARM_KIND (s.get Ent.BS_ALARM ||| s.get Ent.ALARM_FW)).bump Ent.ALARM_COUNT) 0
  | .echo => raise (s.bump Ent.ECHO_COUNT) 0
  | .hush =>
    ((s.onKeeper fun k => { k with hushEntry := s.get Ent.BS_ALARM ||| s.get Ent.ALARM_FW }).bump Ent.HUSH_COUNT).put Ent.HUSH_LEFT 600
  | .fault => raise s 2
  | .retired => retireBackstop s
  | _ => s

/-- A return to the base mode from ALARM, ECHO or HUSH while BS_ALARM is zero raises ALARM_END (R150). -/
def alarmEndNotice (s : State) (old : Option Mode) (new : Mode) : State :=
  if (old = some .alarm ∨ old = some .echo ∨ old = some .hush) ∧ new = baseMode s ∧ s.get Ent.BS_ALARM = 0 then raise s 1 else s

/-- The mode word is written (R90): since, count, notice bit 3. LISTEN_ONLY clears (R342). -/
def writeMode (s : State) (new : Mode) : State :=
  raise ((((s.put Ent.LISTEN_ONLY 0).put Ent.MODE (modeCode new)).put Ent.MODE_SINCE (now s)).bump Ent.MODE_CHANGES) 3

/-- The MODE_ENTRY record of a logged mode (R90, R311). -/
def logMode (s : State) (new : Mode) (old : Option Mode) (src : Nat) : State :=
  if loggedMode new then logKeeper s 0x10 src (modeEntryData s new old) else s

/-- A mode change (R84, R90); none where the word already holds the mode. `src` is the source of the record (R311). -/
def enterMode (s : State) (new : Mode) (src : Nat) : State :=
  if s.get Ent.MODE = modeCode new then s
  else
    let old := modeNow s
    sendMode (logMode (alarmEndNotice (arriveMode (writeMode (leaveMode s old) new) new) old new) new old src)

/-! ## What follows every event -/

/-- The base-mode word is recomputed, and SUPERVISE, FAULT and END_OF_LIFE follow it (R83). -/
def settle (s : State) (src : Nat) : State :=
  let s := s.put Ent.BASE_MODE (modeCode (baseMode s))
  if modeIn s [.supervise, .fault, .endOfLife] then enterMode s (baseMode s) src else s

/-- The backstop rows of R84 hold now. -/
def backstopHolds (s : State) : Bool :=
  (s.get Ent.BS_ALARM != 0 && modeIn s [.commission, .supervise, .verify, .echo, .selftest, .fault, .endOfLife]) ||
  (modeIs s .hush && (s.keeper.noHush || clearBits (s.get Ent.BS_ALARM) s.keeper.hushEntry != 0))

def backstopCheck (s : State) : State := if backstopHolds s then enterMode s .alarm 0x45 else s

/-- After every event: the base mode, then a backstop alarm that holds (R83, R84). -/
def afterEvent (s : State) (src : Nat) : State := backstopCheck (settle s src)

/-- The local alarm ends where an event of position 3 or 4 leaves both kinds at zero (R82, R84). -/
def alarmEnds (s : State) : State := if modeIs s .alarm && !localAlarm s then enterMode s (afterAlarm s) 0x43 else s

/-! ## The events -/

/-- FAULT_CAUSE bits set (R92). -/
def setFault (s : State) (b src : Nat) : State :=
  if bit (s.get Ent.FAULT_CAUSE) b then s else afterEvent (s.setBits Ent.FAULT_CAUSE (2 ^ b)) src

/-- FAULT_CAUSE bits cleared (R92). -/
def clearFault (s : State) (mask : Nat) : State :=
  if s.get Ent.FAULT_CAUSE &&& mask = 0 then s
  else afterEvent (s.put Ent.FAULT_CAUSE (clearBits (s.get Ent.FAULT_CAUSE) mask)) 0x43

/-- The payload bits of BACKSTOP_ALARM reach the keeper (R84, R136, R142, R150): the trips, the record, the no-hush level. -/
def takeKinds (s : State) (kinds : Nat) (noHush : Bool) : State :=
  let old := s.get Ent.BS_ALARM
  let fresh := clearBits kinds old
  let s := (s.put Ent.BS_ALARM kinds).onKeeper fun k => { k with noHush := noHush }
  let s := if old = 0 ∧ kinds ≠ 0 then raise s 0 else s
  let s := [0, 1, 2].foldl (fun s i => if bit fresh i then s.bump (Ent.BS_TRIPS (i + 1)) else s) s
  let s := if fresh = 0 then s
    else logKeeper s 0x11 0x45 ([byte fresh, byte kinds, byte ((modeNow s).map modeVal |>.getD 0)] ++ leBytes 2 (s.get Ent.BS_STATUS))
  afterEvent (alarmEnds (backstopCheck s)) 0x45

/-- ALARM_RELAYED from its two paths, each only while ECHO_SOURCES enables it (R142). -/
def relayedValue (s : State) : Nat :=
  let can := if bit (s.get Ent.ECHO_SOURCES) 0 then s.keeper.relCan % 8 else 0
  let ic := bit (s.get Ent.ECHO_SOURCES) 1 && s.keeper.relIc
  (can ||| if ic then 1 else 0) + (if can != 0 then 16 else 0) + (if ic then 32 else 0)

/-- ALARM_RELAYED is formed again; the relayed alarm starts or ends where [2:0] leaves or returns to zero (R84, R142). -/
def refreshRelayed (s : State) : State :=
  let was := relayedAlarm s
  let s := s.put Ent.ALARM_RELAYED (relayedValue s)
  if !was && relayedAlarm s then
    afterEvent (if modeIn s [.commission, .supervise, .verify, .selftest, .fault, .endOfLife] then enterMode s .echo 0x43 else s) 0x43
  else if was && !relayedAlarm s then
    afterEvent (if modeIs s .echo then enterMode s (baseMode s) 0x43 else s) 0x43
  else s

/-- ALARM_FW changes (R82, R139). -/
def setAlarmFw (s : State) (kinds : Nat) : State := afterEvent (alarmEnds (s.put Ent.ALARM_FW kinds)) 0x43

/-- The self-test begins at once (R84, R151). -/
def enterSelftest (s : State) (trigger src : Nat) : State := stStart (enterMode s .selftest src) trigger src

/-- The modes from which a self-test starts (R84, R87). -/
def selftestModes : List Mode := [.supervise, .fault, .endOfLife]

/-- A scheduled test falls due (R87, R151): it starts, or waits; the next date is set. -/
def selftestDue (s : State) : State :=
  let s := s.put Ent.ST_NEXT_DUE (s.get Ent.ST_NEXT_DUE - (s.get Ent.ST_NEXT_DUE - 86400) % 604800 + 604800)
  if modeIn s selftestModes then enterSelftest s 0 0x46
  else (s.onSelfTest fun t => { t with waiting := true }).put Ent.ST_STATE (max 1 (s.get Ent.ST_STATE))

/-- A waiting test starts in the first cycle whose mode allows it (R87). -/
def selftestWaiting (s : State) : State :=
  if s.keeper.st.waiting && modeIn s selftestModes then enterSelftest s 0 0x46 else s

/-- The self-test is complete: its outcome, FAULT_CAUSE bit 4, and the mode returns to base (R84, R154); a test started by TEST_BTN
is shown (R147): a partial outcome as passed (log 35). -/
def selftestDone (s : State) : State :=
  let o := stOutcome s.keeper.st
  let s := if s.keeper.st.trigger = 1 then s.onHorn fun h => { h with test := some (o != 1, 0) } else s
  let s := stEnd s o
  let s := if o = 1 then setFault (s.onKeeper fun k => { k with stBad := true }) 4 0x43
    else if o = 0 then clearFault (s.onKeeper fun k => { k with stBad := false }) 16 else s
  afterEvent (if modeIs s .selftest then enterMode s (baseMode s) 0x43 else s) 0x43

/-- The mode a request leads to, where a row of R84 allows it from the current mode. -/
def requestTo (s : State) (u : User) (t : ModeTarget) : Option Mode :=
  let lc := lcNow s
  match t with
  | .calibrate => if modeIs s .factory && lc == .maker then some .calibrate else none
  | .factory =>
    if modeIs s .calibrate || (modeIn s [.supervise, .fault] && (lc == .blank || lc == .maker)) then some .factory else none
  | .supervise =>
    if modeIs s .factory && (lc == .blank || lc == .maker) then some (baseMode s)
    else if modeIs s .commission || (modeIs s .verify && u == .M) then some (baseMode s)
    else if modeIs s .hush then some (afterAlarm s) else none
  | .commission => if modeIn s [.supervise, .fault] && (lc == .owned || lc == .field) then some .commission else none
  | .verify => if modeIn s [.supervise, .endOfLife] then some .verify else none
  | .alarm => if modeIn s [.verify, .echo] && s.get Ent.ALARM_FW != 0 then some .alarm else none
  | .hush => if modeIn s [.alarm, .echo] && !hushRefused s then some .hush else none
  | .selftest => if modeIn s selftestModes then some .selftest else none

/-- A request is taken (R84): the change, or the count of a refused hush (R140). -/
def takeRequest (s : State) (u : User) (t : ModeTarget) : State :=
  match requestTo s u t with
  | some m => afterEvent (if t = .selftest then enterSelftest s 2 (userId u) else enterMode s m (userId u)) (userId u)
  | none => if t = .hush ∧ modeIn s [.alarm, .echo] then s.bump Ent.HUSH_REFUSED else s

/-- A press of TEST_BTN (R84, R86, R140). -/
def buttonPress (s : State) : State :=
  if modeIn s [.alarm, .echo] then
    if hushRefused s then (s.bump Ent.HUSH_REFUSED).onHorn fun h => { h with refused := some 0 }
    else afterEvent (enterMode s .hush 0x43) 0x43
  else if modeIn s selftestModes then afterEvent (enterSelftest s 1 0x43) 0x43
  else s

/-- A hold of TEST_BTN (R84, R86). -/
def buttonHold (s : State) : State :=
  if modeIn s [.supervise, .fault] && (lcNow s == .owned || lcNow s == .field) then afterEvent (enterMode s .commission 0x43) 0x43 else s

/-- A mode ends by time (R84). -/
def verifyEnds (s : State) : State := if modeIs s .verify then afterEvent (enterMode s (baseMode s) 0x43) 0x43 else s
def commissionEnds (s : State) : State := if modeIs s .commission then afterEvent (enterMode s (baseMode s) 0x43) 0x43 else s
def hushEnds (s : State) : State := if modeIs s .hush then afterEvent (enterMode s (afterAlarm s) 0x43) 0x43 else s

/-- End of life is reached (R95): notice bit 11, the base mode. -/
def endOfLife (s : State) : State := if eolReached s then afterEvent (raise s 11) 0x43 else s

/-- The life-cycle has become RETIRED (R84). -/
def lcBecameRetired (s : State) : State := if lcIsRetired s then afterEvent (enterMode s .retired 0x43) 0x43 else s

/-- An invalid word (R80): the alert, FAULT_CAUSE bit 0, the FAULT code (RETIRED in a retired device), the base mode, MODE on the sideband.
`which` is the word of R311: 1 mode, 2 base mode, 3 life-cycle, 4 rest word, 5 loader state; `d` the die that found it. -/
def invalidWord (s : State) (d : Die) (which word dom : Nat) : State :=
  let s := alertRecord (alertFlags s 0x40 which 0) d 0x40 (if which = 5 then 0x20 else 0x30) (fun _ => [byte which] ++ leBytes 4 word ++ [byte dom])
  let s := s.setBits Ent.FAULT_CAUSE 1
  let target := if modeIs s .retired || lcIsRetired s then Mode.retired else .fault
  let s := if s.get Ent.MODE = modeCode target then sendMode s else enterMode s target 0x43
  s.put Ent.BASE_MODE (modeCode (baseMode s))

/-- Positions at which events apply, in order: those of R82, with position 4 split into the change of ALARM_FW (4) and the request for ALARM (5), so
that positions 5 to 10 of R82 are 6 to 11 here. -/
def eventPos (s : State) : ModeEvent → Nat
  | .lcRetired => 2
  | .backstop _ => 3
  | .alarmFw _ => 4
  | .firmwareAlarm => 5
  | .relayedCan _ => 6
  | .relayedIc _ => 6
  | .hushExpiry => 7
  | .hushRequest _ => 7
  | .hushEnd _ => 7
  | .faultSet _ => 8
  | .faultClear _ => 8
  | .endOfLife => 9
  | .selftestDue => 10
  | .selftestDone => 10
  | .request u t => match t with
    | .alarm => if u = .M then 5 else 11
    | .hush => 7
    | .supervise => if modeIs s .hush then 7 else 11
    | .calibrate | .factory | .commission | .verify | .selftest => 11
  | .verifyTimeout => 11
  | .commissionTimeout => 11
  | .buttonPress => if modeIn s [.alarm, .echo] then 7 else 11
  | .buttonHold => 11

/-- One event of a CLK_AON cycle. -/
def modeEvent (s : State) : ModeEvent → State
  | .lcRetired => lcBecameRetired s
  | .backstop b => takeKinds s (b % 8) (bit b 3)
  | .alarmFw k => setAlarmFw s (k % 8)
  | .firmwareAlarm => takeRequest s .M .alarm
  | .relayedCan k => refreshRelayed (s.onKeeper fun x => { x with relCan := k % 8 })
  | .relayedIc on => refreshRelayed (s.onKeeper fun x => { x with relIc := on })
  | .hushExpiry => hushEnds s
  | .hushRequest u => takeRequest s u .hush
  | .hushEnd u => if modeIs s .hush then takeRequest s u .supervise else s
  | .faultSet b => setFault s b 0x43
  | .faultClear b => clearFault s (2 ^ b)
  | .endOfLife => endOfLife s
  | .selftestDue => selftestDue s
  | .selftestDone => if s.keeper.st.step ≠ 0 then selftestDone s else s
  | .request u t => takeRequest s u t
  | .verifyTimeout => verifyEnds s
  | .commissionTimeout => commissionEnds s
  | .buttonPress => buttonPress s
  | .buttonHold => buttonHold s

/-- The events of one position apply in order of arrival, each judged against the mode that the earlier ones have left; the others remain. At the last
position whatever is left applies. -/
def applyAt (p : Nat) : List ModeEvent → State → State × List ModeEvent
  | [], s => (s, [])
  | e :: es, s =>
    if eventPos s e = p ∨ p = 11 then applyAt p es (modeEvent s e)
    else
      let r := applyAt p es s
      (r.1, e :: r.2)

/-- The events of one cycle in the order of R82; those of one position in order of arrival. -/
def modeEvents (s : State) (evs : List ModeEvent) : State :=
  ((List.range 12).foldl (fun r p => applyAt p r.2 r.1) (s, evs)).1

/-- The FAULT_CAUSE conditions that hold now (R92). -/
def faultConditions (s : State) : List Nat :=
  (if s.keeper.hbLost then [1] else []) ++ (if s.keeper.shadowBad then [2] else []) ++ (if s.keeper.bootBad then [3] else []) ++
  (if s.keeper.stBad then [4] else []) ++ (if s.keeper.supplyLow then [5] else []) ++ (if backstopSetWritten s then [] else [7])

/-- Causes whose condition holds are set again (R92). -/
def resetFaults (s : State) : State := (faultConditions s).foldl (fun s b => setFault s b 0x43) s


/-- The conditions that the keeper judges in every cycle at their positions of R82: a backstop alarm that holds (R84), causes whose condition still
holds (R92), a self-test that waits (R87). -/
def standing (s : State) (p : Nat) : State :=
  match p with
  | 3 => backstopCheck s
  | 8 => resetFaults s
  | 10 => selftestWaiting s
  | _ => s

/-- One cycle of the mode machine (R82): at each position the standing condition, then the events. -/
def modeCycle (s : State) (evs : List ModeEvent) : State :=
  ((List.range 12).foldl (fun r p => applyAt p r.2 (standing r.1 p)) (s, evs)).1

end Sys2Proof.Machine
end

