-- ==== Sys2Proof/Machine/Cipher.lean ====
section
/-! DEFINITION. AES (FIPS 197), CMAC (SP 800-38B), GCM's hash and counter (SP 800-38D): the algorithms that R262, R265, R270 and R380 name. -/
namespace Sys2Proof

def aesSbox : List Byte :=
  [0x63, 0x7C, 0x77, 0x7B, 0xF2, 0x6B, 0x6F, 0xC5, 0x30, 0x01, 0x67, 0x2B, 0xFE, 0xD7, 0xAB, 0x76] ++
  [0xCA, 0x82, 0xC9, 0x7D, 0xFA, 0x59, 0x47, 0xF0, 0xAD, 0xD4, 0xA2, 0xAF, 0x9C, 0xA4, 0x72, 0xC0] ++
  [0xB7, 0xFD, 0x93, 0x26, 0x36, 0x3F, 0xF7, 0xCC, 0x34, 0xA5, 0xE5, 0xF1, 0x71, 0xD8, 0x31, 0x15] ++
  [0x04, 0xC7, 0x23, 0xC3, 0x18, 0x96, 0x05, 0x9A, 0x07, 0x12, 0x80, 0xE2, 0xEB, 0x27, 0xB2, 0x75] ++
  [0x09, 0x83, 0x2C, 0x1A, 0x1B, 0x6E, 0x5A, 0xA0, 0x52, 0x3B, 0xD6, 0xB3, 0x29, 0xE3, 0x2F, 0x84] ++
  [0x53, 0xD1, 0x00, 0xED, 0x20, 0xFC, 0xB1, 0x5B, 0x6A, 0xCB, 0xBE, 0x39, 0x4A, 0x4C, 0x58, 0xCF] ++
  [0xD0, 0xEF, 0xAA, 0xFB, 0x43, 0x4D, 0x33, 0x85, 0x45, 0xF9, 0x02, 0x7F, 0x50, 0x3C, 0x9F, 0xA8] ++
  [0x51, 0xA3, 0x40, 0x8F, 0x92, 0x9D, 0x38, 0xF5, 0xBC, 0xB6, 0xDA, 0x21, 0x10, 0xFF, 0xF3, 0xD2] ++
  [0xCD, 0x0C, 0x13, 0xEC, 0x5F, 0x97, 0x44, 0x17, 0xC4, 0xA7, 0x7E, 0x3D, 0x64, 0x5D, 0x19, 0x73] ++
  [0x60, 0x81, 0x4F, 0xDC, 0x22, 0x2A, 0x90, 0x88, 0x46, 0xEE, 0xB8, 0x14, 0xDE, 0x5E, 0x0B, 0xDB] ++
  [0xE0, 0x32, 0x3A, 0x0A, 0x49, 0x06, 0x24, 0x5C, 0xC2, 0xD3, 0xAC, 0x62, 0x91, 0x95, 0xE4, 0x79] ++
  [0xE7, 0xC8, 0x37, 0x6D, 0x8D, 0xD5, 0x4E, 0xA9, 0x6C, 0x56, 0xF4, 0xEA, 0x65, 0x7A, 0xAE, 0x08] ++
  [0xBA, 0x78, 0x25, 0x2E, 0x1C, 0xA6, 0xB4, 0xC6, 0xE8, 0xDD, 0x74, 0x1F, 0x4B, 0xBD, 0x8B, 0x8A] ++
  [0x70, 0x3E, 0xB5, 0x66, 0x48, 0x03, 0xF6, 0x0E, 0x61, 0x35, 0x57, 0xB9, 0x86, 0xC1, 0x1D, 0x9E] ++
  [0xE1, 0xF8, 0x98, 0x11, 0x69, 0xD9, 0x8E, 0x94, 0x9B, 0x1E, 0x87, 0xE9, 0xCE, 0x55, 0x28, 0xDF] ++
  [0x8C, 0xA1, 0x89, 0x0D, 0xBF, 0xE6, 0x42, 0x68, 0x41, 0x99, 0x2D, 0x0F, 0xB0, 0x54, 0xBB, 0x16]

def aesSub (b : Byte) : Byte := aesSbox.getD b.toNat 0

/-- The inverse substitution. -/
def aesUnsub (b : Byte) : Byte := byte (aesSbox.findIdx (· == b))

/-- Multiplication by x in GF(2^8). -/
def xtime (b : Byte) : Byte := if b.getLsbD 7 then (b <<< 1) ^^^ 0x1B else b <<< 1

/-- Multiplication by a constant below 16. -/
def gfMul (c : Nat) (b : Byte) : Byte :=
  (if c.testBit 0 then b else 0) ^^^ (if c.testBit 1 then xtime b else 0) ^^^
  (if c.testBit 2 then xtime (xtime b) else 0) ^^^ (if c.testBit 3 then xtime (xtime (xtime b)) else 0)

/-- Round constants by doubling. -/
def aesRcon : Nat → Byte
  | 0 => 0x01
  | n + 1 => xtime (aesRcon n)

/-- `n` further words of the key schedule, from word `i` on, with the key's `nk` words; the schedule so far is kept latest word first. -/
def aesExpandFrom (nk : Nat) : Nat → Nat → List Bytes → List Bytes
  | 0, _, w => w
  | n + 1, i, w =>
    let last := w.getD 0 []
    let t := if i % nk = 0 then xorBytes ((last.drop 1 ++ last.take 1).map aesSub) [aesRcon (i / nk - 1), 0, 0, 0]
      else if nk = 8 ∧ i % 8 = 4 then last.map aesSub else last
    aesExpandFrom nk n (i + 1) (xorBytes (w.getD (nk - 1) []) t :: w)

/-- Bytes cut into pieces of `k`. -/
def chunks (k : Nat) : Nat → Bytes → List Bytes
  | 0, _ => []
  | n + 1, bs => bs.take k :: chunks k n (bs.drop k)

/-- The round keys of 16 bytes, for a key of 16 or 32 bytes. -/
def aesRoundKeys (key : Bytes) : List Bytes :=
  let nk := key.length / 4
  let rounds := nk + 6
  chunks 16 (rounds + 1) (aesExpandFrom nk (4 * (rounds + 1) - nk) nk (chunks 4 nk key).reverse).reverse.flatten

/-- Row r is rotated left by r columns; bytes stand column by column. -/
def shiftRows (s : Bytes) : Bytes := (List.range 16).map fun i => s.getD ((i + 4 * (i % 4)) % 16) 0
def unshiftRows (s : Bytes) : Bytes := (List.range 16).map fun i => s.getD ((i + 12 * (i % 4)) % 16) 0

/-- One column times the matrix whose first row is given. -/
def mixColumn (m : List Nat) (c : Bytes) : Bytes :=
  (List.range 4).map fun r => ((List.range 4).map fun j => gfMul (m.getD ((j + 4 - r) % 4) 0) (c.getD j 0)).foldl (· ^^^ ·) 0

def mixColumns (m : List Nat) (s : Bytes) : Bytes := ((chunks 4 4 s).map (mixColumn m)).flatten

def aesRounds : List Bytes → Bytes → Bytes
  | [], s => s
  | [k], s => xorBytes (shiftRows (s.map aesSub)) k
  | k :: ks, s => aesRounds ks (xorBytes (mixColumns [2, 3, 1, 1] (shiftRows (s.map aesSub))) k)

/-- The cipher on one block. -/
def aesEncrypt (key block : Bytes) : Bytes :=
  match aesRoundKeys key with
  | [] => block
  | k :: ks => aesRounds ks (xorBytes block k)

/-- The inverse rounds, latest round key first. -/
def aesUnrounds : List Bytes → Bytes → Bytes
  | [], s => s
  | [k], s => xorBytes ((unshiftRows s).map aesUnsub) k
  | k :: ks, s => aesUnrounds ks (mixColumns [14, 11, 13, 9] (xorBytes ((unshiftRows s).map aesUnsub) k))

/-- The inverse cipher on one block. -/
def aesDecrypt (key block : Bytes) : Bytes :=
  match (aesRoundKeys key).reverse with
  | [] => block
  | k :: ks => aesUnrounds ks (xorBytes block k)

/-! ## CMAC -/

/-- A subkey from the one before: doubling in GF(2^128). -/
def cmacDouble (b : Bytes) : Bytes :=
  let n := beNat b
  beBytes 16 ((2 * n) % 2 ^ 128 ^^^ if n.testBit 127 then 0x87 else 0)

/-- `n` whole blocks absorbed. -/
def cmacBlocks (key : Bytes) : Nat → Bytes → Bytes → Bytes
  | 0, c, _ => c
  | n + 1, c, bs => cmacBlocks key n (aesEncrypt key (xorBytes c (bs.take 16))) (bs.drop 16)

/-- The tag, given the chaining value and the last bytes, 0 to 16 of them (0 for the empty message only). -/
def cmacFinish (key c tail : Bytes) : Bytes :=
  let k1 := cmacDouble (aesEncrypt key (zeros 16))
  let m := if tail.length = 16 then xorBytes tail k1 else xorBytes (fitBytes 16 (tail ++ [0x80])) (cmacDouble k1)
  aesEncrypt key (xorBytes c m)

def cmac (key msg : Bytes) : Bytes :=
  let n := (msg.length - 1) / 16
  cmacFinish key (cmacBlocks key n (zeros 16) msg) (msg.drop (16 * n))

/-! ## GCM -/

/-- Multiplication in GF(2^128) as SP 800-38D orders its bits: `i` bits of x remain, most significant first. -/
def gcmMulFrom (x : Nat) : Nat → Nat → Nat → Nat
  | 0, z, _ => z
  | i + 1, z, v => gcmMulFrom x i (if x.testBit i then z ^^^ v else z) (if v % 2 = 1 then v / 2 ^^^ (0xE1 * 2 ^ 120) else v / 2)

def gcmMul (x y : Bytes) : Bytes := beBytes 16 (gcmMulFrom (beNat x) 128 0 (beNat y))

/-- `n` blocks hashed, the last padded with zeros. -/
def ghashBlocks (h : Bytes) : Nat → Bytes → Bytes → Bytes
  | 0, y, _ => y
  | n + 1, y, bs => ghashBlocks h n (gcmMul (xorBytes y (fitBytes 16 (bs.take 16))) h) (bs.drop 16)

def ghash (h y bs : Bytes) : Bytes := ghashBlocks h ((bs.length + 15) / 16) y bs

/-- The counter block incremented as a 128-bit integer (R270). -/
def ctrInc (c : Bytes) : Bytes := beBytes 16 ((beNat c + 1) % 2 ^ 128)

/-- The counter block of GCM: the last 32 bits are incremented. -/
def gcmInc (c : Bytes) : Bytes := c.take 12 ++ beBytes 4 ((beNat (c.drop 12) + 1) % 2 ^ 32)

/-- `n` blocks of keystream applied; the counter block that follows is returned. -/
def ctrBlocks (key : Bytes) (inc : Bytes → Bytes) : Nat → Bytes → Bytes → Bytes × Bytes
  | 0, c, _ => ([], c)
  | n + 1, c, bs =>
    let r := ctrBlocks key inc n (inc c) (bs.drop 16)
    (xorBytes (bs.take 16) (aesEncrypt key c) ++ r.1, r.2)

/-- `n` blocks of CBC; the chaining value that follows is returned. -/
def cbcEncrypt (key : Bytes) : Nat → Bytes → Bytes → Bytes × Bytes
  | 0, c, _ => ([], c)
  | n + 1, c, bs =>
    let x := aesEncrypt key (xorBytes c (bs.take 16))
    let r := cbcEncrypt key n x (bs.drop 16)
    (x ++ r.1, r.2)

def cbcDecrypt (key : Bytes) : Nat → Bytes → Bytes → Bytes × Bytes
  | 0, c, _ => ([], c)
  | n + 1, c, bs =>
    let r := cbcDecrypt key n (bs.take 16) (bs.drop 16)
    (xorBytes c (aesDecrypt key (bs.take 16)) ++ r.1, r.2)

end Sys2Proof
end

