-- ==== Sys2Proof/Machine/Replies.lean ====
section
/-! DEFINITION. The dictionary engine's responses (R57, R58, R73, R191): their statuses recorded, their queues, the places claimed in them. -/
namespace Sys2Proof.Machine

/-- An entry's address as a key. -/
def entAt (idx sub : Nat) : Nat := idx * 256 + sub

/-- DENIED is counted and recorded (R73). A COMMIT whose batch fails with DENIED is recorded under COMMIT's own address (DESIGN CHOICE, log 88: the
spec does not say whether the refused entry's stands there). -/
def countDenied (s : State) (q : Request) : State :=
  (s.bump (Ent.DENIED_COUNT (userNum q.user + 1))).put Ent.LAST_DENIED (userId q.user + 256 * (q.sub % 256) + 65536 * (q.idx % 65536))

/-- The response to a request goes through its user's response queue: one to the tag while it waits, one to the core while the window access that made
the request blocks it. -/
def queues (s : State) (q : Request) : Bool :=
  match q.user with
  | .A | .B | .C | .N => true
  | .T => s.tag.waitingT
  | .M | .U => s.spindle.core.asked == some q
  | .L => false

/-- A user's response queue with a new content. -/
def setResponses (s : State) (u : User) (l : List Response) : State :=
  notePeak (s.onDict fun d => { d with resps := d.resps.set u l }) 11 l.length

/-- A response to its user: to the response queue, or to the core, the loader. A response that will be discarded goes nowhere (R363). -/
def answer (s : State) (q : Request) (status : Nat) (v : Bytes) : State :=
  if q.dropped then s
  else if queues s q then setResponses s q.user (s.spindle.dict.resps.get q.user ++ [⟨q, status, v⟩])
  else s.onDict fun d => { d with reply := (status, v) }

/-- LAST_STATUS (R73) and the counter of denials. -/
def noteStatus (s : State) (q : Request) (status : Nat) : State :=
  let s := if status = Sc.denied then countDenied s q else s
  if q.op = 1 ∧ entAt q.idx q.sub = Ent.LAST_STATUS then s else s.putU Ent.LAST_STATUS q.user status

/-- The user that the engine has served last (R57). -/
def servedLast (s : State) (u : User) : State := s.onDict fun d => { d with last := u }

/-- A request is completed as it is served: its status and its response. -/
def respond (s : State) (q : Request) (status : Nat) (v : Bytes) : State := answer (noteStatus (servedLast s q.user) q status) q status v

/-- A request whose response comes later, an N write or a job of a crypto engine, claims the place of its response (R191). -/
def claimPlace (s : State) (q : Request) : State :=
  let s := servedLast s q.user
  if q.dropped || !queues s q then s
  else setResponses s q.user (s.spindle.dict.resps.get q.user ++ [⟨q, Sc.claimed, []⟩])

/-- A request that has waited for the keeper or for a crypto engine is answered, in the place that it has claimed (R58). A job that a reset of the spindle
die has cut from its request (`op` 0) answers nobody. -/
def respondJob (s : State) (q : Request) (status : Nat) (v : Bytes) : State :=
  if q.op = 0 then s
  else
    let s := noteStatus s q status
    if q.dropped || !queues s q then answer s q status v
    else s.onDict fun d => { d with resps := d.resps.set q.user (fillClaim ⟨q, status, v⟩ (d.resps.get q.user)) }

end Sys2Proof.Machine
end

