-- ==== Sys2Proof/Machine/Random.lean ====
section
/-! DEFINITION. The random-number source (R296 to R300): the conditioner, the consumers in their order, the software read, the health windows. -/
namespace Sys2Proof.Machine

/-- The order of R297. -/
def rngOrder : RngUser → Nat
  | .keeperSign => 1 | .bn => 2 | .aes _ => 3 | .debug => 4 | .spread => 5 | .pool => 6

/-- A request behind those of its order and of the orders before it. -/
def rngInsert (w : RngUser × Nat) : List (RngUser × Nat) → List (RngUser × Nat)
  | [] => [w]
  | x :: xs => if rngOrder w.1 < rngOrder x.1 then w :: x :: xs else x :: rngInsert w xs

/-- Bytes of words, each least significant byte first (R296). -/
def wordBytes (ws : List Word) : Bytes := ws.flatMap fun w => leBytes 4 w.toNat

/-- Words of a big-number job: the first two reseed the blinding generator at once (R292, log 94). -/
def bnTake (b : Bn) (ws : List Word) : Bn :=
  let l := b.words ++ ws
  { b with words := l, rngLeft := b.rngLeft - ws.length, blind := if b.words.length < 2 ∧ 2 ≤ l.length then sha256 (b.blind ++ wordBytes (l.take 2)) else b.blind }

/-- Words reach a waiting consumer: a big-number job keeps them, a pool refill is answered (R297); an AES page's mask takes its word (R275). -/
def rngDeliver (s : State) (who : RngUser) (ws : List Word) : State :=
  match who with
  | .keeperSign => s.onBn fun b => bnTake b ws
  | .bn => s.onBn fun b => bnTake b ws
  | .pool => sbQueue s .spindle 0xE 0 (0x20 :: wordBytes ws)
  | .aes u => s.onPage u fun p => { p with words := p.words ++ ws }
  | .debug => s
  | .spread => s

/-- Waiting consumers are served in order, each in full before the next (R297). -/
def rngServe : Nat → State → State
  | 0, s => s
  | n + 1, s =>
    match s.spindle.rng.waiting, s.spindle.rng.fifo with
    | (who, k) :: rest, w :: fifo =>
      rngServe n (rngDeliver (s.onRng fun r => { r with fifo := fifo, waiting := if k ≤ 1 then rest else (who, k - 1) :: rest }) who [w])
    | _, _ => s

/-- A hardware consumer asks for words (R297). -/
def rngAsk (s : State) (who : RngUser) (n : Nat) : State :=
  rngServe 16 ((demand s .rng).onRng fun r => { r with waiting := rngInsert (who, n) r.waiting })

/-- A consumer's waiting request is withdrawn. -/
def rngForget (s : State) (p : RngUser → Bool) : State :=
  s.onRng fun r => { r with waiting := r.waiting.filter fun w => !p w.1 }

/-- The conditioner forms a word from 64 raw bits and delivers it (R296); sampling stops while the FIFO is full and nobody waits. -/
def rngProduce (s : State) (raw : BitVec 64) : State :=
  let r := s.spindle.rng
  if !s.spindle.alive || domState s .rng != 2 || (8 ≤ r.fifo.length && r.waiting.isEmpty) then s
  else
    let d := sha256 (r.pool ++ leBytes 8 raw.toNat ++ leBytes 4 r.counter)
    rngServe 16 (s.onRng fun r => { r with pool := d, counter := (r.counter + 1) % 2 ^ 32, fifo := r.fifo ++ [BitVec.ofNat 32 (leNat (d.take 4))] })

/-- A software read of `n` words (R298): the value and the state after it. -/
def rngTake (s : State) (u : User) (n : Nat) : State × Bytes :=
  let r := s.spindle.rng
  let k := if r.waiting.isEmpty then min n r.fifo.length else 0
  let s := (demand s .rng).onRng fun r => { r with fifo := r.fifo.drop k }
  let s := (s.putU Ent.RNG_GOT u (4 * k)).putU Ent.RNG_ERR u (if k < n then 1 else 0)
  (if k < n then s.bump Ent.RNG_EMPTY_READS else s, fitBytes (4 * n) (wordBytes (r.fifo.take k)))

/-! ## Health (R300). A window is given as its 4096 raw bits, b0 lowest. -/

/-- The number of set bits among the low `n` bits. -/
def countOnes : Nat → Nat → Nat
  | 0, _ => 0
  | n + 1, w => w % 2 + countOnes n (w / 2)

/-- Run failures among the low `n` bits: `last` the bit before, `len` how many bits of its run are not yet part of a failure. Each 48 identical bits in
succession are one failure (log 93). -/
def runFails : Nat → Nat → Nat → Nat → Nat
  | 0, _, _, _ => 0
  | n + 1, w, last, len =>
    let len := if w % 2 = last then len + 1 else 1
    if len = 48 then runFails n (w / 2) (w % 2) 0 + 1 else runFails n (w / 2) (w % 2) len

def windowBias (w : Nat) : Int := (countOnes 4096 w : Int) - 2048

/-- Pairs of neighbours that are equal, the last bit's neighbour being the first. -/
def windowCorr (w : Nat) : Int :=
  let turned := w % 2 ^ 4096 / 2 + w % 2 * 2 ^ 4095
  (4096 - countOnes 4096 ((w % 2 ^ 4096) ^^^ turned) : Int) - 2048

/-- The run failures of a window. -/
def windowRuns (w : Nat) : Nat := runFails 4096 w (w % 2) 0

/-- The window fails. -/
def windowFails (s : State) (w : Nat) : Bool :=
  decide ((s.get Ent.RNG_BIAS_LIM : Int) < (windowBias w).natAbs) || decide ((s.get Ent.RNG_CORR_LIM : Int) < (windowCorr w).natAbs) || 0 < windowRuns w

/-- A window completes and is judged. -/
def judgeWindow (s : State) (w : Nat) : State :=
  let bad := windowFails s w
  let s := ((s.putS Ent.RNG_BIAS (windowBias w)).putS Ent.RNG_CORR (windowCorr w)).bump Ent.RNG_WINDOWS
  let s := s.bumpBy Ent.RNG_RUN_FAILS (windowRuns w)
  let s := if bad then s.bump Ent.RNG_FAILS else s
  s.put Ent.RNG_FLAGS (withBit (s.get Ent.RNG_FLAGS) 0 bad ||| if bad then 2 else 0)

end Sys2Proof.Machine
end

