-- ==== Sys2Proof/Machine/Pages.lean ====
section
/-! DEFINITION. Key derivation, the eight AES pages and the SHA-256 contexts (R261 to R280). Every operation that a write starts answers the state
after it and the status code of the write. -/
namespace Sys2Proof.Machine

/-! ## Derivation (R262) -/

def rootKeyBytes : Bytes := List.ofFn Config.rootKey

/-- Input i of the derivation: `sep` is byte 17 (0 for AES keys, R284 for EC keys). -/
def kdfInput (i : Nat) (label : Bytes) (sep id lc bits : Nat) : Bytes :=
  byte i :: fitBytes 16 label ++ [byte sep, byte id] ++ leBytes 4 lc ++ leBytes 2 bits

/-- A derived key of 16 or 32 bytes. -/
def kdfKey (label : Bytes) (sep id lc len : Nat) : Bytes :=
  cmac rootKeyBytes (kdfInput 1 label sep id lc (8 * len)) ++
    if len = 32 then cmac rootKeyBytes (kdfInput 2 label sep id lc (8 * len)) else []

/-! ## Pages -/

def page (s : State) (u : User) : Page := s.spindle.pages.get u

/-- The AES, SHA-256 and big-number engines run: CRYPTO is ON. -/
def cryptoOn (s : State) : Bool := s.spindle.alive && domState s .crypto == 2

/-- A word for the mask is at hand: delivered to the page, or free in the FIFO (R275, R297). -/
def maskReady (s : State) (u : User) : Bool := !(page s u).words.isEmpty || (s.spindle.rng.waiting.isEmpty && !s.spindle.rng.fifo.isEmpty)

/-- A word for the mask is asked for, once (R275). -/
def askMask (s : State) (u : User) : State := if (page s u).asked then s else rngAsk (s.onPage u fun p => { p with asked := true }) (.aes u) 1

/-- The masking generator of a page is reseeded with one word; `n` blocks have run since it was due. -/
def reseed (s : State) (u : User) (n : Nat) : State :=
  let s := if (page s u).words.isEmpty then askMask s u else s
  s.onPage u fun p =>
    match p.words with
    | w :: ws => { p with words := ws, mask := w, blocks := n, owes := false, asked := false }
    | [] => { p with blocks := n, owes := true }

/-- AES blocks are counted; after every 1,024 the mask is reseeded, with a word that the engine waits for (R275, log 95). -/
def countBlocks (s : State) (u : User) (n : Nat) : State :=
  if (page s u).blocks + n < 1024 then s.onPage u fun p => { p with blocks := p.blocks + n } else reseed s u ((page s u).blocks + n - 1024)

/-- The requests among the jobs of a page end with a status (R207, R269). -/
def endJobs (s : State) (u : User) (status : Nat) : State :=
  ((page s u).jobs.filterMap PageJob.req?).foldl (fun s q => respondJob s q status []) s

/-- A page is cleared (R268), and the user's ephemeral slot with it (R294). A page that was zeroised reads state 6 until its user derives again (R269). The
masking generator is no content of the page. -/
def clearPage (s : State) (u : User) : State :=
  let s := endJobs s u Sc.state
  let s := (s.onPage u fun p =>
    { state := if p.state = 6 then 6 else 0, mask := p.mask, blocks := p.blocks, owes := p.owes, asked := p.asked, words := p.words }).onBnUser u fun b => { b with eph := [] }
  [Ent.KEY_STATE, Ent.KEY_CHECK, Ent.AES_IV, Ent.AES_OUT, Ent.AES_TAG].foldl (fun s e => s.putU e u 0) s

def clearPages (s : State) : State := users.foldl clearPage s

/-- An AUTH session ends and page T is cleared (R382). -/
def endAuth (s : State) : State :=
  (clearPage s .T).onTag fun t => { t with step1 := false, open_ := false, c := 0, rndR := [], rndD := [] }

/-- A message is in progress. -/
def inMessage (p : Page) : Bool := p.state == 2 || p.state == 3

/-- A memory job of the page is queued or running. -/
def memBusy (p : Page) : Bool := p.jobs.any fun j => j.req?.isNone

/-- AES_STATUS (R280). -/
def aesStatus (p : Page) : Nat :=
  p.state + (if p.unread then 8 else 0) + (if memBusy p then 16 else 0) + p.status % 256 * 256 + min p.chunks 65535 * 65536

/-- AES blocks of a derivation under the root key: its subkey and two blocks for each 128 bits (R262, R279). -/
def kdfBlocks (len : Nat) : Nat := 1 + len / 8

/-- KDF_DERIVE (R263, R265). -/
def kdfDerive (s : State) (u : User) : State × Nat :=
  if inMessage (page s u) || memBusy (page s u) then (s, Sc.state)
  else
    let len := s.getU Ent.KDF_KEYLEN u
    let key := kdfKey (leBytes 16 (s.getU Ent.KDF_LABEL u)) 0 (userId u) (lcWord s) len
    let s := (reseed (demand s .crypto) u (kdfBlocks len)).onPage u fun p => { p with key := key, state := 1, unread := false, chunks := 0, status := 0 }
    ((s.putU Ent.KEY_STATE u (len / 16)).putU Ent.KEY_CHECK u (leNat ((cmac key []).take 4)), Sc.ok)

/-- A read of EXP_KEY (R266): the value and the status. -/
def expKey (s : State) (u : User) : State × Nat × Bytes :=
  let who := s.getU Ent.EXP_USER u
  let lc := s.getU Ent.EXP_LC u
  if lcNow s != .maker then (s, Sc.locked, [])
  else if who < 0x13 ∨ 0x17 < who ∨ (lc ≠ lcCode .owned ∧ lc ≠ lcCode .field) then (s, Sc.range, [])
  else
    let label := leBytes 16 (s.getU Ent.EXP_LABEL u)
    let len := s.getU Ent.EXP_KEYLEN u
    let s1 := logDie ((reseed (demand s .crypto) u (kdfBlocks len)).bump Ent.EXP_COUNT) .spindle 0x35 (userId u) (byte who :: label.take 4 ++ [byte len])
    (s1, Sc.ok, fitBytes 32 (kdfKey label 0 who lc len))

/-! ## Messages (R270 to R273) -/

/-- The lengths obey R270. -/
def lengthsOk (mode aad msg : Nat) : Bool :=
  match mode with
  | 1 => aad == 0 && msg % 16 == 0
  | 2 => aad == 0 && msg % 16 == 0
  | 3 => aad == 0
  | 4 => aad == 0
  | 5 => true
  | 6 => true
  | _ => false

/-- The tag of modes 4 to 6 once every byte is taken (SP 800-38B, SP 800-38D). -/
def pageTag (p : Page) (mode aad msg : Nat) : Bytes :=
  if mode = 4 then cmacFinish p.key p.mac p.buf
  else xorBytes (ghash p.h p.mac (beBytes 8 (8 * aad) ++ beBytes 8 (8 * msg))) (aesEncrypt p.key p.j0)

/-- The page as START sets it. -/
def pageStart (p : Page) (mode aad msg : Nat) (iv : Bytes) : Page :=
  let h := if mode = 5 ∨ mode = 6 then aesEncrypt p.key (zeros 16) else []
  let j0 := if mode = 5 ∨ mode = 6 then iv.take 12 ++ [0, 0, 0, 1] else []
  { p with
    state := if aad = 0 then 3 else 2
    run := if mode = 5 ∨ mode = 6 then gcmInc j0 else iv
    mac := zeros 16
    h := h
    j0 := j0
    buf := []
    aadLeft := aad
    msgLeft := msg
    unread := false
    chunks := 0 }

/-- AES_START (R271). -/
def aesStart (s : State) (u : User) : State × Nat :=
  let p := page s u
  let mode := s.getU Ent.AES_MODE u
  let aad := s.getU Ent.AAD_LEN u
  let msg := s.getU Ent.MSG_LEN u
  if p.key = [] then (s, Sc.state)
  else if !lengthsOk mode aad msg then (s, Sc.range)
  else
    let s := reseed (demand s .crypto) u (if 4 ≤ mode then 1 else 0)
    let q := pageStart (page s u) mode aad msg (leBytes 16 (s.getU Ent.AES_IV u))
    let s := s.onPage u fun _ => q
    if 4 ≤ mode ∧ aad + msg = 0 then
      (countBlocks ((s.onPage u fun p => { p with state := 4 }).putU Ent.AES_TAG u (leNat (pageTag q mode 0 0))) u 1, Sc.ok)
    else (s, Sc.ok)

/-- The bytes of the part in progress. -/
def partLeft (p : Page) : Nat := if p.state = 2 then p.aadLeft else p.msgLeft

/-- Bytes of AAD are taken; `last` ends the part. -/
def pageAad (p : Page) (d : Bytes) (last : Bool) : Page :=
  let x := p.buf ++ d
  let n := if last then x.length else x.length / 16 * 16
  { p with mac := ghash p.h p.mac (x.take n), buf := x.drop n, aadLeft := p.aadLeft - d.length, state := if last then 3 else p.state }

/-- Bytes of payload are taken; `last` ends the part. The output is that of the bytes given (of whole blocks in CBC). -/
def pagePayload (p : Page) (mode : Nat) (d : Bytes) (last : Bool) : Page × Bytes :=
  let x := p.buf ++ d
  let n := x.length / 16
  let p1 := { p with msgLeft := p.msgLeft - d.length }
  match mode with
  | 1 => ({ p1 with run := (cbcEncrypt p.key n p.run x).2, buf := x.drop (16 * n) }, (cbcEncrypt p.key n p.run x).1)
  | 2 => ({ p1 with run := (cbcDecrypt p.key n p.run x).2, buf := x.drop (16 * n) }, (cbcDecrypt p.key n p.run x).1)
  | 3 => ({ p1 with run := (ctrBlocks p.key ctrInc n p.run x).2, buf := x.drop (16 * n) },
      ((ctrBlocks p.key ctrInc (n + 1) p.run x).1).drop p.buf.length)
  | 4 =>
    let m := (x.length - 1) / 16
    ({ p1 with mac := cmacBlocks p.key m p.mac x, buf := x.drop (16 * m) }, [])
  | _ =>
    let y := (ctrBlocks p.key gcmInc (n + 1) p.run x).1
    let c := if mode = 5 then y else x
    let m := if last then c.length else 16 * n
    ({ p1 with run := (ctrBlocks p.key gcmInc n p.run x).2, buf := x.drop (16 * n), mac := ghash p.h p.mac (c.take m) }, y.drop p.buf.length)

/-- What follows the last byte of a message (R273): the tag is placed, or compared; the state after it, whether the check failed. -/
def pageEnd (s : State) (u : User) : State × Bool :=
  let p := page s u
  let mode := s.getU Ent.AES_MODE u
  let tag := leNat (pageTag p mode (s.getU Ent.AAD_LEN u) (s.getU Ent.MSG_LEN u))
  let done (k : Nat) (s : State) : State := s.onPage u fun p => { p with state := k }
  if mode = 4 ∨ mode = 5 then ((done 4 s).putU Ent.AES_TAG u tag, false)
  else if mode = 6 then if s.getU Ent.AES_TAG u = tag then (done 4 s, false) else (done 5 s, true)
  else (done 4 s, false)

/-- AES blocks that a chunk of `d` payload bytes runs: none for AAD; one for each 16 bytes begun; a tag of GCM takes one more (R275). -/
def chunkBlocks (p : Page) (mode d : Nat) (last : Bool) : Nat :=
  (if p.state = 3 then (d + 15) / 16 else 0) + if last && (p.state == 3 || p.msgLeft == 0) && 5 ≤ mode then 1 else 0

/-- One chunk of at most 64 bytes, within its part: the state, the output, and whether a tag failed. -/
def feedChunk (s : State) (u : User) (d : Bytes) : State × Bytes × Bool :=
  let p := page s u
  let last := partLeft p ≤ d.length
  let d := d.take (partLeft p)
  let s := countBlocks s u (chunkBlocks p (s.getU Ent.AES_MODE u) d.length last)
  let p : Page := { page s u with chunks := min (p.chunks + 1) 65535 }
  if p.state = 2 then
    let s := s.onPage u fun _ => pageAad p d last
    if last ∧ p.msgLeft = 0 then ((pageEnd s u).1, [], (pageEnd s u).2) else (s, [], false)
  else
    let r := pagePayload p (s.getU Ent.AES_MODE u) d last
    let s := s.onPage u fun _ => r.1
    if last then ((pageEnd s u).1, r.2, (pageEnd s u).2) else (s, r.2, false)

/-- AES_IN (R272, R273). -/
def aesIn (s : State) (u : User) (d : Bytes) : State × Nat :=
  let p := page s u
  if !inMessage p then (s, Sc.state)
  else if p.unread || memBusy p then (s, Sc.busy)
  else
    let payload := p.state == 3 && s.getU Ent.AES_MODE u != 4
    let r := feedChunk (demand s .crypto) u d
    if r.2.2 then ((r.1.onPage u fun p => { p with status := Sc.integrity, unread := false }).putU Ent.AES_OUT u 0, Sc.integrity)
    else
      let s := r.1.onPage u fun p => { p with status := Sc.ok, unread := payload }
      (if payload then s.putU Ent.AES_OUT u (leNat r.2.1) else s, Sc.ok)

/-- A read of AES_OUT (R272). -/
def aesOut (s : State) (u : User) : State × Nat × Bytes :=
  if (page s u).unread then (s.onPage u fun p => { p with unread := false }, Sc.ok, leBytes 64 (s.getU Ent.AES_OUT u)) else (s, Sc.state, [])

/-- AES_CLEAR (R268). -/
def aesClear (s : State) (u : User) : State × Nat := (clearPage s u, Sc.ok)

/-! ## The engines' memory (R197, R274) -/

/-- The bytes from `a` on lie within DATA0 and DATA1, or within crypto scratch, or, where `capt` allows it, within capture SRAM. -/
def memJobRange (a n : Nat) (capt : Bool) : Bool :=
  (0x20000000 ≤ a && a + n ≤ 0x20010000) || (0x30000000 ≤ a && a + n ≤ 0x30002000) || (capt && 0x21000000 ≤ a && a + n ≤ 0x21004000)

/-- Bytes that an engine reads. -/
def memRead (s : State) (a n : Nat) : Bytes :=
  if a < 0x21000000 then s.spindle.mem.data.getAll (a - 0x20000000) n
  else if a < 0x30000000 then s.spindle.mem.capt.getAll (a - 0x21000000) n
  else s.spindle.mem.scratch.getAll (a - 0x30000000) n

/-- Bytes that an engine writes. -/
def memWrite (s : State) (a : Nat) (d : Bytes) : State :=
  if a < 0x21000000 then s.onMem fun m => { m with data := m.data.putAll (a - 0x20000000) d }
  else s.onMem fun m => { m with scratch := m.scratch.putAll (a - 0x30000000) d }

/-- AES_MEM_GO (R274): queue 08 holds two jobs of a page (R278). -/
def aesMemGo (s : State) : State × Nat :=
  let p := page s .M
  let src := s.get Ent.AES_MEM_SRC
  let dst := s.get Ent.AES_MEM_DST
  let n := s.get Ent.AES_MEM_LEN
  if !inMessage p then (s, Sc.state)
  else if !memJobRange src n false || !memJobRange dst n false || src % 4 != 0 || dst % 4 != 0 || partLeft p < n ||
      (src != dst && src < dst + n && dst < src + n) then (s, Sc.range)
  else if 2 ≤ p.jobs.length then (noteFull s 8, Sc.busy)
  else
    (notePeak ((demand s .crypto).onPage .M fun p => { p with jobs := p.jobs ++ [.mem src dst n] }) 8 (p.jobs.length + 1), Sc.ok)

/-- A memory job runs: `k` chunks of 64 bytes at most; the output goes to the destination (R274). It stops where the mask has to be reseeded and no word is
at hand: what is left of it (R275). -/
def aesMemRun (u : User) : Nat → Nat → Nat → Nat → State → State × Option PageJob
  | 0, _, _, _, s => (s, none)
  | k + 1, src, dst, n, s =>
    if n = 0 ∨ !inMessage (page s u) then (s, none)
    else if (page s u).owes then (s, some (.mem src dst n))
    else
      let r := feedChunk s u (memRead s src (min n 64))
      let s := memWrite r.1 dst r.2.1
      if r.2.2 then (s.onPage u fun p => { p with status := Sc.integrity }, none)
      else aesMemRun u k (src + 64) (dst + r.2.1.length) (n - 64) s

/-- The user whose job the AES engine serves next: round-robin after the one served last (R278). -/
def aesNext (s : State) : Option User := (usersAfter s.spindle.aesLast).find? fun u => !(page s u).jobs.isEmpty

/-- The memory job of a page, taken from its queue, runs (R274). A job whose message has ended before it ran ends with STATE (log 31). -/
def aesMemJob (s : State) (u : User) (src dst n : Nat) : State :=
  let open_ := inMessage (page s u)
  let r := aesMemRun u (n / 64 + 1) src dst n (s.onPage u fun p => { p with status := if open_ then Sc.ok else Sc.state })
  match r.2 with
  | some j => r.1.onPage u fun p => { p with jobs := j :: p.jobs }
  | none => r.1.onCore fun c => { c with jobDone := true }

/-! ## SHA-256 (R277) -/

def shaCtx (s : State) (u : User) : ShaCtx := s.spindle.sha.get u

/-- The user of a job of the SHA-256 engine; none for the loader's. -/
def ShaJob.by : ShaJob → Option User
  | .half _ _ _ => none
  | .mem _ _ => some .M
  | .req q => some q.user

/-- A memory job of the user's context is queued or running. -/
def shaMemBusy (s : State) (u : User) : Bool := u == .M && s.spindle.shaJobs.any fun j =>
  match j with
  | .mem _ _ => true
  | .half _ _ _ => false
  | .req _ => false

/-- SHA_STATUS (R280). -/
def shaStatus (s : State) (u : User) : Nat :=
  let c := shaCtx s u
  (if c.open_ then 1 else if c.ready then 2 else 0) + (if shaMemBusy s u then 4 else 0) + c.status % 256 * 256

/-- Bytes hashed into a context. -/
def ShaCtx.feed (c : ShaCtx) (d : Bytes) : ShaCtx :=
  let x := c.buf ++ d
  { c with h := sha256Blocks (x.length / 64) c.h x, buf := x.drop (x.length / 64 * 64), len := c.len + d.length }

/-- SHA_INIT. While a memory job is queued on the context the writes of the context return BUSY (log 31). -/
def shaInit (s : State) (u : User) : State × Nat :=
  if shaMemBusy s u then (s, Sc.busy) else (s.onSha u fun _ => { open_ := true, h := sha256Init }, Sc.ok)

/-- SHA_DATA. -/
def shaData (s : State) (u : User) (d : Bytes) : State × Nat :=
  if !(shaCtx s u).open_ then (s, Sc.state)
  else if shaMemBusy s u then (s, Sc.busy)
  else ((demand s .crypto).onSha u fun c => { c.feed d with status := Sc.ok }, Sc.ok)

/-- SHA_LAST: the first SHA_LAST_LEN bytes, the padding, the digest. -/
def shaLast (s : State) (u : User) (d : Bytes) : State × Nat :=
  if !(shaCtx s u).open_ then (s, Sc.state)
  else if shaMemBusy s u then (s, Sc.busy)
  else
    let c := (shaCtx s u).feed (d.take (s.getU Ent.SHA_LAST_LEN u))
    (((demand s .crypto).onSha u fun _ => { open_ := false, ready := true, status := Sc.ok }).putU Ent.SHA_DIGEST u
      (leNat (sha256Finish c.h c.len c.buf)), Sc.ok)

/-- A job of the SHA-256 engine is tried into its queue of 2 (R278): the state, and whether there was room. -/
def shaPush (s : State) (j : ShaJob) : State × Bool :=
  let l := s.spindle.shaJobs
  if l.length < 2 then (notePeak ((demand s .crypto).onSpindle fun x => { x with shaJobs := l ++ [j] }) 8 (l.length + 1), true) else (noteFull s 8, false)

/-- SHA_MEM_GO (R274). -/
def shaMemGo (s : State) : State × Nat :=
  let a := s.get Ent.SHA_MEM_ADDR
  let n := s.get Ent.SHA_MEM_LEN
  if !(shaCtx s .M).open_ then (s, Sc.state)
  else if !memJobRange a n true || a % 4 != 0 then (s, Sc.range)
  else ((shaPush s (.mem a n)).1, if (shaPush s (.mem a n)).2 then Sc.ok else Sc.busy)

/-- The job that the SHA-256 engine serves next: the loader's, then the users' in turn (R278). -/
def shaNext (s : State) : Option ShaJob :=
  match s.spindle.shaJobs.find? fun j => j.by == none with
  | some j => some j
  | none => (usersAfter s.spindle.shaLast).findSome? fun u => s.spindle.shaJobs.find? fun j => j.by == some u

/-- A memory job of M's context runs (R274). -/
def shaMemJob (s : State) (a n : Nat) : State :=
  (s.onSha .M fun c => { c.feed (memRead s a n) with status := Sc.ok }).onCore fun c => { c with jobDone := true }

/-- The loader's half-block is hashed (R249); with the last of a block its digest is there to be compared. -/
def shaHalf (s : State) (a n : Nat) (last : Bool) : State :=
  let d := s.spindle.mem.scratch.getAll (a - 0x30000000) n
  s.onLoader fun l =>
    let c := (if l.hash.open_ then l.hash else { open_ := true, h := sha256Init }).feed d
    if last then { l with hash := {}, digest := some (sha256Finish c.h c.len c.buf) } else { l with hash := c }

/-! ## The loader's failures (R251) -/

/-- The loader's attempt fails: BOOT_REPORT holds the reason (R251); code SRAM is left undefined (R249), and no further work is done. -/
def loaderFail (s : State) (reason : Nat) : State :=
  let s := (s.onMem fun m => { m with code := { fill := .free s.free } }).used
  let s := s.onSpindle fun x => { x with shaJobs := x.shaJobs.filter fun j => j.by != none, bn := { x.bn with loader := false } }
  s.onLoader fun l => { l with word := wideCode 6, report := some reason }

/-! ## Zeroisation (R269, R294) -/

/-- A page is zeroised: it reads state 6 until its user derives again; a job in progress ends with STATE. -/
def zeroPage (s : State) (u : User) : State :=
  let busy := memBusy (page s u)
  (clearPage s u).onPage u fun p => { p with state := 6, status := if busy then Sc.state else 0 }

/-- A user's big-number job, queued, running or waiting in state 3, ends with STATE (log 92); its status reads state 6. -/
def zeroBn (s : State) (u : User) : State :=
  let b := s.spindle.bnUser.get u
  s.onBnUser u fun b' => { b' with
    state := 6, eph := [], ready := false, msg := [], left := 0, status := if 1 ≤ b.state ∧ b.state ≤ 3 then Sc.state else b'.status, detail := 0 }

/-- The engine falls free. -/
def bnRelease (s : State) : State := s.onBn fun b => { b with running := none, rngLeft := 0, words := [], stale := false }

/-- The running job ends without a result (R207, R294): the keeper is answered with step 0x27 and the status (R315); the loader's attempt fails, its signature
not verified (log 32). A user's job is ended by its own user's state. -/
def bnAbort (s : State) (status : Nat) : State :=
  let s' := bnRelease (rngForget s fun w => w == .bn || w == .keeperSign)
  match s.spindle.bn.running with
  | some (.keeper _) => sbQueue s' .spindle 0xE 0 [0x27, byte status]
  | some .loader => loaderFail s' 5
  | some (.user _ _ _) => s'
  | none => s'

/-- The jobs of the users end, and the one that runs (R294). -/
def zeroEngine (s : State) : State := bnAbort (s.onBn fun b => { b with users := [], waiting := [] }) Sc.state

/-- Zeroisation by a mesh, light or glitch alert (R269, R294). -/
def zeroise (s : State) : State :=
  raise ((zeroEngine (users.foldl (fun s u => zeroBn (zeroPage s u) u) s)).bump Ent.ZEROISE_COUNT) 19

end Sys2Proof.Machine
end

