-- ==== Sys2Proof/Machine/Skein.lean ====
section
/-! DEFINITION. The skein log (R307 to R321): records, the chain, checkpoints, the close, recovery at start-up. -/
namespace Sys2Proof.Machine

/-! ## What follows from LOG_NEXT -/

/-- LOG_STATE (R318 to R320). -/
def logState (s : State) : Nat :=
  let n := s.get Ent.LOG_NEXT
  if n < 3008 then 0 else if n < 3069 then 1 else if n < 3072 then 2 else 3

/-- CKPT_DUE: records appended since the last pair (R315). -/
def ckptDue (s : State) : Nat :=
  let n := s.get Ent.LOG_NEXT
  let c := s.get Ent.LAST_CKPT
  if c = 0xFFFF then n else n - (c + 3)

/-! ## Monotonic counters (R323) -/

/-- The entry is MONO_INC of one of the counters: its write is an N write (R59). -/
def isMono (e : Nat) : Bool := e / 256 == Ent.MONO_INC 0 / 256

/-- Counter 8 counts a start of the keeper; at its end it stops (R322). -/
def monoStart (s : State) : State :=
  let c := s.get (Ent.MONO 8)
  if 65535 ≤ c then s
  else
    let s := s.put (Ent.MONO 8) (c + 1)
    if c + 1 = 65535 then s.setBits Ent.MONO_FLAGS 128 else s

/-- MONO_INC (R323). -/
def monoInc (s : State) (u : User) (n : Nat) : State × Nat :=
  let c := s.get (Ent.MONO n)
  if 65535 ≤ c then (s, Sc.exhausted)
  else
    let s := (s.put (Ent.MONO n) (c + 1)).putU Ent.MONO_LAST u (c + 1)
    (if c + 1 = 65535 then s.setBits Ent.MONO_FLAGS (2 ^ (n - 1)) else s, Sc.ok)

/-! ## Records (R308, R309) -/

/-- Byte 9: pair, time not set, AON fallback. -/
def recordFlags (s : State) (pair : Bool) : Nat :=
  (if pair then 1 else 0) + (if bit (s.get Ent.TIME_FLAGS) 0 then 2 else 0) + (if bit (s.get Ent.TIME_FLAGS) 1 then 4 else 0)

/-- The link to the previous record. -/
def linkBytes (last : Option Bytes) : Bytes :=
  match last with
  | some r => (sha256 r).take 8
  | none => zeros 8

/-- The 32 bytes of a record at a slot. -/
def recordBytes (s : State) (slot : Nat) (r : LogRec) (pair : Bool) : Bytes :=
  let b := leBytes 3 slot ++ [byte r.ty] ++ leBytes 4 (now s) ++ [byte r.src, byte (recordFlags s pair)] ++ fitBytes 12 r.data ++ linkBytes s.log.last
  b ++ leBytes 2 (crc16 b)

/-- The chain head that a record produces. -/
def chainNext (s : State) (rec_ : Bytes) : Bytes := sha256 (leBytes 32 (s.get Ent.CHAIN_HEAD) ++ rec_)

/-- The digest of a checkpoint (R315). -/
def ckptMessage (slot : Nat) (chain : Bytes) : Bytes :=
  [0x53, 0x56, 0x43, 0x4B] ++ List.ofFn Config.serial ++ leBytes 4 slot ++ chain

/-- A signature may be asked for (R316). The close has a retry rule of its own (R320). -/
def mayAsk (s : State) (closing : Bool) : Bool :=
  spindleReady s && !attestRefused s &&
    (closing || match s.log.failAt with | some t => t + aonMinute ≤ s.keeper.aon | none => true)

/-- The keeper asks for a signature: the record with flag 0 set, its digest in steps 0x21 and 0x22 (R315). -/
def askSignature (s : State) (slot : Nat) (r : LogRec) : State :=
  let b := recordBytes s slot r true
  let e := sha256 (ckptMessage slot (chainNext s b))
  let s := s.onLog fun l => { l with await := some ⟨r, slot, b, e, []⟩ }
  sbQueue (sbQueue s .keeper 0xE 2 (0x21 :: e.take 16)) .keeper 0xE 2 (0x22 :: e.drop 16)

/-- A record is formed without a pair and goes to its slot. -/
def formAlone (s : State) (slot : Nat) (r : LogRec) : State :=
  s.onLog fun l => { l with await := none, writing := some ⟨r, slot, recordBytes s slot r false, none⟩ }

/-- Byte 4 of a SELFTEST record replaced (R155). -/
def stByte4 (r : LogRec) (v : Nat) : LogRec :=
  if r.ty = 0x20 then { r with data := r.data.take 4 ++ byte v :: r.data.drop 5 } else r

/-- An aborted test's record: byte 3 is 2. -/
def isAborted (r : LogRec) : Bool := r.ty == 0x20 && r.data.getD 3 0 == 2

/-- A checkpoint is due for the record (R315, R156). -/
def pairDue (s : State) (r : LogRec) : Bool := (63 ≤ ckptDue s || r.ty == 0x20) && !isAborted r

/-- Why no signature is asked for, as byte 4 of a SELFTEST record gives it (R156, log 18). -/
def noSignature (s : State) : Nat := if !spindleReady s then 1 else if attestRefused s then 2 else 3

/-- LOG_FULL (R311, R320). -/
def logFull (s : State) : LogRec := ⟨0x6F, 0x43, (List.range 5).flatMap (fun i => leBytes 2 (s.get (Ent.LOG_SUMMARY (i + 1)))) ++ [0, 0], true⟩

/-- The log is closing: LOG_FULL is formed for slot 3071 and its signature asked for (R320). -/
def askClose (s : State) : State :=
  if logState s = 2 ∧ s.log.await.isNone ∧ s.log.writing.isNone ∧ mayAsk s true then askSignature s 3071 (logFull s) else s

/-- A record is placed: with a pair where one is due and fits, else alone (R315, R316, R319). -/
def placeRecord (s : State) (r : LogRec) : State :=
  let n := s.get Ent.LOG_NEXT
  if pairDue s r ∧ n + 2 < 3069 then
    if mayAsk s false then askSignature s n r else formAlone s n (stByte4 r (noSignature s))
  else formAlone s n r

/-- A record that was due a pair stands at slot 3067 without one: PAD follows it (R319). -/
def padOwed (s : State) : Bool :=
  s.get Ent.LOG_NEXT == 3068 && (match s.log.last with
    | some b => leNat (b.take 3) == 3067 && (64 ≤ ckptDue s || ((b.getD 3 0).toNat == 0x20 && (b.getD 13 0).toNat != 2))
    | none => false)

/-- PAD (R311). -/
def padRecord : LogRec := ⟨0x60, 0x43, zeros 12, true⟩

/-- The NVM writer takes the oldest record of queue 02 (R312), PAD before it where one is owed. In the reserve a record of class Y is only counted, while closing and when full every record
(R318, R320). Nothing is appended while VDD_IN is absent, a record is being written or a signature is awaited (R314, R315). -/
def logTake (s : State) : State :=
  if !s.keeper.vddValid || s.log.writing.isSome || s.log.await.isSome then s
  else if padOwed s then formAlone s 3068 padRecord
  else
    match s.log.queue with
    | [] => s
    | r :: rest =>
      let s := s.onLog fun l => { l with queue := rest }
      if 2 ≤ logState s ∨ (logState s = 1 ∧ recClass r.ty r.data = 5) then countSummary (unlogged s r) r.ty r.data else placeRecord s r

/-- What the writing of a SELFTEST record leaves in its entries (R159). -/
def noteSelftest (s : State) (f : Formed) : State :=
  if f.what.ty ≠ 0x20 then s
  else
    let s := ((s.put Ent.ST_LAST_RESULT (leNat f.what.data)).put Ent.ST_LAST_TIME (leNat ((f.bytes.drop 4).take 4))).put Ent.ST_LAST_SEQ f.slot
    stSigned (if f.what.data.getD 4 0 = 0 then s else s.bump Ent.ST_UNSIGNED) f.what.ty

/-- Slots are written and LOG_NEXT and the chain head advance in one transaction (R312, R316, R320). -/
def commitRecord (s : State) (f : Formed) : State :=
  let c := leNat (chainNext s f.bytes)
  let at3071 := f.slot = 3071
  let s := s.onLog fun l => { l with writing := none, await := none, last := some f.bytes, slots := sparseSet [] f.slot f.bytes l.slots }
  let s := (s.put Ent.CHAIN_HEAD c).put Ent.LOG_NEXT (if at3071 then 3072 else f.slot + if f.pair.isSome then 3 else 1)
  match f.pair with
  | none => s
  | some (r, v) =>
    let k := if at3071 then 3069 else f.slot + 1
    let s := s.onLog fun l => { l with slots := sparseSet [] (k + 1) v (sparseSet [] k r l.slots) }
    raise (((s.bump Ent.CKPT_COUNT).bump Ent.ATTEST_SIGNS).put Ent.LAST_CKPT f.slot) 6

/-- A record is complete (R312), and what its slot leads to (R318). -/
def settleRecord (s : State) (f : Formed) : State :=
  let before := s.get Ent.LOG_NEXT
  let s := noteSelftest (commitRecord s f) f
  if before < 3008 ∧ 3008 ≤ s.get Ent.LOG_NEXT then raise s 7 else s

/-- The keeper has written a record; a log that starts closing asks for its last signature (R320). Nothing is appended while VDD_IN is absent (R314). -/
def logWritten (s : State) : State :=
  if !s.keeper.vddValid then s
  else
    match s.log.writing with
    | none => s
    | some f => askClose (settleRecord s f)

/-- A signature has failed (R316, R320): the record is formed again with flag 0 clear, or the close waits for its next attempt. -/
def signFailed (s : State) : State :=
  match s.log.await with
  | none => s
  | some a =>
    let s := (s.onLog fun l => { l with await := none, failAt := some s.keeper.aon }).bump Ent.CKPT_MISSED
    if a.slot = 3071 then s else formAlone s a.slot (stByte4 a.what 3)

/-- A part of the signature arrives (R315, R316): with all four the pair is written with its record. -/
def signPart (s : State) (step : Nat) (d : Bytes) : State :=
  match s.log.await with
  | none => s
  | some a =>
    if step = 0x27 then signFailed s
    else
      let parts := (a.parts.filter fun p => p.1 != step) ++ [(step, fitBytes 16 d)]
      let get (k : Nat) : Option Bytes := (parts.find? fun p => p.1 == k).map (·.2)
      match get 0x23, get 0x24, get 0x25, get 0x26 with
      | some a1, some a2, some b1, some b2 =>
        s.onLog fun l => { l with await := none, writing := some ⟨a.what, a.slot, a.bytes, some (a1 ++ a2, b1 ++ b2)⟩ }
      | _, _, _, _ => s.onLog fun l => { l with await := some { a with parts := parts } }

/-! ## What a die may produce (R310, R311) -/

def dieTypes : Die → List Nat
  | .flyer => [0x42, 0x43, 0x44, 0x49]
  | .spindle => [0x31, 0x35, 0x40, 0x41, 0x43, 0x44, 0x45, 0x46, 0x48, 0x49, 0x53, 0x54]
  | .keeper => [0x10, 0x11, 0x20, 0x30, 0x32, 0x33, 0x34, 0x40, 0x42, 0x43, 0x44, 0x47, 0x50, 0x51, 0x52, 0x54, 0x55, 0x56, 0x60, 0x6F]

/-- The keeper judges a LOG_WRITE (R19, R36, R310): the state and the status of its ACK. -/
def takeLogWrite (s : State) (m : SbMsg) : State × Nat :=
  let ty := (m.payload.getD 0 0).toNat
  let src := (m.payload.getD 1 0).toNat
  if !(dieTypes m.src).contains ty then (s.bump Ent.LOG_REJECTED, Sc.integrity)
  else if ty == 0x49 && (match s.log.linkAt with | some t => decide (s.keeper.aon < t + aonMinute) | none => false) then (s, Sc.ok)
  else if (s.log.queue.filter fun r => !r.keeper).length < 12 then
    let s := if ty = 0x49 then s.onLog fun l => { l with linkAt := some s.keeper.aon } else s
    (notePeak (s.onLog fun l => { l with queue := l.queue ++ [⟨ty, src, fitBytes 12 (m.payload.drop 2), false⟩] }) 2 (s.log.queue.length + 1), Sc.ok)
  else (noteFull s 2, Sc.busy)

/-! ## Reading and recovery -/

/-- The record at a slot. -/
def logSlot (s : State) (n : Nat) : Bytes := sparseGet [] n s.log.slots

/-- The slot at LOG_NEXT holds a record whose CRC, sequence and link are correct (R313). -/
def slotComplete (s : State) : Bool :=
  let n := s.get Ent.LOG_NEXT
  let r := logSlot s n
  r.length == 32 && leNat (r.take 3) == n && leNat (r.drop 30) == crc16 (r.take 30) && (r.drop 22).take 8 == linkBytes s.log.last

/-- The record in the slot at LOG_NEXT, with its pair. -/
def slotFormed (s : State) : Formed :=
  let n := s.get Ent.LOG_NEXT
  let b := logSlot s n
  ⟨⟨(b.getD 3 0).toNat, (b.getD 8 0).toNat, (b.drop 10).take 12, false⟩, n, b, if bit (b.getD 9 0).toNat 0 then some (logSlot s (n + 1), logSlot s (n + 2)) else none⟩

/-- Records that wait for the writer are gone with the keeper's power; the one being written or signed is, where `writing`. -/
def dropQueue (s : State) (writing : Bool) : State :=
  let l := s.log.queue ++ if writing then s.log.writing.toList.map (·.what) ++ s.log.await.toList.map (·.what) else []
  (l.foldl unlogged s).onLog fun l => { l with writing := none, await := none, queue := [] }

/-- The log as the keeper finds it at power-on reset (R313): the state, and the slots discarded. A write whose record had reached its slot
is complete; the others are not. The limits of R306 go on (log 70). -/
def recoverLog (s : State) : State × Nat :=
  let n := s.get Ent.LOG_NEXT
  if n < 3069 ∧ slotComplete s then (settleRecord (dropQueue s false) (slotFormed s), 0)
  else
    let t := dropQueue s true
    if n < 3072 ∧ logSlot s n ≠ [] then (t.bump Ent.LOG_CRC_ERR, 1) else (t, 0)

/-- VDD_IN is lost: nothing is appended from then on (R314). The record that was being written or signed waits for the writer again. -/
def haltLog (s : State) : State :=
  let l := (s.log.writing.toList.map (·.what) ++ s.log.await.toList.map (·.what)).filter fun r => r.ty != 0x60 && r.ty != 0x6F
  s.onLog fun x => { x with writing := none, await := none, queue := l ++ x.queue }

/-- The record being written when power fails: whether its slots are whole is open (R47, R313); a free truth value decides. -/
def tornWrite (s : State) : State :=
  match s.log.writing with
  | none => s
  | some f =>
    let whole := Config.freeBool s.free
    let s := s.used
    if !whole then s
    else
      let s := match f.pair with
        | some (r, v) =>
          let k := if f.slot = 3071 then 3069 else f.slot + 1
          s.onLog fun l => { l with slots := sparseSet [] (k + 1) v (sparseSet [] k r l.slots) }
        | none => s
      s.onLog fun l => { l with slots := sparseSet [] f.slot f.bytes l.slots }

/-- The slots that hold records, from slot `n` up: pair slots are skipped (R308, R320). -/
def recordSlots (s : State) : Nat → Nat → List Nat
  | 0, _ => []
  | k + 1, n =>
    if s.get Ent.LOG_NEXT ≤ n then []
    else if n = 3069 ∨ n = 3070 then recordSlots s k 3071
    else n :: recordSlots s k (n + if bit ((logSlot s n).getD 9 0).toNat 0 then 3 else 1)

/-- Records of a run of slots that fail their CRC, their sequence or their link (R308); `last` is the record before them. -/
def recordFaults (s : State) : Option Bytes → List Nat → Nat
  | _, [] => 0
  | last, n :: ns =>
    let r := logSlot s n
    let good := leNat (r.take 3) == n && leNat (r.drop 30) == crc16 (r.take 30) && (r.drop 22).take 8 == linkBytes last
    (if good then 0 else 1) + recordFaults s (some r) ns

/-- Faults found in the last 64 records (R152 step 5). -/
def chainFaults (s : State) : Nat :=
  let l := recordSlots s 3072 0
  let head := l.take (l.length - 64)
  recordFaults s (head.getLast?.map (logSlot s)) (l.drop (l.length - 64))

end Sys2Proof.Machine
end

