-- ==== Sys2Proof/Machine/Reset.lean ====
section
/-! DEFINITION. What resets do (R37 to R40, R91, R163, R176, R189, R390, R394): the spindle reset sequence, resets of the flyer, power. -/
namespace Sys2Proof.Machine

/-! ## The spindle die -/

/-- Entries that the spindle die holds: with its domains NET and HOST, and the crypto pages (R47). -/
def spindleHeld (r : EntryRow) : Bool := r.held == .spindle || r.held == .net || r.held == .host || r.held == .page

/-- An entry returned to its default. -/
def toDefault (s : State) (e : Nat) : State := s.put e (entryDefault e)

def spindleDomains : List Domain := [.core, .code, .data, .capt, .crypto, .rng, .net, .host, .plyS]
def flyerDomains : List Domain := [.opt, .heat, .gas, .horn, .ind, .plyF, .backstop]

/-- The keeper-held words of a spindle domain at a spindle reset: the rest word, the state, the counters (R176 to R178). -/
def domainDefaults (s : State) (d : Domain) : State :=
  let i := domId d
  let s := toDefault (toDefault (toDefault s (Ent.REST i)) (Ent.DOMAIN_STATE i)) (Ent.REFUSALS i)
  let s := toDefault (toDefault (toDefault (toDefault s (Ent.LAST_REFUSER i)) (Ent.ENTRIES i)) (Ent.WAKES i)) (Ent.LAST_WAKE i)
  onDom s d fun q => { q with wake := none, idleTried := false }

/-- The memories after a reset of the spindle die: SRAM undefined, crypto scratch zero (R249, R257, R268). -/
def memAfterReset (m : Mem) (n : Nat) : Mem :=
  { m with code := { fill := .free n }, data := { fill := .free (n + 1) }, capt := { fill := .free (n + 2) }, scratch := {} }

/-- A flash operation cut short leaves its range undefined (log 37). -/
def cutFlash (s : State) : State :=
  match s.spindle.flOp with
  | none => s
  | some (op, addr) =>
    let n := if op = 2 then 64 else if op = 3 then 4096 else 0
    let bytes := (List.range n).map fun i => Config.freeByte s.free (addr % 2 ^ 24 + i)
    (s.onMem fun m => { m with flash := m.flash.putAll (addr % 2 ^ 24) bytes }).used

/-- N writes in progress go on without the request that began them; the values of a batch that the spindle die would hold are gone. -/
def orphanJobs (s : State) : State :=
  let kept (e : Nat) : Bool := !((findRow e).map spindleHeld).getD false
  s.onKeeper fun k => { k with jobs := k.jobs.map fun j =>
    { j with req := { j.req with op := 0, dropped := true }, writes := j.writes.filter fun w => kept w.1, batch := false } }

/-- The spindle die's own state at its reset values. -/
def freshSpindle (s : State) : State := s.used.used.used.onSpindle fun x => { Spindle.atReset with mem := memAfterReset x.mem s.free }

/-- The spindle die is put in reset: everything it holds returns to its reset values (R38). Records of its island's log hold buffer stay (log 38). -/
def dropSpindle (s : State) : State :=
  let s := plyReset (cutFlash (endAuth s))
  let s := toDefault (spindleDomains.foldl domainDefaults (s.dropEntries spindleHeld)) Ent.LATE_WAKES
  let s := freshSpindle s
  let s := s.onPly fun p => { p with q := [], kinds := none, waiting := false }
  let s := onSbDie s .spindle fun x => { x with txq := [], acks := [], wait := [], holdSent := false, holdDue := false, rxq := [] }
  let s := wordsCheck (orphanJobs s)
  s.onKeeper fun k => { k with helloSeen := false, wdt := none, lockedUp := false, attempt := false }

/-- The cause is recorded and counted (R236). -/
def countReset (s : State) (cause : Nat) : State := (s.put Ent.RESET_CAUSE cause).bump (Ent.SPINDLE_RESETS (cause + 1))

/-- The spindle die may be released now: VDD_IN valid, the backstop live, NRST high, CORE not resting OFF (R40, R165, R394). -/
def mayRelease (s : State) : Bool :=
  s.keeper.vddValid && s.keeper.live && !s.keeper.nrstLow && s.keeper.seq == .held && domState s .core != 0 && domState s .core != 3

/-- The spindle die leaves reset: the loader runs (R237), its copy of the mode is read at the end of the reset (R227). -/
def releaseSpindle (s : State) : State :=
  let s := s.onSpindle fun x => { x with alive := true, mode := modeNow s, loader := {} }
  sendTime (s.onKeeper fun k => { k with seq := .released, attempt := true })

def releaseIfDue (s : State) : State := if mayRelease s then releaseSpindle s else s

/-- The last step of the sequence (R38, step 3): the die is reset; it is released at once unless its cause keeps it in reset. -/
def finishReset (s : State) (cause : Nat) : State :=
  let t := dropSpindle s
  if cause = 5 then
    -- CORE goes OFF, CODE and DATA to their own rest: the cause is recorded when CORE leaves OFF (R165, R236); wakes held since the entries began stay
    -- held (R172)
    let s := [Domain.core, .code, .data].foldl (fun t d => if domState s d = 3 then onDom (setDomState t d 3) d fun _ => domSeq s d else t) t
    s.onKeeper fun k => { k with seq := .held }
  else if cause = 7 ∧ 8 ≤ t.get Ent.BOOT_FAILS then (countReset t cause).onKeeper fun k => { k with seq := .heldBackoff }
  else releaseIfDue ((countReset t cause).onKeeper fun k => { k with seq := .held })

/-- The spindle reset sequence begins (R38): ALARM_FW is cleared (R139), the watchdog stopped (R234) and PEER_RESET 0 sent. A die that is already in reset stays there; with the
flyer down no answer can come, and the die is reset at once (log 39). -/
def startReset (s : State) (cause : Nat) : State :=
  if s.keeper.seq ≠ .released then s
  else
    let s := setAlarmFw (s.onKeeper fun k => { k with wdt := none }) 0
    if s.flyer.up then sbQueue (s.onKeeper fun k => { k with seq := .quiet cause }) .keeper 8 1 [0] else finishReset s cause

/-- PLY_QUIET, its time limit, or the end of every attempt to send PEER_RESET (R38, log 39). -/
def quietReached (s : State) : State :=
  match s.keeper.seq with
  | .quiet cause => finishReset s cause
  | _ => s

/-! ## The flyer -/

/-- HELLO on the sideband (R20). -/
def sendHello (s : State) (d : Die) (cause : Nat) : State := sbQueue s d 7 0 [byte (dieNum d), byte cause]

/-- The codes of HELLO's reset cause are not stated for the flyer, nor those of RESET's reason: a free byte (log 43). -/
def openCause (s : State) : Nat := Config.freeNat s.free % 256

/-- The flyer after a reset of its whole die (R36, R137, R192): nothing of its state is kept. -/
def flyerFresh : Flyer := { up := true }

/-- The flyer is reset by RESET or by the loss of VDD_IN: the burst ends (R35), its transmitter's contents are lost. -/
def dropFlyer (s : State) : State :=
  let s := (plyReset (lostHold s .flyer)).onFlyer fun _ => {}
  onSbDie s .flyer fun _ => {}

/-- The flyer is powered and says so (R39). -/
def startFlyer (s : State) (cause : Nat) : State := sendHello ((dropFlyer s).onFlyer fun _ => flyerFresh) .flyer cause

/-- The flyer is reset by RESET and comes up again (R37). A pulse or its settling is cut, and the restart of the potentiostat counts as the restore
(R119). -/
def restartFlyer (s : State) (cause : Nat) : State :=
  let x := pulseCut s.flyer.sense
  (startFlyer s cause).onSense fun y => { y with pulse := x.pulse }

/-- The flyer's domains but BACKSTOP are reset (R37): drivers and converters; the pulse is cut (R119). The scheduler, in BACKSTOP, goes on: a
measurement that waited for one that the reset ends runs now (R104). Queue 01 is emptied, its counts restart, and the next report carries the mark
(R110, R192). -/
def resetFlyerDomains (s : State) : State :=
  let s := s.onFlyer fun f => { f with
    horn := { chirps := f.horn.chirps }
    res := { f.res with mark := true }
    doms := flyDomsReset
    sense := pulseCut { f.sense with opt := none, heat := none, co := none, aux := none, reqAccepted := false } }
  auxNext (coNext (heatNext (optNext s)))

/-! ## NVM and fuses under a loss of power -/

/-- One N write, or one-time write, as the keeper's memory takes it. A CO_FITTED carries CO_ENABLE's default (R129). -/
def storeN (s : State) (u : User) (e v : Nat) : State :=
  if isDelta e then s
  else if isMono e then (monoInc s u (e % 256)).1
  else
    match findRow e with
    | some r =>
      if isCleared e then s.put e (clearBits (s.get e) v)
      else if r.cls = .f then
        let t := burn s e v
        if e = Ent.CO_FITTED ∧ !s.keeper.written.contains Ent.CO_ENABLE then t.put Ent.CO_ENABLE v else t
      else s.put e v
    | none => s

/-- The N writes of a job as the keeper's memory takes them; with the last of the backstop set its CRC (R125). -/
def storeJob (s : State) (j : NvmJob) : State :=
  let ws := j.writes.filter fun w => isMono w.1 || ((findRow w.1).map (·.cls)).getD .v != .v
  let t := writeRows (ws.foldl (fun s w => storeN s j.req.user w.1 w.2) s) ws
  if !backstopSetWritten s && backstopSetWritten t then t.put Ent.BS_SHADOW_CRC (crc16 (shadowImage t)) else t

/-- An N write cut short: the old value or the new one, never a mixture (R47, R67); a free truth value decides. -/
def cutJobs (s : State) : State :=
  let s := s.keeper.jobs.foldl (fun s j => (if Config.freeBool s.free then storeJob s j else s).used) s
  s.onKeeper fun k => { k with jobs := [] }

/-- The rows that a life-cycle change programs, in order, with their codes (R96). -/
def lcProgramRows (s : State) (target : Nat) : List (Nat × Nat) :=
  (allLc.filter fun l => lcTop s < lcRow l ∧ lcRow l ≤ target).map fun l => (lcRow l, lcCode l)

def setLcRow (s : State) (row v : Nat) : State := s.onKeeper fun k => { k with lcRows := k.lcRows.set row v }

/-- Programming cut off (R96): some rows are whole, the next holds a part of its code's one bits; both are free. -/
def cutFuses (s : State) : State :=
  match s.keeper.lcProgramming with
  | none => s
  | some (_, target) =>
    let rows := lcProgramRows s target
    let k := Config.freeNat s.free % (rows.length + 1)
    let part := Config.freeNat (s.free + 1)
    let s := s.used.used
    let s := (rows.take k).foldl (fun s r => setLcRow s r.1 r.2) s
    let s := match rows[k]? with
      | some r => setLcRow s r.1 (r.2 &&& part)
      | none => s
    s.onKeeper fun x => { x with lcProgramming := none }

/-! ## Power -/

/-- VDD_IN becomes valid (R39): the flyer is powered and says HELLO. A start of the keeper on field power is counted now (log 98). -/
def powerUp (s : State) (mv : Nat) : State :=
  if s.keeper.vddValid then s.onKeeper fun k => { k with vddMv := mv }
  else
    let s := if s.keeper.startOwed then monoStart s else s
    (startFlyer (s.onKeeper fun k => { k with vddValid := true, vddMv := mv, startOwed := false }) (openCause s)).used

/-- VDD_IN becomes absent (R390): the spindle die and the flyer are reset; writes in progress are cut; SERVICE_SECONDS will go on from its
committed value (R94). -/
def powerLost (s : State) (mv : Nat) : State :=
  if !s.keeper.vddValid then s.onKeeper fun k => { k with vddMv := mv }
  else
    let s := haltLog (cutFuses (cutJobs (tornWrite s)))
    let s := lostHold (dropFlyer (dropSpindle s)) .spindle
    let s := onSbDie s .spindle fun _ => {}
    let s := s.onSb fun b => { b with wire := none }
    (s.onKeeper fun k => { k with vddValid := false, vddMv := mv, seq := .held, live := false, lcArmed := none }).put Ent.SERVICE_SECONDS
      s.keeper.savedService

/-- The next due date of the self-test from SERVICE_SECONDS (R151). -/
def firstDue (service : Nat) : Nat := if service < 86400 then 86400 else service - (service - 86400) % 604800 + 604800

/-- Seconds of the newest log record (R189, R309). -/
def newestTime (s : State) : Nat :=
  match s.log.last with
  | some r => leNat ((r.drop 4).take 4)
  | none => 0

/-- The start-up mode by life-cycle (R91). -/
def startMode (s : State) : Mode :=
  if !lcValid s then .fault
  else
    match lcNow s with
    | .blank => .factory
    | .maker => .factory
    | .owned => .supervise
    | .field => .supervise
    | .retired => .retired

/-- The keeper's volatile state after its power-on reset; fuses, NVM and the pads' levels stay. -/
def keeperFresh (k : Keeper) (testmode : Bool) : Keeper :=
  { aon := k.aon, vddMv := k.vddMv, vddValid := k.vddValid, savedService := k.savedService, savedTime := k.savedTime, lcRows := k.lcRows,
    calRows := k.calRows, written := k.written, oem0 := k.oem0, oem1 := k.oem1, revoked0 := k.revoked0, pool := k.pool, nrstLow := k.nrstLow,
    testmode := testmode }

/-- The mode that results at start-up (R91): it is no mode change. For an invalid life-cycle word the keeper takes the steps of R80 here, MODE on the
sideband among them. -/
def startModes (s : State) : State :=
  let s := if lcValid s then s
    else (alertRecord (alertFlags s 0x40 3 0) .keeper 0x40 0x30 fun _ => [3] ++ leBytes 4 (lcWord s) ++ [0x80]).setBits Ent.FAULT_CAUSE 1
  let s := s.onKeeper fun k => { k with lcReported := !lcValid s }
  let s := if backstopSetWritten s then s else s.setBits Ent.FAULT_CAUSE 128
  let s := s.put Ent.BASE_MODE (modeCode (baseMode s))
  let m := startMode s
  let m := if m = .supervise ∨ m = .fault then (if lcValid s then baseMode s else .fault) else m
  let t := (s.put Ent.MODE (modeCode m)).put Ent.MODE_SINCE (now s)
  if lcValid s then t else sendMode t

/-- Keeper power-on reset (R37, R91, R189, R313, R395). -/
def keeperPor (s : State) (testmode : Bool) : State :=
  let moved := flyerDomains.filter fun d => s.get (Ent.REST (domId d)) != entryDefault (Ent.REST (domId d))
  let s := cutFuses (cutJobs (tornWrite s))
  let s := (dropSpindle s).dropEntries fun r => r.held == .keeper
  let s := s.onKeeper fun k => keeperFresh k (testmode && lcValid s && lcNow s == .blank)
  let s := allDomains.foldl (fun s d => onDom s d fun _ => {}) ((onSbDie s .keeper fun _ => {}).onTag fun _ => {})
  let r := recoverLog s
  let s := r.1
  let s := s.put Ent.RTC_TIME (max s.keeper.savedTime (newestTime s))
  let s := s.put Ent.SERVICE_SECONDS s.keeper.savedService
  let s := startModes (countReset (s.put Ent.ST_NEXT_DUE (firstDue s.keeper.savedService)) 0)
  let s := if s.keeper.vddValid then monoStart s else s.onKeeper fun k => { k with startOwed := true }
  let s := logKeeper s 0x56 0x43 (leBytes 4 (now s) ++ leBytes 4 (s.get Ent.SERVICE_SECONDS) ++ leBytes 2 r.2)
  if s.keeper.vddValid then
    sendHello (moved.foldl (fun s d => sendDomain s d (restState s d)) (resetFlyerDomains s)) .flyer (openCause s) |>.used
  else s

/-! ## Commands -/

def execVddInValid (mv : Nat) (s : State) : Host.Outcome State Fault Refusal := .next (powerUp s mv)

def execVddInLost (mv : Nat) (s : State) : Host.Outcome State Fault Refusal := .next (powerLost s mv)

def execKeeperPowerOnReset (testmode : Bool) (s : State) : Host.Outcome State Fault Refusal := .next (keeperPor s testmode)

/-- NRST held low (R394). -/
def execNrstAssert (s : State) : Host.Outcome State Fault Refusal :=
  .next (startReset (s.onKeeper fun k => { k with nrstLow := true }) 1)

def execNrstRelease (s : State) : Host.Outcome State Fault Refusal :=
  .next (releaseIfDue (s.onKeeper fun k => { k with nrstLow := false }))

end Sys2Proof.Machine
end

