-- ==== Sys2Proof/Machine/Arbiter.lean ====
section
/-! DEFINITION. The fabric arbiter (R197 to R206, R209): one decision for each resource in each CLK_CORE cycle, its configuration, its counts.
Resources are numbered 1 to 6 as their subindices, requesters 0 to 11. -/
namespace Sys2Proof.Machine

/-- Byte `i` of an octet value. -/
def octByte (v i : Nat) : Nat := v / 256 ^ i % 256

/-- The six resources. -/
def resources : List Nat := [1, 2, 3, 4, 5, 6]

/-- Requesters that can reach a resource (R197). -/
def arbReach (k j : Nat) : Bool := bit (entryDefault (Ent.ARB_REACH k)) j

/-- A credit counter (R203): the refill less what the window has spent. -/
def creditOf (s : State) (k j : Nat) : Nat := octByte (s.get (Ent.CREDIT_REFILL k)) j - (arbRes s k).spent.getD j 0

/-- CREDIT_NOW as an entry's value. -/
def creditNow (s : State) (k : Nat) : Nat := leNat ((List.range 12).map fun j => byte (creditOf s k j))

/-! ## Requests (R198, R199) -/

/-- Transfers of a request: on DICT those of a request that carries `n` value bytes, elsewhere `n` words (R198). -/
def transfersOf (k n : Nat) : Nat := if k = 5 then 1 + (n + 3) / 4 else n

/-- The transfers that a requester still asks for, and the resource. -/
def askOf (s : State) (j : Nat) : ArbAsk := s.spindle.asks.getD j {}

def setAsk (s : State) (j : Nat) (a : ArbAsk) : State := s.onSpindle fun x => { x with asks := x.asks.set j a }

/-- The requests of a resource as they were registered at the end of the last cycle. -/
def arbReqs (s : State) (k : Nat) : List Nat := (List.range 12).filter fun j => (askOf s j).res == k && (askOf s j).left != 0

/-- A requester begins to ask for a resource that it can reach; it asks for one at a time (R198). -/
def beginAsk (s : State) (a : Nat × Nat × Nat) : State :=
  if (askOf s a.1).left = 0 ∧ arbReach a.2.1 a.1 then setAsk s a.1 ⟨a.2.1, transfersOf a.2.1 a.2.2⟩ else s

/-- A requester that learns of the grant of a transfer asks for one less, and drops its request with the last (R199). -/
def askLess (s : State) (j : Nat) : State := setAsk s j { askOf s j with left := (askOf s j).left - 1 }

/-! ## Decisions -/

/-- The winner in SLOT mode for the slot that the next cycle holds (R202). -/
def slotWinner (s : State) (k slot : Nat) (reqs : List Nat) : Option Nat :=
  let owner := octByte (s.get (Ent.SLOT_TABLE k)) slot
  if reqs.contains owner then some owner
  else ((List.range 12).map fun i => octByte (s.get (Ent.BG_RANK k)) i).find? fun j => reqs.contains j

/-- The requester with the highest counter, a tie to the lower ID; with no credit anywhere the lowest ID (R203). `credit` gives the counters. -/
def creditWinner (credit : Nat → Nat) (reqs : List Nat) : Option Nat :=
  ((List.range 12).filter fun j => reqs.contains j).foldl (fun best j =>
    match best with
    | none => some j
    | some b => if credit b < credit j then some j else some b) none

/-- The next slot of a counter of 32. -/
def nextSlot (n : Nat) : Nat := (n + 1) % 32

/-- A new window begins: the counters are loaded (R203). -/
def windowStart (s : State) (k : Nat) : State := onArb s k fun r => { r with window := 0, spent := [] }

/-- The slot counter wraps: every pending value takes effect together, and with them a new window starts (R205). -/
def wrapApply (s : State) (k : Nat) : State :=
  let s := s.put (Ent.SLOT_NOW k) 0
  if (arbRes s k).pend = [] then s
  else
    let s := windowStart (onArb ((arbRes s k).pend.foldl (fun s w => s.put w.1 w.2) s) k fun r => { r with pend := [] }) k
    s.put Ent.ARB_PENDING (withBit (s.get Ent.ARB_PENDING) (k - 1) false)

/-- The next cycle of a resource's credit window (R203). -/
def windowTick (s : State) (k : Nat) : State :=
  if s.get (Ent.CREDIT_WINDOW k) ≤ (arbRes s k).window + 1 then windowStart s k else onArb s k fun r => { r with window := r.window + 1 }

/-- The clock of a resource moves to the next cycle: its window and its slot counter, with a wrap's effects (R202, R203, R205). -/
def arbClock (s : State) (k : Nat) : State :=
  let s := windowTick s k
  if nextSlot (s.get (Ent.SLOT_NOW k)) = 0 then wrapApply s k else s.put (Ent.SLOT_NOW k) (nextSlot (s.get (Ent.SLOT_NOW k)))

/-- The winner of the cycle that the clock of the resource has moved to, from the registered requests (R202, R203). -/
def arbWinner (s : State) (k : Nat) : Option Nat :=
  if s.get (Ent.ARB_MODE k) = 0 then slotWinner s k (s.get (Ent.SLOT_NOW k)) (arbReqs s k) else creditWinner (creditOf s k) (arbReqs s k)

/-- The holder of the last grant does not complete its transfer (R201). -/
def arbHeld (s : State) (k : Nat) (stalled : List Nat) : Bool := s.get (Ent.OWNER_NOW k) != 0x80 && stalled.contains k

/-- The requesters that the decision delays (R206). -/
def losers (s : State) (k : Nat) (stalled : List Nat) : List Nat :=
  if arbHeld s k stalled then arbReqs s k else (arbReqs s k).filter fun j => some j != arbWinner s k

/-- A requester's delay in the cycle decided now (R206). -/
def delayed (s : State) (j : Nat) : State :=
  let n := s.spindle.delayRun.getD j 0 + 1
  let s := (s.bump (Ent.DELAY_CYCLES (j + 1))).onSpindle fun x => { x with delayRun := x.delayRun.set j n }
  if s.get (Ent.DELAY_MAX (j + 1)) < n then s.put (Ent.DELAY_MAX (j + 1)) (min n 65535) else s

/-- The delays that the decisions of one cycle make; every other run of delay ends. -/
def delays (s : State) (stalled : List Nat) : State :=
  let lost := resources.flatMap fun k => losers s k stalled
  lost.foldl delayed (s.onSpindle fun x => { x with delayRun := (List.range 12).map fun j => if lost.contains j then x.delayRun.getD j 0 else 0 })

/-- A grant is charged and counted (R200, R203, R209); it is empty where its requester has withdrawn. -/
def grant (s : State) (k j : Nat) (empty : Bool) : State :=
  let s := (s.put (Ent.OWNER_NOW k) j).bump (Ent.GRANTS (j + 1))
  let s := if empty then s.bump (Ent.EMPTY_GRANTS (j + 1)) else askLess s j
  if s.get (Ent.ARB_MODE k) = 0 ∨ creditOf s k j = 0 then s
  else onArb s k fun r => { r with spent := ((List.range 12).map fun i => r.spent.getD i 0).set j (r.spent.getD j 0 + 1) }

/-- The decision of a resource (R199 to R203). -/
def arbDecide (s : State) (k : Nat) (stalled withdrawn : List Nat) : State :=
  if arbHeld s k stalled then
    (onArb s k fun r => { r with owner := some (s.get (Ent.OWNER_NOW k)), heldFor := r.heldFor + 1 }).bump (Ent.HELD_CYCLES k)
  else
    let s' := onArb s k fun r => { r with owner := none, heldFor := 0 }
    match arbWinner s k with
    | some j => grant s' k j (withdrawn.contains j)
    | none => s'.put (Ent.OWNER_NOW k) 0x80

/-- mcycle counts the cycle (R212). -/
def countCycle (s : State) : State :=
  s.onCore fun c => if c.mcountinhibit.getLsbD 0 then c else { c with mcycle := c.mcycle + 1 }

/-- The arbiter runs while CORE is ON. -/
def arbRuns (s : State) : Bool := s.spindle.alive && domState s .core == 2

/-- The result unit goes on with the STATUS results that have waited, once no transfer of PLY is held (R184, R207). -/
def drainResults (s : State) : State := if plyHolds s then s else s.spindle.stq.foldl resultUnit (s.onSpindle fun x => { x with stq := [] })

/-- One cycle (R199): every clock moves on, every resource decides from the registered requests, withdrawn requests drop and new ones begin. -/
def arbDecision (s : State) (begins : List (Nat × Nat × Nat)) (stalled withdrawn : List Nat) : State :=
  if arbRuns s then
    let s := delays (resources.foldl arbClock (countCycle s)) stalled
    let s := resources.foldl (fun s k => arbDecide s k stalled withdrawn) s
    let s := withdrawn.foldl (fun s j => setAsk s j {}) s
    drainResults (begins.foldl beginAsk s)
  else s

/-- A request or an uncompleted grant is pending on a resource (R167). -/
def arbBusy (s : State) (k : Nat) : Bool := !(arbReqs s k).isEmpty || (arbRes s k).owner.isSome

/-- CORE leaves ON: pending values are discarded (R205), and no requester asks; CORE returns to ON: the slot counters are 0 (R202). -/
def arbLeave (s : State) : State :=
  let s := s.onSpindle fun x => { x with asks := List.replicate 12 {} }
  (resources.foldl (fun s k => (onArb s k fun r => { r with pend := [], owner := none, heldFor := 0 }).put (Ent.OWNER_NOW k) 0x80) s).put Ent.ARB_PENDING 0
def arbReturn (s : State) : State := resources.foldl (fun s k => s.put (Ent.SLOT_NOW k) 0) s

/-! ## Configuration (R205) -/

/-- The value that a check sees: the pending one, else the one in force. -/
def arbSeen (s : State) (k e : Nat) : Nat :=
  match (arbRes s k).pend.find? fun p => p.1 == e with
  | some p => p.2
  | none => s.get e

/-- Sum of the refill bytes. -/
def refillSum (v : Nat) : Nat := (List.range 12).foldl (fun n j => n + octByte v j) 0

/-- A write of arbiter configuration is in range (R205). -/
def arbConfigOk (s : State) (e v : Nat) : Bool :=
  let k := e % 256
  if e = Ent.SLOT_TABLE k then (List.range 32).all fun i => octByte v i == 0xFF || (octByte v i < 12 && arbReach k (octByte v i))
  else if e = Ent.BG_RANK k then (List.range 12).all fun j => ((List.range 12).map (octByte v)).contains j
  else if e = Ent.CREDIT_REFILL k then
    ((List.range 12).all fun j => octByte v j == 0 || arbReach k j) && refillSum v ≤ arbSeen s k (Ent.CREDIT_WINDOW k)
  else if e = Ent.CREDIT_WINDOW k then refillSum (arbSeen s k (Ent.CREDIT_REFILL k)) ≤ v
  else true

/-- An accepted value is held pending; a later one replaces it (R205). -/
def arbHold (s : State) (e v : Nat) : State :=
  let k := e % 256
  (onArb s k fun r => { r with pend := (r.pend.filter fun p => p.1 != e) ++ [(e, v)] }).put Ent.ARB_PENDING
    (withBit (s.get Ent.ARB_PENDING) (k - 1) true)

/-! ## Commands -/

/-- One cycle: which requesters begin to ask for which resource and how much, which holders do not complete, which requesters withdraw. -/
def execArbDecision (begins : List (Nat × Nat × Nat)) (stalled withdrawn : List Nat) (s : State) : Host.Outcome State Fault Refusal :=
  .next (arbDecision s begins stalled withdrawn)

def execCreditWindowStart (res : Nat) (s : State) : Host.Outcome State Fault Refusal := .next (if arbRuns s then windowStart s res else s)

def execSlotWrapApply (res : Nat) (s : State) : Host.Outcome State Fault Refusal := .next (if arbRuns s then wrapApply s res else s)

end Sys2Proof.Machine
end

