-- ==== Sys2Proof/Machine/BigNum.lean ====
section
/-! DEFINITION. The big-number engine (R282 to R294, R301): the queue, the words of a job, each operation, the ends of a job. -/
namespace Sys2Proof.Machine

def bnUser (s : State) (u : User) : BnUser := s.spindle.bnUser.get u

/-- BN_STATUS (R301). -/
def bnStatus (b : BnUser) : Nat := b.state + b.status % 256 * 256 + b.detail % 256 * 65536

/-- The user has a job queued, running or waiting for its message (R286). -/
def bnBusy (s : State) (u : User) : Bool := let b := bnUser s u; (s.spindle.bn.users.any fun j => j.1 == u) || b.state == 2 || b.state == 3

/-- The key sources an operation allows (R285). -/
def bnSources (op : Nat) : List Nat :=
  match op with
  | 1 => [0, 1, 2]
  | 2 => [0, 1]
  | 4 => [1, 2]
  | 5 => [1, 2]
  | 6 => [1, 2]
  | _ => [0, 1, 2]

/-- The operation takes a private key from BN_KEY_SRC. -/
def bnKeyed (op : Nat) : Bool := op == 1 || op == 2 || op == 4 || op == 5 || op == 6

/-- BN_GO (R286). -/
def bnGo (s : State) (u : User) : State × Nat :=
  let op := s.getU Ent.BN_OP u
  let src := s.getU Ent.BN_KEY_SRC u
  let b := bnUser s u
  if bnBusy s u then (s, Sc.busy)
  else if 2 ≤ s.spindle.bn.users.length then (noteFull s 8, Sc.busy)
  else if op = 0 ∨ 9 < op ∨ !(bnSources op).contains src then (s, Sc.range)
  else if bnKeyed op && ((src == 2 && (b.eph.isEmpty || b.ephX != (op == 5 || op == 6))) || (src == 0 && attestRefused s)) then (s, Sc.state)
  else
    let s := (demand s .crypto).onBnUser u fun b => { b with state := 1, ready := false, msg := [], left := s.getU Ent.BN_MSG_LEN u }
    (notePeak (s.onBn fun e => { e with users := e.users ++ [(u, op, src)] }) 8 (s.spindle.bn.users.length + 1), Sc.ok)

/-- The words that an operation asks for (R293). -/
def bnWords (op : Nat) : Nat :=
  match op with
  | 1 => 2
  | 2 => 10
  | 4 => 2
  | 5 => 2
  | 6 => 2
  | 8 => 10
  | 9 => 10
  | _ => 0

/-- A completed job is counted, and a failed validation or signature with it (R289, R290, R302). -/
def bnCount (s : State) (status detail : Nat) : State :=
  let s := s.bump Ent.BN_JOBS
  let s := if status = Sc.integrity ∧ 1 ≤ detail ∧ detail ≤ 3 then s.bump Ent.BN_VAL_FAILS else s
  if status = Sc.integrity ∧ detail = 5 then s.bump Ent.BN_SIG_FAILS else s

/-- A job ends: its user's status, the counters, the interrupt of M (R286, R289, R290). -/
def bnFinish (s : State) (u : User) (status detail : Nat) : State :=
  let s := s.onBnUser u fun b => { b with
    state := if status = Sc.ok then 4 else 5, status := status, detail := detail, ready := false, msg := [], left := 0 }
  let s := bnCount s status detail
  if u = .M then s.onCore fun c => { c with jobDone := true } else s

/-- The user's message of op 7 is complete: its job can run again (R288). -/
def bnReady (s : State) (u : User) : Bool := (bnUser s u).state == 3 && (bnUser s u).ready

/-- The next user to be served. -/
def bnNextUser (s : State) : Option User :=
  (usersAfter s.spindle.bn.last).find? fun u => (s.spindle.bn.users.any fun j => j.1 == u) || bnReady s u

/-- An op 7 job decodes A and R and waits for its message (R288), or ends where they do not decode. -/
def bnDecode (s : State) (u : User) : State :=
  match edIn (leBytes 64 (s.getU Ent.BN_PEER u)), edIn (leBytes 64 (s.getU Ent.BN_SIG u)) with
  | some a, some r =>
    if edEq (edMul 4 8 a) edZero || edEq (edMul 4 8 r) edZero then bnFinish s u Sc.integrity 3
    else (s.onBnUser u fun b => { b with state := 3, ready := b.left == 0 }).onBn fun e => { e with waiting := e.waiting ++ [u] }
  | _, _ => bnFinish s u Sc.integrity 2

/-- A user's job starts: op 7 waits for its message, the others ask for their words (R293). -/
def bnStartUser (s : State) (u : User) : State :=
  let s := s.onBn fun e => { e with last := u }
  if bnReady s u then
    (s.onBn fun e => { e with running := some (.user u 7 0), waiting := e.waiting.filter (· != u) }).onBnUser u fun b => { b with state := 2 }
  else
    match s.spindle.bn.users.find? fun j => j.1 == u with
    | none => s
    | some (_, op, src) =>
      let s := s.onBn fun e => { e with users := e.users.filter fun j => j.1 != u }
      if op = 7 then bnDecode s u
      else
        let s := (s.onBn fun e => { e with running := some (.user u op src), rngLeft := bnWords op }).onBnUser u fun b => { b with state := 2 }
        if bnWords op = 0 then s else rngAsk s .bn (bnWords op)

/-- The engine takes the next job: the loader's, the keeper's, then the users' in turn (R287). -/
def bnStart (s : State) : State :=
  let e := s.spindle.bn
  if e.running.isSome || !cryptoOn s then s
  else if e.loader then s.onBn fun e => { e with loader := false, running := some .loader }
  else
    match e.keeper with
    | some d => rngAsk (s.onBn fun e => { e with keeper := none, running := some (.keeper d), rngLeft := 10 }) .keeperSign 10
    | none =>
      match bnNextUser s with
      | some u => bnStartUser s u
      | none => s

/-- The waiting request of the running job is withdrawn. -/
def bnForget (s : State) : State := rngForget s fun w => w == .bn || w == .keeperSign

/-- The running job's operation, 2 for the keeper's. -/
def bnRunningOp (s : State) : Nat :=
  match s.spindle.bn.running with
  | some (.user _ op _) => op
  | some (.keeper _) => 2
  | _ => 0

/-- The words have not come within 1 ms (R291, R292): blinding goes on stale, a nonce unhedged; candidates go on waiting (R293). -/
def bnRngExpiry (s : State) : State :=
  let e := s.spindle.bn
  if e.rngLeft = 0 then s
  else
    let s := if e.words.length < 2 ∧ !e.stale then s.bump Ent.BN_STALE else s
    let op := bnRunningOp s
    if op = 8 ∨ op = 9 then s.onBn fun e => { e with stale := true }
    else
      let s := if op = 2 then s.bump Ent.BN_UNHEDGED else s
      (bnForget s).onBn fun e => { e with rngLeft := 0, stale := true }

/-- k′ of a signature: its eight words, or zeros where they were not delivered (R291). -/
def bnExtra (e : Bn) : Bytes := if e.words.length = 10 then wordBytes (e.words.drop 2) else zeros 32

/-- The signature was made without fresh k′. -/
def bnUnhedged (e : Bn) : Bool := e.words.length != 10

/-- Fresh values of a secret job: ρ and Z of its scalar multiplication; a signature takes β too (R292). -/
def bnMasks (op : Nat) : Nat := if bnWords op = 0 then 0 else if op = 2 then 3 else 2

/-- The blinding generator gives `n` values: SHA-256 of its state and its counter (R292, log 94). Blinded scalars, projective coordinates and inversions
hide the secret; they cancel out of every result. -/
def bnBlind (e : Bn) (n : Nat) : Bn :=
  { e with masks := (List.range n).map fun i => sha256 (e.blind ++ leBytes 4 (e.blindN + i)), blindN := (e.blindN + n) % 2 ^ 32 }

/-- The P-256 scalar of a user's key source (R283, R284). -/
def p256Scalar (s : State) (u : User) (src : Nat) : Nat :=
  if src = 0 then attestScalar
  else if src = 1 then beNat (kdfKey (leBytes 16 (s.getU Ent.BN_LABEL u)) 1 (userId u) (lcWord s) 32) % (p256N - 1) + 1
  else beNat (bnUser s u).eph

/-- The X25519 scalar of a user's key source (R284). -/
def xScalar (s : State) (u : User) (src : Nat) : Bytes :=
  if src = 1 then kdfKey (leBytes 16 (s.getU Ent.BN_LABEL u)) 2 (userId u) (lcWord s) 32 else (bnUser s u).eph

/-- A result and OK. -/
def bnResult (s : State) (u : User) (r : Bytes) : State := bnFinish (s.putU Ent.BN_RESULT u (leNat (fitBytes 64 r))) u Sc.ok 0

/-- An ephemeral scalar is consumed, whatever the outcome (R285). -/
def bnConsume (s : State) (u : User) (src : Nat) : State := if src = 2 then s.onBnUser u fun b => { b with eph := [] } else s

/-- Op 2: the digest signed is the prefixed hash for source 0 (R285). -/
def bnSign (s : State) (u : User) (src : Nat) : State :=
  let hash := leBytes 32 (s.getU Ent.BN_HASH u)
  let e := if src = 0 then sha256 ([0x53, 0x56, 0x55, 0x41, byte (userId u)] ++ hash) else hash
  let sig := ecdsaSign (p256Scalar s u src) e (bnExtra s.spindle.bn)
  let s := if src = 0 then s.bump Ent.ATTEST_SIGNS else s
  bnFinish (s.putU Ent.BN_SIG u (leNat sig)) u Sc.ok (if bnUnhedged s.spindle.bn then 6 else 0)

/-- Op 3. -/
def bnVerify (s : State) (u : User) : State :=
  match ecdsaVerify (leBytes 64 (s.getU Ent.BN_PEER u)) (leBytes 32 (s.getU Ent.BN_HASH u)) (leBytes 64 (s.getU Ent.BN_SIG u)) with
  | none => bnFinish s u Sc.ok 0
  | some d => bnFinish s u Sc.integrity d

/-- Op 4. -/
def bnEcdh (s : State) (u : User) (src : Nat) : State :=
  let d := p256Scalar s u src
  let s := bnConsume s u src
  match p256In (leBytes 64 (s.getU Ent.BN_PEER u)) with
  | .error e => bnFinish s u Sc.integrity e
  | .ok p => bnResult s u ((p256Out (p256Mul 256 d (some p))).take 32)

/-- Op 6. -/
def bnShared (s : State) (u : User) (src : Nat) : State :=
  let k := xScalar s u src
  let s := bnConsume s u src
  let v := leNat (leBytes 32 (s.getU Ent.BN_PEER u)) % 2 ^ 255 % p25519
  if lowOrderU.contains v then bnFinish s u Sc.integrity 3
  else
    let r := x25519 k v
    if r = 0 then bnFinish s u Sc.integrity 3 else bnResult s u (leBytes 32 r)

/-- Op 7. -/
def bnEdVerify (s : State) (u : User) : State :=
  match ed25519Check (leBytes 32 (s.getU Ent.BN_PEER u)) (leBytes 64 (s.getU Ent.BN_SIG u)) (bnUser s u).msg with
  | none => bnFinish s u Sc.ok 0
  | some d => bnFinish s u Sc.integrity d

/-- The candidate: the last eight words delivered (R293). -/
def bnCandidate (e : Bn) : Bytes := wordBytes (e.words.drop (e.words.length - 8))

/-- A user's job has run: its operation's result. -/
def bnUserDone (s : State) (u : User) (op src : Nat) : State :=
  match op with
  | 1 => bnResult s u (p256Out (p256Base (p256Scalar s u src)))
  | 2 => bnSign s u src
  | 3 => bnVerify s u
  | 4 => bnEcdh s u src
  | 5 => bnResult s u (leBytes 32 (x25519 (xScalar s u src) 9))
  | 6 => bnShared s u src
  | 7 => bnEdVerify s u
  | 8 =>
    let c := bnCandidate s.spindle.bn
    bnResult (s.onBnUser u fun b => { b with eph := c, ephX := false }) u (p256Out (p256Base (beNat c)))
  | _ =>
    let c := bnCandidate s.spindle.bn
    bnResult (s.onBnUser u fun b => { b with eph := c, ephX := true }) u (leBytes 32 (x25519 c 9))

/-- A P-256 candidate of 0 or of n or above is drawn again (R285). -/
def bnRedraw (s : State) (op : Nat) : Bool :=
  op == 8 && (beNat (bnCandidate s.spindle.bn) == 0 || p256N ≤ beNat (bnCandidate s.spindle.bn))

/-- The keeper's checkpoint signature: r in steps 0x23 and 0x24, s in 0x25 and 0x26 (R315). -/
def bnKeeperDone (s : State) (digest : Bytes) : State :=
  let sig := ecdsaSign attestScalar digest (bnExtra s.spindle.bn)
  [0, 1, 2, 3].foldl (fun s i => sbQueue s .spindle 0xE 0 (byte (0x23 + i) :: (sig.drop (16 * i)).take 16)) (s.bump Ent.BN_JOBS)

/-- The job derives its key (R284): the derivation takes a word for the mask of its user's page (R275). -/
def bnDerives (op src : Nat) : Bool := bnKeyed op && src == 1

/-- The derivation of a job's key takes its word. -/
def bnReseed (s : State) (u : User) (op src : Nat) : State := if bnDerives op src then reseed s u (kdfBlocks 32) else s

/-- A user's job completes. A signature by the attestation key is refused with STATE while the debug port is open in OWNED, also where the port was opened
after BN_GO (R102, log 96). A candidate may be drawn again; a derivation waits for its word. -/
def bnUserEnd (s : State) (u : User) (op src : Nat) : State :=
  if op = 2 ∧ src = 0 ∧ attestRefused s then bnRelease (bnFinish s u Sc.state 0)
  else if bnRedraw s op then rngAsk (s.onBn fun e => { e with rngLeft := 8 }) .bn 8
  else if bnDerives op src && !maskReady s u then askMask s u
  else bnRelease ((bnUserDone (bnReseed s u op src) u op src).onBn fun e => bnBlind e (bnMasks op))

/-- The running job completes (R286); the loader's is taken by the loader itself. A job whose words are outstanding goes on. -/
def bnComplete (s : State) : State :=
  let e := s.spindle.bn
  if e.rngLeft ≠ 0 then s
  else
    match e.running with
    | some (.keeper d) =>
      if attestRefused s then bnAbort s Sc.state else bnRelease ((bnKeeperDone s d).onBn fun e => bnBlind e (bnMasks 2))
    | some (.user u op src) => bnUserEnd s u op src
    | _ => s

/-- The candidates have not come within 10 ms (R293). -/
def bnCandidateTimeout (s : State) : State :=
  match s.spindle.bn.running with
  | some (.user u op _) =>
    if (op = 8 ∨ op = 9) ∧ s.spindle.bn.rngLeft ≠ 0 then bnRelease (bnFinish (bnForget s) u Sc.timeout 7) else s
  | _ => s

/-- Message bytes reach a waiting op 7 job (R288). -/
def bnFeed (s : State) (u : User) (d : Bytes) : State :=
  s.onBnUser u fun b => { b with msg := b.msg ++ d.take b.left, left := b.left - d.length, ready := b.left ≤ d.length }

/-- BN_MSG. -/
def bnMsg (s : State) (u : User) (d : Bytes) : State × Nat :=
  if (bnUser s u).state ≠ 3 ∨ (bnUser s u).ready then (s, Sc.state) else (bnFeed s u d, Sc.ok)

/-- BN_MEM_GO: the message from crypto scratch (R288). -/
def bnMemGo (s : State) : State × Nat :=
  let a := s.get Ent.BN_MEM_ADDR
  let n := s.get Ent.BN_MEM_LEN
  if (bnUser s .M).state ≠ 3 then (s, Sc.state)
  else if a % 4 ≠ 0 ∨ (bnUser s .M).left < n ∨ !(0x30000000 ≤ a && a + n ≤ 0x30002000) then (s, Sc.range)
  else (bnFeed s .M (s.spindle.mem.scratch.getAll (a - 0x30000000) n), Sc.ok)

/-- A job has waited in state 3 for more than 1 s (R288). -/
def bnMsgTimeout (s : State) (u : User) : State :=
  if (bnUser s u).state = 3 ∧ !(bnUser s u).ready then
    (bnFinish s u Sc.timeout 0).onBn fun e => { e with waiting := e.waiting.filter (· != u) }
  else s

/-- BN_CLEAR (R294): the ephemeral slot is cleared, the user's own queued job ends, state 6 is left. -/
def bnClear (s : State) (u : User) : State × Nat :=
  let b := bnUser s u
  let s := s.onBnUser u fun b => { b with eph := [] }
  let s := if s.spindle.bn.users.any fun j => j.1 == u then
      (s.onBn fun e => { e with users := e.users.filter fun j => j.1 != u }).onBnUser u fun b => { b with state := 0 }
    else if b.state = 6 then s.onBnUser u fun b => { b with state := 0 } else s
  (s, Sc.ok)

/-- A half of a checkpoint digest arrives (R315): with both, the job takes the keeper's reserved entry (R287). -/
def bnDigest (s : State) (step : Nat) (half : Bytes) : State :=
  let parts := (s.spindle.bn.sign.filter fun p => p.1 != step) ++ [(step, half)]
  let get (k : Nat) : Option Bytes := (parts.find? fun p => p.1 == k).map (·.2)
  match get 0x21, get 0x22 with
  | some a, some b => (demand s .crypto).onBn fun e => { e with sign := [], keeper := some (fitBytes 16 a ++ fitBytes 16 b) }
  | _, _ => s.onBn fun e => { e with sign := parts }

/-- CRYPTO is idle: no job is queued or running (R164). -/
def cryptoIdle (s : State) : Bool :=
  let e := s.spindle.bn
  users.all (fun u => (page s u).jobs.isEmpty) && s.spindle.shaJobs.isEmpty && !e.loader && e.keeper.isNone && e.users.isEmpty && e.running.isNone &&
    e.waiting.isEmpty

end Sys2Proof.Machine
end

