-- ==== Sys2Proof/Machine/Claims.lean ====
section
/-! DEFINITION. Claims (R69, R70) and the reset of a host port (R363). -/
namespace Sys2Proof.Machine

/-- The groups of R69. -/
def claimGroups : List Nat :=
  [0x10, 0x11, 0x12, 0x13, 0x14, 0x15, 0x20, 0x21, 0x22, 0x23, 0x24, 0x25, 0x26, 0x30, 0x31, 0x32, 0x40, 0x41, 0x50, 0x51, 0x52, 0x53, 0x60, 0x61]

/-- The ID8 that holds a claim, 0x80 for nobody. -/
def claimHolder (s : State) (g : Nat) : Nat := s.get (Ent.CLAIM g) % 256

/-- A claim is released: the CLAIM notice. -/
def claimFree (s : State) (g : Nat) : State := raise (s.put (Ent.CLAIM g) 0x80) 12

/-- CLAIM written (R70): the state and the status. A take and a release raise the notice, a renewal does not. -/
def claimWrite (s : State) (u : User) (g v : Nat) : State × Nat :=
  let h := claimHolder s g
  if 3600 < v then (s, Sc.range)
  else if v = 0 then
    if h = 0x80 then (s, Sc.ok) else if h = userId u ∨ u = .M then (claimFree s g, Sc.ok) else (s, Sc.state)
  else if h = 0x80 then (raise (s.put (Ent.CLAIM g) (userId u + 256 * v)) 12, Sc.ok)
  else if h = userId u then (s.put (Ent.CLAIM g) (userId u + 256 * v), Sc.ok)
  else (s, Sc.state)

/-- Every claim of a user is released. -/
def releaseClaims (s : State) (u : User) : State :=
  claimGroups.foldl (fun s g => if claimHolder s g = userId u then claimFree s g else s) s

/-- Requests of a user that wait for the keeper or for a crypto engine, and match, answer nobody any more. -/
def dropWaiting (s : State) (u : User) (p : Request → Bool) : State :=
  let f (q : Request) : Request := if p q then { q with dropped := true } else q
  let s := s.onKeeper fun k => { k with jobs := k.jobs.map fun j => { j with req := f j.req } }
  let s := s.onPage u fun x => { x with jobs := x.jobs.map fun j => match j with
    | .mem a b n => .mem a b n
    | .req q => .req (f q) }
  s.onSpindle fun x => { x with shaJobs := x.shaJobs.map fun j => match j with
    | .half a n l => .half a n l
    | .mem a n => .mem a n
    | .req q => .req (f q) }

/-- The responses to a user's requests that are queued or being served will be discarded (R363); their claimed places are free. -/
def dropRequests (s : State) (u : User) : State :=
  let s := s.onDict fun d => { d with
    reqs := d.reqs.set u ((d.reqs.get u).map fun r => { r with dropped := true }), resps := d.resps.set u (dropClaims (d.resps.get u)) }
  dropWaiting s u fun q => q.user == u

/-- A user's staging area is emptied (R68). -/
def dropStaged (s : State) (u : User) : State := s.onDict fun d => { d with staged := d.staged.set u [] }

/-- A host port is reset (R363): its slots, its user's staging area, claims and page. -/
def portReset (s : State) (p : Port) : State :=
  let u := portUser p
  let s := clearPage (releaseClaims (dropStaged (dropRequests s u) u) u) u
  (s.onPort p fun h => { h with chosen := 0, part := false, frames := [], answer := none, kept := none }).bump (Ent.HP_RESETS (portNum p))

/-- Pages that held a key are lost with CRYPTO (R268). -/
def countPageLosses (s : State) : State :=
  users.foldl (fun s u => if (page s u).key = [] then s else s.bump (Ent.PAGE_LOSSES (userNum u + 1))) s

end Sys2Proof.Machine
end

