-- ==== Sys2Proof/Machine/Rv32.lean ====
section
/-! DEFINITION. The encodings of RV32IMC with Zicsr and Zifencei, and the computations of its instructions on registers (R210, R211). -/
namespace Sys2Proof

/-- The instructions. Immediates are sign-extended; a compressed instruction stands as the instruction it abbreviates. -/
inductive Rv where
  | lui (rd : Nat) (imm : Word)
  | auipc (rd : Nat) (imm : Word)
  | jal (rd : Nat) (off : Word)
  | jalr (rd rs1 : Nat) (off : Word)
  | branch (f3 rs1 rs2 : Nat) (off : Word)
  | load (f3 rd rs1 : Nat) (off : Word)
  | store (f3 rs1 rs2 : Nat) (off : Word)
  | opImm (f3 rd rs1 : Nat) (imm : Word)
  | shiftImm (f3 rd rs1 shamt : Nat) (arith : Bool)
  | op (f3 rd rs1 rs2 : Nat) (alt : Bool)
  | muldiv (f3 rd rs1 rs2 : Nat)
  | fence
  | fenceI
  | ecall
  | ebreak
  | mret
  | wfi
  | csr (f3 rd rs1 addr : Nat)
  deriving DecidableEq, Repr

/-- The low `w` bits of `n`, sign-extended to 32 bits. -/
def sextWord (w n : Nat) : Word := BitVec.ofInt 32 (toSigned w n)

/-- A 32-bit instruction; none where it is illegal. -/
def decode32 (w : Nat) : Option Rv :=
  let opc := bits w 6 0
  let rd := bits w 11 7
  let f3 := bits w 14 12
  let rs1 := bits w 19 15
  let rs2 := bits w 24 20
  let f7 := bits w 31 25
  let iImm := sextWord 12 (bits w 31 20)
  if opc = 0x37 then some (.lui rd (BitVec.ofNat 32 (bits w 31 12 * 4096)))
  else if opc = 0x17 then some (.auipc rd (BitVec.ofNat 32 (bits w 31 12 * 4096)))
  else if opc = 0x6F then
    some (.jal rd (sextWord 21 (bits w 31 31 * 2 ^ 20 + bits w 19 12 * 2 ^ 12 + bits w 20 20 * 2 ^ 11 + bits w 30 21 * 2)))
  else if opc = 0x67 then if f3 = 0 then some (.jalr rd rs1 iImm) else none
  else if opc = 0x63 then
    if f3 = 2 ∨ f3 = 3 then none
    else some (.branch f3 rs1 rs2 (sextWord 13 (bits w 31 31 * 2 ^ 12 + bits w 7 7 * 2 ^ 11 + bits w 30 25 * 32 + bits w 11 8 * 2)))
  else if opc = 0x03 then if f3 = 3 ∨ 6 ≤ f3 then none else some (.load f3 rd rs1 iImm)
  else if opc = 0x23 then if 3 ≤ f3 then none else some (.store f3 rs1 rs2 (sextWord 12 (f7 * 32 + rd)))
  else if opc = 0x13 then
    if f3 = 1 then if f7 = 0 then some (.shiftImm 1 rd rs1 rs2 false) else none
    else if f3 = 5 then if f7 = 0 then some (.shiftImm 5 rd rs1 rs2 false) else if f7 = 0x20 then some (.shiftImm 5 rd rs1 rs2 true) else none
    else some (.opImm f3 rd rs1 iImm)
  else if opc = 0x33 then
    if f7 = 0 then some (.op f3 rd rs1 rs2 false)
    else if f7 = 1 then some (.muldiv f3 rd rs1 rs2)
    else if f7 = 0x20 ∧ (f3 = 0 ∨ f3 = 5) then some (.op f3 rd rs1 rs2 true) else none
  else if opc = 0x0F then if f3 = 0 then some .fence else if f3 = 1 then some .fenceI else none
  else if opc = 0x73 then
    if f3 = 0 then
      if w = 0x00000073 then some .ecall else if w = 0x00100073 then some .ebreak else if w = 0x30200073 then some .mret
      else if w = 0x10500073 then some .wfi else none
    else if f3 = 4 then none else some (.csr f3 rd rs1 (bits w 31 20))
  else none

/-- A register of the short fields: x8 to x15. -/
def shortReg (n : Nat) : Nat := n + 8

/-- Quadrant 0. -/
def decodeC0 (h : Nat) : Option Rv :=
  let f3 := bits h 15 13
  let rd := shortReg (bits h 4 2)
  let rs := shortReg (bits h 9 7)
  let off := BitVec.ofNat 32 (bits h 5 5 * 64 + bits h 12 10 * 8 + bits h 6 6 * 4)
  if f3 = 0 then
    let imm := bits h 10 7 * 64 + bits h 12 11 * 16 + bits h 5 5 * 8 + bits h 6 6 * 4
    if imm = 0 then none else some (.opImm 0 rd 2 (BitVec.ofNat 32 imm))
  else if f3 = 2 then some (.load 2 rd rs off)
  else if f3 = 6 then some (.store 2 rs rd off)
  else none

/-- The offset of C.J and C.JAL. -/
def cjOff (h : Nat) : Word :=
  sextWord 12 (bits h 12 12 * 2 ^ 11 + bits h 8 8 * 2 ^ 10 + bits h 10 9 * 2 ^ 8 + bits h 6 6 * 2 ^ 7 + bits h 7 7 * 2 ^ 6 + bits h 2 2 * 2 ^ 5
    + bits h 11 11 * 2 ^ 4 + bits h 5 3 * 2)

/-- The offset of C.BEQZ and C.BNEZ. -/
def cbOff (h : Nat) : Word :=
  sextWord 9 (bits h 12 12 * 2 ^ 8 + bits h 6 5 * 2 ^ 6 + bits h 2 2 * 2 ^ 5 + bits h 11 10 * 2 ^ 3 + bits h 4 3 * 2)

/-- Quadrant 1. -/
def decodeC1 (h : Nat) : Option Rv :=
  let f3 := bits h 15 13
  let rd := bits h 11 7
  let imm6 := bits h 12 12 * 32 + bits h 6 2
  let imm := sextWord 6 imm6
  let r := shortReg (bits h 9 7)
  let r2 := shortReg (bits h 4 2)
  if f3 = 0 then some (.opImm 0 rd rd imm)
  else if f3 = 1 then some (.jal 1 (cjOff h))
  else if f3 = 2 then some (.opImm 0 rd 0 imm)
  else if f3 = 3 then
    if rd = 2 then
      let n := bits h 12 12 * 2 ^ 9 + bits h 4 3 * 2 ^ 7 + bits h 5 5 * 2 ^ 6 + bits h 2 2 * 2 ^ 5 + bits h 6 6 * 2 ^ 4
      if n = 0 then none else some (.opImm 0 2 2 (sextWord 10 n))
    else if imm6 = 0 then none else some (.lui rd (sextWord 18 (imm6 * 4096)))
  else if f3 = 4 then
    let f2 := bits h 11 10
    if f2 = 0 then if bits h 12 12 = 1 then none else some (.shiftImm 5 r r (bits h 6 2) false)
    else if f2 = 1 then if bits h 12 12 = 1 then none else some (.shiftImm 5 r r (bits h 6 2) true)
    else if f2 = 2 then some (.opImm 7 r r imm)
    else if bits h 12 12 = 1 then none
    else
      let k := bits h 6 5
      if k = 0 then some (.op 0 r r r2 true) else if k = 1 then some (.op 4 r r r2 false)
      else if k = 2 then some (.op 6 r r r2 false) else some (.op 7 r r r2 false)
  else if f3 = 5 then some (.jal 0 (cjOff h))
  else if f3 = 6 then some (.branch 0 r 0 (cbOff h))
  else some (.branch 1 r 0 (cbOff h))

/-- Quadrant 2. -/
def decodeC2 (h : Nat) : Option Rv :=
  let f3 := bits h 15 13
  let rd := bits h 11 7
  let rs2 := bits h 6 2
  let b12 := bits h 12 12
  if f3 = 0 then if b12 = 1 then none else some (.shiftImm 1 rd rd rs2 false)
  else if f3 = 2 then
    if rd = 0 then none else some (.load 2 rd 2 (BitVec.ofNat 32 (bits h 3 2 * 64 + b12 * 32 + bits h 6 4 * 4)))
  else if f3 = 4 then
    if b12 = 0 then
      if rs2 = 0 then if rd = 0 then none else some (.jalr 0 rd 0) else some (.op 0 rd 0 rs2 false)
    else if rs2 = 0 then if rd = 0 then some .ebreak else some (.jalr 1 rd 0)
    else some (.op 0 rd rd rs2 false)
  else if f3 = 6 then some (.store 2 2 rs2 (BitVec.ofNat 32 (bits h 8 7 * 64 + bits h 12 9 * 4)))
  else none

/-- A 16-bit instruction; none where it is illegal. -/
def decode16 (h : Nat) : Option Rv :=
  if h % 4 = 0 then decodeC0 h else if h % 4 = 1 then decodeC1 h else decodeC2 h

/-! ## Computations -/

/-- OP and OP-IMM by funct3; `alt` is SUB. -/
def aluOp (f3 : Nat) (alt : Bool) (a b : Word) : Word :=
  match f3 with
  | 0 => if alt then a - b else a + b
  | 1 => a <<< (b.toNat % 32)
  | 2 => if a.slt b then 1 else 0
  | 3 => if a.ult b then 1 else 0
  | 4 => a ^^^ b
  | 5 => if alt then a.sshiftRight (b.toNat % 32) else a >>> (b.toNat % 32)
  | 6 => a ||| b
  | _ => a &&& b

/-- The M extension by funct3. -/
def mulDivOp (f3 : Nat) (a b : Word) : Word :=
  match f3 with
  | 0 => a * b
  | 1 => BitVec.ofInt 32 (a.toInt * b.toInt / 2 ^ 32)
  | 2 => BitVec.ofInt 32 (a.toInt * (b.toNat : Int) / 2 ^ 32)
  | 3 => BitVec.ofNat 32 (a.toNat * b.toNat / 2 ^ 32)
  | 4 => if b = 0 then -1 else BitVec.ofInt 32 (Int.tdiv a.toInt b.toInt)
  | 5 => if b = 0 then -1 else BitVec.ofNat 32 (a.toNat / b.toNat)
  | 6 => if b = 0 then a else BitVec.ofInt 32 (Int.tmod a.toInt b.toInt)
  | _ => if b = 0 then a else BitVec.ofNat 32 (a.toNat % b.toNat)

/-- The condition of a branch by funct3. -/
def branchTaken (f3 : Nat) (a b : Word) : Bool :=
  match f3 with
  | 0 => a == b
  | 1 => a != b
  | 4 => a.slt b
  | 5 => !a.slt b
  | 6 => a.ult b
  | _ => !a.ult b

/-- The bytes of a load or store by funct3. -/
def accessSize (f3 : Nat) : Nat := 2 ^ (f3 % 4)

/-- A loaded value extended by funct3. -/
def loadExtend (f3 n : Nat) : Word :=
  match f3 with
  | 0 => sextWord 8 n
  | 1 => sextWord 16 n
  | _ => BitVec.ofNat 32 n

end Sys2Proof
end

