-- ==== Sys2Proof/Machine/Hart.lean ====
section
/-! DEFINITION. The core's registers, CSRs, MPU, traps and interrupts (R210 to R236), up to what its instructions do. -/
namespace Sys2Proof.Machine

/-! ## General registers -/

/-- x0 reads zero. -/
def Core.x (c : Core) (r : Nat) : Word := if r = 0 then 0 else c.gpr.getD (r - 1) 0

/-- A write of x0 is discarded. -/
def Core.setX (c : Core) (r : Nat) (v : Word) : Core := if r = 0 then c else { c with gpr := c.gpr.set (r - 1) v }

/-! ## Fields of mstatus (R211) -/

def Core.mie_ (c : Core) : Bool := c.mstatus.getLsbD 3
def Core.mpie (c : Core) : Bool := c.mstatus.getLsbD 7
/-- MPP holds U. -/
def Core.mppUser (c : Core) : Bool := !c.mstatus.getLsbD 11
def Core.mprv (c : Core) : Bool := c.mstatus.getLsbD 17

/-- mstatus from its four fields; TW reads 1 (R211). -/
def mkStatus (mie mpie mppUser mprv : Bool) : Word :=
  BitVec.ofNat 32 ((if mie then 8 else 0) + (if mpie then 128 else 0) + (if mppUser then 0 else 6144) + (if mprv then 131072 else 0) + 2097152)

/-- A write of mstatus: an MPP of 1 or 2 leaves MPP unchanged (R211). -/
def Core.writeStatus (c : Core) (v : Word) : Core :=
  let mpp := bits v.toNat 12 11
  { c with mstatus := mkStatus (v.getLsbD 3) (v.getLsbD 7) (if mpp = 0 then true else if mpp = 3 then false else c.mppUser) (v.getLsbD 17) }

/-! ## Interrupts (R220) -/

/-- mip bit 7: the AON timer. -/
def aonTimerPending (c : Core) : Bool := decide ((c.aontime - c.aoncmp).toNat < 2 ^ 31)

/-- mip bit 16: the dictionary notice of M, or of U while SVCTL bit 1 is set (R72, R220). -/
def noticePending (s : State) : Bool :=
  signalled s .M != 0 || (s.spindle.core.svctl.getLsbD 1 && signalled s .U != 0)

/-- mip bit 18: the RNG FIFO holds RNG_IRQ_LEVEL words (R299). -/
def rngPending (s : State) : Bool := s.get Ent.RNG_IRQ_LEVEL ≤ s.spindle.rng.fifo.length

/-- mip (R220). -/
def mip (s : State) : Nat :=
  (if aonTimerPending s.spindle.core then 2 ^ 7 else 0) + (if noticePending s then 2 ^ 16 else 0) + (if s.spindle.core.jobDone then 2 ^ 17 else 0)
    + (if rngPending s then 2 ^ 18 else 0)

/-- The interrupt causes pending and enabled in mie. -/
def enabledIrqs (s : State) : Nat := mip s &&& s.spindle.core.mie.toNat

/-- The interrupt that would be taken now, highest cause first (R220). -/
def takeableIrq (s : State) : Option Nat :=
  let e := enabledIrqs s
  if s.spindle.core.user || s.spindle.core.mie_ then
    if bit e 18 then some 18 else if bit e 17 then some 17 else if bit e 16 then some 16 else if bit e 7 then some 7 else none
  else none

/-! ## Traps (R219 to R225) -/

/-- The core has locked up (R225): pad, LOCKUP message with what the second trap would have written. -/
def lockUp (s : State) (cause epc : Word) : State :=
  sbQueue ((s.onSpindle fun x => { x with lockedUp := true, lockupPad := true, lockCause := cause, lockEpc := epc }).put Ent.CORE_STATE 5)
    .spindle 0 0 (leBytes 4 cause.toNat ++ leBytes 4 epc.toNat)

/-- The handler's address (R222). -/
def trapVector (c : Core) (cause : Nat) (irq : Bool) : Word :=
  let base := c.mtvec &&& 0xFFFFFFC0
  if irq ∧ c.mtvec.getLsbD 0 then base + BitVec.ofNat 32 (4 * cause) else base

/-- What trap entry writes (R222, R224); the prefetch queue restarts at the handler. -/
def Core.enterTrap (c : Core) (cause : Nat) (irq : Bool) (tval : Word) : Core :=
  { c with
    mepc := c.pc &&& 0xFFFFFFFE
    mcause := if irq then BitVec.ofNat 32 (2 ^ 31 + cause) else BitVec.ofNat 32 cause
    mtval := tval
    mstatus := mkStatus false c.mie_ c.user c.mprv
    user := false
    pc := trapVector c cause irq
    inEntry := true
    queue := [] }

/-- An exception (R219, R223, R224), counted and recorded as every one is: a second trap while the in-entry flag is set locks the core up. -/
def raiseTrap (s : State) (cause : Nat) (tval : Word) : State :=
  let c := s.spindle.core
  let s := (s.bump (Ent.TRAPS (cause + 1))).put Ent.LAST_TRAP
    (leNat (leBytes 4 cause ++ leBytes 4 (c.pc &&& 0xFFFFFFFE).toNat ++ leBytes 4 tval.toNat ++ leBytes 4 c.faultinfo.toNat))
  if c.inEntry then lockUp s (BitVec.ofNat 32 cause) c.pc else s.onCore fun c => c.enterTrap cause false tval

/-- An access fault writes FAULTINFO (R223) and raises its cause; in lockup the core holds its registers (R225). MPU faults are counted (R233). -/
def accessFault (s : State) (cause : Nat) (addr : Word) (kind status regions : Nat) : State :=
  let s := if kind = 3 ∨ kind = 4 ∨ kind = 5 then s.bump Ent.MPU_FAULTS else s
  let s := if s.spindle.core.inEntry then s
    else s.onCore fun c => { c with faultinfo := BitVec.ofNat 32 (status + kind * 256 + regions * 65536) }
  raiseTrap s cause addr

/-- Subindex of INTERRUPTS for a cause (R236). -/
def irqIndex (cause : Nat) : Nat := if cause = 7 then 1 else if cause = 16 then 2 else if cause = 17 then 3 else 4

/-- An interrupt is taken (R220, R222). -/
def takeIrq (s : State) (cause : Nat) : State :=
  (s.bump (Ent.INTERRUPTS (irqIndex cause))).onCore fun c => { c.enterTrap cause true 0 with waiting := false }

/-! ## The MPU (R231 to R233) -/

/-- A region matches an address through an enabled sub-region (R232). -/
def mpuMatch (base attr addr : Word) : Bool :=
  let sz := bits base.toNat 5 0
  attr.getLsbD 24 && addr.toNat / 2 ^ sz == (base.toNat / 256 * 256) / 2 ^ sz && attr.getLsbD (8 + addr.toNat / 2 ^ (sz - 3) % 8)

/-- Bitmap of the regions that match (R223). -/
def mpuMatches (c : Core) (addr : Word) : Nat :=
  (List.range 8).foldl (fun n i => if mpuMatch (c.mpuBase.getD i 0) (c.mpuAttr.getD i 0) addr then n + 2 ^ i else n) 0

/-- Kinds of access: 0 read, 1 write, 2 execute. The fault kind of R223, or none where the MPU allows it (R233). -/
def mpuCheck (c : Core) (user : Bool) (acc : Nat) (addr : Word) : Option Nat :=
  let m := mpuMatches c addr
  if m = 0 then if user then some 4 else none
  else
    match (List.range 8).filter (bit m) with
    | [i] => if (c.mpuAttr.getD i 0).getLsbD (acc + if user then 4 else 0) then none else some 3
    | _ => some 5

/-- The stored form of MPU_BASE: SZLOG limited to 8 to 32 (R231). -/
def mpuBaseValue (v : Word) : Word :=
  BitVec.ofNat 32 (v.toNat / 256 * 256 + min (max (bits v.toNat 5 0) 8) 32)

/-- The stored form of MPU_ATTR (R231). -/
def mpuAttrValue (v : Word) : Word := v &&& 0x8100FF77

/-- MPU_STATUS (R230). -/
def mpuStatus (c : Core) : Nat :=
  (List.range 8).foldl (fun n i => n + (if (c.mpuAttr.getD i 0).getLsbD 24 then 2 ^ i else 0) + (if (c.mpuAttr.getD i 0).getLsbD 31 then 2 ^ (8 + i) else 0)) 0

/-! ## CSRs (R211, R230) -/

/-- A CSR that R211 and R230 call read-only as a whole: a write of it is an illegal instruction (log 21). -/
def csrReadOnly (a : Nat) : Bool :=
  a / 1024 % 4 == 3 || a == 0x301 || a == 0x30A || a == 0x31A || (0x323 ≤ a && a ≤ 0x33F) || (0xB03 ≤ a && a ≤ 0xB1F) || (0xB83 ≤ a && a ≤ 0xB9F) ||
  a == 0x7C1 || a == 0x7C2 || a == 0x7C4 || a == 0x7D8

/-- A user counter is readable in U (R211): cycle, time, instret and their high halves by mcounteren; every other one never. -/
def userCounterOk (c : Core) (a : Nat) : Bool := a % 32 < 3 && c.mcounteren.getLsbD (a % 32)

/-- The value of a CSR; none where the core has none (R211, R230). `dbg` in debug mode. -/
def csrRead (s : State) (a : Nat) (dbg : Bool) : Option Word :=
  let c := s.spindle.core
  let n (k : Nat) : Option Word := some (BitVec.ofNat 32 k)
  if a = 0x300 then some c.mstatus
  else if a = 0x301 then n 0x40101104
  else if a = 0x304 then some c.mie
  else if a = 0x305 then some c.mtvec
  else if a = 0x306 then some c.mcounteren
  else if a = 0x30A ∨ a = 0x31A ∨ a = 0x310 then n 0
  else if a = 0x320 then some c.mcountinhibit
  else if 0x323 ≤ a ∧ a ≤ 0x33F then n 0
  else if a = 0x340 then some c.mscratch
  else if a = 0x341 then some c.mepc
  else if a = 0x342 then some c.mcause
  else if a = 0x343 then some c.mtval
  else if a = 0x344 then n (mip s)
  else if 0x3A0 ≤ a ∧ a ≤ 0x3EF then n 0
  else if a = 0x7A0 then some c.tselect
  else if a = 0x7A1 then some (c.tdata1.getD c.tselect.toNat 0)
  else if a = 0x7A2 then some (c.tdata2.getD c.tselect.toNat 0)
  else if a = 0x7B0 then if dbg then some c.dcsr else none
  else if a = 0x7B1 then if dbg then some c.dpc else none
  else if a = 0x7B2 then if dbg then some c.dscratch0 else none
  else if a = 0x7B3 then if dbg then some c.dscratch1 else none
  else if a = 0x7C0 then some c.svctl
  else if a = 0x7C1 then n (s.get Ent.RESET_CAUSE % 8 + (if c.debugOpen then 8 else 0) + (if c.lockByMode then 16 else 0))
  else if a = 0x7C2 then some c.faultinfo
  else if a = 0x7C4 then some c.aontime
  else if a = 0x7C5 then some c.aoncmp
  else if 0x7C8 ≤ a ∧ a ≤ 0x7CF then some (c.mpuBase.getD (a - 0x7C8) 0)
  else if 0x7D0 ≤ a ∧ a ≤ 0x7D7 then some (c.mpuAttr.getD (a - 0x7D0) 0)
  else if a = 0x7D8 then n (mpuStatus c)
  else if 0x7C0 ≤ a ∧ a ≤ 0x7D8 then n 0
  else if a = 0xB00 ∨ a = 0xC00 then n (c.mcycle.toNat % 2 ^ 32)
  else if a = 0xB80 ∨ a = 0xC80 then n (c.mcycle.toNat / 2 ^ 32)
  else if a = 0xB02 ∨ a = 0xC02 then n (c.minstret.toNat % 2 ^ 32)
  else if a = 0xB82 ∨ a = 0xC82 then n (c.minstret.toNat / 2 ^ 32)
  else if a = 0xC01 then some c.aontime
  else if a = 0xC81 then n 0
  else if (0xB03 ≤ a ∧ a ≤ 0xB1F) ∨ (0xB83 ≤ a ∧ a ≤ 0xB9F) ∨ (0xC03 ≤ a ∧ a ≤ 0xC1F) ∨ (0xC83 ≤ a ∧ a ≤ 0xC9F) then n 0
  else if a = 0xF11 ∨ a = 0xF12 ∨ a = 0xF14 ∨ a = 0xF15 then n 0
  else if a = 0xF13 then n 0x4420
  else none

/-- The access is allowed (R211): it exists, the privilege suffices, a write is not of a read-only CSR. -/
def csrAllowed (s : State) (a : Nat) (write user dbg : Bool) : Bool :=
  (csrRead s a dbg).isSome && !(write && csrReadOnly a) &&
    (!user || (a / 256 % 4 == 0 && (a / 256 != 0xC || userCounterOk s.spindle.core a)))

/-- A trigger's tdata1: type mcontrol, action 0 or 1, exact match (R235, log 22). dmode, and action 1, only from debug mode. -/
def tdata1Value (v : Word) (dbg : Bool) : Word :=
  BitVec.ofNat 32 (2 * 2 ^ 28 + (if dbg ∧ v.getLsbD 27 then 2 ^ 27 + (if v.getLsbD 12 then 4096 else 0) else 0) + v.toNat % 128 / 64 * 64 + v.toNat % 16)

/-- A CSR written (R211, R227, R229 to R231). SVCTL and the MPU CSRs stand in their own operations. -/
def Core.csrWrite (c : Core) (a : Nat) (v : Word) (dbg : Bool) : Core :=
  if a = 0x300 then c.writeStatus v
  else if a = 0x304 then { c with mie := v &&& 0x00070080 }
  else if a = 0x305 then { c with mtvec := (v &&& 0xFFFFFFC0) ||| (if bits v.toNat 1 0 = 1 then 1 else 0) }
  else if a = 0x306 then { c with mcounteren := v &&& 7 }
  else if a = 0x320 then { c with mcountinhibit := v &&& 5 }
  else if a = 0x340 then { c with mscratch := v }
  else if a = 0x341 then { c with mepc := v &&& 0xFFFFFFFE }
  else if a = 0x342 then { c with mcause := v }
  else if a = 0x343 then { c with mtval := v }
  else if a = 0x7A0 then if v.toNat < 2 then { c with tselect := v } else c
  else if a = 0x7A1 then
    if dbg ∨ !(c.tdata1.getD c.tselect.toNat 0).getLsbD 27 then { c with tdata1 := c.tdata1.set c.tselect.toNat (tdata1Value v dbg) } else c
  else if a = 0x7A2 then
    if dbg ∨ !(c.tdata1.getD c.tselect.toNat 0).getLsbD 27 then { c with tdata2 := c.tdata2.set c.tselect.toNat v } else c
  else if a = 0x7B0 then
    { c with dcsr := (c.dcsr &&& 0xF00001C0) ||| (v &&& 0x00009804) ||| (if bits v.toNat 1 0 = 0 then 0 else 3) }
  else if a = 0x7B1 then { c with dpc := v &&& 0xFFFFFFFE }
  else if a = 0x7B2 then { c with dscratch0 := v }
  else if a = 0x7B3 then { c with dscratch1 := v }
  else if a = 0x7C5 then { c with aoncmp := v }
  else if a = 0xB00 then { c with mcycle := BitVec.ofNat 64 (c.mcycle.toNat / 2 ^ 32 * 2 ^ 32 + v.toNat) }
  else if a = 0xB80 then { c with mcycle := BitVec.ofNat 64 (v.toNat * 2 ^ 32 + c.mcycle.toNat % 2 ^ 32) }
  else if a = 0xB02 then { c with minstret := BitVec.ofNat 64 (c.minstret.toNat / 2 ^ 32 * 2 ^ 32 + v.toNat) }
  else if a = 0xB82 then { c with minstret := BitVec.ofNat 64 (v.toNat * 2 ^ 32 + c.minstret.toNat % 2 ^ 32) }
  else c

/-- CODE_LOCK is set, and who set it is recorded (R227, R236). -/
def setCodeLock (s : State) (byMode : Bool) : State :=
  if s.spindle.core.svctl.getLsbD 0 then s
  else
    ((s.onCore fun c => { c with svctl := c.svctl ||| 1, lockByMode := byMode }).put Ent.CODE_LOCKED 1).put Ent.CODE_LOCK_BY (if byMode then 2 else 1)

/-- SVCTL written (R227, R230): a write of 0 to CODE_LOCK is ignored. -/
def writeSvctl (s : State) (v : Word) : State :=
  let s := s.onCore fun c => { c with svctl := (c.svctl &&& 1) ||| (v &&& 2) }
  if v.getLsbD 0 then setCodeLock s false else s

/-- An MPU CSR written, unless its region is locked (R231); the prefetch queue is emptied (R229), MPU_VIEW follows (R236). -/
def writeMpu (s : State) (a : Nat) (v : Word) : State :=
  let c := s.spindle.core
  let i := (a - 0x7C8) % 8
  let s := s.onCore fun c => { c with queue := [] }
  if (c.mpuAttr.getD i 0).getLsbD 31 then s
  else if a < 0x7D0 then
    (s.onCore fun c => { c with mpuBase := c.mpuBase.set i (mpuBaseValue v) }).put (Ent.MPU_VIEW (i + 1)) (mpuBaseValue v).toNat
  else (s.onCore fun c => { c with mpuAttr := c.mpuAttr.set i (mpuAttrValue v) }).put (Ent.MPU_VIEW (i + 9)) (mpuAttrValue v).toNat

/-- The CSR write of an instruction or a debugger. -/
def writeCsr (s : State) (a : Nat) (v : Word) (dbg : Bool) : State :=
  if a = 0x7C0 then writeSvctl s v
  else if 0x7C8 ≤ a ∧ a ≤ 0x7D7 then writeMpu s a v
  else s.onCore fun c => c.csrWrite a v dbg

/-! ## The memory map (R213) -/

/-- The regions of R213. -/
inductive MemRegion where
  | code | data | capt | scratch | window | xfer | staging | flash
  deriving DecidableEq, Repr

/-- The region of an address; none where nothing is listed. -/
def regionOf (a : Nat) : Option MemRegion :=
  if 0x10000000 ≤ a ∧ a < 0x10020000 then some .code
  else if 0x20000000 ≤ a ∧ a < 0x20010000 then some .data
  else if 0x21000000 ≤ a ∧ a < 0x21004000 then some .capt
  else if 0x30000000 ≤ a ∧ a < 0x30002000 then some .scratch
  else if 0x40000000 ≤ a ∧ a < 0x44000000 then some .window
  else if 0x44000000 ≤ a ∧ a < 0x44000100 then some .xfer
  else if 0x48000000 ≤ a ∧ a < 0x4C000000 then some .staging
  else if 0x60000000 ≤ a ∧ a < 0x61000000 then some .flash
  else none

/-- The effective privilege of loads and stores (R217): true U. -/
def effUser (c : Core) : Bool := if !c.user && c.mprv then c.mppUser else c.user

/-- The transfer buffer that the core sees (R65, R216). -/
def xferBuf (s : State) (user : Bool) : Region := if user then s.spindle.dict.xferU else s.spindle.dict.xferM

def setXfer (s : State) (user : Bool) (r : Region) : State :=
  s.onDict fun d => if user then { d with xferU := r } else { d with xferM := r }

/-- Debug mode is entered (R235): cause 1 ebreak, 2 trigger, 3 halt request, 4 step. -/
def enterDebug (s : State) (cause : Nat) : State :=
  ((s.onCore fun c => { c with
      halted := true, haltOwed := false, waiting := false, dpc := c.pc,
      dcsr := (c.dcsr &&& 0xFFFFFE3C) ||| BitVec.ofNat 32 (cause * 64 + (if c.user then 0 else 3)),
      user := false }).bump Ent.DEBUG_HALTS).put Ent.CORE_STATE 4

/-- A trigger fires: kind 0 execute, 1 store, 2 load at an address. The action, or none (R235). -/
def triggerHit (c : Core) (kind : Nat) (addr : Word) : Option Nat :=
  let hit (i : Nat) : Bool :=
    let t := c.tdata1.getD i 0
    c.tdata2.getD i 0 == addr && t.getLsbD (2 - kind) && (if c.user then t.getLsbD 3 else t.getLsbD 6)
  if hit 0 then some (bits (c.tdata1.getD 0 0).toNat 15 12) else if hit 1 then some (bits (c.tdata1.getD 1 0).toNat 15 12) else none

/-- A trigger's action: a breakpoint exception or debug mode (R235). -/
def triggerAct (s : State) (action : Nat) (tval : Word) : State :=
  if action = 1 then enterDebug s 2 else raiseTrap s 3 tval

end Sys2Proof.Machine
end

