-- ==== Sys2Proof/Machine/Power.lean ====
section
/-! DEFINITION. The power domains (R160 to R178): rest states, entries and who refuses them, wake sources, exits, the isolation window. -/
namespace Sys2Proof.Machine

/-! ## Wake sources (R170) -/

/-- The domains that a source raises, its owner first. `more` names those of a source that raises as its case says. -/
def raisedBy (s : State) (src : Nat) (more : List Domain) : List Domain :=
  match src with
  | 0x01 => [.core]
  | 0x02 => [.host, .core]
  | 0x03 => [.host, .core]
  | 0x04 => [.host, .core]
  | 0x05 => [.net, .core]
  | 0x06 => [.host, .core]
  | 0x07 => [.core, .net, .horn, .ind]
  | 0x08 => [.core]
  | 0x09 => [.tamper, .core]
  | 0x0A => if s.keeper.vddValid then [.tag, .core] else [.tag]
  | 0x0B => more
  | 0x0C => more
  | 0x0D => [.core]
  | 0x0E => [.host, .core]
  | 0x0F => more
  | _ => []

/-- CORE brings CODE and DATA up with it (R165). -/
def withNeeds (ds : List Domain) : List Domain := if ds.contains .core then ds ++ ([Domain.code, .data].filter fun d => !ds.contains d) else ds

/-- An edge source whose detector is not armed is lost: HOST or NET in its isolation window, or OFF (R163, R173); so is a source of a domain
that is OFF for it (R163, R171), and the source of a port that is not in use (R351). -/
def wakeLost (s : State) (src : Nat) : Bool :=
  let host (p : Port) : Bool := domState s .host == 0 || domState s .host == 3 || !portEnabled s p
  match src with
  | 0x02 => host .A
  | 0x03 => host .B
  | 0x04 => host .C
  | 0x05 => domState s .net == 0 || domState s .net == 3
  | 0x06 => domState s .host == 0
  | 0x09 => domState s .tamper == 0
  | 0x0A => domState s .tag == 0 && s.keeper.vddValid
  | _ => false

/-- CORE leaves OFF: the spindle die is released from reset with cause 5 (R165, R236). -/
def leaveOff (s : State) : State := releaseIfDue (countReset s 5)

/-- A wake source reaches one domain (R168, R172, R177); `owner` is the domain that owns the source. -/
def wakeDomain (s : State) (src : Nat) (owner d : Domain) : State :=
  let t := raiseDomain s (some src) owner d
  if d = .core ∧ domState s .core = 0 then leaveOff t else t

/-- A wake source arrives (R170). -/
def wake (s : State) (src : Nat) (more : List Domain) : State :=
  if wakeLost s src then s
  else
    match raisedBy s src more with
    | [] => s
    | owner :: rest => (withNeeds (owner :: rest)).foldl (fun s d => wakeDomain s src owner d) s

/-- A level source of R170 is asserted: 0x06 a port low while its IRQ pad is asserted, 0x07 a backstop kind, 0x08 TEST_BTN, 0x09 a switch that has
changed, 0x0A the field. -/
def levelOn (s : State) (src : Nat) : Bool :=
  match src with
  | 0x06 => [Port.A, .B, .C].any fun p => irqAsserted s p && portLow s p
  | 0x07 => s.get Ent.BS_ALARM != 0
  | 0x08 => s.pads.testBtnLow
  | 0x09 => s.pads.caseLatch || s.pads.baseLatch
  | 0x0A => s.pads.field
  | _ => false

/-- The level source that holds a domain ON: the latches never lose one (R170). -/
def levelSource (s : State) (d : Domain) : Option Nat :=
  [0x06, 0x07, 0x08, 0x09, 0x0A].find? fun src => levelOn s src && !wakeLost s src && (withNeeds (raisedBy s src [])).contains d

/-- A level source that is still asserted as an entry starts wakes the domain again (R168, R170, R172). -/
def levelWake (s : State) (d : Domain) : State :=
  match levelSource s d with
  | some src => wakeDomain s src ((raisedBy s src []).headD d) d
  | none => s

/-- TAMPER processes a changed switch where it is ON. -/
def processSwitches (s : State) : State :=
  if domState s .tamper = 2 then s.onPads fun p => { p with caseLatch := false, baseLatch := false } else s

/-- An exit completes (R177). A burst request that waited for an end of the link starts its burst (R30); TAMPER processes a changed switch; the arbiter
returns with CORE. -/
def exitComplete (s : State) (d : Domain) : State :=
  if domNow s d ≠ 4 then s
  else
    let s := turnOn s d
    match d with
    | .core => arbReturn s
    | .plyS | .plyF => startWaiting s
    | .tamper => processSwitches s
    | .code | .data | .capt | .crypto | .rng | .net | .host | .opt | .heat | .gas | .horn | .ind | .backstop | .keep | .tag => s

/-! ## Idle conditions (R164) and dynamic refusers (R167) -/

/-- The idle condition of a domain (R164), as far as the state shows it: that no frame is being received and that a bus or a port has been quiet for its
time is what the command says (log 87). CODE and DATA are idle once CORE has started an entry. -/
def domIdle (s : State) (d : Domain) : Bool :=
  match d with
  | .core => s.spindle.core.waiting && enabledIrqs s == 0 && users.all (fun u => (s.spindle.dict.reqs.get u).isEmpty) && !s.spindle.lockedUp
  | .code | .data => domState s .core == 3
  | .capt | .plyS | .plyF => plyState s == 0 && !s.ply.waiting
  | .crypto => cryptoIdle s
  | .rng => s.spindle.rng.waiting.isEmpty && 8 ≤ s.spindle.rng.fifo.length
  | .net => s.spindle.can.tx.isEmpty && s.spindle.can.sending.isNone && (!s.spindle.can.busOff || s.spindle.can.held)
  | .host =>
    [Port.A, .B, .C].all fun p =>
      !portLow s p && (s.spindle.ports.get p).answer.isNone && (s.spindle.dict.resps.get (portUser p)).isEmpty
  | .tag => !s.pads.field
  | .tamper => !s.pads.caseLatch && !s.pads.baseLatch
  | .opt => s.flyer.sense.opt.isNone
  | .heat => s.flyer.sense.heat.isNone
  | .gas => s.flyer.sense.co.isNone && s.flyer.sense.aux.isNone && (match s.flyer.sense.pulse with | .step _ => false | .idle => true | .settling => true)
  | .horn | .ind => hornIdle s.flyer.horn
  | .backstop | .keep => false

/-- The refusers of an entry, in the order of the table of R167. -/
def refusers (s : State) (d : Domain) (rest : Nat) : List Nat :=
  let arb (ks : List Nat) : List Nat := if ks.any (arbBusy s) then [0x41] else []
  let ply := if plyState s != 0 then [0x42] else []
  match d with
  | .core => arb [5]
  | .code => arb [1]
  | .data => arb [2, 3]
  | .capt => arb [4] ++ ply ++ if rest = 0 ∧ s.get Ent.CAPT_HELD = 1 then [0x23] else []
  | .crypto => arb [6]
  | .plyS => ply
  | .horn | .ind => (if modeIn s [.alarm, .echo] then [0x40] else []) ++ if s.flyer.horn.row = 2 then [0x2F] else []
  | .rng | .net | .host | .opt | .heat | .gas | .plyF | .backstop | .keep | .tag | .tamper => []

/-- An entry may be tried at all: the domain is ON with a rest below ON, and its die is in service; until handover the loader holds CORE, CODE, DATA
and CRYPTO (R161, R165). -/
def mayEnter (s : State) (d : Domain) : Bool :=
  restNow s d < 2 && domNow s d == 2 && (!isFlyerDom d || s.flyer.up) && (!isSpindleDom d || s.spindle.alive) &&
    (s.spindle.handed || !(d == .core || d == .code || d == .data || d == .crypto))

/-- An entry starts (R177). CORE going OFF runs the spindle reset sequence (R165). -/
def beginEntry (s : State) (d : Domain) (rest : Nat) : State :=
  let s := onDom (setDomNow s d 3) d fun q => { q with target := rest, wake := none, idleTried := false }
  let s := if d = .core ∧ rest = 0 then startReset s 5 else s
  levelWake s d

/-- One domain tries its entry: refused and counted, or started (R167, R169). On a retry the ply link refuses CAPT and PLY_S also while it is not OFF,
when they are not idle (log 87). -/
def tryEntry (s : State) (d : Domain) (retry : Bool) : State :=
  if !mayEnter s d then s
  else
    match refusers s d (restNow s d) with
    | r :: _ => if domIdle s d || (retry && r == 0x42) then onDom (refuse s d r (restNow s d)) d fun q => { q with idleTried := true } else s
    | [] => if domIdle s d then beginEntry s d (restNow s d) else s

/-- The idle condition of a domain comes to hold: its entry is tried; CODE and DATA enter together with CORE (R164), which leaves the
arbiter without its pending configuration (R205). -/
def entryStart (s : State) (d : Domain) (retry : Bool) : State :=
  let t := tryEntry s d retry
  if d = .core ∧ domState s .core = 2 ∧ domState t .core = 3 then arbLeave (tryEntry (tryEntry t .code retry) .data retry) else t

/-! ## What is lost (R163) -/

/-- Contents lost on the way to OFF. -/
def loseContents (s : State) (d : Domain) : State :=
  match d with
  | .code =>
    let s := (s.onMem fun m => { m with code := { fill := .free s.free } }).used
    ((s.onCore fun c => { c with svctl := c.svctl &&& 2, lockByMode := false }).put Ent.CODE_LOCKED 0).put Ent.CODE_LOCK_BY 0
  | .data => (s.onMem fun m => { m with data := { fill := .free s.free } }).used
  | .capt => ((s.onMem fun m => { m with capt := { fill := .free s.free } }).used).put Ent.CAPT_HELD 0
  | .crypto =>
    let s := rngForget (clearPages (countPageLosses s)) fun w => match w with
      | .aes _ => true
      | .keeperSign | .bn | .debug | .spread | .pool => false
    users.foldl (fun s u => s.onPage u fun p => { state := p.state })
      ((s.onMem fun m => { m with scratch := {} }).onSpindle fun x => { x with bn := {} })
  | .rng => s.onRng fun r => { r with fifo := [] }
  | .net => (clearPage (s.dropEntries fun r => r.held == .net) .N).onCan fun c => { busOff := c.busOff, held := c.held, sinceOk := c.sinceOk }
  | .host => (([Port.A, .B, .C].foldl portReset s).dropEntries fun r => r.held == .host).onSpindle fun x => { x with ports := PerPort.const {} }
  | .tag => ((endAuth s).put Ent.TAG_STATE 0).onTag fun _ => {}
  | .gas => s.onSense pulseCut
  | .tamper => s.onPads fun p => { p with caseLatch := false, baseLatch := false }
  | .core | .plyS | .opt | .heat | .horn | .ind | .plyF | .backstop | .keep => s

/-- HORN discharges VBOOST on the way to RETENTION and to OFF (R163). -/
def discharge (s : State) (d : Domain) : State := if d = .horn then s.onHorn fun h => setBoost h 0 else s

/-- An entry completes (R177), and is counted; flyer subindices read 0 (R178). A wake held since it began starts the exit at once (R172). -/
def entryComplete (s : State) (d : Domain) : State :=
  let q := domSeq s d
  if domNow s d ≠ 3 ∨ (d = .core ∧ q.target = 0 ∧ s.spindle.alive) then s
  else
    let s := discharge (setDomNow s d q.target) d
    let s := if isFlyerDom d then s else s.bump (Ent.ENTRIES (domId d))
    let s := onDom (if q.target = 0 then loseContents s d else s) d fun x => { x with wake := none }
    match q.wake with
    | some src => wakeDomain s src d d
    | none => s

/-- The window of HOST or NET ends (R173): a level low on HA_CS, HB_CS or HC_RXD of a port in use wakes HOST late. -/
def windowEnd (s : State) (d : Domain) (low : List Port) : State :=
  if (d ≠ .host ∧ d ≠ .net) ∨ domState s d ≠ 3 then s
  else if d = .host ∧ low.any (portEnabled s) then (wake s 0x0E []).bump Ent.LATE_WAKES
  else entryComplete s d

/-! ## REST (R161, R162, R166) -/

/-- The static rule that a rest state breaks: its refuser, the first of the table. -/
def staticRefuser (s : State) (d : Domain) (r : Nat) : Option Nat :=
  if (d = .backstop ∨ d = .keep) ∧ r ≠ 2 then some (domId d)
  else if d = .gas ∧ r = 0 ∧ s.get Ent.CO_ENABLE = 1 then some 0x2B
  else if (d = .code ∨ d = .data) ∧ r < restState s .core then some 0x20
  else if d = .core ∧ restState s .code < r then some 0x21
  else if d = .core ∧ restState s .data < r then some 0x22
  else if d = .core ∧ r = 0 ∧ modeIn s [.alarm, .echo, .hush, .selftest] then some 0x40
  else if (d = .horn ∨ d = .net) ∧ r < 2 ∧ modeIs s .alarm then some 0x40
  else if d = .horn ∧ r < 2 ∧ modeIs s .echo then some 0x40
  else none

/-- The domain with an ID8. -/
def domOf (id : Nat) : Option Domain := allDomains.find? fun d => domId d == id

/-- A rest state above the state that a domain is in, or enters, wakes it (R170, R177). -/
def restRaised (s : State) (d : Domain) (r : Nat) : State :=
  if (domNow s d < 2 ∧ domNow s d < r) ∨ (domNow s d = 3 ∧ (domSeq s d).target < r) then wake s 0x0F [d] else s

/-- A rest word is written: a flyer domain is told (R161). -/
def setRest (s : State) (d : Domain) (r : Nat) : State :=
  let s := s.put (Ent.REST (domId d)) (wideCode (r + 1))
  if isFlyerDom d then sendDomain s d r else restRaised s d r

/-- What a write of REST with a valid word does, and its status. -/
def restWrite (s : State) (d : Domain) (v : Nat) : State × Nat :=
  match restOf v with
  | none => (s, Sc.range)
  | some r =>
    match staticRefuser s d r with
    | some who => (refuse s d who r, Sc.state)
    | none => (setRest s d r, Sc.ok)

/-- CO is enabled: GAS does not rest OFF (R166). -/
def raiseGas (s : State) : State := if restState s .gas = 0 then setRest s .gas 1 else s

/-! ## Commands -/

def execDomainEntryStart (d : Domain) (s : State) : Host.Outcome State Fault Refusal := .next (entryStart s d false)

/-- 1 ms after a refusal, the sequencer tries again (R167). -/
def execDomainEntryRetry (d : Domain) (s : State) : Host.Outcome State Fault Refusal :=
  .next (if (domSeq s d).idleTried then entryStart s d true else s)

def execDomainEntryComplete (d : Domain) (s : State) : Host.Outcome State Fault Refusal := .next (entryComplete s d)

/-- The level that a source brings to its pad: TEST_BTN low, HC_RXD low at the start edge of a UART frame. -/
def noteWakeLevel (s : State) (source : Nat) : State :=
  s.onPads fun p => { p with testBtnLow := p.testBtnLow || source == 8, rxdLow := p.rxdLow || source == 4 }

/-- A wake source (R170). -/
def execDomainWake (source : Nat) (more : List Domain) (s : State) : Host.Outcome State Fault Refusal := .next (wake (noteWakeLevel s source) source more)

def execIsolationWindowEnd (d : Domain) (low : List Port) (s : State) : Host.Outcome State Fault Refusal := .next (windowEnd s d low)

end Sys2Proof.Machine
end

