-- ==== Sys2Proof/Machine/Rtc.lean ====
section
/-! DEFINITION. The real-time clock (R186, R188): CLK_AON cycles, the trim, the end of a second, the dies' copies. -/
namespace Sys2Proof.Machine

/-- The dies that have a copy of the time advance it with the second (R188). -/
def advanceCopies (s : State) : State :=
  let next (r : Option Nat) : Option Nat := r.map fun x => min (x + 1) 0xFFFFFFFF
  let s := s.onFlyer fun f => { f with rtc := next f.rtc }
  if s.spindle.alive then s.onSpindle fun x => { x with rtc := next x.rtc } else s

/-- A second of RTC_TIME ends (R186): the time stops at its end. The cycle is kept, since a set in the same one wins over it (R187). -/
def secondTick (s : State) : State :=
  let t := now s
  let s := if t < 0xFFFFFFFF then (s.put Ent.RTC_TIME (t + 1)).onKeeper fun k => { k with tickAt := some k.aon } else s
  let s := if 0xFFFFFFFE ≤ t then s.setBits Ent.TIME_FLAGS 4 else s
  advanceCopies s

/-- A tenth of a part per million, in units of which the trim is summed up: one cycle is this many. -/
abbrev trimUnit : Int := 10000000

/-- RTC_TRIM (R186). -/
def rtcTrim (s : State) : Int := s.getS Ent.RTC_TRIM

/-- The watchdog starts with the timeout as it stands (R234). -/
def wdtStart (s : State) : State := s.onKeeper fun k => { k with wdt := some (32768 * s.get Ent.WDT_TIMEOUT) }

/-- WDT_LEFT: milliseconds to expiry, 0 while the watchdog is stopped (R236). -/
def wdtLeft (s : State) : Nat := s.keeper.wdt.getD 0 * 1000 / 32768

/-- `n` cycles of CLK_AON pass: the count of the keeper, its watchdog unless the hart is halted (R234), the AON timer (R220). -/
def passCycles (s : State) (n : Nat) : State :=
  let s := s.onKeeper fun k => { k with aon := k.aon + n, wdt := if s.spindle.core.halted then k.wdt else k.wdt.map (· - n) }
  if s.spindle.alive then s.onCore fun c => { c with aontime := c.aontime + BitVec.ofNat 32 n } else s

/-- By how much one cycle moves RTC_SUBSEC: by 1, by 0 where the trim adds a cycle to the second, by 2 where it removes one. -/
def trimStep (acc : Int) : Nat := if trimUnit ≤ acc then 0 else if acc ≤ -trimUnit then 2 else 1

/-- The sum of the trim after a cycle that it has added or removed. -/
def trimRest (acc : Int) : Int := if trimUnit ≤ acc then acc - trimUnit else if acc ≤ -trimUnit then acc + trimUnit else acc

/-- One cycle of CLK_AON counts (R186): at even intervals the trim adds one cycle to a second or removes one; the 32,768th count ends the second. -/
def countAon (s : State) : State :=
  let s := passCycles s 1
  let acc := s.keeper.trimAcc + rtcTrim s
  let sub := s.get Ent.RTC_SUBSEC + trimStep acc
  let s := s.onKeeper fun k => { k with trimAcc := trimRest acc }
  if sub < 32768 then s.put Ent.RTC_SUBSEC sub else secondTick (s.put Ent.RTC_SUBSEC (sub - 32768))

/-- The cycles that the second still has, and the sum of the trim at its end. -/
def secondLeft (s : State) : Nat × Int :=
  let r : Int := 32768 - s.get Ent.RTC_SUBSEC
  let extra := (s.keeper.trimAcc + r * rtcTrim s).tdiv trimUnit
  ((r + extra).toNat, s.keeper.trimAcc + (r + extra) * rtcTrim s - extra * trimUnit)

/-- The rest of the second passes, and the second ends (R186). -/
def endSecond (s : State) : State :=
  let l := secondLeft s
  secondTick (((passCycles s l.1).onKeeper fun k => { k with trimAcc := l.2 }).put Ent.RTC_SUBSEC 0)

/-- The time that a set is judged against: a tick of the same cycle is discarded (R187). -/
def timeBefore (s : State) : Nat := if s.keeper.tickAt = some s.keeper.aon then now s - 1 else now s

end Sys2Proof.Machine
end

