-- ==== Sys2Proof/Machine/Sideband.lean ====
section
/-! DEFINITION. The sideband (R15 to R21): which die sends what, arbitration, delivery, acknowledgement, retries. -/
namespace Sys2Proof.Machine

/-- A die's transmitter runs: the spindle die's and the flyer's while VDD_IN is valid (R15, R37), the keeper's always. -/
def sbAlive (s : State) (d : Die) : Bool :=
  match d with
  | .keeper => true
  | .flyer => s.flyer.up
  | .spindle => s.keeper.vddValid

/-- An unacknowledged message of the type is outstanding (R21). -/
def sbOutstanding (x : SbDie) (ty : Nat) : Bool := (x.wait.any fun w => w.1.ty == ty) || (ty == 3 && x.holdSent)

/-- Messages that the die may send now, beside its ACKs: repeats that are due, the head of each type that is not outstanding, the oldest record (R21). -/
def sbCandidates (x : SbDie) : List SbMsg :=
  (x.wait.filter fun w => w.2.2).map (·.1) ++ (x.txq.filter fun m => !sbOutstanding x m.ty) ++ (if x.holdSent && !x.holdDue then [] else x.hold.take 1)

/-- The first message of the lowest type. -/
def sbLowest : List SbMsg → Option SbMsg
  | [] => none
  | m :: ms =>
    match sbLowest ms with
    | none => some m
    | some n => if n.ty < m.ty then some n else some m

/-- What the die sends next: its ACK slots first (R21). -/
def sbReady (s : State) (d : Die) : Option SbMsg :=
  if sbAlive s d then
    match (sbDie s d).acks with
    | a :: _ => some a
    | [] => sbLowest (sbCandidates (sbDie s d))
  else none

/-- Header of a message (R17). -/
def sbHeader (m : SbMsg) : Nat := m.ty * 16 + dieNum m.src * 4 + m.dst

/-- The bytes of a message on the wire (R17). -/
def sbFrame (m : SbMsg) : Bytes :=
  let b := byte (sbHeader m) :: byte m.payload.length :: m.payload
  b ++ [byte (crc8 b)]

/-- The message with the lowest header wins (R18). -/
def sbWinner : List SbMsg → Option SbMsg
  | [] => none
  | m :: ms =>
    match sbWinner ms with
    | none => some m
    | some n => if sbHeader n < sbHeader m then some n else some m

/-- The first element that satisfies `p` is removed. -/
def dropFirst {α : Type} (p : α → Bool) : List α → List α
  | [] => []
  | x :: xs => if p x then xs else x :: dropFirst p xs

/-- A message leaves its sender: an ACK slot empties, a repeat is counted, an acknowledged type waits for its ACK (R19, R21). -/
def sbSent (s : State) (m : SbMsg) : State :=
  onSbDie s m.src fun x =>
    if m.ty = 4 then { x with acks := dropFirst (· == m) x.acks }
    else if m.ty = 3 then { x with holdSent := true, holdDue := false }
    else if x.wait.any fun w => w.1 == m && w.2.2 then
      { x with wait := x.wait.map fun w => if w.1 == m && w.2.2 then (w.1, w.2.1 + 1, false) else w }
    else { x with txq := dropFirst (· == m) x.txq, wait := if ackedType m.ty then x.wait ++ [(m, 1, false)] else x.wait }

/-- The dies that receive: every die but the sender (R19). -/
def sbReceivers (m : SbMsg) : List Die := [Die.keeper, .flyer, .spindle].filter (· != m.src)

/-- The receivers that act on a message: those that it is for (R19); of the dies that receive BACKSTOP_ALARM only the keeper acts on it. -/
def sbTargets (m : SbMsg) : List Die :=
  (sbReceivers m).filter fun d => m.dst == dieNum d || (m.dst == 3 && (m.ty != 1 || d == .keeper))

/-- A die takes messages: the keeper always, the flyer while it is powered, the spindle die out of reset. -/
def sbTakes (s : State) : Die → Bool
  | .keeper => true
  | .flyer => s.flyer.up
  | .spindle => s.spindle.alive

/-- A message tried into a die's receive buffer of 2 (queue 06, R190); one that finds it full is counted and lost. The levels of queue 06 are known
from the flyer's reports (R196). -/
def sbPush (s : State) (m : SbMsg) (d : Die) : State :=
  if !sbTakes s d then s
  else if (sbDie s d).rxq.length < 2 then onSbDie s d fun x => { x with rxq := x.rxq ++ [m] }
  else noteFull s 6

/-- The message on the line has ended good: it stands in the receive buffers of the dies that it is for, and the line is free. -/
def sbLand (s : State) : State :=
  match s.sb.wire with
  | some m => ((sbTargets m).foldl (fun s d => sbPush s m d) s).onSb fun b => { b with wire := none }
  | none => s

/-- The line has been idle for 20 µs, so a message on it has ended: every ready die sends, the lowest header wins (R18). -/
def sbSend (s : State) : State :=
  let s := sbLand s
  match sbWinner ([Die.keeper, .flyer, .spindle].filterMap (sbReady s)) with
  | none => s
  | some m => (sbSent s m).onSb fun b => { b with wire := some m }

/-! ## Delivery -/

/-- An ACK in the receiver's slot for the sender and the type (R21): the slot holds one. -/
def sbAck (s : State) (d : Die) (m : SbMsg) (code : Nat) : State :=
  onSbDie s d fun x =>
    { x with acks := (x.acks.filter fun a => !(a.dst == dieNum m.src && a.payload.take 1 == [byte m.ty])) ++ [⟨4, d, dieNum m.src, [byte m.ty, byte code]⟩] }

/-- The message that a die takes next, where it is of the type: the oldest of its receive buffer, else the one on the line, if it is for this die
(R19). -/
def sbArrived (s : State) (ty : Nat) (d : Die) : Option SbMsg :=
  match (sbDie s d).rxq with
  | m :: _ => if m.ty = ty then some m else none
  | [] =>
    match s.sb.wire with
    | some m => if m.ty = ty ∧ (m.dst = dieNum d ∨ m.dst = 3) then some m else none
    | none => none

/-- The line is free again. -/
def sbClear (s : State) : State := s.onSb fun b => { b with wire := none }

/-- The message that a die takes leaves its receive buffer, or the line. -/
def sbLift (s : State) (d : Die) : State :=
  match (sbDie s d).rxq with
  | _ :: ms => onSbDie s d fun x => { x with rxq := ms }
  | [] => sbClear s

/-- A message of a type that is acknowledged is taken by its die, which owes OK. -/
def sbTake (s : State) (d : Die) (m : SbMsg) : State := if ackedType m.ty then sbAck (sbLift s d) d m Sc.ok else sbLift s d

/-- A receiver drops the message and counts it (R19): the flyer in the count that HEARTBEAT reports. -/
def sbDrop (s : State) : Die → State
  | .keeper => s.bump Ent.SB_CRC_ERR_KEEP
  | .flyer => s.onFlyer fun f => { f with drops := min (f.drops + 1) 65535 }
  | .spindle => s.bump Ent.SB_CRC_ERR

/-- An ACK reaches its die (R19, R21): the message it answers is done; a record's ACK releases the record unless it says BUSY.
The answer: the message that was acknowledged, if any. -/
def sbAcked (s : State) (d : Die) (m : SbMsg) : State × Option SbMsg :=
  let ty := ((m.payload.getD 0 0).toNat)
  let code := ((m.payload.getD 1 0).toNat)
  let x := sbDie s d
  if ty = 3 then
    if x.holdSent ∧ code ≠ Sc.busy then (onSbDie s d fun x => { x with hold := x.hold.drop 1, holdSent := false, holdDue := false }, x.hold.head?) else (s, none)
  else
    match x.wait.find? fun w => w.1.ty == ty && w.1.dst == dieNum m.src with
    | some w => (onSbDie s d fun x => { x with wait := x.wait.filter fun v => v != w }, some w.1)
    | none => (s, none)

/-- 100 µs without an ACK: the message is sent again, or abandoned after three attempts (R19). -/
def sbTimeout (s : State) (d : Die) (ty : Nat) : State :=
  match (sbDie s d).wait.find? fun w => w.1.ty == ty && !w.2.2 with
  | none => s
  | some w =>
    if w.2.1 < 3 then onSbDie s d fun x => { x with wait := x.wait.map fun v => if v == w then (v.1, v.2.1, true) else v }
    else (onSbDie s d fun x => { x with wait := x.wait.filter fun v => v != w }).bump Ent.SB_LOST

end Sys2Proof.Machine
end

