-- ==== Sys2Proof/Machine/Link.lean ====
section
/-! DEFINITION. The sideband's messages at their receivers and the timers that send them (R15 to R21, R36 to R40, R90, R121, R134 to R142, R161, R188,
R225). A message that is taken is the one on the wire, where it has the command's type. -/
namespace Sys2Proof.Machine

/-! ## Drops (R19) -/

/-- Receivers that are left of a message's destination. A broadcast that one die has dropped still reaches the third die; only the keeper acts on
BACKSTOP_ALARM. -/
def sbNarrow (m : SbMsg) (dies : List Die) : Option SbMsg :=
  match (sbTargets m).filter fun d => !dies.contains d with
  | [] => none
  | [d] => some { m with dst := dieNum d }
  | _ => some m

/-- The named receivers drop the message on the wire. -/
def sbDropped (s : State) (dies : List Die) : State :=
  match s.sb.wire with
  | none => s
  | some m => (((sbReceivers m).filter fun d => dies.contains d).foldl sbDrop s).onSb fun b => { b with wire := sbNarrow m dies }

/-- A message that is cut off reaches nobody. -/
def sbCutOff (s : State) (dies : List Die) : State := sbClear (sbDropped s dies)

/-- The horn check of the self-test runs while its request, step 2, is with the flyer (R146, R152). -/
def noteCheck (s : State) : State :=
  let asks (m : SbMsg) : Bool := m.ty == 0xE && m.dst == 1 && m.payload.getD 0 0 == 2
  let on := s.flyer.up && (s.sb.wire.any asks || s.sb.flyer.rxq.any asks)
  s.onHorn fun h => { h with check := on }

/-! ## Spindle to keeper -/

/-- LOCKUP (R225): the first one is recorded, counted and logged; a repeat changes nothing. -/
def takeLockup (s : State) (m : SbMsg) : State :=
  let s := sbLift s .keeper
  if s.keeper.lockedUp then s
  else
    let s := ((s.put Ent.LOCKUP_CAUSE (leNat (m.payload.take 4))).put Ent.LOCKUP_EPC (leNat ((m.payload.drop 4).take 4))).put Ent.LOCKUP_TIME (now s)
    let s := ((s.bump Ent.LOCKUPS).put Ent.RESET_CAUSE 2).onKeeper fun k => { k with lockedUp := true }
    endAuth (logKeeper s 0x51 0x43 (fitBytes 8 m.payload))

/-- The spindle die says LOCKUP again (R20). -/
def repeatLockup (s : State) : State :=
  if s.spindle.lockedUp && !(s.sb.spindle.txq.any fun m => m.ty == 0) then
    sbQueue s .spindle 0 0 (leBytes 4 s.spindle.lockCause.toNat ++ leBytes 4 s.spindle.lockEpc.toNat)
  else s

/-! ## Flyer to keeper -/

/-- BACKSTOP_ALARM reaches the keeper: the kinds and the no-hush level, then the relayed line (R82, R136, R142). The alarm line is a level source of
wakes (R170). -/
def takeBackstop (s : State) (m : SbMsg) : State :=
  let b := (m.payload.getD 0 0).toNat
  let s := modeEvents (sbLift s .keeper) [.backstop b, .relayedIc (bit b 6)]
  if levelOn s 7 then wake s 7 [] else s

/-- The backstop status word (R137). -/
def backstopStatus (f : Flyer) : Nat :=
  let b := f.bs
  let half := shadowNat b 49 4
  b.kinds % 8 + (if b.suppressed != 0 || b.hushTimer then 8 else 0) + min b.smoke 3 * 16 + (if b.heat = 1 then 64 else 0)
    + (if shadowHeld b ∧ half ≤ 2 * b.dose then 128 else 0) + (if hornActive f.horn then 256 else 0) + (if f.horn.fault then 512 else 0)
    + (if f.horn.icDriven then 1024 else 0) + (if f.horn.icRelayed then 2048 else 0) + (if b.armed then 4096 else 0)

/-- The payload of HEARTBEAT (R20). -/
def heartbeatPayload (f : Flyer) : Bytes :=
  leBytes 2 (backstopStatus f) ++ leBytes 2 (crc16 (shadowBytes f.bs)) ++ leBytes 2 f.drops ++ leBytes 2 f.sense.loadedRaw
    ++ [byte f.sense.loadedCount, byte f.horn.row] ++ leBytes 2 f.horn.vboost
    ++ [byte ((if f.horn.alarmOut then 1 else 0) + (if f.horn.icDriven then 2 else 0) + (if f.horn.icLevel || f.horn.icDriven then 4 else 0)), byte f.horn.chirps]

/-- Every second the flyer recomputes the CRC of its copy, disarms on a mismatch and sends HEARTBEAT (R20, R134), from its first measurement on
(R39), or at once in RETIRED, where none comes (R89).

DEDUCED (log 42). -/
def sendHeartbeat (s : State) : State :=
  if !s.flyer.up || (s.flyer.res.supplyN == 0 && !s.flyer.bs.off) then s
  else
    let s := s.onBs fun b => { b with armed := shadowChecks b }
    sbQueue s .flyer 2 0 (heartbeatPayload s.flyer)

/-- The horn and pad entries that a HEARTBEAT forms (R158). -/
def heartbeatEntries (s : State) (p : Bytes) : State :=
  let n (off size : Nat) : Nat := leNat ((p.drop off).take size)
  let s := ((s.put Ent.BS_STATUS (n 0 2)).put Ent.SB_CRC_ERR_FLY (n 4 2)).put Ent.HORN_STATE (n 9 1)
  let s := (s.put Ent.HORN_VBOOST_MEAS (n 10 2)).put Ent.PAD_STATE (n 12 1 % 8)
  let s := match s.keeper.chirpBase with
    | some base => s.bumpBy Ent.CHIRP_COUNT ((n 13 1 + 256 - base) % 256)
    | none => s
  s.onKeeper fun k => { k with chirpBase := some (n 13 1) }

/-- The keeper judges a measurement that it has not judged (R121). In RETIRED none is made, and none is judged (R89). -/
def judgeSupply (s : State) (raw count : Nat) : State :=
  if s.keeper.judged = some count ∨ modeIs s .retired then s
  else
    let low := decide (vddSum s raw < s.get Ent.VDD_LOW_LEVEL)
    let was := s.keeper.supplyLow
    let s := s.onKeeper fun k => { k with judged := some count, supplyLow := low }
    if low then setFault (if was then s else raise (s.bump Ent.SUPPLY_LOW_COUNT) 14) 5 0x43 else clearFault s 32

/-- The shadow copy as HEARTBEAT reports it (R39, R40, R92): a match clears the mismatch, anything else has the copy sent again. -/
def judgeShadow (s : State) (crc : Nat) : State :=
  if !backstopSetWritten s then s.onKeeper fun k => { k with hbCrc := crc }
  else if crc = s.get Ent.BS_SHADOW_CRC then
    clearFault (s.onKeeper fun k => { k with hbCrc := crc, shadowOk := true, shadowBad := false }) 4
  else
    let s := s.onKeeper fun k => { k with hbCrc := crc, shadowOk := false }
    if (s.sb.keeper.txq.any fun m => m.ty == 0xD) || (s.sb.keeper.wait.any fun w => w.1.ty == 0xD) then s else sendShadow s

/-- HEARTBEAT reaches the keeper. The backstop is live with the first one whose copy checks, or that has nothing to shadow (R39, R40). -/
def takeHeartbeat (s : State) (m : SbMsg) : State :=
  let p := fitBytes 14 m.payload
  let s := heartbeatEntries (sbLift s .keeper) p
  let s := clearFault (s.onKeeper fun k => { k with hbLost := false }) 2
  let s := judgeShadow s (leNat ((p.drop 2).take 2))
  let s := judgeSupply s (leNat ((p.drop 6).take 2)) (p.getD 8 0).toNat
  let s := s.onKeeper fun k => { k with live := k.live || k.shadowOk || !backstopSetWritten s }
  releaseIfDue s

/-- RESET to the flyer (R20, R37); its reason's codes are not stated (log 43). -/
def sendReset (s : State) : State := (sbQueue s .keeper 6 1 [byte (openCause s)]).used

/-- 3 s without HEARTBEAT (R37). -/
def heartbeatLost (s : State) : State :=
  if !s.keeper.vddValid || s.keeper.hbLost then s
  else
    let s := s.onKeeper fun k => { k with hbLost := true }
    let s := logKeeper s 0x50 0x43 (1 :: leBytes 2 s.keeper.hbCrc ++ leBytes 2 (s.get Ent.BS_SHADOW_CRC))
    sendReset (setFault s 1 0x43)

/-- The copy does not match 50 ms after the start, and every 1 ms from then on (R40). -/
def shadowResend (s : State) : State :=
  if !s.keeper.vddValid || !backstopSetWritten s || s.keeper.shadowOk then s
  else
    let s := if s.keeper.shadowBad then s
      else
        let s := s.onKeeper fun k => { k with shadowBad := true }
        setFault (logKeeper s 0x50 0x43 (2 :: leBytes 2 s.keeper.hbCrc ++ leBytes 2 (s.get Ent.BS_SHADOW_CRC))) 2 0x43
    if (s.sb.keeper.txq.any fun m => m.ty == 0xD) || (s.sb.keeper.wait.any fun w => w.1.ty == 0xD) then s else sendShadow s

/-! ## To the keeper from either die -/

/-- Notice events held while the engine was out of service (R71). -/
def flushNotices (s : State) : State := (setNotices s s.keeper.notices).onKeeper fun k => { k with notices := 0 }

/-- HELLO (R38, R39, R71, R136, R320). -/
def takeHello (s : State) (m : SbMsg) : State :=
  let s := sbTake s .keeper m
  if m.src = .spindle then
    askClose (flushNotices (sbQueue (s.onKeeper fun k => { k with helloSeen := true }) .keeper 8 1 [1]))
  else if m.src = .flyer then
    let s := (s.onKeeper fun k => { k with judged := none, chirpBase := none, shadowOk := false, live := false })
    let s := sendTime (modeEvents s [.backstop 0])
    if backstopSetWritten s then sendShadow s else s
  else s

/-- LOG_WRITE (R21, R310). -/
def takeLog (s : State) (m : SbMsg) : State :=
  let r := takeLogWrite (sbLift s .keeper) m
  sbAck r.1 .keeper m r.2

/-- What an ACK brings with it at its die: the confirmed rest state of a flyer domain (R161, R177). -/
def ackEffect (s : State) (acked : Option SbMsg) : State :=
  match acked with
  | none => s
  | some m =>
    if m.ty ≠ 5 then s
    else
      match domOf (m.payload.getD 0 0).toNat with
      | none => s
      | some d =>
        let r := (m.payload.getD 1 0).toNat
        onDom (setDomState s d r) d fun q => { q with owed := if q.owed = some r then none else q.owed }

/-- An ACK reaches the die that it is for. -/
def takeAck (s : State) (d : Die) (m : SbMsg) : State :=
  let r := sbAcked (sbLift s d) d m
  ackEffect r.1 r.2

/-- 100 µs without an ACK (R19); a PEER_RESET that is abandoned leaves nothing to wait for (log 39); with a
request for words, or its answer, that is abandoned the RNG is not available (R151, R297). -/
def ackTimeout (s : State) (d : Die) (ty : Nat) : State :=
  let t := sbTimeout s d ty
  if d = .keeper ∧ ty = 8 ∧ sbOutstanding s.sb.keeper 8 ∧ !sbOutstanding t.sb.keeper 8 then quietReached t
  else if ty = 0xE then wordsCheck t
  else t

/-! ## Keeper to a die -/

/-- DOMAIN (R161): the flyer's sequencer has its rest state; one above its state wakes it. -/
def takeDomain (s : State) (m : SbMsg) : State :=
  let s := sbTake s .flyer m
  match domOf (m.payload.getD 0 0).toNat with
  | some d =>
    let r := (m.payload.getD 1 0).toNat
    if isFlyerDom d then restRaised (onFlyDom s d fun x => { x with rest := r }) d r else s
  | none => s

/-- DOMAIN messages not acknowledged are sent again (R161). -/
def resendDomains (s : State) : State :=
  flyerDomains.foldl (fun s d =>
    match (domSeq s d).owed with
    | none => s
    | some r =>
      let m := [byte (domId d), byte r]
      if (s.sb.keeper.txq.any fun x => x.ty == 5 && x.payload == m) || (s.sb.keeper.wait.any fun w => w.1.ty == 5 && w.1.payload == m) then s
      else sendDomain s d r) s

/-- PEER_RESET (R38, R192). -/
def takePeerReset (s : State) (m : SbMsg) : State :=
  let s := sbTake s .flyer m
  if m.payload.getD 0 0 = 0 then
    let s := (s.onFlyer fun f => { f with mayBurst := false }).onHorn fun h => { h with queue := [], removed := 0, discarded := 0 }
    let s := formReport s
    if plyState s = 0 then sbQueue s .flyer 9 0 [] else s.onFlyer fun f => { f with quietOwed := true }
  else s.onFlyer fun f => { f with mayBurst := true, quietOwed := false }

/-- The flyer's copy of the mode (R90, R141). -/
def flyerMode (f : Flyer) (m : Mode) : Flyer :=
  let bs := if m ≠ .hush then endSuppression f.bs
    else if f.mode = some .hush then f.bs
    else noHushCheck { f.bs with suppressed := f.bs.kinds ||| f.horn.fwKinds.getD 0, hushTimer := true }
  let keep := m == .alarm || m == .echo
  let bs := if m = .retired then (if bs.off then bs else bs.retire) else { bs with off := false }
  { f with mode := some m, bs := bs, sense := if bs.off then f.sense.stop else f.sense, horn := if keep then f.horn else { f.horn with fwKinds := none, relKinds := 0 } }

/-- The spindle die's copy of the mode (R227). -/
def spindleMode (s : State) (m : Mode) : State :=
  let s := s.onSpindle fun x => { x with mode := some m }
  if s.spindle.handed && m == .supervise then setCodeLock s true else s

/-- MODE at a die: an invalid word is dropped (R90). -/
def takeMode (s : State) (d : Die) (m : SbMsg) : State :=
  let s := sbLift s d
  match modeOf (leNat m.payload), d with
  | some k, .flyer => s.onFlyer fun f => flyerMode f k
  | some k, .spindle => spindleMode s k
  | some _, .keeper => s
  | none, _ => sbDrop s d

/-- TIME at a die: its copy of the time (R188). -/
def takeTime (s : State) (d : Die) (m : SbMsg) : State :=
  let s := sbLift s d
  let t := leNat m.payload
  match d with
  | .flyer => s.onFlyer fun f => { f with rtc := some t }
  | .spindle => s.onSpindle fun x => { x with rtc := some t }
  | .keeper => s

/-- CAL_SHADOW (R134): the flyer is armed exactly while its four blocks check. -/
def takeShadow (s : State) (m : SbMsg) : State :=
  let i := (m.payload.getD 0 0).toNat
  (sbTake s .flyer m).onBs fun b =>
    let b := { b with blocks := b.blocks.set i (some (fitBytes 24 (m.payload.drop 1))) }
    { b with armed := shadowChecks b }

/-- The message of a type that a die takes next is taken. -/
def onArrival (s : State) (ty : Nat) (d : Die) (f : State → SbMsg → State) : State :=
  match sbArrived s ty d with
  | some m => f s m
  | none => s

/-- The same for the flyer, which takes messages while it is powered; one that finds it down passes. -/
def onFlyerArrival (s : State) (ty : Nat) (f : State → SbMsg → State) : State :=
  onArrival s ty .flyer fun s m => if s.flyer.up then f s m else sbLift s .flyer

/-- A message on the line of a type has ended. -/
def landOf (s : State) (ty : Nat) : State := if s.sb.wire.any fun m => m.ty == ty then sbLand s else s

/-- A die takes a message of the type where one is the oldest of its receive buffer. -/
def takeOldest (f : State → Die → SbMsg → State) (ty : Nat) (s : State) (d : Die) : State :=
  match (sbDie s d).rxq with
  | m :: _ => if m.ty = ty then f s d m else s
  | [] => s

/-- A message of a type reaches each die that it is for: every die whose next message is of the type takes it. -/
def onBroadcast (s : State) (ty : Nat) (f : State → Die → SbMsg → State) : State :=
  [Die.keeper, .flyer, .spindle].foldl (takeOldest f ty) (landOf s ty)

/-! ## One CLK_AON cycle of the keeper (R80, R82) -/

/-- An invalid mode or base-mode word (R80). -/
def checkModeWords (s : State) : State :=
  let m := s.get Ent.MODE
  let s := if (modeOf m).isNone then invalidWord s .keeper 1 m 0x80 else s
  let b := s.get Ent.BASE_MODE
  if (modeOf b).isNone then invalidWord s .keeper 2 b 0x80 else s

/-- An invalid life-cycle word is found once for each start of the keeper. -/
def checkLcWord (s : State) : State :=
  if lcValid s || s.keeper.lcReported then s else invalidWord (s.onKeeper fun k => { k with lcReported := true }) .keeper 3 (lcWord s) 0x80

/-- An invalid rest word is rewritten as ON, and the domain comes up (R162). -/
def checkRestWord (s : State) (d : Domain) : State :=
  let w := s.get (Ent.REST (domId d))
  if (restOf w).isNone then setRest (invalidWord s .keeper 4 w (domId d)) d 2 else s

def checkWords (s : State) : State := allDomains.foldl checkRestWord (checkLcWord (checkModeWords s))

/-- A word that has not come within 1 s of its request is not waited for (R297, R370); the consumer's request at the RNG is withdrawn. -/
def wordsExpire (s : State) : State :=
  match s.keeper.words with
  | [] => s
  | w :: ws =>
    if s.keeper.aon < s.keeper.wordsAt + 32768 then s
    else wordsCheck (sendWords (wordsGone (rngForget (s.onKeeper fun k => { k with words := ws }) fun x => x == .pool) w))

/-- One cycle: invalid words first, then the events and the standing conditions in the order of R82. -/
def aonCycle (s : State) (evs : List ModeEvent) : State :=
  modeCycle (checkWords (wordsExpire (countAon s))) evs

/-! ## Commands -/

def execKeeperAonCycle (evs : List ModeEvent) (s : State) : Host.Outcome State Fault Refusal := .next (aonCycle s evs)

def execSbSendStart (s : State) : Host.Outcome State Fault Refusal := .next (noteCheck (sbSend s))

def execSbMessageDropped (dies : List Die) (s : State) : Host.Outcome State Fault Refusal := .next (noteCheck (sbDropped s dies))

def execSbMessageCutOff (dies : List Die) (s : State) : Host.Outcome State Fault Refusal := .next (noteCheck (sbCutOff s dies))

def execSbAckTimeout (die : Die) (ty : Nat) (s : State) : Host.Outcome State Fault Refusal := .next (ackTimeout s die ty)

/-- The 1 ms retry timer of a record runs out (R19). -/
def execLogWriteRetry (die : Die) (s : State) : Host.Outcome State Fault Refusal :=
  .next (onSbDie s die fun x => if x.holdSent then { x with holdDue := true } else x)

def execLockup (s : State) : Host.Outcome State Fault Refusal := .next (onArrival s 0 .keeper takeLockup)

def execLockupRepeatTimer (s : State) : Host.Outcome State Fault Refusal := .next (repeatLockup s)

/-- 2 ms after the first LOCKUP (R37). -/
def execLockupResetDelay (s : State) : Host.Outcome State Fault Refusal := .next (if s.keeper.lockedUp then startReset s 2 else s)

def execBackstopAlarm (s : State) : Host.Outcome State Fault Refusal := .next (onArrival s 1 .keeper takeBackstop)

def execBackstopAlarmRepeat (s : State) : Host.Outcome State Fault Refusal :=
  .next (if s.flyer.up && s.flyer.bs.kinds != 0 then sendBackstop s else s)

def execHeartbeat (s : State) : Host.Outcome State Fault Refusal := .next (onArrival s 2 .keeper takeHeartbeat)

def execHeartbeatSendTimer (s : State) : Host.Outcome State Fault Refusal := .next (sendHeartbeat s)

def execHeartbeatTimeout (s : State) : Host.Outcome State Fault Refusal := .next (heartbeatLost s)

/-- Every 60 s while HEARTBEAT is absent (R37). -/
def execFlyerResetRepeat (s : State) : Host.Outcome State Fault Refusal := .next (if s.keeper.hbLost && s.keeper.vddValid then sendReset s else s)

def execLogWrite (s : State) : Host.Outcome State Fault Refusal := .next (onArrival s 3 .keeper takeLog)

def execAck (s : State) : Host.Outcome State Fault Refusal := .next (onBroadcast s 4 takeAck)

def execDomain (s : State) : Host.Outcome State Fault Refusal := .next (onFlyerArrival s 5 takeDomain)

def execDomainResend (s : State) : Host.Outcome State Fault Refusal := .next (resendDomains s)

/-- RESET: the flyer is reset and says HELLO (R37). -/
def execReset (s : State) : Host.Outcome State Fault Refusal :=
  .next (onFlyerArrival s 6 fun s m => restartFlyer (sbLift s .flyer) (m.payload.getD 0 0).toNat)

def execHello (s : State) : Host.Outcome State Fault Refusal := .next (onArrival s 7 .keeper takeHello)

def execPeerReset (s : State) : Host.Outcome State Fault Refusal := .next (onFlyerArrival s 8 takePeerReset)

def execPlyQuiet (s : State) : Host.Outcome State Fault Refusal := .next (onArrival s 9 .keeper fun s _ => quietReached (sbLift s .keeper))

/-- 10 µs after the ACK of PEER_RESET 0 (R38). -/
def execPeerResetQuietTimeout (s : State) : Host.Outcome State Fault Refusal :=
  .next (if (s.sb.keeper.txq.any fun m => m.ty == 8) || sbOutstanding s.sb.keeper 8 then s else quietReached s)

/-- CAPTURE_READY: the wake latch raises CORE, CAPT and PLY_S (R33, R170). -/
def execCaptureReady (s : State) : Host.Outcome State Fault Refusal :=
  .next (onArrival s 0xA .spindle fun s _ => wake (sbLift s .spindle) 0x0B [.core, .capt, .plyS])

def execMode (s : State) : Host.Outcome State Fault Refusal := .next (onBroadcast s 0xB takeMode)

/-- Every 8 s (R20). -/
def execModeRepeatTimer (s : State) : Host.Outcome State Fault Refusal := .next (sendMode s)

def execTime (s : State) : Host.Outcome State Fault Refusal := .next (onBroadcast s 0xC takeTime)

def execCalShadow (s : State) : Host.Outcome State Fault Refusal := .next (onFlyerArrival s 0xD takeShadow)

def execCalShadowResend (s : State) : Host.Outcome State Fault Refusal := .next (shadowResend s)

end Sys2Proof.Machine
end

