-- ==== Sys2Proof/Machine/Clock.lean ====
section
/-! DEFINITION. Clocks and time (R179 to R189): the crystal and its fallback, the FLL, CLK_XO, the second tick, TIME_SET. -/
namespace Sys2Proof.Machine

/-- The AON fallback is in use (R182). -/
def onFallback (s : State) : Bool := bit (s.get Ent.TIME_FLAGS) 1

/-- CLK_XO runs: NET is ON, a crystal was found and the start did not fail (R181). -/
def xoRuns (s : State) : Bool := s.spindle.alive && domState s .net == 2 && s.spindle.xoFound && !s.spindle.xoFail

/-- CLK_STATUS (R196). The FLL counts as locked while CORE is ON (log 44). -/
def clkStatus (s : State) : Nat :=
  (if onFallback s then 2 else 1) + (if s.spindle.alive && s.spindle.xoFound then 4 else 0) + (if xoRuns s then 8 else 0)
    + (if s.spindle.alive && domState s .core == 2 then 16 else 0) + (if s.pads.field then 32 else 0)

/-- No CLK_AON edge for 250 µs (R182). The value and the threshold of a lost clock are not stated: free (log 45). -/
def crystalLost (s : State) : State :=
  if onFallback s then s
  else
    let v := toSigned 32 (Config.freeNat s.free)
    let t := toSigned 32 (Config.freeNat (s.free + 1))
    monitorAlert ((s.used.used.bump Ent.AON_LOSSES).setBits Ent.TIME_FLAGS 2) .keeper 0x43 3 0 0x30 v t false

/-- 1,024 good crystal edges. -/
def crystalReturn (s : State) : State :=
  if onFallback s then monitorEnd (s.put Ent.TIME_FLAGS (clearBits (s.get Ent.TIME_FLAGS) 2)) 0x43 3 else s

/-- A record that goes to the head of queue 02, in the keeper's share: that of a logged set, before any record with the new time (R187). -/
def logKeeperFirst (s : State) (ty src : Nat) (data : Bytes) : State :=
  if (s.log.queue.filter (·.keeper)).length < 4 then
    notePeak (s.onLog fun l => { l with queue := ⟨ty, src, fitBytes 12 data, true⟩ :: l.queue }) 2 (s.log.queue.length + 1)
  else countSummary (noteFull s 2) ty (fitBytes 12 data)

/-- The time is changed (R187). -/
def changeTime (s : State) (v : Nat) : State :=
  sendTime ((((s.put Ent.RTC_TIME v).put Ent.RTC_SUBSEC 0).put Ent.TIME_FLAGS (clearBits (s.get Ent.TIME_FLAGS) 1)).onKeeper fun k => { k with tickAt := none })

/-- A logged set of the time from `old`. -/
def loggedSet (s : State) (u : User) (old v : Nat) : State :=
  let s := logKeeperFirst s 0x55 (userId u) (leBytes 4 old ++ leBytes 4 v)
  let s := (((s.put Ent.LAST_SET_FROM old).put Ent.LAST_SET_TO v).put Ent.LAST_SET_BY (userId u)).bump Ent.TIME_SETS
  raise (changeTime s v) 13

/-- TIME_SET (R187): the state and the status. -/
def timeSet (s : State) (u : User) (v : Nat) : State × Nat :=
  let t := timeBefore s
  if v = t then (s, Sc.ok)
  else if v < t then if modeIs s .commission then (loggedSet s u t v, Sc.ok) else (s, Sc.state)
  else if v ≤ t + 2 then (changeTime (s.bump Ent.TIME_NUDGES) v, Sc.ok)
  else (loggedSet s u t v, Sc.ok)

/-! ## Commands -/

def execAonCrystalLost (s : State) : Host.Outcome State Fault Refusal := .next (crystalLost s)

def execAonCrystalReturn (s : State) : Host.Outcome State Fault Refusal := .next (crystalReturn s)

def execFllUnlock (s : State) : Host.Outcome State Fault Refusal :=
  .next (if s.spindle.alive && domState s .core == 2 then s.bump Ent.FLL_UNLOCKS else s)

/-- The check of CLK_XO after a release ends (R181): one for each release. -/
def execXoCheckEnd (found : Bool) (s : State) : Host.Outcome State Fault Refusal :=
  .next (if s.spindle.alive && !s.spindle.xoChecked then s.onSpindle fun x => { x with xoChecked := true, xoFound := found } else s)

/-- CLK_XO is not within tolerance 50 µs after a wake of NET began (R181): the exit of NET runs, or has completed. -/
def execXoStartFail (s : State) : Host.Outcome State Fault Refusal :=
  .next (if s.spindle.alive && s.spindle.xoFound && !s.spindle.xoFail && (domState s .net == 2 || domState s .net == 4) then
    (s.bump Ent.XO_FAILS).onSpindle fun x => { x with xoFail := true } else s)

def execRtcSecondTick (s : State) : Host.Outcome State Fault Refusal := .next (endSecond s)

end Sys2Proof.Machine
end

