-- ==== Sys2Proof/Machine/Boot.lean ====
section
/-! DEFINITION. The loader (R237 to R258), the keeper's part in booting, OEM keys and their rotation (R246 to R248), the rollback counter (R256) and
the flash operations (R259). -/
namespace Sys2Proof.Machine

/-! ## The flash -/

/-- Bytes of the flash; addresses have 24 bits (R239). -/
def flashBytes (s : State) (a n : Nat) : Bytes := (List.range n).map fun i => s.spindle.mem.flash.get ((a + i) % 2 ^ 24)

/-- DWORD `i` of the basic flash parameter table at `base` (JESD216, log 47). -/
def bfptWord (sfdp : Bytes) (base i : Nat) : Nat := leNat ((sfdp.drop (base + 4 * (i - 1))).take 4)

/-- The SFDP header is good and parameter header 0 is the BFPT (R240 step 2). -/
def sfdpGood (sfdp : Bytes) : Bool := sfdp.take 4 == [0x53, 0x46, 0x44, 0x50] && sfdp.getD 8 1 == 0

/-- Flash size in bytes from DWORD 2 (JESD216: bits − 1, or a power of two where bit 31 is set). -/
def flashSize (d2 : Nat) : Nat := if bit d2 31 then 2 ^ (d2 % 2 ^ 31) / 8 else (d2 + 1) / 8

/-- The directory (R243): DIR_STATE, the read-mode limit, the divider. -/
def readDirectory (b : Bytes) : Nat × Nat × Nat :=
  if b.all (· == 0xFF) then (1, 0, 1)
  else
    let lim := (b.getD 5 0).toNat
    let d := (b.getD 6 0).toNat
    let ok := b.take 5 == [0x53, 0x56, 0x44, 0x52, 1] && lim ≤ 3 && d ≤ 8 && ((b.drop 7).take 23).all (· == 0) && leNat (b.drop 30) == crc16 (b.take 30)
    if ok then (0, lim, if d = 0 then 1 else d) else (2, 0, 1)

/-- The read mode (R241): `quad` that the quad modes are not ruled out by QER and QE. -/
def readMode (d1 limit : Nat) (quad : Bool) : Nat :=
  if bit d1 21 ∧ quad ∧ (limit = 0 ∨ limit = 3) then 3
  else if bit d1 22 ∧ quad ∧ limit ≠ 1 then 2
  else 1

/-! ## The loader -/

/-- A step of the loader that belongs to state `k`. The loader checks its own state word first: an invalid one takes the steps of R80 and ends the
attempt with reason 0x0A (R238, R255). Until handover it runs whenever the die is out of reset (R237). -/
def loaderStep (s : State) (k : Nat) (f : State → State) : State :=
  let w := s.spindle.loader.word
  if !s.spindle.alive || s.spindle.handed then s
  else if !((List.range 6).any fun i => w == wideCode (i + 1)) then loaderFail (invalidWord s .spindle 5 w 0x80) 0x0A
  else if w = wideCode k then f s
  else s

/-- The loader goes to a state of R238. -/
def loaderTo (s : State) (k : Nat) : State := s.onLoader fun l => { l with word := wideCode k }

/-- The loader's attempt is over, reported or failed: HANDED or FAILED (R255). -/
def loaderDone (s : State) : Bool := s.spindle.handed || s.spindle.loader.word == wideCode 5 || s.spindle.loader.word == wideCode 6

/-! ### Transactions (R242) -/

/-- Transactions appear on the flash pads. -/
def onFlBus (s : State) (l : List FlashTx) : State := s.onSpindle fun x => { x with flBus := l }

/-- What the loader reads passes through queue 15. The highest level that it reaches there, of 64 bytes, is open (log 52). -/
def readPeak (s : State) : State := (notePeak s 15 (1 + Config.freeNat s.free % 64)).used

/-- Fast read 0x0B at a divider. -/
def fastRead (div : Nat) : FlashTx := { instr := 0x0B, clocks := 8, div := div }

/-- The read that a mode uses (R241, R242), with DWORD 3 of the BFPT and the directory divider. -/
def modeRead (mode d3 d : Nat) : FlashTx :=
  match mode with
  | 0 => { instr := 0x03, div := 4 }
  | 1 => fastRead d
  | 2 => { instr := bits d3 31 24, lines := 114, clocks := bits d3 23 21 + bits d3 20 16, div := d }
  | _ => { instr := bits d3 15 8, lines := 144, clocks := bits d3 7 5 + bits d3 4 0, div := d }

/-- A read at an address: the flash takes 24 bits of it. -/
def FlashTx.at (t : FlashTx) (a : Nat) : FlashTx := { t with addr := some (a % 2 ^ 24) }

/-- The loader reads from the flash in the mode chosen. -/
def flRead (s : State) (a : Nat) : State := onFlBus s [s.spindle.loader.read.at a]

/-- The instruction that reads the QE bit named by QER; none where QER names no bit (log 47). -/
def qeRead (qer : Nat) : List FlashTx :=
  if qer = 0 ∨ qer = 7 then [] else [{ instr := if qer = 2 then 0x05 else if qer = 3 then 0x3F else 0x35 }]

/-- An SFDP read (R240). -/
def sfdpRead (a : Nat) : FlashTx := { instr := 0x5A, addr := some a, clocks := 8 }

/-- The transactions of discovery (R240 to R243): reset, release from power-down, the SFDP headers; where they are good the BFPT, the directory and the
QE bit; in fallback the directory by 0x03. -/
def discoveryBus (good : Bool) (base qer : Nat) : List FlashTx :=
  [({ instr := 0x66 } : FlashTx), { instr := 0x99 }, { instr := 0xAB }, sfdpRead 0] ++
    if good then sfdpRead base :: (fastRead 8).at 0 :: qeRead qer else [(modeRead 0 0 1).at 0]

/-- Discovery (R240 to R243): `qe` is what the QE bit that QER names reads. -/
def loaderDiscovery (s : State) (sfdp : Bytes) (qe : Bool) : State :=
  let dir := readDirectory (flashBytes s 0 32)
  let base := leNat ((sfdp.drop 12).take 3)
  let d1 := bfptWord sfdp base 1
  let size := flashSize (bfptWord sfdp base 2)
  let long := decide (15 ≤ (sfdp.getD 11 0).toNat)
  let qer := if long then bits (bfptWord sfdp base 15) 22 20 else 7
  let mode := readMode d1 dir.2.1 (qer == 0 || (qer ≤ 6 && qe))
  let s := onFlBus (readPeak s) (discoveryBus (sfdpGood sfdp) base qer)
  if !sfdpGood sfdp then
    loaderTo (s.onLoader fun l => { l with
      fallback := true, size := 0x110000, mode := 0, read := modeRead 0 0 1, div := dir.2.2, dir := dir.1, eraseOk := false }) 2
  else
    let s := s.onLoader fun l => { l with
      size := size, mode := mode, read := modeRead mode (bfptWord sfdp base 3) dir.2.2, div := dir.2.2, dir := dir.1, eraseOk := d1 % 4 == 1,
      erase := bits d1 15 8 }
    if bits d1 18 17 = 2 ∨ size < 0x110000 then loaderFail s 7 else loaderTo s 2

/-- Start of a slot (R244). -/
def slotBase (k : Nat) : Nat := if k = 0 then 0x10000 else 0x90000

/-- Header of a slot's manifest as read at SELECT. -/
def slotHead (l : Loader) (k : Nat) : Bytes := if k = 0 then l.headA else l.headB

/-- Fields of a manifest (R245). -/
def manRollback (h : Bytes) : Nat := leNat ((h.drop 6).take 2)
def manSequence (h : Bytes) : Nat := leNat ((h.drop 8).take 4)
def manSize (h : Bytes) : Nat := leNat ((h.drop 12).take 4)
def manEntry (h : Bytes) : Nat := leNat ((h.drop 16).take 4)
def manKey (h : Bytes) : Nat := (h.getD 24 0).toNat

/-- Bytes 0 to 31 obey the rules of R245. -/
def wellFormed (h : Bytes) : Bool :=
  h.take 6 == [0x53, 0x56, 0x54, 0x31, 1, 0] && manSize h % 4 == 0 && 4 ≤ manSize h && manSize h ≤ 131072 &&
    manEntry h % 2 == 0 && manEntry h < manSize h && leNat ((h.drop 20).take 2) == (manSize h + 4095) / 4096 &&
    leNat ((h.drop 22).take 2) == 4096 && manKey h ≤ 1 && ((h.drop 25).take 7).all (· == 0)

/-- A slot is a candidate (R250). -/
def candidate (s : State) (h : Bytes) : Bool := wellFormed h && s.get Ent.ROLLBACK_COUNTER ≤ manRollback h

/-- The preferred slot (R250). -/
def preferred (s : State) (a b : Bytes) : Nat :=
  if candidate s b ∧ (!candidate s a ∨ manSequence a < manSequence b) then 1 else 0

/-- SELECT (R250). -/
def loaderSelect (s : State) : State :=
  let a := flashBytes s (slotBase 0) 32
  let b := flashBytes s (slotBase 1) 32
  let p := preferred s a b
  let k := if s.keeper.altBit then 1 - p else p
  let h := if k = 0 then a else b
  let r := s.spindle.loader.read
  let s := onFlBus ((readPeak s).onLoader fun l => { l with headA := a, headB := b, slot := k }) [r.at (slotBase 0), r.at (slotBase 1)]
  if candidate s h then loaderTo s 3
  else loaderFail s (if wellFormed h then 2 else 1)

/-- The hash in an OEM key slot. -/
def oemHash (s : State) (k : Nat) : Bytes := leBytes 32 (s.get (if k = 0 then Ent.OEM_KEY_HASH0 else Ent.OEM_KEY_HASH1))

/-- A key slot is programmed and not revoked (R246). -/
def oemUsable (s : State) (k : Nat) : Bool := if k = 0 then s.keeper.oem0 && !s.keeper.revoked0 else s.keeper.oem1

/-- In BLANK or MAKER with neither slot programmed, the manifest's own key is taken (R246). -/
def oemUnbound (s : State) : Bool := (lcNow s == .blank || lcNow s == .maker) && !s.keeper.oem0 && !s.keeper.oem1

/-- The manifest, as crypto scratch holds it. -/
def manifestBytes (s : State) (off n : Nat) : Bytes := s.spindle.mem.scratch.getAll off n

/-- The manifest of the slot being tried is read into crypto scratch (R249). -/
def readManifest (s : State) : State :=
  let a := slotBase s.spindle.loader.slot
  (flRead (readPeak s) a).onMem fun m => { m with scratch := m.scratch.putAll 0 (flashBytes s a 4096) }

/-- The big-number engine is asked to verify the signature under a key (R246). -/
def askVerify (s : State) (key : Nat) : State := (demand (s.onLoader fun l => { l with key := key }) .crypto).onBn fun b => { b with loader := true }

/-- The manifest is in scratch; the key is checked and the verification asked for (R246, R249). -/
def loaderManifest (s : State) : State :=
  let k := manKey (slotHead s.spindle.loader s.spindle.loader.slot)
  let s := readManifest s
  let pub := manifestBytes s 32 64
  if !wellFormed (manifestBytes s 0 32) then loaderFail s 1
  else if oemUnbound s then askVerify s 0xFF
  else if !oemUsable s k || sha256 pub != oemHash s k then loaderFail s 3
  else
    match p256In pub with
    | .ok _ => askVerify s k
    | .error _ => loaderFail s 4

/-- The signature has been verified (R249): the stream starts. -/
def loaderSignature (s : State) : State :=
  if s.spindle.bn.running ≠ some .loader then s
  else
    match ecdsaVerify (manifestBytes s 32 64) (sha256 (manifestBytes s 0 4032)) (manifestBytes s 4032 64) with
    | none => loaderTo (bnCount (bnRelease s) Sc.ok 0) 4
    | some d => loaderFail (bnCount (bnRelease s) Sc.integrity d) 5

/-- Load size of the image being streamed. -/
def loadSize (l : Loader) : Nat := manSize (slotHead l l.slot)

/-- Bytes of the half-block that is read next (R249). -/
def halfLength (l : Loader) : Nat := min 2048 (loadSize l - l.got)

/-- Bytes of block `i`. -/
def blockLength (l : Loader) (i : Nat) : Nat := min 4096 (loadSize l - 4096 * i)

/-- The image is read in one transaction from slot byte 0x1000 on (R249). -/
def openStream (s : State) (l : Loader) : State := if l.got = 0 then flRead s (slotBase l.slot + 0x1000) else s

/-- A half-block arrives: to code SRAM and to its buffer, and a SHA-256 job is placed that continues the hash of its block (R249). While the queue of
the engine is full, the transaction is held up and the half-block does not arrive. -/
def loaderHalf (s : State) : State :=
  let l := s.spindle.loader
  let n := halfLength l
  let buf := 0x1000 + l.got / 2048 % 2 * 0x800
  let job := shaPush (openStream s l) (.half (0x30000000 + buf) n (l.got + n == min (loadSize l) (4096 * (l.got / 4096) + 4096)))
  if n = 0 ∨ !job.2 then job.1
  else
    let d := flashBytes s (slotBase l.slot + 0x1000 + l.got) n
    ((readPeak job.1).onMem fun m => { m with code := m.code.putAll l.got d, scratch := m.scratch.putAll buf d }).onLoader fun l => { l with got := l.got + n }

/-- Every half-block of a block has been hashed: the digest is compared with its entry of the manifest (R249). -/
def loaderDigest (s : State) : State :=
  let l := s.spindle.loader
  match l.digest with
  | none => s
  | some d =>
    if d = manifestBytes s (96 + 32 * l.block) 32 then s.onLoader fun l => { l with digest := none, block := l.block + 1 }
    else loaderFail (s.onLoader fun l => { l with digest := none, failBlock := l.block }) 6

/-- The close (R249): code SRAM above the load size and crypto scratch are zero. -/
def loaderClose (s : State) : State :=
  let l := s.spindle.loader
  if 4096 * l.block < loadSize l then s
  else
    let image := s.spindle.mem.code.getAll 0 (loadSize l)
    loaderTo ((s.onMem fun m => { m with code := ({} : Region).putAll 0 image, scratch := {} }).onLoader fun l => { l with report := some 0 }) 5

/-! ## BOOT_REPORT (R251 to R254, R257) -/

/-- The debug port at handover (R100). -/
def debugAtHandover (s : State) : Bool := lcValid s && (lcNow s == .blank || lcNow s == .maker)

/-- The boot entries that the loader sets at handover (R260). -/
def publishBoot (s : State) : State :=
  let l := s.spindle.loader
  let h := slotHead l l.slot
  let s := ((s.put Ent.BOOT_SLOT l.slot).put Ent.BOOT_SEQ (manSequence h)).put Ent.BOOT_RBV (manRollback h)
  let s := (((s.put Ent.BOOT_KEY l.key).put Ent.BOOT_MODE l.mode).put Ent.BOOT_DIV l.div).put Ent.FL_SIZE l.size
  ((s.put (Ent.SLOT_HEADER 1) (leNat (l.headA.take 24))).put (Ent.SLOT_HEADER 2) (leNat (l.headB.take 24))).put Ent.DIR_STATE l.dir

/-- The core as it is handed over (R257). -/
def handedCore (c : Core) (entry slot seq : Nat) (debug : Bool) : Core :=
  { Core.atReset with
    pc := BitVec.ofNat 32 (0x10000000 + entry), gpr := ((List.replicate 31 0).set 9 (BitVec.ofNat 32 slot)).set 10 (BitVec.ofNat 32 seq),
    debugOpen := debug, aontime := c.aontime, aoncmp := c.aoncmp }

/-- The keeper's part of the handover. -/
def keeperHandover (s : State) : State :=
  let s := wdtStart (s.put Ent.BOOT_FAILS 0)
  clearFault (s.onKeeper fun k => { k with altBit := false, bootBad := false, attempt := false }) 8

/-- Handover (R257). -/
def handover (s : State) : State :=
  let l := s.spindle.loader
  let h := slotHead l l.slot
  let s := (publishBoot s).onCore fun c => handedCore c (manEntry h) l.slot (manSequence h) (debugAtHandover s)
  let s := (s.onSpindle fun x => { x with handed := true, loader := { l with report := none } }).put Ent.CORE_STATE 2
  let s := sendHello (keeperHandover s) .spindle (s.get Ent.RESET_CAUSE)
  if s.spindle.mode = some .supervise then setCodeLock s true else s

/-- The data of a BOOT_FAIL record (R254): sequence and rollback version of a well-formed tried manifest. -/
def bootFailData (s : State) (reason : Nat) : Bytes :=
  let l := s.spindle.loader
  let h := slotHead l l.slot
  let h := if wellFormed h then h else zeros 32
  [byte reason, byte l.slot] ++ leBytes 2 l.failBlock ++ leBytes 2 (min (s.get Ent.BOOT_FAILS + 1) 65535) ++ leBytes 4 (manSequence h)
    ++ leBytes 2 (manRollback h)

/-- CLK_AON cycles in a day (R254). -/
def aonDay : Nat := 86400 * 32768

/-- The record of a failure: for failures 1 to 8, then one in a day. -/
def bootRecord (s : State) (d : Die) (reason : Nat) : State :=
  let due := s.get Ent.BOOT_FAILS < 8 || (match s.keeper.bootRecAt with | some t => decide (t + aonDay ≤ s.keeper.aon) | none => true)
  if due then (record s d 0x54 (if d = .keeper then 0x43 else 0x10) (bootFailData s reason)).onKeeper fun k => { k with bootRecAt := some k.aon }
  else s

/-- The keeper counts a failed attempt and resets the spindle die (R252). -/
def bootFailed (s : State) (d : Die) (reason : Nat) : State :=
  let l := s.spindle.loader
  let s := bootRecord s d reason
  let s := (s.bump Ent.BOOT_ATTEMPTS).put Ent.LAST_FAIL (reason + 256 * l.slot + 65536 * l.failBlock)
  let s := s.put Ent.BOOT_FAILS (min (s.get Ent.BOOT_FAILS + 1) 65535)
  let s := s.onKeeper fun k => { k with altBit := !k.altBit, attempt := false }
  let s := if s.get Ent.BOOT_FAILS = 8 then setFault (s.onKeeper fun k => { k with bootBad := true }) 3 0x43 else s
  startReset s 7

/-- The keeper takes BOOT_REPORT. -/
def bootReport (s : State) : State :=
  match s.spindle.loader.report with
  | none => s
  | some 0 => handover s
  | some r => bootFailed (s.onLoader fun l => { l with report := none }) .spindle r

/-- 500 ms without a report (R253). -/
def bootTimeout (s : State) : State :=
  if s.keeper.attempt && s.spindle.alive && !s.spindle.handed && s.spindle.loader.report.isNone then
    bootFailed (loaderTo s 6) .keeper 9
  else s

/-! ## Keys and the rollback counter -/

/-- ROLLBACK_COMMIT (R256). -/
def rollbackCommit (s : State) (u : User) (v : Nat) : State × Nat :=
  let old := s.get Ent.ROLLBACK_COUNTER
  let new := s.get Ent.BOOT_RBV
  if v ≠ 1 then (s, Sc.range)
  else if old = 65535 then (s, Sc.exhausted)
  else if new ≤ old then (s, Sc.ok)
  else (logKeeper (s.put Ent.ROLLBACK_COUNTER new) 0x34 (userId u) (leBytes 2 old ++ leBytes 2 new), Sc.ok)

/-- The 48-byte message of a rotation (R247). -/
def rotMessage (s : State) : Bytes := [0x53, 0x56, 0x4B, 0x52] ++ leBytes 32 (s.get Ent.ROT_NEW_HASH) ++ List.ofFn Config.serial

/-- The rotation verifies: hash, key and signature. -/
def rotVerifies (s : State) (sig : Bytes) : Bool :=
  let pub := leBytes 64 (s.get Ent.ROT_OLD_PUB)
  sha256 pub == oemHash s 0 && (ecdsaVerify pub (sha256 (rotMessage s)) sig).isNone

/-- The record of a rotation. -/
def rotRecord (s : State) (u : User) (status : Nat) : State :=
  logKeeper s 0x32 (userId u) (byte status :: (leBytes 32 (s.get Ent.ROT_NEW_HASH)).take 8)

/-- ROT_SIG (R247). -/
def rotSig (s : State) (u : User) (sig : Bytes) : State × Nat :=
  if s.keeper.oem1 then (s, Sc.locked)
  else if !oemUsable s 0 ∨ s.keeper.vddMv < 2400 then (s, Sc.state)
  else if rotVerifies s sig then
    (rotRecord ((s.put Ent.OEM_KEY_HASH1 (s.get Ent.ROT_NEW_HASH)).onKeeper fun k => { k with oem1 := true }) u Sc.ok, Sc.ok)
  else (rotRecord s u Sc.integrity, Sc.integrity)

/-- KEY_REVOKE0 (R248). -/
def keyRevoke0 (s : State) (u : User) (v : Nat) : State × Nat :=
  if s.get Ent.BOOT_KEY ≠ 1 ∨ s.keeper.vddMv < 2400 then (s, Sc.state)
  else if v ≠ 1 then (s, Sc.range)
  else (logKeeper (s.onKeeper fun k => { k with revoked0 := true }) 0x33 (userId u) [], Sc.ok)

/-- BOOT_FLAGS (R260). -/
def bootFlags (s : State) : Nat :=
  (if s.keeper.oem0 then 1 else 0) + (if s.keeper.oem1 then 2 else 0) + (if s.keeper.revoked0 then 4 else 0)
    + (if s.get Ent.ROLLBACK_COUNTER = 65535 then 8 else 0) + (if s.spindle.loader.fallback then 16 else 0)

/-! ## Flash operations (R259) -/

/-- The range touches the booted slot. -/
def inBootSlot (s : State) (a n : Nat) : Bool :=
  let b := slotBase (s.get Ent.BOOT_SLOT)
  a < b + 0x80000 && b < a + n

/-- The status that a write of FL_OP has. -/
def flOpStatus (s : State) (op : Nat) : Nat :=
  let a := s.get Ent.FL_ADDR
  let l := s.spindle.loader
  if (op = 2 ∧ (inBootSlot s a 64 ∨ l.fallback)) ∨ (op = 3 ∧ (inBootSlot s a 4096 ∨ l.fallback ∨ !l.eraseOk)) then Sc.state
  else if op = 0 ∨ 3 < op then Sc.range
  else if op < 3 ∧ l.size < a + 64 then Sc.range
  else if op = 2 ∧ a % 64 ≠ 0 then Sc.range
  else if op = 3 ∧ a % 4096 ≠ 0 then Sc.range
  else if s.spindle.flOp.isSome then Sc.busy
  else Sc.ok

/-- The transactions with which an operation starts (R242, R259). -/
def flOpBus (l : Loader) (op a : Nat) : List FlashTx :=
  let one (i : Nat) : FlashTx := { instr := i, div := l.div }
  if op = 1 then [l.read.at a] else [one 0x06, (one (if op = 2 then 0x02 else l.erase)).at a]

/-- FL_OP: the operation starts. -/
def flOp (s : State) (op : Nat) : State × Nat :=
  let c := flOpStatus s op
  if c = Sc.ok then
    (((onFlBus s (flOpBus s.spindle.loader op (s.get Ent.FL_ADDR))).onSpindle fun x => { x with flOp := some (op, s.get Ent.FL_ADDR) }).put Ent.FL_STATUS (s.get Ent.FL_STATUS / 256 * 256 + 1), c)
  else (s, c)

/-- An operation ends with a status. -/
def flEnd (s : State) (status : Nat) : State := (s.onSpindle fun x => { x with flOp := none }).put Ent.FL_STATUS (256 * status)

/-- The status poll that ends a program or an erase (R259). -/
def flPoll (s : State) (op : Nat) : State := if op = 1 then s else onFlBus s [{ instr := 0x05, div := s.spindle.loader.div }]

/-- What an operation does to the flash, whose addresses have 24 bits (R242): a program clears bits, an erase sets them (log 46). -/
def flDo (s : State) (op a : Nat) : State :=
  if op = 1 then s.put Ent.FL_DATA (leNat (flashBytes s a 64))
  else if op = 2 then
    let d := List.zipWith (· &&& ·) (flashBytes s a 64) (leBytes 64 (s.get Ent.FL_DATA))
    s.onMem fun m => { m with flash := m.flash.putAll (a % 2 ^ 24) d }
  else s.onMem fun m => { m with flash := m.flash.putAll (a % 2 ^ 24) (List.replicate 4096 0xFF) }

def flComplete (s : State) : State :=
  match s.spindle.flOp with
  | some (op, a) => flEnd (flPoll (flDo s op a) op) Sc.ok
  | none => s

/-- The limit has passed: what the flash holds in the range is open (log 37). -/
def flTimeout (s : State) : State :=
  match s.spindle.flOp with
  | some (op, _) => flEnd (flPoll (cutFlash s) op) Sc.timeout
  | none => s

/-! ## Commands -/

def execLoaderDiscovery (sfdp : Bytes) (qe : Bool) (s : State) : Host.Outcome State Fault Refusal :=
  .next (loaderStep s 1 fun s => loaderDiscovery s sfdp qe)

def execLoaderSelect (s : State) : Host.Outcome State Fault Refusal := .next (loaderStep s 2 loaderSelect)

/-- The manifest is read, unless its verification is under way. -/
def execLoaderManifestRead (s : State) : Host.Outcome State Fault Refusal :=
  .next (loaderStep s 3 fun s => if s.spindle.bn.loader || s.spindle.bn.running == some .loader then s else loaderManifest s)

def execLoaderSignatureDone (s : State) : Host.Outcome State Fault Refusal := .next (loaderStep s 3 loaderSignature)

def execLoaderHalfBlock (s : State) : Host.Outcome State Fault Refusal := .next (loaderStep s 4 loaderHalf)

def execLoaderBlockDigest (s : State) : Host.Outcome State Fault Refusal := .next (loaderStep s 4 loaderDigest)

def execLoaderClose (s : State) : Host.Outcome State Fault Refusal := .next (loaderStep s 4 loaderClose)

def execBootReport (s : State) : Host.Outcome State Fault Refusal :=
  .next (if s.spindle.alive && !s.spindle.handed then bootReport s else s)

def execBootAttemptTimeout (s : State) : Host.Outcome State Fault Refusal := .next (bootTimeout s)

/-- 64 s after the 8th or a later failure (R252). -/
def execBootRetryDelayExpiry (s : State) : Host.Outcome State Fault Refusal :=
  .next (if s.keeper.seq = .heldBackoff then releaseIfDue (s.onKeeper fun k => { k with seq := .held }) else s)

def execFlOpComplete (s : State) : Host.Outcome State Fault Refusal := .next (flComplete s)

def execFlOpTimeout (s : State) : Host.Outcome State Fault Refusal := .next (flTimeout s)

end Sys2Proof.Machine
end

