-- ==== Sys2Proof/Machine/Lifecycle.lean ====
section
/-! DEFINITION. Requests and timers of the mode machine, end of life, the life-cycle fuses (R85 to R99) and the debug port (R100 to R102). -/
namespace Sys2Proof.Machine

/-! ## MODE_REQUEST (R85) -/

/-- The target that a mode names, where some row of R84 lets a user request it. -/
def targetOf : Mode → Option ModeTarget
  | .calibrate => some .calibrate
  | .factory => some .factory
  | .supervise => some .supervise
  | .commission => some .commission
  | .verify => some .verify
  | .alarm => some .alarm
  | .hush => some .hush
  | .selftest => some .selftest
  | .echo => none
  | .fault => none
  | .endOfLife => none
  | .retired => none

/-- The user is a requester of some row for the target (R84). -/
def mayTarget (u : User) (t : ModeTarget) : Bool :=
  match t with
  | .verify | .alarm => u == .M
  | .selftest => u == .M || u == .A || u == .B || u == .C || u == .N
  | .calibrate | .factory | .supervise | .commission | .hush => u == .M || u == .A || u == .B || u == .C

/-- A request by a user for a target: the state and the status. A request for ALARM while the mode is ALARM is answered OK as R85 answers one for the
current mode, where R138 answers STATE outside VERIFY and ECHO (DESIGN CHOICE, log 105). -/
def modeRequestTo (s : State) (u : User) (t : ModeTarget) (m : Mode) : State × Nat :=
  if !mayTarget u t then (s, Sc.denied)
  else if modeIs s m then (s, Sc.ok)
  else if (requestTo s u t).isSome then (takeRequest s u t, Sc.ok)
  else (takeRequest s u t, Sc.state)

/-- A word written to MODE_REQUEST. -/
def modeRequest (s : State) (u : User) (w : Nat) : State × Nat :=
  match modeOf w with
  | none => (s, Sc.range)
  | some m =>
    match targetOf m with
    | none => (s, Sc.denied)
    | some t => modeRequestTo s u t m

/-! ## FAULT_CAUSE (R92) -/

/-- The status of a write of FAULT_CAUSE. -/
def faultClearStatus (u : User) (v : Nat) : Nat :=
  if bit v 0 ∧ u ≠ .M then Sc.denied else if 256 ≤ v then Sc.range else Sc.ok

/-! ## Seconds (R94, R95) -/

/-- The device has been commissioned. -/
def commissioned (s : State) : Bool := s.get Ent.COMMISSIONED_AT != 0

/-- A claim's remaining seconds run down (R70). -/
def claimSecond (s : State) (g : Nat) : State :=
  let v := s.get (Ent.CLAIM g)
  if v % 256 = 0x80 ∨ v < 256 then s else s.put (Ent.CLAIM g) (v - 256)

/-- One second of CLK_AON with VDD_IN valid: SERVICE_SECONDS once the device is commissioned (R94), and what counts down in seconds: HUSH_LEFT,
the leases. -/
def secondPasses (s : State) : State :=
  if !s.keeper.vddValid then s
  else
    let s := if commissioned s then s.put Ent.SERVICE_SECONDS (min (s.get Ent.SERVICE_SECONDS + 1) 0xFFFFFFFF) else s
    let s := s.put Ent.HUSH_LEFT (s.get Ent.HUSH_LEFT - 1)
    claimGroups.foldl claimSecond s

/-- SERVICE_SECONDS and RTC_TIME are committed (R94, R189). -/
def commitService (s : State) : State := s.onKeeper fun k => { k with savedService := s.get Ent.SERVICE_SECONDS, savedTime := now s }

/-- Seconds that the horn has sounded are committed with them (R158). -/
def commitHorn (s : State) : State :=
  let h := s.flyer.horn
  let n := h.onCycles + if h.on then s.keeper.aon - h.onAt else 0
  (s.bumpBy Ent.HORN_ON_TIME (n / 32768)).onHorn fun h => { h with onCycles := n % 32768, onAt := if h.on then s.keeper.aon else h.onAt }

/-! ## The life-cycle (R96 to R99) -/

/-- The table of R97 allows the change. -/
def lcAllowed (now_ target : Lc) : Bool :=
  match now_, target with
  | .blank, .maker => true
  | .maker, .owned => true
  | .maker, .field => true
  | .owned, .field => true
  | .owned, .retired => true
  | .field, .retired => true
  | _, _ => false

/-- The conditions of R97. -/
def lcConditions (s : State) (target : Lc) : Bool :=
  match lcNow s, target with
  | .maker, _ => target == .maker || (!bit (s.get Ent.FAULT_CAUSE) 7 && (s.keeper.oem0 || s.keeper.oem1) && modeIn s [.factory, .supervise])
  | .owned, _ => !modeIn s [.alarm, .echo, .hush]
  | .field, _ => !modeIn s [.alarm, .echo, .hush]
  | _, _ => true

/-- The first write of a change (R98). While rows are being programmed no other change is armed (log 48). While a request is armed, another valid one
takes its place and a refused one leaves it armed (DESIGN CHOICE, log 101: the spec does not say). -/
def lcArm (s : State) (u : User) (t : Lc) : State × Nat :=
  if !lcValid s || !lcAllowed (lcNow s) t then (s, Sc.locked)
  else if s.keeper.lcProgramming.isSome || !lcConditions s t then (s, Sc.state)
  else (s.onKeeper fun k => { k with lcArmed := some (u, lcRow t) }, Sc.ok)

/-- The second write (R98). -/
def lcConfirm (s : State) (u : User) (t : Lc) : State × Nat :=
  if !lcValid s then (s, Sc.locked)
  else if s.keeper.lcArmed ≠ some (u, lcRow t) then (s.onKeeper fun k => { k with lcArmed := none }, Sc.state)
  else if !lcConditions s t ∨ s.keeper.vddMv < 2400 then (s, Sc.state)
  else ((commitService s).onKeeper fun k => { k with lcArmed := none, lcProgramming := some (u, lcRow t) }, Sc.ok)

/-- The bitwise complement of a 32-bit word. -/
def complement32 (w : Nat) : Nat := 0xFFFFFFFF - w % 2 ^ 32

/-- The armed target whose complement the word is. FIELD's complement is also the code of BLANK: while FIELD is armed the word is the complement
(log 63). -/
def lcArmedBy (s : State) (w : Nat) : Option Lc :=
  allLc.find? fun t => s.keeper.lcArmed.map (·.2) == some (lcRow t) && w == complement32 (lcCode t)

/-- LC_REQUEST: a target code arms, its complement confirms. -/
def lcRequest (s : State) (u : User) (w : Nat) : State × Nat :=
  match lcArmedBy s w with
  | some t => lcConfirm s u t
  | none =>
    match lcOf w with
    | some t => lcArm s u t
    | none =>
      match lcOf (complement32 w) with
      | some t => lcConfirm s u t
      | none => (s, if lcValid s then Sc.range else Sc.locked)

/-- What the new life-cycle means for the mode (R84). -/
def lcMode (s : State) : State :=
  match lcNow s with
  | .retired => lcBecameRetired s
  | .owned | .field => if modeIn s [.factory, .calibrate] then afterEvent (enterMode s (baseMode s) 0x43) 0x43 else s
  | .blank | .maker => s

/-- Every row is programmed (R96, R99, R311). -/
def lcProgrammed (s : State) : State :=
  match s.keeper.lcProgramming with
  | none => s
  | some (u, row) =>
    let old := lcWord s
    let s := (lcProgramRows s row).foldl (fun s r => setLcRow s r.1 r.2) s
    let s := s.onKeeper fun k => { k with lcProgramming := none }
    let s := logKeeper s 0x30 (userId u) (leBytes 4 old ++ leBytes 4 (lcWord s))
    startReset (lcMode s) 4

/-! ## The debug port (R100 to R102) -/

/-- DEBUG_STATE (R103). -/
def debugState (s : State) : Nat :=
  if !lcValid s then 0
  else
    match lcNow s with
    | .blank | .maker => 2
    | .owned => if s.spindle.core.debugOpen then 3 else 1
    | .field | .retired => 0

/-- DBG_NEW (R101): 32 bytes of the RNG, or BUSY. -/
def dbgNew (s : State) (v : Nat) : State × Nat :=
  if s.keeper.dbgLockout then (s, Sc.state)
  else if v = 0 then (s, Sc.range)
  else
    let s := demand s .rng
    let r := s.spindle.rng
    if r.waiting.isEmpty ∧ 8 ≤ r.fifo.length then
      let s := s.onRng fun r => { r with fifo := r.fifo.drop 8 }
      ((s.put Ent.DBG_CHALLENGE (leNat (wordBytes (r.fifo.take 8)))).onKeeper fun k => { k with dbgValid := true }, Sc.ok)
    else (s, Sc.busy)

/-- The challenge is gone. DBG_CHALLENGE then reads zero (DESIGN CHOICE, log 102: the spec gives only what a current challenge reads). -/
def dbgForget (s : State) : State := (s.put Ent.DBG_CHALLENGE 0).onKeeper fun k => { k with dbgValid := false }

/-- The 52-byte message (R101). -/
def dbgMessage (s : State) : Bytes :=
  [0x53, 0x56, 0x44, 0x42] ++ leBytes 32 (s.get Ent.DBG_CHALLENGE) ++ List.ofFn Config.serial ++ leBytes 4 (lcCode .owned)

/-- The unlock verifies under the active OEM key slot (R101, R246). -/
def dbgVerifies (s : State) (sig : Bytes) : Bool :=
  let key := leBytes 64 (s.get Ent.DBG_KEY)
  s.keeper.dbgValid && sha256 key == oemHash s (if s.keeper.oem1 then 1 else 0) && (ecdsaVerify key (sha256 (dbgMessage s)) sig).isNone

/-- The record of an attempt (R311). -/
def dbgRecord (s : State) (u : User) (status : Nat) : State :=
  logDie s .spindle 0x31 (userId u) (byte status :: leBytes 2 (s.get Ent.DBG_FAILS) ++ (sha256 (leBytes 64 (s.get Ent.DBG_KEY))).take 8)

/-- DBG_SIG. -/
def dbgSig (s : State) (u : User) (sig : Bytes) : State × Nat :=
  if dbgVerifies s sig then (dbgRecord ((dbgForget s).onCore fun c => { c with debugOpen := true }) u Sc.ok, Sc.ok)
  else (dbgRecord (((dbgForget s).bump Ent.DBG_FAILS).onKeeper fun k => { k with dbgLockout := true }) u Sc.integrity, Sc.integrity)

/-! ## Commands -/

/-- A press ends with the button released. -/
def execTestBtnPress (s : State) : Host.Outcome State Fault Refusal := .next (buttonPress (s.onPads fun p => { p with testBtnLow := false }))

/-- A hold takes effect while the button is down. -/
def execTestBtnHold (s : State) : Host.Outcome State Fault Refusal := .next (buttonHold (s.onPads fun p => { p with testBtnLow := true }))

def execVerifyTimeout (s : State) : Host.Outcome State Fault Refusal := .next (verifyEnds s)

def execCommissionTimeout (s : State) : Host.Outcome State Fault Refusal := .next (commissionEnds s)

def execHushExpiry (s : State) : Host.Outcome State Fault Refusal := .next (hushEnds s)

def execServiceSecondTick (s : State) : Host.Outcome State Fault Refusal := .next (secondPasses s)

def execServiceCommitHourly (s : State) : Host.Outcome State Fault Refusal := .next (commitHorn (commitService s))

def execEndOfLifeReached (s : State) : Host.Outcome State Fault Refusal := .next (endOfLife s)

/-- An armed request lapses after 1 s (R98). -/
def execLcRequestExpiry (s : State) : Host.Outcome State Fault Refusal := .next (s.onKeeper fun k => { k with lcArmed := none })

def execLcProgramComplete (s : State) : Host.Outcome State Fault Refusal := .next (lcProgrammed s)

/-- 60 s after its draw (R101). -/
def execDbgChallengeExpiry (s : State) : Host.Outcome State Fault Refusal := .next (dbgForget s)

def execDbgLockoutExpiry (s : State) : Host.Outcome State Fault Refusal := .next (s.onKeeper fun k => { k with dbgLockout := false })

/-- No matching BEACON for ECHO_TIMEOUT seconds (R142). -/
def execEchoTimeoutExpiry (s : State) : Host.Outcome State Fault Refusal := .next (refreshRelayed (s.onKeeper fun k => { k with relCan := 0 }))

/-- A scheduled test falls due (R151): never before commissioning. -/
def execSelftestDue (s : State) : Host.Outcome State Fault Refusal :=
  .next (if commissioned s && s.get Ent.ST_NEXT_DUE ≤ s.get Ent.SERVICE_SECONDS then selftestDue s else s)

end Sys2Proof.Machine
end

