-- ==== Sys2Proof/Machine/CanBus.lean ====
section
/-! DEFINITION. The CAN controller (R326 to R335, R339 to R347): queue 09, the frames it forms, joining, back-off and bus-off. -/
namespace Sys2Proof.Machine

/-! ## The state of the controller -/

/-- CLK_XO is absent (R181, R332). -/
def xoAbsent (s : State) : Bool := (s.spindle.xoChecked && !s.spindle.xoFound) || s.spindle.xoFail

/-- Every push into queue 09 fails (R332, R347). -/
def canBlocked (s : State) : Bool :=
  s.get Ent.CAN_ENABLE == 0 || s.get Ent.LISTEN_ONLY == 1 || xoAbsent s || s.spindle.can.busOff

/-- The controller has joined the bus and NET is ON. With TEC above 255 it is about to leave the bus (R346). -/
def canOnBus (s : State) : Bool :=
  xoRuns s && s.spindle.xoChecked && s.get Ent.CAN_ENABLE == 1 && s.spindle.can.joined && !s.spindle.can.busOff && decide (s.get Ent.TEC ≤ 255)

/-- The controller may send (R332, R342). -/
def canSends (s : State) : Bool := canOnBus s && s.get Ent.LISTEN_ONLY == 0

/-- CAN_STATE (R349). Of several reasons the first of NET not ON, disabled, no CLK_XO, listen-only is read (log 52). -/
def canState (s : State) : Nat :=
  let c := s.spindle.can
  if domState s .net ≠ 2 then 8
  else if s.get Ent.CAN_ENABLE = 0 then 0
  else if xoAbsent s then 7
  else if s.get Ent.LISTEN_ONLY = 1 then 6
  else if c.busOff then if c.held then 5 else 4
  else if !c.joined then 1
  else if 128 ≤ s.get Ent.TEC ∨ 128 ≤ s.get Ent.REC then 3 else 2

/-- BACKOFF_LEFT: milliseconds of back-off left. -/
def backoffLeft (s : State) : Nat :=
  match s.spindle.can.backoff with
  | some e => min (((e - s.keeper.aon) * 1000 + 32767) / 32768) 65535
  | none => 0

/-! ## Queue 09 -/

/-- The identifier of a BEACON. -/
def isBeacon (f : Frame) : Bool := f.id == 0

/-- Frames that the queue holds, the one being sent among them. -/
def canLevel (s : State) : Nat := s.spindle.can.tx.length + if s.spindle.can.sending.isSome then 1 else 0

/-- A frame behind those of its identifier and of the lower ones (R332). -/
def canInsert (f : Frame) : List Frame → List Frame
  | [] => [f]
  | g :: gs => if f.id < g.id then f :: g :: gs else g :: canInsert f gs

/-- A push raises NET where it is not ON (R330); no code of R170 names this wake (log 30). -/
def raiseNet (s : State) : State := raiseDomain s none .net .net

/-- Frames pushed together go in only if all of them fit (R337); a failed push is counted (R332, R338). -/
def canPush (s : State) (fs : List Frame) : State × Bool :=
  if canBlocked s then (s.bumpBy Ent.TX_DROPPED fs.length, false)
  else if 4 < canLevel s + fs.length then ((noteFull s 9).bumpBy Ent.TX_DROPPED fs.length, false)
  else
    let s := s.onCan fun c => { c with tx := fs.foldl (fun q f => canInsert f q) c.tx }
    (raiseNet (notePeak s 9 (canLevel s)), true)

/-- The length to which the payload of an FD frame is padded (R332). -/
def fdLength (n : Nat) : Nat := (fdLengths.find? fun k => n ≤ k).getD 64

/-- A frame of the device's own: function, own node ID, padded payload (R331, R332). -/
def ownFrame (s : State) (fn : Nat) (data : Bytes) : Frame := ⟨fn * 128 + s.get Ent.NODE_ID, fitBytes (fdLength data.length) data, true⟩

/-- A frame pushed; while NODE_ID is 0 only BEACON is sent, and no other frame is formed (R332, log 52). -/
def canPushOwn (s : State) (fn : Nat) (datas : List Bytes) : State :=
  if s.get Ent.NODE_ID = 0 then s else (canPush s (datas.map (ownFrame s fn))).1

/-! ## Frames of the device -/

def serialBytes : Bytes := List.ofFn Config.serial

/-- A BEACON and its SOURCE (R333, R334). -/
def sendBeacon (s : State) : State :=
  let kinds := (s.get Ent.BS_ALARM ||| s.get Ent.ALARM_FW) % 8
  let zone := s.get Ent.ALARM_ZONE % 16
  let r := canPush (s.onCan fun c => { c with beaconDelay := none }) [⟨0, [byte kinds, byte zone], false⟩]
  if r.2 then canPushOwn r.1 1 [[byte kinds, byte zone, byte (s.get Ent.BS_ALARM), byte (s.get Ent.ALARM_FW)] ++ serialBytes] else r.1

/-- NOTICE frames (R339): one for each time that a bit has become set, each as it was formed; where none is owed, one again while a bit stays set,
unless NOTICE_REPEAT is 0. -/
def sendNotice (s : State) : State :=
  let owed := s.spindle.can.notices
  if owed ≠ [] then owed.foldl (fun s p => canPushOwn s 4 [p]) (s.onCan fun c => { c with notices := [] })
  else if signalled s .N = 0 ∨ s.get Ent.NOTICE_REPEAT = 0 then s
  else canPushOwn s 4 [noticePayload s]

/-- A TIME frame (R340). -/
def sendTimeFrame (s : State) : State :=
  if s.get Ent.TIME_PERIOD = 0 then s
  else canPushOwn s 5 [leBytes 4 (now s) ++ leBytes 2 (s.get Ent.RTC_SUBSEC) ++ [byte (s.get Ent.TIME_FLAGS), 0]]

/-- A HEARTBEAT (R341). -/
def sendCanHeartbeat (s : State) : State :=
  if s.get Ent.HB_PERIOD = 0 then s
  else canPushOwn s 6 [[byte (s.get Ent.MODE / 16 % 16), byte (s.get Ent.BASE_MODE / 16 % 16)] ++ leBytes 2 (s.get Ent.FAULT_CAUSE) ++ serialBytes]

/-! ## Sending (R335, R343, R345) -/

/-- The byte b of R343: of a word of the RNG as a software read would take it, else of the bit-time counter, whose value is free (log 53). -/
def canRandom (s : State) : State × Nat :=
  let r := s.spindle.rng
  let s := demand s .rng
  match r.waiting, r.fifo with
  | [], w :: ws => (s.onRng fun r => { r with fifo := ws }, w.toNat % 256)
  | _, _ => ((s.bump Ent.RNG_EMPTY_READS).used, Config.freeNat s.free % 256)

/-- Transmission of the head of queue 09 starts; during a back-off, and while NODE_ID is 0, only a BEACON (R332, R343, R345). -/
def canStart (s : State) : State :=
  let c := s.spindle.can
  match c.tx with
  | f :: fs =>
    if !canSends s || c.sending.isSome || ((c.backoff.isSome || s.get Ent.NODE_ID == 0) && !isBeacon f) then s
    else s.onCan fun c => { c with tx := fs, sending := some f, count := 0, lastPos := 0 }
  | [] => s

/-- A frame is sent without error (R329, R345, R347); TEC falls by one as ISO 11898-1 states. A controller that may not send completes none
(R332, R342). -/
def canSent (s : State) (delay : Nat) : State :=
  match s.spindle.can.sending with
  | none => s
  | some f =>
    if !canSends s then s
    else
    let s := (s.bump Ent.TX_FRAMES).onCan fun c => { c with sending := none, sinceOk := 0, count := 0 }
    let s := s.put Ent.TEC (s.get Ent.TEC - 1)
    let s := if f.fd && s.get Ent.DATA_RATE != 0 then s.put Ent.TDC_MEAS delay else s
    if isBeacon f then s.bump Ent.BEACONS_SENT else s

/-- The number of an error in ERR_COUNT and LAST_ERROR. -/
def canErrorNum : CanError → Nat
  | .bit => 1 | .stuff => 2 | .form => 3 | .crc => 4 | .ack => 5

/-- An error is counted (R346, R349). -/
def countError (s : State) (e : CanError) (sending dataPhase : Bool) (id : Nat) : State :=
  (s.bump (Ent.ERR_COUNT (canErrorNum e))).put Ent.LAST_ERROR
    (canErrorNum e + (if sending then 8 else 0) + (if dataPhase then 16 else 0) + id % 2048 * 65536)

/-- A node-ID conflict shows (R343, R344). -/
def nodeConflict (s : State) (pos id : Nat) : State :=
  let s := ((s.bump Ent.DUP_COUNT).put Ent.DUP_LAST (id % 2048 + pos % 512 * 65536)).put Ent.DUP_LAST_TIME (now s)
  raise (s.put Ent.NODE_CONFLICT 1) 16

/-- The frame is abandoned and the back-off begins (R343). -/
def canAbandon (s : State) (f : Frame) (pos : Nat) : State :=
  let r := canRandom (nodeConflict (s.onCan fun c => { c with sending := none, count := 0 }) pos f.id)
  r.1.onCan fun c => { c with backoff := some (s.keeper.aon + aonMs (10 + r.2 % 241)) }

/-- A BEACON is lost and is not sent again (R335). -/
def beaconLost (s : State) : State :=
  let r := canRandom ((s.bump Ent.BEACON_LOST).onCan fun c => { c with sending := none, count := 0 })
  r.1.onCan fun c => { c with beaconDelay := some (100 + r.2 % 401) }

/-- A data-bit error at a position of a frame other than a BEACON (R345). -/
def dataBitError (s : State) (f : Frame) (pos : Nat) : State :=
  let c := s.spindle.can
  if c.count = 0 ∨ c.lastPos ≠ pos then s.onCan fun c => { c with count := 1, lastPos := pos }
  else if c.count = 1 then s.onCan fun c => { c with count := 2 }
  else canAbandon s f pos

/-- What TEC gains with an error while sending (R346, ISO 11898-1): 8, and 8 more for each further bit error or run of dominant bits in the error flag;
nothing for the error itself where the standard exempts it (`exempt`): the ACK error of an error-passive node, a stuff error in the arbitration field. -/
def tecGain (s : State) (e : CanError) (exempt : Bool) (extra : Nat) : Nat :=
  (if exempt && ((e == .ack && decide (128 ≤ s.get Ent.TEC)) || e == .stuff) then 0 else 8) + 8 * extra

/-- What REC gains with an error while receiving: 1, but 8 for a bit error inside the error flag; 8 more as for TEC. -/
def recGain (e : CanError) (inFlag : Bool) (extra : Nat) : Nat := (if e == .bit && inFlag then 8 else 1) + 8 * extra

/-- A transmission fails: by an error, or by loss of arbitration (none). `pos` is the data-field position of a bit error. -/
def canFailed (s : State) (e : Option CanError) (pos : Option Nat) (dataPhase exempt : Bool) (extra : Nat) : State :=
  match s.spindle.can.sending with
  | none => s
  | some f =>
    if !canSends s then s
    else
    match e with
    | none => s.onCan fun c => { c with count := 0 }
    | some e =>
      let s := (countError s e true dataPhase f.id).put Ent.TEC (s.get Ent.TEC + tecGain s e exempt extra)
      if isBeacon f then beaconLost s
      else
        match e, pos with
        | .bit, some p => dataBitError s f p
        | _, _ => s.onCan fun c => { c with count := 0 }

/-! ## Bus-off (R347) -/

/-- Bus-off begins: queue 09 is emptied. -/
def busOffBegins (s : State) : State :=
  let limit := s.get Ent.BUSOFF_LIMIT
  let n := s.spindle.can.sinceOk + 1
  ((s.bumpBy Ent.TX_DROPPED (canLevel s)).bump Ent.BUSOFF_COUNT).onCan fun c =>
    { c with tx := [], sending := none, count := 0, backoff := none, busOff := true, held := decide (limit ≠ 255 ∧ limit ≤ n), sinceOk := n }

/-- Recovery ends bus-off; TEC and REC start from 0 as ISO 11898-1 states. -/
def busOffEnds (s : State) : State :=
  if s.spindle.can.busOff && !s.spindle.can.held then
    ((s.onCan fun c => { c with busOff := false }).put Ent.TEC 0).put Ent.REC 0
  else s

/-- CAN_RESTART: recovery starts again. -/
def canRestart (s : State) : State := s.onCan fun c => { c with held := false }

/-- NODE_ID written (R344): the conflict is cleared and the back-off ends. -/
def nodeIdWritten (s : State) : State := (s.put Ent.NODE_CONFLICT 0).onCan fun c => { c with backoff := none }

/-- CAN_ENABLE written 0: the controller leaves the bus (R332). -/
def canEnableWritten (s : State) (v : Nat) : State := if v = 0 then s.onCan fun c => { c with joined := false } else s

/-- The frame parser is reset (R207): the frame being parsed is discarded. -/
def parserReset (s : State) : State := s.onCan fun c => { c with seg := none }

/-! ## Commands -/

/-- 100 ms after entry to ALARM and then every second (R143). -/
def execBeaconTimer (s : State) : Host.Outcome State Fault Refusal :=
  .next (if s.spindle.alive && modeIs s .alarm then sendBeacon s else s)

/-- CLK_XO is within tolerance and 11 recessive bits have been seen (R330). -/
def execCanBusJoin (s : State) : Host.Outcome State Fault Refusal :=
  .next (if xoRuns s && s.spindle.xoChecked && s.get Ent.CAN_ENABLE == 1 then s.onCan fun c => { c with joined := true } else s)

def execCanTxStart (s : State) : Host.Outcome State Fault Refusal := .next (canStart s)

def execCanTxSuccess (loopDelay : Nat) (s : State) : Host.Outcome State Fault Refusal := .next (canSent s loopDelay)

/-- `tec`: whether the error leaves TEC (R346's exceptions), and how often 8 is added beside. -/
def execCanTxError (e : Option CanError) (pos : Option Nat) (dataPhase : Bool) (tec : Bool × Nat) (s : State) : Host.Outcome State Fault Refusal :=
  .next (canFailed s e pos dataPhase tec.1 tec.2)

def execCanBackoffExpiry (s : State) : Host.Outcome State Fault Refusal := .next (s.onCan fun c => { c with backoff := none })

/-- TEC has passed 255: bus-off (R346). -/
def execCanBusOff (s : State) : Host.Outcome State Fault Refusal :=
  .next (if 255 < s.get Ent.TEC ∧ !s.spindle.can.busOff then busOffBegins s else s)

/-- 128 times 11 recessive bits, which only a controller whose clock runs can count. -/
def execCanBusOffRecovered (s : State) : Host.Outcome State Fault Refusal := .next (if xoRuns s then busOffEnds s else s)

def execCanNoticeTimer (s : State) : Host.Outcome State Fault Refusal := .next (if s.spindle.alive then sendNotice s else s)

def execCanTimeTimer (s : State) : Host.Outcome State Fault Refusal := .next (if s.spindle.alive then sendTimeFrame s else s)

def execCanHeartbeatTimer (s : State) : Host.Outcome State Fault Refusal := .next (if s.spindle.alive then sendCanHeartbeat s else s)

end Sys2Proof.Machine
end

