-- ==== Sys2Proof/Machine/View.lean ====
section
/-! DEFINITION. What a read of an entry gives where its value is formed from the state at the moment of the read. -/
namespace Sys2Proof.Machine

/-! ## Words formed from the state -/

/-- CAN_STBY is high while NET is not ON (R330, R384). -/
def canStby (s : State) : Bool := domState s .net != 2

/-- HP_STATE (R364). -/
def hpState (s : State) (p : Port) : Nat :=
  let h := s.spindle.ports.get p
  (if s.get (Ent.HP_ENABLE (portNum p)) = 0 then 0 else if portLow s p then 2 else 1) + (if h.mode3 then 4 else 0) + (if irqAsserted s p then 8 else 0)
    + (if h.answer.isSome then 16 else 0)

/-- The port with a subindex. -/
def portOf (ss : Nat) : Port := if ss = 1 then .A else if ss = 2 then .B else .C

/-- WAKE_LEVELS (R178): the level sources of R170 as they stand; a switch counts from its change until TAMPER is ON (log 54). -/
def wakeLevels (s : State) : Nat :=
  (if levelOn s 7 then 1 else 0) + (if levelOn s 8 then 2 else 0) + (if s.pads.caseLatch then 4 else 0) + (if s.pads.baseLatch then 8 else 0)
    + (if levelOn s 0xA then 16 else 0) + (if levelOn s 6 then 32 else 0)

/-- The fullest of the dies' queues of one number. -/
def dieMax (s : State) (f : SbDie → Nat) : Nat := max (f s.sb.keeper) (f s.sb.spindle)

/-- The fullest of the users' queues. -/
def userMax (f : User → Nat) : Nat := users.foldl (fun n u => max n (f u)) 0

/-- Q_LEVEL (R190, R196): queues 01, 06 and 07, and the flyer's instances of 04 and 05, as last reported. Queue 15 is filled and
taken from within one command of the loader and stands empty after it; what level it has reached is `readPeak`'s (log 52). -/
def queueLevel (s : State) (q : Nat) : Nat :=
  match q with
  | 2 => s.log.queue.length
  | 3 => s.ply.q.length
  | 4 => max (s.get (Ent.Q_LEVEL 4)) (dieMax s fun d => d.txq.length)
  | 5 => max (s.get (Ent.Q_LEVEL 5)) (s.sb.spindle.hold.length)
  | 8 => max (userMax fun u => (page s u).jobs.length) (max s.spindle.shaJobs.length
      (s.spindle.bn.users.length + (if s.spindle.bn.loader then 1 else 0) + if s.spindle.bn.keeper.isSome then 1 else 0))
  | 9 => canLevel s
  | 10 => userMax fun u => (s.spindle.dict.reqs.get u).length
  | 11 => userMax fun u => (s.spindle.dict.resps.get u).length
  | 12 => s.spindle.can.rx.length
  | 13 => max (s.spindle.ports.a.frames.length) (max (s.spindle.ports.b.frames.length) (s.spindle.ports.c.frames.length))
  | 14 => if s.tag.pendingApdu.isSome then 1 else 0
  | n => s.get (Ent.Q_LEVEL n)

/-- CORE_STATE (R236). -/
def coreState (s : State) : Nat := if s.get Ent.CORE_STATE = 2 ∧ s.spindle.core.waiting then 3 else s.get Ent.CORE_STATE

/-- STAGED: the writes of a user's staging area. -/
def stagedOf (s : State) (u : User) : List (Nat × Nat) := s.spindle.dict.staged.get u

/-- TAG_FLAGS (R383): bit 2 alone is stored. -/
def tagFlags (s : State) : Nat :=
  (if s.pads.field then 1 else 0) + (if s.tag.session && !s.keeper.vddValid then 2 else 0) + s.get Ent.TAG_FLAGS
    + (if s.tag.open_ then 8 else 0) + (if s.tag.selected then 16 else 0)

/-- The pool's level is its length. -/
def tagPoolLevel (s : State) : Nat := s.keeper.pool.length

/-! ## The entries of each group whose value is formed at the read -/

def viewControl (s : State) (u : User) (e : Nat) : Option Nat :=
  if e = Ent.STAGED then some (stagedOf s u).length
  else if e = Ent.EOL_LEFT then some (eolLeft s)
  else if e = Ent.LC_STATE then some (lcWord s)
  else if e = Ent.LC_VALID then some (if lcValid s then 1 else 0)
  else if e = Ent.DEBUG_STATE then some (debugState s)
  else none

def viewPower (s : State) (e : Nat) : Option Nat :=
  if e = Ent.WAKE_LEVELS then some (wakeLevels s)
  else if e = Ent.CLK_STATUS then some (clkStatus s)
  else if e / 256 = Ent.Q_LEVEL 0 / 256 then some (queueLevel s (e % 256))
  else if e / 256 = Ent.CREDIT_NOW 0 / 256 then some (creditNow s (e % 256))
  else if e = Ent.CORE_STATE then some (coreState s)
  else if e = Ent.WDT_LEFT then some (wdtLeft s)
  else if e = Ent.LOADER_STATE then some s.spindle.loader.word
  else if e = Ent.BOOT_FLAGS then some (bootFlags s)
  else none

/-- CAL_CLAMPED, CAL_ROW_BAD, the deltas, the counts and the images of the calibration rows (R126 to R128, R132). -/
def viewCal (s : State) (e : Nat) : Option Nat :=
  let r := e / 256 - 0x6100
  let ss := e % 256
  if e / 256 < 0x6100 ∨ 0x6104 < e / 256 then none
  else if e = Ent.CAL_CLAMPED then some (calClamped s)
  else if e = Ent.CAL_ROW_BAD then some (calRowBad s)
  else if ss = 0x10 then some (calRowCount (calRow s r))
  else if ss = 0x20 then some (leNat (calRow s r))
  else some (leNat (((calRow s r).drop (4 * (ss - 1))).take (entrySize e)))

def viewAlarm (s : State) (e : Nat) : Option Nat :=
  if e = Ent.BS_SMOKE_COUNT then some s.flyer.bs.smoke
  else if e = Ent.BS_HEAT_COUNT then some s.flyer.bs.heat
  else if e = Ent.BS_CO_DOSE_NOW then some s.flyer.bs.dose
  else if e = Ent.PAD_STATE then some (s.get e + if faultOut s then 8 else 0)
  else none

def viewCrypto (s : State) (u : User) (e : Nat) : Option Nat :=
  if e = Ent.AES_STATUS then some (aesStatus (page s u))
  else if e = Ent.SHA_STATUS then some (shaStatus s u)
  else if e = Ent.BN_STATUS then some (bnStatus (bnUser s u))
  else if e = Ent.RNG_LEVEL then some s.spindle.rng.fifo.length
  else if e = Ent.RNG_FLAGS then some (withBit (s.get e) 2 (!s.spindle.rng.waiting.isEmpty))
  else none

def viewLog (s : State) (e : Nat) : Option Nat :=
  if e = Ent.SWITCH_STATE then some ((if s.pads.caseSw then 1 else 0) + if s.pads.baseSw then 2 else 0)
  else if e = Ent.LOG_STATE then some (logState s)
  else if e = Ent.CKPT_DUE then some (ckptDue s)
  else if 0x418000 ≤ e ∧ e < 0x418C00 then some (leNat (logSlot s (e - 0x418000)))
  else none

def viewPorts (s : State) (e : Nat) : Option Nat :=
  if e = Ent.CAN_STATE then some (canState s)
  else if e = Ent.BACKOFF_LEFT then some (backoffLeft s)
  else if e / 256 = Ent.HP_STATE 0 / 256 then some (hpState s (portOf (e % 256)))
  else if e = Ent.TAG_POOL_LEVEL then some (tagPoolLevel s)
  else if e = Ent.TAG_FLAGS then some (tagFlags s)
  else none

/-- The value of an entry as a user reads it. -/
def viewNat (s : State) (u : User) (r : EntryRow) (e : Nat) : Nat :=
  ([viewControl s u e, viewPower s e, viewCal s e, viewAlarm s e, viewCrypto s u e, viewLog s e, viewPorts s e].findSome? id).getD
    (if r.perUser then s.getU e u else s.get e)

end Sys2Proof.Machine
end

