-- ==== Sys2Proof/Machine/Access.lean ====
section
/-! DEFINITION. One access to an entry (R42 to R55): the checks in the order of R55, what a read gives, what a write does, PROBE_DESC (R74, R401). -/
namespace Sys2Proof.Machine

/-! ## Addresses -/

/-- The row of an address (R43): the CLAIM subindices that are no group are not implemented. -/
def rowAt (idx sub : Nat) : Option EntryRow :=
  if 256 ≤ sub ∨ (idx = 0x100F ∧ !claimGroups.contains sub) then none else findRow (idx * 256 + sub)

/-! ## Reads -/

/-- In RETIRED, reads are served only in the 0x1000 and 0x4100 ranges (R53). -/
def retiredReads (e : Nat) : Bool := e / 65536 == 0x10 || e / 65536 == 0x41

/-- The first code that applies to a read before its value is formed. -/
def readStatus (s : State) (u : User) (r : EntryRow) (e : Nat) : Nat :=
  if !bit (right r u) 0 then Sc.denied
  else if (lcIsRetired s && !retiredReads e) || (e == Ent.EXP_KEY && lcNow s != .maker) then Sc.locked
  else Sc.ok

/-- A one-time write is used (R47, R246). -/
def usedOnce (s : State) (r : EntryRow) (e : Nat) : Bool :=
  r.cls == .f && (s.keeper.written.contains e || (e == Ent.OEM_KEY_HASH0 && s.keeper.oem0))

/-- A permanent condition forbids the write (R52, R53, R78, R166). -/
def writeLocked (s : State) (r : EntryRow) (e v : Nat) : Bool :=
  (lcIsRetired s && e != Ent.PROBE_TARGET && e != Ent.NOTICE_PENDING) || (!r.lcs.isEmpty && !r.lcs.contains (lcNow s)) || usedOnce s r e ||
    (e == Ent.REST 0x32 && v == wideCode 1 && lcNow s != .blank && lcNow s != .maker)

/-- The value of an overlaid entry waits for its limits (R124). -/
def limitsMissing (s : State) (e : Nat) : Bool :=
  overlays.any fun o => e == o.factory + 1 && !(s.keeper.written.contains (o.factory + 2) && s.keeper.written.contains (o.factory + 3))

/-- Entries that a message in progress holds (R271). -/
def messageHeld : List Nat :=
  [Ent.AES_MODE, Ent.AES_IV, Ent.AAD_LEN, Ent.MSG_LEN, Ent.KDF_LABEL, Ent.KDF_KEYLEN, Ent.KDF_DERIVE]

/-- Entries that a queued or running big-number job holds (R286). -/
def jobHeld : List Nat := [Ent.BN_OP, Ent.BN_KEY_SRC, Ent.BN_LABEL, Ent.BN_HASH, Ent.BN_PEER, Ent.BN_SIG]

/-- The mode or the state of the device forbids the write now. -/
def writeState (s : State) (u : User) (r : EntryRow) (e : Nat) : Bool :=
  (!r.modes.isEmpty && !modeIn s r.modes) || limitsMissing s e || (messageHeld.contains e && inMessage (page s u)) ||
    (jobHeld.contains e && bnBusy s u)

/-- The endurance of the entry's row is used up (R127, R128). -/
def writeExhausted (s : State) (e : Nat) : Bool := isDelta e && 10000 ≤ calRowCount (calRow s (deltaRow e))

/-- A user may not write the entry, whatever the value (R45, R50, R125). -/
def writeForbidden (s : State) (u : User) (r : EntryRow) (e : Nat) : Bool :=
  !bit (right r u) 1 || (u == .T && !s.tag.open_) || e == Ent.BS_SHADOW_CRC

/-! ## Actions -/

/-- WDT_KICK (R234). -/
def wdtKick (s : State) : State := if s.keeper.wdt.isSome then wdtStart s else s

/-- HP_RESET (R363): the port's rate is that of NVM again. -/
def hpReset (s : State) (p : Port) : State := (portReset s p).onPort p fun h => { h with baud := none }

/-- Actions of the modes, the life-cycle, the sensors and the horn. -/
def actDevice (s : State) (u : User) (e : Nat) (v : Bytes) : Option (State × Nat) :=
  let n := leNat v
  if e = Ent.MODE_REQUEST then some (modeRequest s u n)
  else if e = Ent.FAULT_REQUEST then some (setFault s 6 (userId u), Sc.ok)
  else if e = Ent.LC_REQUEST then some (lcRequest s u n)
  else if e = Ent.DBG_NEW then some (dbgNew s n)
  else if e = Ent.DBG_SIG then some (dbgSig s u v)
  else if e = Ent.OPT_REQUEST then some (optRequest s)
  else if e = Ent.CO_PULSE then some (coPulse s)
  else if e = Ent.HORN_CMD then some (hornCmd s v)
  else if e = Ent.TIME_SET then some (timeSet s u n)
  else if e = Ent.WDT_KICK then some (wdtKick s, Sc.ok)
  else if e = Ent.ROLLBACK_COMMIT then some (rollbackCommit s u n)
  else if e = Ent.ROT_SIG then some (rotSig s u v)
  else if e = Ent.KEY_REVOKE0 then some (keyRevoke0 s u n)
  else if e = Ent.FL_OP then some (flOp s n)
  else if e = Ent.CAN_RESTART then some (canRestart s, Sc.ok)
  else none

/-- Actions of the crypto pages, the contexts and the big-number engine. -/
def actCrypto (s : State) (u : User) (e : Nat) (v : Bytes) : Option (State × Nat) :=
  if e = Ent.KDF_DERIVE then some (kdfDerive s u)
  else if e = Ent.AES_START then some (aesStart s u)
  else if e = Ent.AES_IN then some (aesIn s u v)
  else if e = Ent.AES_CLEAR then some (aesClear s u)
  else if e = Ent.AES_MEM_GO then some (aesMemGo s)
  else if e = Ent.SHA_INIT then some (shaInit s u)
  else if e = Ent.SHA_DATA then some (shaData s u v)
  else if e = Ent.SHA_LAST then some (shaLast s u v)
  else if e = Ent.SHA_MEM_GO then some (shaMemGo s)
  else if e = Ent.BN_GO then some (bnGo s u)
  else if e = Ent.BN_MSG then some (bnMsg s u v)
  else if e = Ent.BN_MEM_GO then some (bnMemGo s)
  else if e = Ent.BN_CLEAR then some (bnClear s u)
  else none

/-- Actions of entries with one instance for each subindex. -/
def actIndexed (s : State) (u : User) (e : Nat) (v : Bytes) : State × Nat :=
  if e / 256 = Ent.CLAIM 0 / 256 then claimWrite s u (e % 256) (leNat v)
  else if e / 256 = Ent.MONO_INC 0 / 256 then monoInc s u (e % 256)
  else if e / 256 = Ent.HP_RESET 0 / 256 then (hpReset s (portOf (e % 256)), Sc.ok)
  else
    match domOf (e % 256) with
    | some d => restWrite s d (leNat v)
    | none => (s, Sc.noEntry)

/-- The action of an entry. -/
def action (s : State) (u : User) (e : Nat) (v : Bytes) : State × Nat :=
  match actDevice s u e v with
  | some r => r
  | none =>
    match actCrypto s u e v with
    | some r => r
    | none => actIndexed s u e v

/-! ## What PROBE_DESC judges -/

/-- A value that its user may not write (R85, R92). -/
def valueDenied (u : User) (e v : Nat) : Bool :=
  (e == Ent.FAULT_CAUSE && bit v 0 && u != .M) ||
  (e == Ent.MODE_REQUEST && (match modeOf v with
    | some m => (match targetOf m with
      | some t => !mayTarget u t
      | none => true)
    | none => false))

/-- Values that between them stand for every value of an action whose state alone can refuse them all (R401). -/
def gateProbes (e : Nat) : List Bytes :=
  if e = Ent.MODE_REQUEST then allModes.map fun m => leBytes 4 (modeCode m)
  else if e = Ent.LC_REQUEST then allLc.flatMap fun t => [leBytes 4 (lcCode t), leBytes 4 (complement32 (lcCode t))]
  else if e = Ent.TIME_SET then [leBytes 4 0xFFFFFFFF]
  else if e = Ent.FL_OP then [[1], [2], [3]]
  else if e = Ent.HORN_CMD then [3 :: zeros 7]
  else if e / 256 = Ent.REST 0 / 256 then [0, 1, 2].map fun v => leBytes 4 (wideCode v)
  else if e / 256 = Ent.CLAIM 0 / 256 then [leBytes 4 0, leBytes 4 1]
  else [leBytes (entrySize e) 1]

/-- A code that the action of an entry gives, or OK: no condition of the device refuses the write (R401). -/
def gatePasses (c : Nat) : Bool := c == Sc.ok || c == Sc.busy || c == Sc.timeout || c == Sc.integrity

/-- The state of the device refuses an action, whatever the value (R401). The checks of ROT_SIG, DBG_SIG and COMMIT are their
actions' outcomes. -/
def gateState (s : State) (u : User) (e : Nat) : Bool :=
  if e = Ent.DBG_SIG ∨ e = Ent.COMMIT then false
  else if e = Ent.ROT_SIG then s.keeper.oem1 || !oemUsable s 0 || s.keeper.vddMv < 2400
  else (gateProbes e).all fun v => valueDenied u e (leNat v) || !gatePasses (action s u e v).2

/-- Bit 20 of PROBE_DESC (R401). -/
def writable (s : State) (u : User) (r : EntryRow) (e : Nat) : Bool :=
  !(writeForbidden s u r e || writeLocked s r e 0 || writeState s u r e || writeExhausted s e || (r.action && gateState s u e))

def clsCode : Cls → Nat
  | .v => 0 | .n => 1 | .f => 2

/-- PROBE_DESC of a target (R74). -/
def probeDesc (s : State) (u : User) (r : EntryRow) (e : Nat) : Nat :=
  r.ty.code + 256 * r.ty.size + (if r.perUser then 2 ^ 15 else 0) + 2 ^ 16 * clsCode r.cls + 2 ^ 18 * (right r u % 4)
    + (if writable s u r e then 2 ^ 20 else 0) + (if r.action then 2 ^ 21 else 0)

/-- The status, the value and the state after a read whose right is given. -/
def readEntry (s : State) (u : User) (r : EntryRow) (e : Nat) : State × Nat × Bytes :=
  if e = Ent.PROBE_DESC then
    let t := s.getU Ent.PROBE_TARGET u
    match rowAt (t / 256) (t % 256) with
    | none => (s, Sc.noEntry, [])
    | some r' => (s, Sc.ok, leBytes 4 (probeDesc s u r' t))
  else if isDelta e ∧ !calRowOk (calRow s (deltaRow e)) then (s, Sc.integrity, [])
  else if 0x418000 ≤ e ∧ e < 0x418C00 ∧ s.get Ent.LOG_NEXT ≤ e - 0x418000 then (s, Sc.range, [])
  else if e = Ent.EXP_KEY then expKey s u
  else if e = Ent.AES_OUT then aesOut s u
  else if e = Ent.RNG_DATA then ((rngTake s u 1).1, Sc.ok, (rngTake s u 1).2)
  else if e = Ent.RNG_BLOCK then ((rngTake s u 8).1, Sc.ok, (rngTake s u 8).2)
  else (s, Sc.ok, leBytes r.ty.size (viewNat s u r e))

/-- The statuses of jobs: user M's read of one ends the crypto-job-done condition of R220 (log 60). -/
def jobStatuses : List Nat := [Ent.AES_STATUS, Ent.SHA_STATUS, Ent.BN_STATUS]

/-- A read (R55). -/
def readAccess (s : State) (u : User) (idx sub : Nat) : State × Nat × Bytes :=
  match rowAt idx sub with
  | none => (s, Sc.noEntry, [])
  | some r =>
    let e := entAt idx sub
    if readStatus s u r e = Sc.ok then
      let x := readEntry s u r e
      (if u = .M ∧ jobStatuses.contains e then x.1.onCore fun c => { c with jobDone := false } else x.1, x.2)
    else (s, readStatus s u r e, [])

/-! ## Writes: the checks -/

/-- Nominal and data rates in kbit/s (R328). -/
def nominalRate (c : Nat) : Nat := [125, 250, 500, 1000].getD c 0
def dataRate (c : Nat) : Nat := [0, 1000, 2000, 4000].getD c 0

/-- The data rate is off, or above the nominal rate (R328). -/
def ratesOk (nom dat : Nat) : Bool := dat == 0 || nominalRate nom < dataRate dat

/-- An excitation fits its mode (R120). -/
def excOk (mode v : Nat) : Bool := if mode = 1 then 1 ≤ v && v ≤ 1000 else if mode = 2 then 100 ≤ v && v ≤ 2000 else v ≤ 2000

/-- The checks of a value against other entries, and of words (R44, R73, R92, R120, R124, R131, R205, R328). -/
def valueFits (s : State) (e v : Nat) : Bool :=
  if e = Ent.PROBE_TARGET then v < 2 ^ 24
  else if e = Ent.FAULT_CAUSE then v < 256
  else if e = Ent.AIN_EXC_MODE then excOk v (s.get Ent.AIN_EXC_VALUE)
  else if e = Ent.AIN_EXC_VALUE then excOk (s.get Ent.AIN_EXC_MODE) v
  else if e = Ent.NOM_RATE then ratesOk v (s.get Ent.DATA_RATE)
  else if e = Ent.DATA_RATE then ratesOk (s.get Ent.NOM_RATE) v
  else if e = Ent.WIN_START then v + s.get Ent.WIN_LEN ≤ 512
  else if e = Ent.WIN_LEN then v + s.get Ent.WIN_START ≤ 512
  else if e = Ent.EXP_LC then (lcOf v).isSome
  else if 0x1300 ≤ e / 256 ∧ e / 256 ≤ 0x1304 then arbConfigOk s e v
  else
    match overlays.find? fun o => e == o.factory + 1 with
    | some o =>
      decide (s.getS (o.factory + 2) ≤ toSigned (8 * o.size) v) && decide (toSigned (8 * o.size) v ≤ s.getS (o.factory + 3))
    | none => true

/-- A value outside the type or outside the entry's allowed set. -/
def writeInRange (s : State) (r : EntryRow) (e v : Nat) : Bool := tyOk r.ty v && rngOk r v && valueFits s e v

/-- The first code that applies to a write before its action (R55); an action entry's range is judged with its action. -/
def writeStatus (s : State) (u : User) (r : EntryRow) (e : Nat) (v : Bytes) : Nat :=
  let n := leNat v
  if writeForbidden s u r e || valueDenied u e n then Sc.denied
  else if v.length ≠ r.ty.size then Sc.type
  else if writeLocked s r e n then Sc.locked
  else if writeState s u r e then Sc.state
  else if r.action then Sc.ok
  else if !writeInRange s r e n then Sc.range
  else if writeExhausted s e then Sc.exhausted
  else Sc.ok

/-! ## Actions and the ranges of their values -/

/-- The action with the range of its value: a code that comes before RANGE stands, and nothing changes (R55). -/
def actionAccess (s : State) (u : User) (r : EntryRow) (e : Nat) (v : Bytes) : State × Nat :=
  if writeInRange s r e (leNat v) then action s u e v
  else if (action s u e v).2 = Sc.locked ∨ (action s u e v).2 = Sc.state then (s, (action s u e v).2)
  else (s, Sc.range)

/-! ## Writes: what they do -/

/-- CO_ENABLE becomes 1 (R104, R166). -/
def coEnabled (s : State) (old v : Nat) : State := if v = 1 ∧ old ≠ 1 then coTick (raiseGas s) else s

/-- AIN_PERIOD changes (R104). -/
def ainChanged (s : State) (old v : Nat) : State :=
  if v = 0 then s.onSense fun x => { x with auxWait := false } else if old = 0 then auxTick s else s

/-- The last entry of the backstop set is written (R125). -/
def backstopSetDone (s : State) : State :=
  sendShadow (clearFault (s.put Ent.BS_SHADOW_CRC (crc16 (shadowImage s))) 128)

/-- A one-time write (R47, R124, R125, R246). CO_ENABLE's default is CO_FITTED (R129). -/
def writeOnce (s : State) (e v : Nat) : State :=
  let was := backstopSetWritten s
  let s := burn s e v
  let s := if !was && backstopSetWritten s then backstopSetDone s else s
  if e = Ent.CO_FITTED ∧ !s.keeper.written.contains Ent.CO_ENABLE then coEnabled (s.put Ent.CO_ENABLE v) (s.get Ent.CO_ENABLE) v else s

/-- What a write of an N entry does beside the store. -/
def afterStore (s : State) (e old v : Nat) : State :=
  if e = Ent.CO_ENABLE then coEnabled (s.onKeeper fun k => { k with written := Ent.CO_ENABLE :: k.written }) old v
  else if e = Ent.AIN_PERIOD then ainChanged s old v
  else if e = Ent.NODE_ID then nodeIdWritten s
  else if e = Ent.CAN_ENABLE then canEnableWritten s v
  else if e = Ent.ECHO_SOURCES then refreshRelayed s
  else s

/-- A port's rate stays what it was until the answer to the write has left (R358). -/
def baudWritten (s : State) (u : User) (old : Nat) : State :=
  if u = .C then s.onPort .C fun h => { h with baud := some (h.baud.getD old) } else s

/-- The value that an accepted write leaves in an entry that is not per-user: in those that a 1 clears, the bits written are gone (R47, R73). -/
def newValue (s : State) (e v : Nat) : Nat := if isCleared e then clearBits (s.get e) v else v

/-- A stored value, by an accepted write of an entry that is no action; the deltas of calibration rows stand in `writeRows`. -/
def applyWrite (s : State) (u : User) (e v : Nat) : State :=
  match findRow e with
  | none => s
  | some r =>
    if isDelta e then s
    else if isMono e then (monoInc s u (e % 256)).1
    else if r.cls = .f then writeOnce s e v
    else if e = Ent.NOTICE_PENDING then s.putU e u (clearBits (s.getU e u) v)
    else if e = Ent.NOTICE_MASK then noticed s (s.putU e u (v % 2 ^ 20))
    else if r.perUser then s.putU e u v
    else if e = Ent.FAULT_CAUSE then clearFault s v
    else if isCleared e then s.put e (newValue s e v)
    else if e = Ent.ALARM_FW then setAlarmFw s v
    else if 0x1300 ≤ e / 256 ∧ e / 256 ≤ 0x1304 then arbHold s e v
    else if e = Ent.HP_BAUD then baudWritten (s.put e v) u (s.get e)
    else afterStore (s.put e v) e (s.get e) v

/-- Accepted writes applied in order (R67). -/
def applyWrites (s : State) (u : User) (ws : List (Nat × Nat)) : State :=
  writeRows (ws.foldl (fun s w => applyWrite s u w.1 w.2) s) ws

end Sys2Proof.Machine
end

