-- ==== Sys2Proof/Machine/Serve.lean ====
section
/-! DEFINITION. The dictionary engine (R55 to R61, R66 to R68, R75): queues, service, N writes in progress, staging and batches, responses. -/
namespace Sys2Proof.Machine

/-! ## Requests -/

/-- A request of a user. -/
def Request.mk' (u : User) (op idx sub : Nat) (v : Bytes) : Request := ⟨u, op, idx, sub, v, 0, 0, false, true⟩

def readReq (u : User) (idx sub : Nat) : Request := .mk' u 1 idx sub []
def writeReq (u : User) (idx sub : Nat) (v : Bytes) : Request := .mk' u 2 idx sub v

/-- A write of an entry by its address, the value a number. -/
def numReq (u : User) (e v : Nat) : Request := .mk' u 2 (e / 256) (e % 256) (leBytes (entrySize e) v)

/-- A write of an entry by its address, the value a byte string. -/
def octReq (u : User) (e : Nat) (v : Bytes) : Request := .mk' u 2 (e / 256) (e % 256) v

/-- COMMIT with the value 1. -/
def isCommit (q : Request) : Bool := q.op == 2 && entAt q.idx q.sub == Ent.COMMIT && q.value == [1]

/-- Entries that the keeper commits: of class N, the one-time writes, the increments of counters (R47, R59, R323). -/
def isN (e : Nat) : Bool := isMono e || match findRow e with
  | some r => r.cls != .v
  | none => false

/-- The entry has one instance for each user (R51). -/
def perUserEntry (e : Nat) : Bool := ((findRow e).map (·.perUser)).getD false

/-- An N write in progress holds the entry for a user: its own entry, and every entry of a batch, of which a per-user one is held for its user alone
(R57, R67). -/
def heldEntry (s : State) (u : User) (e : Nat) : Bool :=
  s.keeper.jobs.any fun j => j.writes.any fun w => w.1 == e && (!perUserEntry e || j.req.user == u)

/-- Entries that a request touches. -/
def touched (s : State) (q : Request) : List Nat := if isCommit q then (stagedOf s q.user).map (·.1) else [entAt q.idx q.sub]

/-- The request takes one of the two places of R59. -/
def takesPlace (s : State) (q : Request) : Bool := q.op == 2 && (touched s q).any isN

/-- The head request must wait (R57, R59). -/
def mustWait (s : State) (q : Request) : Bool :=
  (touched s q).any (heldEntry s q.user) || (takesPlace s q && 2 ≤ s.keeper.jobs.length)

/-! ## Staging and batches -/

/-- Bytes of values in a staging area. -/
def stagedBytes (l : List (Nat × Nat)) : Nat := (l.map fun w => entrySize w.1).sum

/-- A write is staged, after the checks of R66 in the order of R55: no such entry, no right to write it, a value of another length
or no room, an action. A refusal that depends on the value (R85, R92) waits for the commit. ROT_SIG is marked action and cannot be staged (R52), though R247
lets its three writes be one batch (DESIGN CHOICE, log 107: the two rules differ).

DEDUCED (log 65). -/
def stage (s : State) (u : User) (idx sub : Nat) (v : Bytes) : State × Nat :=
  match rowAt idx sub with
  | none => (s, Sc.noEntry)
  | some r =>
    let e := entAt idx sub
    let l := stagedOf s u
    if writeForbidden s u r e then (s, Sc.denied)
    else if v.length ≠ r.ty.size ∨ 16 ≤ l.length ∨ 256 < stagedBytes l + r.ty.size then (s, Sc.type)
    else if r.action then (s, Sc.state)
    else (s.onDict fun d => { d with staged := d.staged.set u (l ++ [(e, leNat v)]) }, Sc.ok)

/-- The value that an earlier write of a batch produces, as the checks of the later ones see it (R67). -/
def assumed (s : State) (u : User) (e v : Nat) : State :=
  match findRow e with
  | none => s
  | some r =>
    if isDelta e then s
    else if r.cls = .f then (s.put e v).onKeeper fun k => { k with written := e :: k.written }
    else if 0x1300 ≤ e / 256 ∧ e / 256 ≤ 0x1304 then arbHold s e v
    else if r.perUser then s.putU e u v else s.put e (newValue s e v)

/-- The first failure of a batch: its position and code. -/
def batchCheck (s : State) (u : User) : Nat → List (Nat × Nat) → Option (Nat × Nat)
  | _, [] => none
  | k, (e, v) :: ws =>
    match rowAt (e / 256) (e % 256) with
    | none => some (k, Sc.noEntry)
    | some r =>
      let c := writeStatus s u r e (leBytes r.ty.size v)
      if c = Sc.ok then batchCheck (assumed s u e v) u (k + 1) ws else some (k, c)

/-- RESULT (R75). -/
def setResult (s : State) (u : User) (status pos applied : Nat) : State := s.putU Ent.RESULT u (status + 256 * pos + 65536 * applied)

/-! ## Service -/

/-- A write is judged: answered with its status, or the writes that it is to make. -/
inductive Verdict where
  | done (s : State) (status : Nat)
  | writes (s : State) (ws : List (Nat × Nat)) (batch : Bool)

/-- COMMIT (R67): the staging area is emptied, whatever the outcome. -/
def commitAccess (s : State) (u : User) (v : Nat) : Verdict :=
  let ws := stagedOf s u
  let t := dropStaged s u
  if v = 2 then .done t Sc.ok
  else if v ≠ 1 then .done s Sc.range
  else
    match batchCheck s u 0 ws with
    | some (k, c) => .done (setResult t u c k 0) c
    | none => .writes t ws true

/-- A write (R55). -/
def writeAccess (s : State) (q : Request) : Verdict :=
  match rowAt q.idx q.sub with
  | none => .done s Sc.noEntry
  | some r =>
    let e := entAt q.idx q.sub
    let c := writeStatus s q.user r e q.value
    if c ≠ Sc.ok then .done s c
    else if e = Ent.COMMIT then commitAccess s q.user (leNat q.value)
    else if r.action then
      let x := actionAccess s q.user r e q.value
      if isMono e && x.2 == Sc.ok then .writes s [(e, leNat q.value)] false else .done x.1 x.2
    else .writes s [(e, leNat q.value)] false

/-- The writes of a request are applied; RESULT of a batch (R75). -/
def applied (s : State) (u : User) (ws : List (Nat × Nat)) (batch : Bool) : State :=
  let s := applyWrites s u ws
  if batch then setResult s u Sc.ok 0xFF ws.length else s

/-- The codes that RANGE does not precede (R55). -/
def rangeAfter (c : Nat) : Nat := if c = Sc.ok ∨ c = Sc.exhausted then Sc.range else c

/-- The engine's answer to a store whose upper bits are not the extension (R63): RANGE, unless a code before it applies (R55). -/
def badExtension (s : State) (q : Request) : State :=
  match rowAt q.idx q.sub with
  | none => respond s q Sc.noEntry []
  | some r => respond s q (rangeAfter (if q.op = 3 then (stage s q.user q.idx q.sub q.value).2 else writeStatus s q.user r (entAt q.idx q.sub) q.value)) []

/-- The crypto engine on which a request starts its work (R263, R266, R271, R272, R277). -/
def engineOf (q : Request) : Option Engine :=
  let e := entAt q.idx q.sub
  if q.op = 1 then if e = Ent.EXP_KEY then some .aes else none
  else if e = Ent.KDF_DERIVE ∨ e = Ent.AES_START ∨ e = Ent.AES_IN then some .aes
  else if e = Ent.SHA_INIT ∨ e = Ent.SHA_DATA ∨ e = Ent.SHA_LAST then some .sha
  else none

/-- Requests of the user wait for the engine already. -/
def ownWaits (s : State) (u : User) (g : Engine) : Bool :=
  match g with
  | .aes => (page s u).jobs.any fun j => j.req?.isSome
  | .sha => s.spindle.shaJobs.any fun j => match j.req? with
    | some q => q.user == u
    | none => false

/-- The work of the request takes a word for the mask: a derivation and a START do, a chunk where the mask is due (R275). -/
def takesWord (s : State) (q : Request) : Bool := entAt q.idx q.sub != Ent.AES_IN || (page s q.user).owes

/-- The engine takes the work at once: it runs, it has no job, and the word that it waits for is there. SHA_INIT is no work of the engine. -/
def engineFree (s : State) (q : Request) (g : Engine) : Bool :=
  match g with
  | .aes => cryptoOn s && (users.all fun u => (page s u).jobs.isEmpty) && (!takesWord s q || maskReady s q.user)
  | .sha => entAt q.idx q.sub == Ent.SHA_INIT || (cryptoOn s && s.spindle.shaJobs.isEmpty)

/-- The request waits for its engine: behind the user's own, or with work, of status `c`, that the engine cannot take yet (R278). -/
def waitsEngine (s : State) (q : Request) (g : Engine) (c : Nat) : Bool :=
  ownWaits s q.user g || ((c == Sc.ok || c == Sc.integrity) && !engineFree s q g)

/-- The request becomes a job of queue 08, which holds 2 of a page and 2 of the SHA-256 engine, or is answered BUSY (R195, R278). -/
def queueJob (s : State) (q : Request) (g : Engine) : State :=
  match g with
  | .aes =>
    let n := (page s q.user).jobs.length
    if 2 ≤ n then respond (noteFull s 8) q Sc.busy []
    else
      let s := notePeak ((demand s .crypto).onPage q.user fun p => { p with jobs := p.jobs ++ [.req q] }) 8 (n + 1)
      claimPlace (if takesWord s q then askMask s q.user else s) q
  | .sha => if (shaPush s (.req q)).2 then claimPlace (shaPush s (.req q)).1 q else respond (shaPush s (.req q)).1 q Sc.busy []

/-- An access is completed at once, with the outcome given, or waits as a job of the crypto engine that it needs (R278). -/
def perform (s : State) (q : Request) (r : State × Nat × Bytes) : State :=
  match engineOf q with
  | some g => if waitsEngine s q g r.2.1 then queueJob s q g else respond r.1 q r.2.1 r.2.2
  | none => respond r.1 q r.2.1 r.2.2

/-- The engine serves a request (R55). A write of an entry that the keeper commits is handed to it, and is in progress until it has committed it (R59). -/
def serve (s : State) (q : Request) : State :=
  if !q.ext then badExtension s q
  else if q.op = 1 then perform s q (readAccess s q.user q.idx q.sub)
  else if q.op = 3 then
    let r := stage s q.user q.idx q.sub q.value
    respond r.1 q r.2 []
  else
    match writeAccess s q with
    | .done t c => perform s q (t, c, [])
    | .writes s ws batch =>
      if ws.any (fun w => isN w.1) then claimPlace (s.onKeeper fun k => { k with jobs := k.jobs ++ [⟨q, ws, batch⟩] }) q
      else respond (applied s q.user ws batch) q Sc.ok []

/-- The engine gives a user no service: it is out of service, the core is locked up (R61), or the loader's time is over (R49). -/
def unserved (s : State) (u : User) : Bool :=
  !engineUp s || ((u == .M || u == .U) && s.spindle.lockedUp) || (u == .L && s.spindle.handed)

/-- The engine runs: its clock does, with CORE ON (R163). -/
def engineRuns (s : State) : Bool := s.spindle.alive && domState s .core == 2

/-- A request raises CORE, and CODE and DATA with it, where they rest (R165, R170). -/
def raiseCore (s : State) : State := if domState s .core = 2 then s else [Domain.core, .code, .data].foldl demand s

/-- A request joins its user's queue and raises CORE, or is refused with BUSY and counted (R56, R170); the state and whether it was taken. -/
def enqueue (s : State) (q : Request) : State × Bool :=
  let s := raiseCore s
  let l := s.spindle.dict.reqs.get q.user
  if l.length < 4 then (notePeak (s.onDict fun d => { d with reqs := d.reqs.set q.user (l ++ [q]) }) 10 (l.length + 1), true)
  else ((noteFull s 10).bump (Ent.BUSY_COUNT (userNum q.user + 1)), false)

/-- The request can be served as it arrives: the engine runs, no request of any user waits, a response has room, nothing holds it (R57). -/
def servedAtOnce (s : State) (q : Request) : Bool :=
  engineRuns s && (users.all fun u => (s.spindle.dict.reqs.get u).isEmpty) && decide ((s.spindle.dict.resps.get q.user).length < 4) && !mustWait s q

/-- The core makes no second request while a window access blocks it (R64). -/
def coreBlocked (s : State) (u : User) : Bool := (u == .M || u == .U) && s.spindle.core.asked.isSome

/-- An access by a user, as the command that names it performs it: served at once, or queued (R56). -/
def access (s : State) (q : Request) : State :=
  if unserved s q.user || coreBlocked s q.user then s else if servedAtOnce s q then serve s q else (enqueue s q).1

/-! ## The engine's turn (R57) -/

/-- A user whose requests wait behind a full response queue: the first skip of the period counts. -/
def countHeld (s : State) (u : User) : State :=
  if s.spindle.dict.held.get u then s
  else (s.bump (Ent.HELD_COUNT (userNum u + 1))).onDict fun d => { d with held := d.held.set u true }

/-- The head request of a user is taken and served. -/
def takeHead (s : State) (u : User) (q : Request) (rest : List Request) : State :=
  serve (s.onDict fun d => { d with reqs := d.reqs.set u rest, held := d.held.set u false }) q

/-- The users in turn: the first that can be served is. -/
def takeTurn (s : State) : List User → State
  | [] => s
  | u :: us =>
    match s.spindle.dict.reqs.get u with
    | [] => takeTurn s us
    | q :: rest =>
      if unserved s u then takeTurn s us
      else if 4 ≤ (s.spindle.dict.resps.get u).length then takeTurn (countHeld s u) us
      else if mustWait s q then takeTurn s us
      else takeHead s u q rest

def engineTake (s : State) : State := if engineRuns s then takeTurn s (usersAfter s.spindle.dict.last) else s

/-! ## The core's requests (R64) -/

/-- The response to the request that blocks the core, taken from its user's queue. -/
def takeReply (s : State) (q : Request) : State × Option (Nat × Bytes) :=
  match s.spindle.dict.resps.get q.user with
  | r :: rest =>
    if r.status = Sc.claimed then (s, none)
    else ((s.onDict fun d => { d with resps := d.resps.set q.user rest }).onCore fun c => { c with asked := none }, some (r.status, r.value))
  | [] => (s, none)

/-- A window access makes its request, once, and blocks the core until the response is there: none while it waits (R64). -/
def coreAsk (s : State) (q : Request) : State × Option (Nat × Bytes) :=
  match s.spindle.core.asked with
  | some p => takeReply s p
  | none =>
    let s := s.onCore fun c => { c with asked := some q }
    takeReply (if servedAtOnce s q then serve s q else (enqueue s q).1) q

/-! ## N writes in progress (R59, R60) -/

/-- The keeper has committed the oldest N write: of two in progress the oldest ends first (DESIGN CHOICE, log 89: the spec gives no order). -/
def jobComplete (s : State) : State :=
  match s.keeper.jobs with
  | [] => s
  | j :: rest => respondJob (applied (s.onKeeper fun k => { k with jobs := rest }) j.req.user j.writes j.batch) j.req Sc.ok []

/-- The oldest N write (log 89) returns TIMEOUT; its entries keep their values. No check of a batch has failed, so RESULT names no position (log 55). -/
def jobTimeout (s : State) : State :=
  match s.keeper.jobs with
  | [] => s
  | j :: rest =>
    let s := s.onKeeper fun k => { k with jobs := rest }
    respondJob (if j.batch then setResult s j.req.user Sc.timeout 0xFF 0 else s) j.req Sc.timeout []

/-! ## Jobs of the crypto engines (R278) -/

/-- A request that waited for its engine is performed and answered. -/
def runJob (s : State) (q : Request) : State :=
  if q.op = 1 then
    let r := readAccess s q.user q.idx q.sub
    respondJob r.1 q r.2.1 r.2.2
  else
    match writeAccess s q with
    | .done s c => respondJob s q c []
    | .writes s _ _ => respondJob s q Sc.ok []

/-- Data SRAM is accessible where a memory job touches it (R163). -/
def memAtHand (s : State) (a : Nat) : Bool := 0x21000000 ≤ a || domState s .data == 2

/-- The job can run now: CRYPTO is ON, the memory that it touches accessible, the word that it needs there (R163, R275). -/
def pageJobRuns (s : State) (u : User) (j : PageJob) : Bool :=
  cryptoOn s && (match j with
    | .mem src dst _ => memAtHand s src && memAtHand s dst && (!(page s u).owes || maskReady s u)
    | .req q => !takesWord s q || maskReady s u)

/-- The AES engine runs its next job to completion. A job that has to wait for a word has asked for it (R275). -/
def aesJob (s : State) : State :=
  match aesNext s with
  | none => s
  | some u =>
    match (page s u).jobs with
    | [] => s
    | j :: rest =>
      if pageJobRuns s u j then
        let s := (s.onSpindle fun x => { x with aesLast := u }).onPage u fun p => { p with jobs := rest }
        match j with
        | .mem src dst n => aesMemJob s u src dst n
        | .req q => runJob s q
      else if cryptoOn s then askMask s u
      else s

/-- The SHA-256 engine runs its next job to completion. The loader's half-block waits until the digest of the block before has been compared. -/
def shaJob (s : State) : State :=
  match shaNext s with
  | none => s
  | some j =>
    if !cryptoOn s then s
    else
      let t := s.onSpindle fun x => { x with shaJobs := x.shaJobs.erase j }
      match j with
      | .half a n last => if s.spindle.loader.digest.isSome then s else shaHalf t a n last
      | .mem a n => if memAtHand s a then shaMemJob (t.onSpindle fun x => { x with shaLast := .M }) a n else s
      | .req q => runJob (t.onSpindle fun x => { x with shaLast := q.user }) q

end Sys2Proof.Machine
end

