-- ==== Sys2Proof/Machine/CanNode.lean ====
section
/-! DEFINITION. The CAN node (R331, R333 to R338, R340, R344, R348): frames received, requests over CAN, their responses. -/
namespace Sys2Proof.Machine

/-! ## Frames received -/

/-- REC after a frame received without error (ISO 11898-1): one less; from above 127 to a value of 119 to 127, which is free. -/
def recAfter (s : State) : State :=
  let r := s.get Ent.REC
  if 127 < r then s.used.put Ent.REC (119 + Config.freeNat s.free % 9) else s.put Ent.REC (r - 1)

/-- The node field that R331 asks of every function but BEACON. -/
def nodeOk (n : Nat) : Bool := 1 ≤ n && n ≤ 127

/-- A frame that R331 accepts enters the CAN RX FIFO (queue 12), or is lost to a full one (R348). -/
def rxPush (s : State) (f : CanRx) : State :=
  let n := s.spindle.can.rx.length
  if 16 ≤ n then (noteFull s 12).bump Ent.RX_OVERRUN
  else notePeak ((s.bump Ent.RX_FRAMES).onCan fun c => { c with rx := c.rx ++ [f] }) 12 (n + 1)

/-- A BEACON (R142, R333). -/
def beaconRx (s : State) (b0 b1 : Byte) : State :=
  let kinds := b0.toNat % 8
  let zone := b1.toNat % 16
  let s := (s.bump Ent.BEACONS_RX).put Ent.LAST_BEACON (kinds + 256 * zone)
  if bit (s.get Ent.ECHO_SOURCES) 0 && bit (s.get Ent.ECHO_ZONE_MASK) zone then
    refreshRelayed (s.onKeeper fun k => { k with relCan := k.relCan ||| kinds })
  else s

/-- A SOURCE or HEARTBEAT frame with the device's own node ID shows a conflict (R344). -/
def ownIdRx (s : State) (fn node : Nat) : State :=
  if node ≠ 0 ∧ node = s.get Ent.NODE_ID then nodeConflict s 0x1FF (fn * 128 + node) else s

/-! ## Requests (R336 to R338) -/

/-- A request frame as its header spells it. -/
structure CanReq where
  req : Request
  more : Bool                        -- another segment follows
  second : Bool                      -- this is the second segment

/-- The header and the value of a payload. -/
def canParse (p : Bytes) : CanReq :=
  let b (i : Nat) : Nat := (p.getD i 0).toNat
  ⟨⟨.N, b 2 % 16, leNat ((p.drop 4).take 2), b 6, (p.drop 8).take (b 3), b 1, b 0 % 128, false, true⟩, bit (b 2) 4, bit (b 2) 5⟩

/-- A header that R336 answers with RANGE. -/
def canMalformed (p : Bytes) : Bool :=
  let b (i : Nat) : Nat := (p.getD i 0).toNat
  !(1 ≤ b 2 % 16 && b 2 % 16 ≤ 3) || b 7 != 0 || 64 ≤ b 2 || p.length < 8 + b 3

/-- Requester, sequence, op and address agree (R337, R338). -/
def sameRequest (a b : Request) : Bool := a.node == b.node && a.seq == b.seq && a.op == b.op && a.idx == b.idx && a.sub == b.sub

/-- The payload of a response frame; `seg` its segment bits. -/
def responsePayload (q : Request) (seg status : Nat) (v : Bytes) : Bytes :=
  [byte q.node, byte q.seq, byte (q.op + seg), byte v.length] ++ leBytes 2 q.idx ++ [byte q.sub, byte status] ++ v

/-- The payloads of a response: two segments for a value of more than 56 bytes (R337). -/
def responsePayloads (q : Request) (status : Nat) (v : Bytes) : List Bytes :=
  if v.length ≤ 56 then [responsePayload q 0 status v]
  else [responsePayload q 16 status (v.take 56), responsePayload q 32 status (v.drop 56)]

/-- A refusal by the parser itself: a RESPONSE tried into queue 09. It is not the kept response (log 52). -/
def parserAnswer (s : State) (q : Request) (status : Nat) : State := canPushOwn s 3 (responsePayloads q status [])

/-- The payloads of the kept response, which answers a repeat within 1 s (R338). -/
def keptPayloads (s : State) (q : Request) : Option (List Bytes) :=
  match s.spindle.can.kept with
  | some (ps, q', t) => if sameRequest q q' && s.keeper.aon ≤ t + aonMs 1000 then some ps else none
  | none => none

/-- A complete request: repeated, queued, or refused with BUSY (R338). The identifier of a repeated response is formed as it is queued (R332). -/
def requestComplete (s : State) (q : Request) : State :=
  match keptPayloads s q with
  | some ps => canPushOwn (s.bump Ent.RESP_REPEATS) 3 ps
  | none => if (enqueue s q).2 then (enqueue s q).1 else parserAnswer (enqueue s q).1 q Sc.busy

/-- A first segment (R337). -/
def firstSegment (s : State) (q : Request) : State :=
  match s.spindle.can.seg with
  | some (q', _) => if sameRequest q q' then s.onCan fun c => { c with seg := some (q, q.value) } else parserAnswer s q Sc.busy
  | none => s.onCan fun c => { c with seg := some (q, q.value) }

/-- The held first segment is dropped. -/
def dropSegment (s : State) : State :=
  if s.spindle.can.seg.isSome then (s.bump Ent.SEG_TIMEOUTS).onCan fun c => { c with seg := none } else s

/-- A second segment. -/
def secondSegment (s : State) (q : Request) : State :=
  match s.spindle.can.seg with
  | some (q', v) =>
    if sameRequest q q' then requestComplete (s.onCan fun c => { c with seg := none }) { q with value := v ++ q.value } else dropSegment s
  | none => s

/-- A REQUEST frame. A frame of fewer than 8 bytes has no header and is dropped (log 52). -/
def requestRx (s : State) (target : Nat) (p : Bytes) : State :=
  if target = 0 ∨ target ≠ s.get Ent.NODE_ID ∨ p.length < 8 ∨ !engineUp s then s
  else
    let r := canParse p
    if canMalformed p then parserAnswer s r.req Sc.range
    else if r.second then secondSegment s r.req
    else if r.more then firstSegment s r.req
    else requestComplete s r.req

/-- TIME received (R340). -/
def timeRx (s : State) (node time : Nat) : State :=
  if s.get Ent.TIME_PERIOD = 0 ∧ s.get Ent.TIME_ACCEPT = 1 ∧ (s.get Ent.TIME_SOURCE = 0 ∨ s.get Ent.TIME_SOURCE = node) ∧ engineUp s then
    (enqueue s { numReq .N Ent.TIME_SET time with dropped := true }).1
  else s

/-! ## The parser (R184, R190) -/

/-- What the frame parser does with a frame. -/
def parseRx (s : State) (f : CanRx) : State :=
  match f with
  | .beacon b0 b1 => beaconRx s b0 b1
  | .source n => ownIdRx s 1 n
  | .request target p => requestRx s target p
  | .other => s
  | .time n t => timeRx s n t
  | .heartbeat n => ownIdRx s 6 n

/-- The frame parser empties the CAN RX FIFO while its clock, CLK_CORE, runs. -/
def parserRun (s : State) : State :=
  if engineRuns s then s.spindle.can.rx.foldl parseRx (s.onCan fun c => { c with rx := [] }) else s

/-- A frame is received without error. One that R331 does not accept is discarded and counted; another waits in the FIFO for the parser, and raises
CORE (R170). -/
def canReceive (s : State) (accepted : Bool) (f : CanRx) : State :=
  if !canOnBus s then s
  else if accepted then parserRun (raiseCore (rxPush (recAfter s) f))
  else recAfter (s.bump Ent.RX_IGNORED)

/-- The port transmitter takes the oldest response of user N (R337, R338). -/
def responseSend (s : State) : State :=
  match headResponse s .N with
  | none => s
  | some r =>
    let s := s.onDict fun d => { d with resps := { d.resps with n := d.resps.n.drop 1 } }
    let ps := responsePayloads r.req r.status r.value
    let s := s.onCan fun c => { c with kept := some (ps, r.req, s.keeper.aon) }
    canPushOwn s 3 ps

/-! ## Commands -/

def execCanBeaconRx (b0 b1 : Byte) (s : State) : Host.Outcome State Fault Refusal := .next (canReceive s true (.beacon b0 b1))

def execCanSourceRx (node : Nat) (s : State) : Host.Outcome State Fault Refusal := .next (canReceive s (nodeOk node) (.source node))

def execCanHeartbeatRx (node : Nat) (s : State) : Host.Outcome State Fault Refusal := .next (canReceive s (nodeOk node) (.heartbeat node))

def execCanRequestRead (target : Nat) (payload : Bytes) (s : State) : Host.Outcome State Fault Refusal :=
  .next (canReceive s (nodeOk target) (.request target payload))

def execCanRequestWrite (target : Nat) (payload : Bytes) (s : State) : Host.Outcome State Fault Refusal :=
  .next (canReceive s (nodeOk target) (.request target payload))

def execCanRequestStage (target : Nat) (payload : Bytes) (s : State) : Host.Outcome State Fault Refusal :=
  .next (canReceive s (nodeOk target) (.request target payload))

/-- 100 ms after a first segment (R337). -/
def execCanSegmentTimeout (s : State) : Host.Outcome State Fault Refusal := .next (dropSegment s)

def execCanTimeRx (node time : Nat) (s : State) : Host.Outcome State Fault Refusal := .next (canReceive s (nodeOk node) (.time node time))

/-- A frame that R331 does not accept: it is received without error and discarded. -/
def execCanFrameIgnored (s : State) : Host.Outcome State Fault Refusal := .next (canReceive s false .other)

def execCanResponseSend (s : State) : Host.Outcome State Fault Refusal := .next (if engineUp s then responseSend s else s)

/-- An error while receiving: counted, and REC raised (R346). `rec`: whether it came while the error flag was sent, and how often 8 is added beside. -/
def execCanRxError (e : CanError) (id : Nat) (dataPhase : Bool) (rec : Bool × Nat) (s : State) : Host.Outcome State Fault Refusal :=
  .next (if canOnBus s then (countError s e false dataPhase id).put Ent.REC (s.get Ent.REC + recGain e rec.1 rec.2) else s)

/-- A valid RESPONSE or NOTICE of another node: accepted, and the device does nothing with it. One with node field 0 is CAN_FRAME_IGNORED's. -/
def execCanResponseNoticeRx (s : State) : Host.Outcome State Fault Refusal := .next (canReceive s true .other)

end Sys2Proof.Machine
end

