-- ==== Sys2Proof/Machine/Fetch.lean ====
section
/-! DEFINITION. The core's memory accesses: checks in the order of R221, the regions of R213, the dictionary windows (R62 to R66), the fetch with its
prefetch queue (R226). -/
namespace Sys2Proof.Machine

/-! ## Exceptions before they are taken -/

/-- An exception: cause, mtval, and, for an access fault, what FAULTINFO records (R223); kind 0 otherwise. -/
structure Exc where
  cause : Nat
  tval : Word
  kind : Nat := 0
  status : Nat := 0
  regions : Nat := 0
  deriving DecidableEq, Repr

/-- An access fault at an address, with the MPU regions that matched. -/
def accessExc (c : Core) (cause : Nat) (addr : Word) (kind status : Nat) : Exc := ⟨cause, addr, kind, status, mpuMatches c addr⟩

/-- The exception is taken (R222, R223). -/
def takeExc (s : State) (e : Exc) : State :=
  if e.kind = 0 then raiseTrap s e.cause e.tval else accessFault s e.cause e.tval e.kind e.status e.regions

/-- What a load or a store comes to: it completes with a value, it raises an exception, or it waits for its response (R64). -/
inductive Access where
  | ok (s : State) (v : Word)
  | bad (s : State) (e : Exc)
  | wait (s : State)

/-! ## The checks of a load or a store (R213, R221) -/

/-- A rule of the region, or the map, forbids the access: its kind (R213, R214, R228, R259). -/
def regionFault (s : State) (write : Bool) (n a : Nat) : Option Nat :=
  match regionOf a with
  | none => some 1
  | some .code => if write && s.spindle.core.svctl.getLsbD 0 then some 2 else none
  | some .data | some .scratch | some .xfer => none
  | some .capt => if write then some 2 else none
  | some .window => if n = 4 then none else some 2
  | some .staging => if write && n == 4 then none else some 2
  | some .flash =>
    if write then some 2
    else if s.spindle.flOp.any fun o => o.1 == 2 || o.1 == 3 then some 2
    else if s.get Ent.FL_SIZE ≤ a - 0x60000000 then some 1 else none

/-- The first exception of a load or store of `n` bytes before its transfer: alignment, the MPU, the region (R221). -/
def dataCheck (s : State) (user write : Bool) (n : Nat) (a : Word) : Option Exc :=
  let c := s.spindle.core
  let cause := if write then 7 else 5
  if a.toNat % n ≠ 0 then some { cause := cause - 1, tval := a }
  else
    match mpuCheck c user (if write then 1 else 0) a with
    | some k => some (accessExc c cause a k 0)
    | none => (regionFault s write n a.toNat).map fun k => accessExc c cause a k 0

/-! ## The memories -/

/-- Bytes loaded from a region that is not a dictionary window; capture SRAM that is not held gives a free value (R215). -/
def readMem (s : State) (user : Bool) (n a : Nat) : State × Nat :=
  let m := s.spindle.mem
  match regionOf a with
  | some .code => (s, leNat (m.code.getAll (a - 0x10000000) n))
  | some .data => (s, leNat (m.data.getAll (a - 0x20000000) n))
  | some .capt => if s.get Ent.CAPT_HELD = 1 then (s, leNat (m.capt.getAll (a - 0x21000000) n)) else (s.used, Config.freeNat s.free % 256 ^ n)
  | some .scratch => (demand s .crypto, leNat (m.scratch.getAll (a - 0x30000000) n))
  | some .xfer => (s, leNat ((xferBuf s user).getAll (a - 0x44000000) n))
  | some .flash => (flRead s (a - 0x60000000), leNat (flashBytes s (a - 0x60000000) n))
  | _ => (s, 0)

/-- A store invalidates a queued halfword that it writes and every one queued after it (R226). -/
def snoop (s : State) (a n : Nat) : State :=
  let q := s.spindle.core.queue
  let kept := q.takeWhile fun h => decide (h.1 + 2 ≤ a) || decide (a + n ≤ h.1)
  if kept.length = q.length then s else (s.onCore fun c => { c with queue := kept }).bump Ent.SMC_INVALIDATES

/-- Bytes stored in a region that is not a dictionary window. -/
def writeMem (s : State) (user : Bool) (a : Nat) (b : Bytes) : State :=
  match regionOf a with
  | some .code => snoop (s.onMem fun m => { m with code := m.code.putAll (a - 0x10000000) b }) a b.length
  | some .data => s.onMem fun m => { m with data := m.data.putAll (a - 0x20000000) b }
  | some .scratch => (demand s .crypto).onMem fun m => { m with scratch := m.scratch.putAll (a - 0x30000000) b }
  | some .xfer => setXfer s user ((xferBuf s user).putAll (a - 0x44000000) b)
  | _ => s

/-! ## The dictionary windows (R62 to R66) -/

def windowUser (user : Bool) : User := if user then .U else .M

/-- Index and subindex of a window address (R62, R66). -/
def windowIdx (base a : Nat) : Nat := (a - base) / 1024
def windowSub (base a : Nat) : Nat := (a - base) / 4 % 256

/-- The register's value for a scalar value (R63). -/
def scalarWord (t : Ty) (b : Bytes) : Word :=
  match t with
  | .s16 => sextWord 16 (leNat b)
  | _ => BitVec.ofNat 32 (leNat b)

/-- The value that a stored word gives an entry, and whether its upper bits are the extension; the empty value where the word is not n (R63, R65). -/
def storedValue (s : State) (user : Bool) (idx sub : Nat) (v : Word) : Bytes × Bool :=
  match rowAt idx sub with
  | none => ([], true)
  | some r =>
    match r.ty with
    | .oct n => if v.toNat = n then ((xferBuf s user).getAll 0 n, true) else ([], true)
    | t => (leBytes t.size v.toNat, scalarWord t (leBytes t.size v.toNat) == v)

/-- The core's request: marked apart from those of the commands that name an access of M (`seq` 1). -/
def coreReq (user : Bool) (op idx sub : Nat) (v : Bytes) (ext : Bool) : Request := { Request.mk' (windowUser user) op idx sub v with seq := 1, ext := ext }

/-- A window load (R62 to R65). -/
def windowLoad (s : State) (user : Bool) (a : Word) : Access :=
  let idx := windowIdx 0x40000000 a.toNat
  let sub := windowSub 0x40000000 a.toNat
  match coreAsk s (coreReq user 1 idx sub [] true) with
  | (t, none) => .wait t
  | (t, some (c, v)) =>
    if c ≠ Sc.ok then .bad t (accessExc s.spindle.core 5 a 6 c)
    else
      match rowAt idx sub with
      | some { ty := .oct n, .. } => .ok (setXfer t user ((xferBuf t user).putAll 0 v)) (BitVec.ofNat 32 n)
      | some r => .ok t (scalarWord r.ty v)
      | none => .ok t 0

/-- A store to the scalar window (`op` 2) or to the staging window (`op` 3). -/
def windowStore (s : State) (user : Bool) (op base : Nat) (a v : Word) : Access :=
  let idx := windowIdx base a.toNat
  let sub := windowSub base a.toNat
  let x := storedValue s user idx sub v
  match coreAsk s (coreReq user op idx sub x.1 x.2) with
  | (t, none) => .wait t
  | (t, some (c, _)) => if c = Sc.ok then .ok t 0 else .bad t (accessExc s.spindle.core 7 a 6 c)

/-! ## Loads and stores -/

/-- A load of `n` bytes. -/
def coreLoad (s : State) (user : Bool) (n : Nat) (a : Word) : Access :=
  match dataCheck s user false n a with
  | some e => .bad s e
  | none =>
    if regionOf a.toNat = some .window then windowLoad s user a
    else .ok (readMem s user n a.toNat).1 (BitVec.ofNat 32 (readMem s user n a.toNat).2)

/-- A store of `n` bytes. -/
def coreStore (s : State) (user : Bool) (n : Nat) (a v : Word) : Access :=
  match dataCheck s user true n a with
  | some e => .bad s e
  | none =>
    match regionOf a.toNat with
    | some .window => windowStore s user 2 0x40000000 a v
    | some .staging => windowStore s user 3 0x48000000 a v
    | _ => .ok (writeMem s user a.toNat (leBytes n v.toNat)) 0

/-! ## Fetch (R213, R226, R233) -/

/-- The exception of a fetch of one halfword. -/
def fetchCheck (c : Core) (a : Word) : Option Exc :=
  match mpuCheck c c.user 2 a with
  | some k => some (accessExc c 1 a k 0)
  | none =>
    match regionOf a.toNat with
    | some .code => none
    | some _ => some (accessExc c 1 a 2 0)
    | none => some (accessExc c 1 a 1 0)

/-- A halfword fetched: the queued copy where there is one. -/
def fetchHalf (s : State) (a : Word) : Except Exc (BitVec 16) :=
  match s.spindle.core.queue.find? fun h => h.1 == a.toNat with
  | some h => .ok h.2
  | none =>
    match fetchCheck s.spindle.core a with
    | some e => .error e
    | none => .ok (BitVec.ofNat 16 (leNat (s.spindle.mem.code.getAll (a.toNat - 0x10000000) 2)))

/-- An instruction fetched: none where it is illegal; its bits; its length in bytes. -/
structure Fetched where
  inst : Option Rv
  word : Nat
  len : Nat

/-- The instruction at the pc. -/
def fetch (s : State) : Except Exc Fetched :=
  match fetchHalf s s.spindle.core.pc with
  | .error e => .error e
  | .ok h =>
    if h.toNat % 4 ≠ 3 then .ok ⟨decode16 h.toNat, h.toNat, 2⟩
    else
      match fetchHalf s (s.spindle.core.pc + 2) with
      | .error e => .error e
      | .ok g => .ok ⟨decode32 (h.toNat + 65536 * g.toNat), h.toNat + 65536 * g.toNat, 4⟩

/-- Halfwords fetched ahead, up to the first that faults. -/
def prefetch (s : State) : Nat → Word → List (Nat × BitVec 16)
  | 0, _ => []
  | n + 1, a =>
    match fetchHalf s a with
    | .error _ => []
    | .ok h => (a.toNat, h) :: prefetch s n (a + 2)

/-- The queue while an instruction executes: the four halfwords after it (R226, log 59). -/
def fillQueue (s : State) (len : Nat) : State :=
  let q := prefetch s 4 (s.spindle.core.pc + BitVec.ofNat 32 len)
  s.onCore fun c => { c with queue := q }

end Sys2Proof.Machine
end

