-- ==== Sys2Proof/Machine/Execute.lean ====
section
/-! DEFINITION. The core's instructions (R210 to R236) and the commands that execute them. -/
namespace Sys2Proof.Machine

/-- What an instruction comes to. -/
inductive Done where
  | retire (s : State) (next : Word)   -- it completes; the next pc
  | counted (s : State) (next : Word)  -- the same, minstret already counted
  | exc (s : State) (e : Exc)
  | trigger (action : Nat)             -- a trigger on its load or store address
  | debug                              -- EBREAK into debug mode
  | wait (s : State)                   -- its window access has no response yet (R64)

/-! ## Retirement -/

/-- minstret counts the instruction (R211, R212). -/
def countInstr (s : State) : State := s.onCore fun c => if c.mcountinhibit.getLsbD 2 then c else { c with minstret := c.minstret + 1 }

/-- The pc moves on; the in-entry flag clears (R224); a jump empties the prefetch queue (R200). -/
def Core.goto (c : Core) (next : Word) : Core :=
  { c with pc := next, inEntry := false, queue := if c.queue.head?.any fun h => h.1 != next.toNat then [] else c.queue }

/-- While dcsr.step is 1 the hart halts after the instruction (R235). -/
def stepHalt (s : State) : State :=
  if s.spindle.core.dcsr.getLsbD 2 && !s.spindle.core.halted && !s.spindle.lockedUp then enterDebug s 4 else s

/-- A halt request that was held is served (R224). -/
def serveHalt (s : State) : State := if s.spindle.core.haltOwed && !s.spindle.core.halted then enterDebug s 3 else s

/-- The end of an instruction; `s` before it. -/
def finish (s : State) : Done → State
  | .retire t next => stepHalt (serveHalt ((countInstr t).onCore fun c => c.goto next))
  | .counted t next => stepHalt (serveHalt (t.onCore fun c => c.goto next))
  | .exc t e => stepHalt (takeExc t e)
  | .trigger a => stepHalt (triggerAct s a s.spindle.core.pc)
  | .debug => enterDebug s 1
  | .wait t => t

/-! ## Instructions -/

/-- An illegal instruction (R219). -/
def illegal (word : Nat) : Exc := { cause := 2, tval := BitVec.ofNat 32 word }

/-- The privilege of an instruction's loads and stores; debug mode has that of M (R217, R235). -/
def accessUser (s : State) (dbg : Bool) : Bool := !dbg && effUser s.spindle.core

/-- A write of rd. -/
def setReg (s : State) (rd : Nat) (v : Word) : State := s.onCore fun c => c.setX rd v

def runLoad (s : State) (f3 rd : Nat) (a next : Word) (dbg : Bool) : Done :=
  match if dbg then none else triggerHit s.spindle.core 2 a with
  | some t => .trigger t
  | none =>
    match coreLoad s (accessUser s dbg) (accessSize f3) a with
    | .ok t v => .retire (setReg t rd (loadExtend f3 v.toNat)) next
    | .bad t e => .exc t e
    | .wait t => .wait t

def runStore (s : State) (f3 : Nat) (a v next : Word) (dbg : Bool) : Done :=
  match if dbg then none else triggerHit s.spindle.core 1 a with
  | some t => .trigger t
  | none =>
    match coreStore s (accessUser s dbg) (accessSize f3) a v with
    | .ok t _ => .retire t next
    | .bad t e => .exc t e
    | .wait t => .wait t

/-- A CSR instruction writes unless it is a set or clear whose rs1 field is 0. -/
def csrWrites (f3 rs1 : Nat) : Bool := f3 % 4 == 1 || rs1 != 0

/-- The value a CSR instruction writes. -/
def csrNew (f3 : Nat) (old src : Word) : Word :=
  match f3 % 4 with
  | 1 => src
  | 2 => old ||| src
  | _ => old &&& ~~~src

/-- A CSR instruction (R211): the value read is that before the instruction is counted. -/
def runCsr (s : State) (f3 rd rs1 a word : Nat) (next : Word) (dbg : Bool) : Done :=
  let c := s.spindle.core
  if !csrAllowed s a (csrWrites f3 rs1) (c.user && !dbg) dbg then .exc s (illegal word)
  else
    let old := (csrRead s a dbg).getD 0
    let src := if f3 < 4 then c.x rs1 else BitVec.ofNat 32 rs1
    let t := countInstr s
    .counted (setReg (if csrWrites f3 rs1 then writeCsr t a (csrNew f3 old src) dbg else t) rd old) next

/-- ECALL (R219). -/
def runEcall (s : State) : Done := .exc s { cause := if s.spindle.core.user then 8 else 11, tval := 0 }

/-- dcsr routes EBREAK to debug mode at the current privilege (R211). -/
def ebreakHalts (c : Core) : Bool := if c.user then c.dcsr.getLsbD 12 else c.dcsr.getLsbD 15

/-- EBREAK (R211, R219). -/
def runEbreak (s : State) : Done :=
  if ebreakHalts s.spindle.core then .debug else .exc s { cause := 3, tval := s.spindle.core.pc }

/-- The privilege and the status after MRET (R218). -/
def Core.mret (c : Core) : Core :=
  { c with mstatus := mkStatus c.mpie true true (c.mprv && !c.mppUser), user := c.mppUser, queue := [] }

/-- MRET (R218). -/
def runMret (s : State) (word : Nat) : Done :=
  if s.spindle.core.user then .exc s (illegal word) else .retire (s.onCore Core.mret) s.spindle.core.mepc

/-- WFI (R211): no stall while an enabled interrupt is pending, nor while the debugger steps. -/
def runWfi (s : State) (word : Nat) (next : Word) : Done :=
  if s.spindle.core.user then .exc s (illegal word)
  else if enabledIrqs s ≠ 0 ∨ s.spindle.core.dcsr.getLsbD 2 then .retire s next
  else .retire (s.onCore fun c => { c with waiting := true }) next

/-- An instruction, with its bits and the address after it. -/
def runInstr (s : State) (i : Rv) (word : Nat) (next : Word) (dbg : Bool) : Done :=
  let c := s.spindle.core
  match i with
  | .lui rd imm => .retire (setReg s rd imm) next
  | .auipc rd imm => .retire (setReg s rd (c.pc + imm)) next
  | .jal rd off => .retire (setReg s rd next) (c.pc + off)
  | .jalr rd rs1 off => .retire (setReg s rd next) ((c.x rs1 + off) &&& 0xFFFFFFFE)
  | .branch f3 rs1 rs2 off => .retire s (if branchTaken f3 (c.x rs1) (c.x rs2) then c.pc + off else next)
  | .load f3 rd rs1 off => runLoad s f3 rd (c.x rs1 + off) next dbg
  | .store f3 rs1 rs2 off => runStore s f3 (c.x rs1 + off) (c.x rs2) next dbg
  | .opImm f3 rd rs1 imm => .retire (setReg s rd (aluOp f3 false (c.x rs1) imm)) next
  | .shiftImm f3 rd rs1 n arith => .retire (setReg s rd (aluOp f3 arith (c.x rs1) (BitVec.ofNat 32 n))) next
  | .op f3 rd rs1 rs2 alt => .retire (setReg s rd (aluOp f3 alt (c.x rs1) (c.x rs2))) next
  | .muldiv f3 rd rs1 rs2 => .retire (setReg s rd (mulDivOp f3 (c.x rs1) (c.x rs2))) next
  | .fence => .retire s next
  | .fenceI => .retire (s.onCore fun c => { c with queue := [] }) next
  | .ecall => runEcall s
  | .ebreak => runEbreak s
  | .mret => runMret s word
  | .wfi => runWfi s word next
  | .csr f3 rd rs1 a => runCsr s f3 rd rs1 a word next dbg

/-! ## Which command executes which instruction -/

/-- The address of a load or a store lies in a region. -/
def inRegion (c : Core) (rs1 : Nat) (off : Word) (g : MemRegion) : Bool := regionOf (c.x rs1 + off).toNat == some g

def isMpuCsr (a : Nat) : Bool := decide (0x7C8 ≤ a) && decide (a ≤ 0x7D7)

/-- The command of an instruction that a row of its own names. -/
inductive CoreRow where
  | ordinary | load | store | windowLoad | windowStore | stageStore | csr | svctl | mpuCsr | ecall | ebreak | mret | wfi | fence | fenceI
  deriving DecidableEq, Repr

/-- The row of an instruction. -/
def coreRow (c : Core) : Rv → CoreRow
  | .load _ _ rs1 off => if inRegion c rs1 off .window then .windowLoad else .load
  | .store _ rs1 _ off => if inRegion c rs1 off .window then .windowStore else if inRegion c rs1 off .staging then .stageStore else .store
  | .csr f3 _ rs1 a => if csrWrites f3 rs1 && a == 0x7C0 then .svctl else if csrWrites f3 rs1 && isMpuCsr a then .mpuCsr else .csr
  | .ecall => .ecall
  | .ebreak => .ebreak
  | .mret => .mret
  | .wfi => .wfi
  | .fence => .fence
  | .fenceI => .fenceI
  | _ => .ordinary

/-- The hart runs: out of reset, handed over, neither locked up nor halted, and CORE is ON. -/
def coreRuns (s : State) : Bool :=
  s.spindle.alive && s.spindle.handed && !s.spindle.lockedUp && !s.spindle.core.halted && domState s .core == 2

/-- The interrupt to be taken before the next instruction; none while the debugger steps without stepie (R220, R235). -/
def dueIrq (s : State) : Option Nat :=
  if s.spindle.core.dcsr.getLsbD 2 && !s.spindle.core.dcsr.getLsbD 11 then none else takeableIrq s

/-- The core executes its next instruction: it runs, it is not in WFI, and no interrupt is due first. An instruction that waits for the response to its
window access goes on before any interrupt (R64). -/
def coreReady (s : State) : Bool := coreRuns s && !s.spindle.core.waiting && (s.spindle.core.asked.isSome || (dueIrq s).isNone)

/-- The next instruction, whatever it is: a trigger on its address, its fetch, its decoding, its effect, in the order of R221. `p` says which
instructions this command executes, `front` whether it answers for those that do not come to be decoded. -/
def stepInstr (s : State) (p : Rv → Bool) (front : Bool) : State :=
  match triggerHit s.spindle.core 0 s.spindle.core.pc, fetch s with
  | some a, _ => if front then stepHalt (triggerAct s a s.spindle.core.pc) else s
  | none, .error e => if front then stepHalt (takeExc s e) else s
  | none, .ok ⟨none, word, _⟩ => if front then stepHalt (takeExc s (illegal word)) else s
  | none, .ok ⟨some i, word, len⟩ =>
    if p i then finish s (runInstr (fillQueue s len) i word (s.spindle.core.pc + BitVec.ofNat 32 len) false) else s

/-- A command that executes the instruction at the pc where that instruction is of its row. -/
def coreCommand (s : State) (row : CoreRow) : State :=
  if coreReady s then stepInstr s (fun i => coreRow s.spindle.core i == row) (row == .ordinary) else s

/-! ## The commands -/

def execInstrExecute (s : State) : Host.Outcome State Fault Refusal := .next (coreCommand s .ordinary)
def execLoad (s : State) : Host.Outcome State Fault Refusal := .next (coreCommand s .load)
def execStore (s : State) : Host.Outcome State Fault Refusal := .next (coreCommand s .store)
def execCoreWindowLoad (s : State) : Host.Outcome State Fault Refusal := .next (coreCommand s .windowLoad)
def execCoreWindowStore (s : State) : Host.Outcome State Fault Refusal := .next (coreCommand s .windowStore)
def execCoreStageStore (s : State) : Host.Outcome State Fault Refusal := .next (coreCommand s .stageStore)
def execCsrAccess (s : State) : Host.Outcome State Fault Refusal := .next (coreCommand s .csr)
def execSvctlWrite (s : State) : Host.Outcome State Fault Refusal := .next (coreCommand s .svctl)
def execMpuCsrWrite (s : State) : Host.Outcome State Fault Refusal := .next (coreCommand s .mpuCsr)
def execEcall (s : State) : Host.Outcome State Fault Refusal := .next (coreCommand s .ecall)
def execEbreak (s : State) : Host.Outcome State Fault Refusal := .next (coreCommand s .ebreak)
def execMret (s : State) : Host.Outcome State Fault Refusal := .next (coreCommand s .mret)
def execWfi (s : State) : Host.Outcome State Fault Refusal := .next (coreCommand s .wfi)
def execFence (s : State) : Host.Outcome State Fault Refusal := .next (coreCommand s .fence)
def execFenceI (s : State) : Host.Outcome State Fault Refusal := .next (coreCommand s .fenceI)

/-- The core leaves WFI once an interrupt enabled in mie is pending (R211). -/
def execWfiResume (s : State) : Host.Outcome State Fault Refusal :=
  .next (if coreRuns s && enabledIrqs s != 0 then s.onCore fun c => { c with waiting := false } else s)

/-- An interrupt is taken (R220), once no window access blocks the core (R64). -/
def execInterruptTaken (s : State) : Host.Outcome State Fault Refusal :=
  .next (
    match coreRuns s && s.spindle.core.asked.isNone, dueIrq s with
    | true, some cause => stepHalt (takeIrq s cause)
    | _, _ => s)

/-- The keeper watchdog expires (R234); after a LOCKUP that was received the cause is 2 (R225). It does not count while the hart is halted. -/
def wdtExpire (s : State) : State :=
  if s.keeper.wdt.isNone || s.spindle.core.halted then s
  else
    let cause := if s.keeper.lockedUp then 2 else 3
    let s := (s.bump Ent.WDT_BITES).put Ent.RESET_CAUSE cause
    startReset (logKeeper s 0x52 0x43 (byte (s.get Ent.WDT_TIMEOUT) :: leBytes 2 (s.get Ent.WDT_BITES))) cause

def execWdtExpiry (s : State) : Host.Outcome State Fault Refusal := .next (wdtExpire s)

end Sys2Proof.Machine
end

