-- ==== Sys2Proof/Machine/Steps.lean ====
section
/-! DEFINITION. The steps of the weekly self-test as the dies run them and as the keeper takes their results (R151 to R156, R297). -/
namespace Sys2Proof.Machine

/-- The SELFTEST message on the wire with one of the codes, for a die. -/
def stMessage (s : State) (d : Die) (codes : List Nat) : Option SbMsg :=
  (sbArrived s 0xE d).bind fun m => if codes.contains (m.payload.getD 0 0).toNat then some m else none

/-- A die takes a SELFTEST message; a die that is not in service does not answer, and the message passes. -/
def onSelftest (s : State) (d : Die) (codes : List Nat) (f : State → SbMsg → State) : State :=
  match stMessage s d codes with
  | none => s
  | some m =>
    let here := match d with
      | .keeper => true
      | .flyer => s.flyer.up
      | .spindle => s.spindle.alive
    if here then f (sbTake s d m) m else sbLift s d

/-- The answer to step `k` (R153): verdict 0 failed, 1 passed, 2 not run. -/
def stAnswer (s : State) (d : Die) (k : Nat) (ok : Bool) (result : Bytes) : State :=
  sbQueue s d 0xE 0 ([byte (0x80 + k), if ok then 1 else 0] ++ result)

/-- Bytes `off` to `off + size - 1` of a message as a number. -/
def payNat (m : SbMsg) (off size : Nat) : Nat := leNat ((m.payload.drop off).take size)

/-! ## The flyer's steps -/

/-- A reference as a percentage of its nominal, rounded down and saturating (R153, R305); of a nominal of zero no percentage is stated (log 49). -/
def stPercent (r nom : Nat) : Nat :=
  if nom = 0 then (Config.freeResult r 0 0).toNat % 256 else min (100 * r / nom) 255

/-- Within ± `tol` % of the nominal (R152). -/
def withinPercent (r nom tol : Nat) : Bool := nom * (100 - tol) ≤ 100 * r && 100 * r ≤ nom * (100 + tol)

/-- Step 1 (R152): one optical measurement against the reference and dark limits. A measurement in progress goes on. -/
def stepChamber (s : State) (m : SbMsg) (caps : Captures) (led : Bool) (loaded : Nat) : State :=
  let g := integralsOf s caps
  let nomIr := shadowNat s.flyer.bs 16 4
  let nomBl := shadowNat s.flyer.bs 20 4
  let flags := flyerFlags s g led false ||| if refLow g.rIr nomIr || refLow g.rBl nomBl then 2 else 0
  let dark := decide (((g.dark : Int) - payNat m 2 2).natAbs ≤ payNat m 4 2)
  let ok := withinPercent g.rIr nomIr (payNat m 1 1) && withinPercent g.rBl nomBl (payNat m 1 1) && dark && (flags &&& 11) == 0
  let before := s.flyer.sense.opt
  let s := (optFinish s ⟨false, flyerTime s, s.keeper.vddMv⟩ caps led loaded).onSense fun x => { x with opt := before }
  stAnswer s .flyer 1 ok ([byte (stPercent g.rIr nomIr), byte (stPercent g.rBl nomBl)] ++ leBytes 2 g.dark ++ [byte (flags % 256)])

/-- Step 2 (R152): boost check and 24 kHz impedance. -/
def stepHorn (s : State) (m : SbMsg) (ohm rise : Nat) (surge : Bool) : State :=
  let ok := decide (rise ≤ 20) && decide (payNat m 1 2 ≤ ohm) && decide (ohm ≤ payNat m 3 2) && !surge
  let s := s.onHorn fun h => { h with check := false }
  stAnswer s .flyer 2 ok (leBytes 2 (min ohm 65535) ++ [byte rise, if surge then 1 else 0])

/-- Step 3 (R152): the raw voltage against the level less the offset. -/
def stepBattery (s : State) (m : SbMsg) (mv : Nat) : State := stAnswer s .flyer 3 (decide (payNat m 2 2 ≤ mv)) (leBytes 2 mv)

/-- Step 4 (R119, R152): the integrity pulse with its restore. Where no pulse may start, none is answered, and the step misses its limit (log 50). -/
def stepCo (s : State) (m : SbMsg) (peak : Nat) : State :=
  if pulseStatus s ≠ Sc.ok then s
  else
    let ok := decide (toSigned 32 (payNat m 3 4) ≤ (peak : Int)) && decide ((peak : Int) ≤ toSigned 32 (payNat m 7 4))
    stAnswer (pulseRestore (pulseStep s) peak) .flyer 4 ok (leBytes 4 peak)

/-! ## The spindle die's steps -/

/-- The sideband message wakes the spindle die (R170, R297). -/
def wakeForStep (s : State) : State := wake s 0x0B [.core]

/-- Step 6 (R300): the first complete window after the step begins. -/
def stepRng (s : State) (w : Nat) : State :=
  let s := judgeWindow (demand (wakeForStep s) .rng) w
  stAnswer s .spindle 6 (!windowFails s w) (leBytes 2 (ofSigned 16 (windowBias w)) ++ leBytes 2 (ofSigned 16 (windowCorr w)))

/-- Step 7 (R152, R153): the failing vectors. -/
def stepVectors (s : State) (failing : Nat) : State :=
  stAnswer (demand (wakeForStep s) .crypto) .spindle 7 (failing % 8 == 0) [byte (failing % 8)]

/-- RNG words for the keeper (R297): at once or none for the spread, in turn for the pool. -/
def stWords (s : State) (m : SbMsg) : State :=
  let n := payNat m 1 1 / 4
  let s := wakeForStep s
  match s.keeper.words with
  | .spread :: _ =>
    let s := demand s .rng
    let r := s.spindle.rng
    if r.waiting.isEmpty ∧ n ≤ r.fifo.length then
      wordsCheck (sbQueue (s.onRng fun r => { r with fifo := r.fifo.drop n }) .spindle 0xE 0 (0x20 :: wordBytes (r.fifo.take n)))
    else wordsCheck (sbQueue s .spindle 0xE 0 [0x20])
  | _ => rngAsk s .pool n

/-! ## The keeper -/

/-- A step is done: the next one begins, or the test is complete (R152, R154). -/
def stNext (s : State) : State :=
  let k := stNextStep s s.keeper.st.step
  if 7 < k then selftestDone s else stBegin s k

/-- The verdict of the step that runs: 0 failed, 1 passed, 2 not run. -/
def stVerdict (s : State) (v : Nat) : State :=
  let b := 2 ^ (s.keeper.st.step - 1)
  if v = 2 then s
  else s.onSelfTest fun t => { t with run := t.run ||| b, passed := if v = 1 then t.passed ||| b else t.passed }

/-- A current in nA × 65,536 as tenths of a nA; where it is not a whole number of them, which of the two next to it is open (log 51). -/
def tenthsOf (s : State) (di : Nat) : State × Nat :=
  let n := di * 10 / 65536
  if di * 10 % 65536 = 0 then (s, min n 65535) else (s.used, min (if Config.freeBool s.free then n + 1 else n) 65535)

/-- What a step's result leaves in the record (R153, R155). -/
def stKeep (s : State) (k : Nat) (m : SbMsg) : State :=
  if k = 1 then s.onSelfTest fun t => { t with refPct := payNat m 2 1 }
  else if k = 2 then s.onSelfTest fun t => { t with ohm := payNat m 2 2 }
  else if k = 3 then s.onSelfTest fun t => { t with batt := vddSum s (payNat m 2 2) }
  else if k = 4 then
    let r := tenthsOf s (payNat m 2 4)
    r.1.onSelfTest fun t => { t with di := r.2 }
  else s

/-- The keeper takes a step's answer; one of a step that no longer runs is left aside. -/
def stResult (s : State) (m : SbMsg) : State :=
  let k := payNat m 0 1 - 0x80
  if k ≠ s.keeper.st.step ∨ k = 0 then s else stNext (stVerdict (stKeep s k m) (payNat m 1 1))

/-- A step misses its limit: a spindle step is not run, another fails (R152). -/
def stTimeout (s : State) : State :=
  if s.keeper.st.step = 0 then s else stNext (stVerdict s (if 6 ≤ s.keeper.st.step then 2 else 0))

/-- Step 5 (R152): fuse rows, row CRCs, the chain of the last 64 records. -/
def nvmGood (s : State) : Bool := lcValid s && calRowBad s == 0 && chainFaults s == 0

/-- Step 5 runs in the keeper; records that fail it are counted (R325). -/
def stepNvm (s : State) : State := stNext (stVerdict (s.bumpBy Ent.LOG_CRC_ERR (chainFaults s)) (if nvmGood s then 1 else 0))

/-- The UID of a field session is fixed (R366). -/
def fixUid (s : State) (uid : Bytes) : State := (s.onTag fun t => { t with uid := uid }).put Ent.TAG_UID_NOW (leNat (fitBytes 7 uid))

/-- A pool UID from a word: 0x08 and the word's low 3 bytes. -/
def poolUid (w : Nat) : Nat := 8 + 256 * (w % 2 ^ 24)

/-- A word fills one place of the pool, unless its value is there already (R370). -/
def poolAdd (p : List Nat) (w : Nat) : List Nat := if 64 ≤ p.length ∨ p.contains (poolUid w) then p else p ++ [poolUid w]

/-- The refill takes one word for each UID until the pool holds 64, while the spindle die is available (R370). -/
def poolNext (s : State) : State :=
  if spindleReady s && s.keeper.pool.length < 64 then askWords s .pool else s.onKeeper fun k => { k with poolDue := false }

/-- The word of a request has come, or none of its bytes. -/
def wordsTo (s : State) (w : WordUse) (b : Bytes) : State :=
  if b.length < 4 then wordsGone s w
  else
    match w with
    | .spread => stSpread s (leNat (b.take 4) % 3601)
    | .uid => if s.tag.session && s.tag.uid.isEmpty then fixUid s (0x08 :: b.take 3) else s
    | .pool => poolNext (s.onKeeper fun k => { k with pool := poolAdd k.pool (leNat (b.take 4)) })

/-- Words reach the keeper: they are for the first of its requests, and the next is sent (R151, R297, R369, R370). -/
def takeWords (s : State) (m : SbMsg) : State :=
  match s.keeper.words with
  | [] => s
  | w :: ws => wordsCheck (wordsTo (sendWords (s.onKeeper fun k => { k with words := ws })) w (m.payload.drop 1))

/-! ## Commands -/

def execStChamber (caps : Captures) (ledShort : Bool) (loadedMv : Nat) (s : State) : Host.Outcome State Fault Refusal :=
  .next (onSelftest s .flyer [1] fun s m => stepChamber s m caps ledShort loadedMv)

def execStHorn (ohm riseMs : Nat) (overcurrent : Bool) (s : State) : Host.Outcome State Fault Refusal :=
  .next (onSelftest s .flyer [2] fun s m => stepHorn s m ohm riseMs overcurrent)

def execStBattery (mv : Nat) (s : State) : Host.Outcome State Fault Refusal := .next (onSelftest s .flyer [3] fun s m => stepBattery s m mv)

def execStCoCell (peak : Nat) (s : State) : Host.Outcome State Fault Refusal := .next (onSelftest s .flyer [4] fun s m => stepCo s m peak)

def execStNvm (s : State) : Host.Outcome State Fault Refusal :=
  .next (if s.keeper.st.step = 5 then stepNvm s else s)

def execStRngHealth (window : Nat) (s : State) : Host.Outcome State Fault Refusal := .next (onSelftest s .spindle [6] fun s _ => stepRng s window)

def execStKnownAnswer (failing : Nat) (s : State) : Host.Outcome State Fault Refusal :=
  .next (onSelftest s .spindle [7] fun s _ => stepVectors s failing)

def execStStepResult (s : State) : Host.Outcome State Fault Refusal :=
  .next (onSelftest s .keeper [0x81, 0x82, 0x83, 0x84, 0x86, 0x87] stResult)

def execStStepTimeout (s : State) : Host.Outcome State Fault Refusal := .next (stTimeout s)

/-- SELFTEST step 0x20: the request at the spindle die, or the answer at the keeper. -/
def execStRngWords (s : State) : Host.Outcome State Fault Refusal :=
  .next (onSelftest (onSelftest s .spindle [0x20] stWords) .keeper [0x20] takeWords)

end Sys2Proof.Machine
end

