-- ==== Sys2Proof/Machine/Tag.lean ====
section
/-! DEFINITION. Tap access (R365 to R382): field sessions and UIDs, the frames of ISO/IEC 14443, ISO-DEP blocks, the application commands. Frames and
blocks stand without their CRC. -/
namespace Sys2Proof.Machine

/-! ## Field sessions (R366, R367, R369, R370) -/

def originUid : Bytes := List.ofFn Config.originUid

/-- The origin UID stands in for a random one (R369). -/
def uidFallback (s : State) : State := fixUid ((s.put Ent.TAG_FLAGS 4).bump Ent.TAG_FALLBACKS) originUid

/-- The UID of a new session. -/
def sessionUid (s : State) : State :=
  if s.get Ent.TAG_UID_MODE = 0 then fixUid s originUid
  else
    match s.keeper.pool with
    | u :: rest => fixUid (s.onKeeper fun k => { k with pool := rest }) (leBytes 4 u)
    | [] =>
      if s.keeper.vddValid && spindleReady s then askWords s .uid else uidFallback s

/-- The V entries of this chapter start from their defaults on field power alone (R383). -/
def tagDefaults (s : State) : State := s.dropEntries fun r => r.cls == .v && r.idx / 256 == 0x52

/-- The contactless interface is disabled: TAG rests OFF with VDD_IN valid (R171). -/
def tagOff (s : State) : Bool := s.keeper.vddValid && domState s .tag == 0

/-- A field session starts (R366). -/
def sessionStart (s : State) : State :=
  let s := wake (s.onPads fun p => { p with field := true }) 0x0A []
  if s.tag.session || tagOff s then s
  else
    let s := (if s.keeper.vddValid then s else tagDefaults s).onTag fun _ => { session := true }
    let s := ((s.bump Ent.TAG_SESSIONS).put Ent.TAG_FLAGS 0).put Ent.TAG_STATE 1
    let s := if s.keeper.vddValid then raise (s.put Ent.TAG_FIELD_LAST (now s)) 17 else s
    sessionUid s

/-- The T request being served, if any, has no further effect but a write already taken (R374). -/
def dropT (s : State) : State :=
  let s := dropRequests s .T
  (s.onDict fun d => { d with reqs := { d.reqs with t := [] }, resps := { d.resps with t := [] } }).onTag fun t => { t with waitingT := false }

/-- A field session ends (R366, R382). -/
def sessionEnd (s : State) : State :=
  let s := s.onPads fun p => { p with field := false }
  if s.tag.session then ((endAuth (dropT s)).put Ent.TAG_STATE 0).onTag fun _ => {} else s

/-- The field detector reports no field, or the field again within 5 ms. -/
def fieldDrop (s : State) (returns : Bool) : State := s.onPads fun p => { p with field := returns }

/-- The refill begins (R370); it is due after a self-test that has completed. -/
def poolRefill (s : State) : State := if s.keeper.poolDue && !s.keeper.words.contains .pool then poolNext s else s

/-! ## States and frames (R371, R373, R375) -/

def tagState (s : State) : Nat := s.get Ent.TAG_STATE
def setTagState (s : State) (k : Nat) : State := s.put Ent.TAG_STATE k

/-- The answer that the reader gets. -/
def tagAnswer (s : State) (f : Bytes) : State := s.onTag fun t => { t with answer := f }

/-- A frame that is none of the state's: READY and ACTIVE return to IDLE; no answer (R375). R365 leaves the state unchanged on a frame of a feature that
the device does not support; R375 names no such exception, and the model takes IDLE for every frame (DESIGN CHOICE, log 100). -/
def otherFrame (s : State) : State := if tagState s = 3 ∨ tagState s = 4 then setTagState s 1 else s

/-- The UID is fixed before the first answer (R369). -/
def uidNow (s : State) : State := if s.tag.uid.isEmpty then uidFallback s else s

/-- REQA, WUPA: the tag is READY and sends ATQA. -/
def tagWake (s : State) : State :=
  let s := (setTagState (uidNow s) 3).onTag fun t => { t with level := 1 }
  tagAnswer s (if s.tag.uid.length = 4 then [0x04, 0x00] else [0x44, 0x00])

def reqa (s : State) : State := if tagState s = 1 then tagWake s else otherFrame s
def wupa (s : State) : State := if tagState s = 1 ∨ tagState s = 2 then tagWake s else otherFrame s

/-- The four bytes of a cascade level (R371). -/
def cascadeBytes (t : Tag) (level : Nat) : Bytes :=
  if t.uid.length = 4 then t.uid else if level = 1 then 0x88 :: t.uid.take 3 else (t.uid.drop 3).take 4

/-- BCC: the exclusive or of four bytes. -/
def bcc (b : Bytes) : Byte := b.foldl (· ^^^ ·) 0

/-- ANTICOLLISION: `known` the bytes that the reader sends. -/
def anticollision (s : State) (level : Nat) (known : Bytes) : State :=
  let b := cascadeBytes s.tag level
  if tagState s = 3 ∧ level = s.tag.level ∧ b.take known.length = known then tagAnswer s ((b ++ [bcc b]).drop known.length) else otherFrame s

/-- SELECT of a cascade level. -/
def selectCascade (s : State) (level : Nat) (uid : Bytes) : State :=
  if tagState s = 3 ∧ level = s.tag.level ∧ cascadeBytes s.tag level = uid then
    if s.tag.uid.length = 4 ∨ level = 2 then tagAnswer (setTagState s 4) [0x20]
    else tagAnswer (s.onTag fun t => { t with level := 2 }) [0x04]
  else otherFrame s

/-- HLTA (R375, R382). -/
def hlta (s : State) : State := if tagState s = 4 then endAuth (setTagState s 2) else otherFrame s

/-- FSD from FSDI (ISO/IEC 14443-4). -/
def fsdOf (fsdi : Nat) : Nat := [16, 24, 32, 40, 48, 64, 96, 128].getD fsdi 256

/-- RATS: the ATS, and PROTOCOL; the device's block number starts at 1 (ISO/IEC 14443-4). -/
def rats (s : State) (fsdi : Nat) : State :=
  if tagState s = 4 then
    tagAnswer ((setTagState s 5).onTag fun t => { t with fsd := fsdOf fsdi, block := true, chain := [], out := [], pendingApdu := none, lastBlock := [] })
      [0x05, 0x78, 0x00, 0x60, 0x00]
  else otherFrame s

/-- PPS (R365). -/
def pps (s : State) (rate106 : Bool) : State :=
  if tagState s = 5 then if rate106 then tagAnswer s [0xD0] else s else otherFrame s

/-! ## Blocks (R373 to R375; ISO/IEC 14443-4) -/

/-- A command is being served, or its response waits. -/
def tagBusy (s : State) : Bool := s.tag.pendingApdu.isSome || s.tag.ready.isSome

/-- A block is sent; R(NAK) has it sent again. -/
def sendBlock (s : State) (b : Bytes) : State := s.onTag fun t => { t with answer := b, lastBlock := b }

/-- R(ACK) with the device's block number. -/
def sendRAck (s : State) : State := sendBlock s [if s.tag.block then 0xA3 else 0xA2]

/-- The next I-block of a response: chained where it is longer than FSD allows (R373). -/
def sendInf (s : State) (rest : Bytes) : State :=
  let m := s.tag.fsd - 3
  let pcb : Nat := 2 + (if s.tag.block then 1 else 0) + if m < rest.length then 16 else 0
  sendBlock (s.onTag fun t => { t with out := rest.drop m }) (byte pcb :: rest.take m)

/-- An APDU is answered: data and status word, the word most significant byte first (R376); while an S(WTX) awaits its response, it waits too. -/
def apduAnswer (s : State) (data : Bytes) (sw : Nat) : State :=
  let s := ((s.bump Ent.TAG_APDUS).put Ent.TAG_LAST_SW sw).onTag fun t => { t with pendingApdu := none }
  let r := data ++ beBytes 2 sw
  if s.tag.wtx then s.onTag fun t => { t with ready := some r } else sendInf s r

/-- Commands that R376 lists. -/
def insListed (ins : Nat) : Bool := [0xA4, 0x10, 0x12, 0x14, 0x20, 0x22].contains ins

/-- CLA is allowed for the command (R376). -/
def claOk (cla ins : Nat) : Bool := cla == 0x80 || (cla == 0 && ins == 0xA4)

/-- A command APDU is complete: one with no command of R376 is answered at once, the others wait for theirs. -/
def apduIn (s : State) (a : Bytes) : State :=
  let cla := (a.getD 0 0).toNat
  let ins := (a.getD 1 0).toNat
  let s := notePeak (s.onTag fun t => { t with chain := [], pendingApdu := some a, wtx := false }) 14 1
  if insListed ins then s else apduAnswer (s.onTag fun t => { t with step1 := false }) [] (if claOk cla ins then 0x6D00 else 0x6E00)

/-- An I-block. The device's block number turns with every I-block it takes. One that arrives while a command is served finds the ISO-DEP buffer (queue 14)
full (R195, R375). -/
def iBlock (s : State) (chain : Bool) (inf : Bytes) : State :=
  if tagState s ≠ 5 then otherFrame s
  else if tagBusy s then noteFull s 14
  else
    let a := (s.tag.chain ++ inf).take 512
    let s := s.onTag fun t => { t with block := !t.block, out := [] }
    if chain then sendRAck (s.onTag fun t => { t with chain := a }) else apduIn s a

/-- An R-block. -/
def rBlock (s : State) (nak number : Bool) : State :=
  if tagState s ≠ 5 then otherFrame s
  else if tagBusy s then s
  else if number = s.tag.block then tagAnswer s s.tag.lastBlock
  else if nak then sendRAck s
  else if s.tag.out.isEmpty then s
  else sendInf (s.onTag fun t => { t with block := !t.block }) s.tag.out

/-- The reader's S(WTX) response: the waiting time runs again, or the answer that has become ready goes out. -/
def wtxResponse (s : State) : State :=
  if tagState s ≠ 5 then otherFrame s
  else if !s.tag.wtx then s
  else
    let t := s.onTag fun t => { t with wtx := false, ready := none }
    match s.tag.ready with
    | some r => sendInf t r
    | none => t

/-- S(DESELECT) (R375, R382). -/
def deselect (s : State) : State :=
  if tagState s ≠ 5 then otherFrame s
  else if tagBusy s then s
  else tagAnswer ((setTagState (endAuth s) 2).onTag fun t => { t with selected := false }) [0xC2]

/-- 15 ms without an answer: S(WTX) with WTXM 1 (R372, R374). -/
def wtxTimer (s : State) : State :=
  if tagState s = 5 ∧ s.tag.pendingApdu.isSome ∧ !s.tag.wtx then sendBlock (s.onTag fun t => { t with wtx := true }) [0xF2, 0x01] else s

/-- 2 s without an answer (R374). -/
def answerTimeout (s : State) : State := if s.tag.pendingApdu.isSome then apduAnswer (dropT s) [] 0x6F00 else s

/-! ## APDUs (R376, R377) -/

/-- A short command APDU (ISO/IEC 7816-4); `lc` and `le` none where absent, `ok` where its lengths agree and it is not extended. -/
structure Apdu where
  cla : Nat
  ins : Nat
  p1 : Nat
  p2 : Nat
  data : Bytes
  le : Option Nat
  ok : Bool
  deriving DecidableEq, Repr

/-- Le = 0x00 means 256. -/
def leOf (b : Byte) : Nat := if b = 0 then 256 else b.toNat

def parseApdu (a : Bytes) : Apdu :=
  let g (i : Nat) : Nat := (a.getD i 0).toNat
  let n := g 4
  let make (data : Bytes) (le : Option Nat) (ok : Bool) : Apdu := ⟨g 0, g 1, g 2, g 3, data, le, ok && a.length ≤ 250⟩
  if a.length < 4 then make [] none false
  else if a.length = 4 then make [] none true
  else if a.length = 5 then make [] (some (leOf (a.getD 4 0))) true
  else if n = 0 then make [] none false
  else if a.length = 5 + n then make (a.drop 5) none true
  else if a.length = 6 + n then make ((a.drop 5).take n) (some (leOf (a.getD (5 + n) 0))) true
  else make [] none false

def Apdu.p12 (a : Apdu) : Nat := a.p1 * 256 + a.p2

/-- A response of `n` bytes fits the Le that the command must carry (log 58). -/
def Apdu.room (a : Apdu) (n : Nat) : Bool := match a.le with
  | some l => n ≤ l
  | none => false

/-- Bytes of the response that a command asks for, 0 where it has none. -/
def Apdu.wants (a : Apdu) : Nat :=
  match a.ins with
  | 0x10 => 153
  | 0x12 => 4
  | 0x14 => 1 + ((rowAt a.p12 (a.data.getD 0 0).toNat).map (·.ty.size)).getD 0
  | 0x20 => if a.p1 = 1 then 26 else 0
  | 0x22 => 9
  | _ => 0

/-- Lc of the command (R376, R380, R381). -/
def Apdu.lcOk (a : Apdu) : Bool :=
  match a.ins with
  | 0xA4 => 1 ≤ a.data.length && a.data.length ≤ 16
  | 0x14 => a.data.length == 1
  | 0x20 => a.data.length == 16
  | 0x22 => 11 ≤ a.data.length && a.data.length ≤ 74
  | _ => a.data.isEmpty

/-- The lengths of the command: 6700 where they are wrong. -/
def Apdu.lengthOk (a : Apdu) : Bool := a.ok && a.lcOk && (if a.wants = 0 then a.le.isNone else a.room a.wants)

/-- P1 and P2 of the command. -/
def Apdu.paramsOk (a : Apdu) : Bool :=
  match a.ins with
  | 0xA4 => a.p1 == 4 && a.p2 == 0
  | 0x10 => a.p12 == 0
  | 0x12 => a.p12 ≤ 3071
  | 0x20 => (a.p1 == 1 || a.p1 == 2) && a.p2 == 0
  | _ => true

def tagAid : Bytes := [0xF0, 0x53, 0x56, 0x34, 0x34, 0x32, 0x30]

/-- The spindle die is available (R368). -/
def available (s : State) : Bool := s.keeper.vddValid && spindleReady s

/-- The conditions of 6985. -/
def notAllowed (s : State) (a : Apdu) : Bool :=
  match a.ins with
  | 0xA4 => false
  | 0x14 => !s.tag.selected || !s.keeper.vddValid
  | 0x20 => !s.tag.selected || !available s || (if a.p1 = 1 then 3 ≤ s.tag.fails else !s.tag.step1)
  | 0x22 => !s.tag.selected || !available s || (s.tag.open_ && 255 ≤ s.tag.c)
  | _ => !s.tag.selected

/-- The first status word of R377 that applies before the command's own work; 0x9000 where none does. -/
def firstSw (s : State) (a : Apdu) : Nat :=
  if !claOk a.cla a.ins then 0x6E00
  else if !a.lengthOk then 0x6700
  else if !a.paramsOk then 0x6B00
  else if a.ins = 0xA4 ∧ a.data ≠ tagAid then 0x6A82
  else if notAllowed s a then 0x6985
  else if a.ins = 0x20 ∧ a.p1 = 1 ∧ s.get (Ent.MONO 7) = 65535 then 0x6983
  else if a.ins = 0x22 ∧ !s.tag.open_ then 0x6982
  else 0x9000

/-! ## The commands of the application -/

/-- SELECT: the application, and the end of an AUTH session (R376, R382). -/
def tagSelect (s : State) (sw : Nat) : State :=
  if sw = 0x9000 then apduAnswer ((endAuth s).onTag fun t => { t with selected := true }) [] sw
  else if sw = 0x6A82 then apduAnswer ((endAuth s).onTag fun t => { t with selected := false }) [] sw
  else apduAnswer s [] sw

/-- The 153 bytes of GET_ORIGIN (R378). -/
def originBytes : Bytes :=
  originUid ++ List.ofFn Config.serial ++ leBytes 4 0x4420 ++ leBytes 2 Config.siliconRev.toNat ++ attestPub ++ List.ofFn Config.originSig

/-- READ_LOG (R379). -/
def readLog (s : State) (a : Apdu) : Bytes :=
  let n := s.get Ent.LOG_NEXT
  let k := min 7 (min ((a.le.getD 0 - 4) / 32) (n - a.p12))
  leBytes 2 n ++ [byte (logState s), byte k] ++ (List.range k).flatMap fun i => logSlot s (a.p12 + i)

/-- K (R380). -/
def authKey (s : State) : Bytes := kdfKey (leBytes 16 (s.get Ent.TAG_AUTH_LABEL)) 0 0x17 (lcWord s) 16

/-- Page T holds the key K as a derivation leaves it (R263, R267). -/
def pageT (s : State) (k : Bytes) : State :=
  let s := (reseed s .T (kdfBlocks 16)).onPage .T fun p => { p with key := k, state := 1, unread := false, chunks := 0, status := 0 }
  (s.putU Ent.KEY_STATE .T 1).putU Ent.KEY_CHECK .T (leNat ((cmac k []).take 4))

/-- The AES engine can work for the keeper's T path: CRYPTO is ON and, for a derivation, a word for the mask is there (R275). -/
def authReady (s : State) (derives : Bool) : Bool := cryptoOn s && (!derives || maskReady s .T)

/-- The engine is brought up for the T path; the command waits, and S(WTX) keeps the reader waiting (R374). -/
def authWait (s : State) (derives : Bool) : State := if derives then askMask (demand s .crypto) .T else demand s .crypto

/-- CMAC under the key of page T. With no key there, as after CRYPTO OFF or zeroisation, there is no MAC that a reader's could match (log 97). -/
def macT (s : State) (msg : Bytes) : Option Bytes := if (page s .T).key = [] then none else some (cmac (page s .T).key msg)

/-- AUTH step 1 (R380, R382). -/
def authStep1 (s : State) (rndR : Bytes) : State :=
  if !authReady s true then authWait s true
  else
    let s := endAuth s
    let v := s.get (Ent.MONO 7) + 1
    let s := s.put (Ent.MONO 7) v
    let s := if v = 65535 then s.setBits Ent.MONO_FLAGS 64 else s
    let k := authKey s
    let rndD := cmac k ([0x53, 0x56, 0x41, 0x44] ++ fitBytes 7 s.tag.uid ++ leBytes 2 v ++ rndR)
    let mac := (cmac k ([0x53, 0x56, 0x41, 0x31] ++ rndR ++ rndD ++ leBytes 2 v)).take 8
    let s := (pageT s k).onTag fun t => { t with rndR := rndR, rndD := rndD, v := v, step1 := true }
    apduAnswer s (rndD ++ leBytes 2 v ++ mac) 0x9000

/-- AUTH step 2. -/
def authStep2 (s : State) (d : Bytes) : State :=
  let t := s.tag
  if !authReady s false then (authWait s false).onTag fun t => { t with step1 := true }
  else if macT s ([0x53, 0x56, 0x41, 0x32] ++ t.rndD ++ t.rndR ++ leBytes 2 t.v) = some d then
    apduAnswer ((s.bump (Ent.TAG_AUTH_OK)).onTag fun t => { t with open_ := true, c := 0, step1 := false }) [] 0x9000
  else apduAnswer (((endAuth s).bump Ent.TAG_AUTH_FAILS).onTag fun t => { t with fails := t.fails + 1 }) [] 0x6300

/-- Entries that the keeper answers for itself (R368), by index. -/
def keeperAnswers (idx : Nat) : Bool :=
  [(0x1000, 0x1009), (0x1018, 0x1024), (0x1200, 0x1208), (0x2400, 0x2400), (0x2402, 0x2402), (0x2407, 0x240B), (0x2412, 0x2415), (0x2600, 0x2609),
    (0x4000, 0x4005), (0x4100, 0x4113), (0x4180, 0x418B), (0x5200, 0x520F)].any fun r => r.1 ≤ idx && idx ≤ r.2

/-- A request of user T goes to the engine; a full queue is answered with BUSY (R56). CORE is woken for it (R170). -/
def askT (s : State) (q : Request) : Option State :=
  let r := enqueue (wake s 0x0D []) q
  if r.2 then some (r.1.onTag fun t => { t with waitingT := true }) else none

/-- The answer of READ_ENTRY: the status, and the value where it is OK. -/
def entryAnswer (s : State) (status : Nat) (v : Bytes) : State := apduAnswer s (byte status :: if status = Sc.ok then v else []) 0x9000

/-- READ_ENTRY (R368). -/
def readEntryT (s : State) (a : Apdu) : State :=
  let sub := (a.data.getD 0 0).toNat
  if available s then
    match askT s (readReq .T a.p12 sub) with
    | some t => t
    | none => entryAnswer (enqueue s (readReq .T a.p12 sub)).1 Sc.busy []
  else if keeperAnswers a.p12 then
    let r := readAccess s .T a.p12 sub
    entryAnswer r.1 r.2.1 r.2.2
  else entryAnswer s Sc.state []

/-- The fields of WRITE_ENTRY: subindex, counter, value, MAC (R381). -/
def writeFields (a : Apdu) : Nat × Nat × Bytes × Bytes :=
  let n := a.data.length - 10
  ((a.data.getD 0 0).toNat, (a.data.getD 1 0).toNat, (a.data.drop 2).take n, a.data.drop (2 + n))

/-- The MAC over a write. -/
def writeMac (s : State) (c idx sub : Nat) (v : Bytes) : Option Bytes :=
  (macT s ([0x53, 0x56, 0x57, 0x45] ++ s.tag.rndR ++ s.tag.rndD ++ [byte c] ++ leBytes 2 idx ++ [byte sub] ++ v)).map (·.take 8)

/-- The answer of a write that was taken: status and MAC; the counter moves on. Where page T has lost its key since, what stands in the place of the MAC
is open (log 97). -/
def writeAnswer (s : State) (status : Nat) : State :=
  let t := s.tag
  let s' := (demand s .crypto).onTag fun t => { t with c := t.c + 1 }
  match macT s ([0x53, 0x56, 0x57, 0x52] ++ t.rndR ++ t.rndD ++ [byte t.c] ++ [byte status]) with
  | some m => apduAnswer s' (byte status :: m.take 8) 0x9000
  | none => apduAnswer s'.used (byte status :: (List.range 8).map (Config.freeByte s.free)) 0x9000

/-- WRITE_ENTRY (R381). -/
def writeEntryT (s : State) (a : Apdu) : State :=
  let f := writeFields a
  if !authReady s false then authWait s false
  else if f.2.1 ≠ s.tag.c ∨ writeMac s f.2.1 a.p12 f.1 f.2.2.1 ≠ some f.2.2.2 then apduAnswer (endAuth s) [] 0x6300
  else
    let s := s.bump Ent.TAG_WRITES
    match askT s (writeReq .T a.p12 f.1 f.2.2.1) with
    | some t => t
    | none => writeAnswer (enqueue s (writeReq .T a.p12 f.1 f.2.2.1)).1 Sc.busy

/-- A response of user T reaches the command that waits for it. -/
def deliverT (s : State) : State :=
  match s.tag.waitingT, s.spindle.dict.resps.t, s.tag.pendingApdu with
  | true, r :: rest, some _ =>
    let s := (s.onDict fun d => { d with resps := { d.resps with t := rest } }).onTag fun t => { t with waitingT := false }
    if r.req.op = 1 then entryAnswer s r.status r.value else writeAnswer s r.status
  | _, _, _ => s

/-- The fabric watchdog has ended the T request (R207). -/
def timeoutT (s : State) : State :=
  match s.tag.waitingT, s.tag.pendingApdu with
  | true, some a =>
    let s := dropT s
    if (parseApdu a).ins = 0x14 then entryAnswer s Sc.timeout [] else writeAnswer s Sc.timeout
  | _, _ => s

/-- A command of the application that waits in the buffer and whose INS (and P1, for AUTH) is this one; `f` what it does once no other status
word applies. A command other than step 2 undoes a step 1 (R380). -/
def apdu (s : State) (ok : Apdu → Bool) (f : State → Apdu → State) : State :=
  match s.tag.pendingApdu with
  | none => s
  | some b =>
    let a := parseApdu b
    if s.tag.waitingT || tagState s != 5 || !ok a then s
    else
      let sw := firstSw s a
      let s' := s.onTag fun t => { t with step1 := false }
      if a.ins = 0xA4 then tagSelect s' sw else if sw = 0x9000 then f s' a else apduAnswer s' [] sw

/-! ## Commands -/

def execUidPoolRefill (_words : Unit) (s : State) : Host.Outcome State Fault Refusal := .next (poolRefill s)
def execFieldSessionStart (s : State) : Host.Outcome State Fault Refusal := .next (sessionStart s)
def execFieldSessionEnd (s : State) : Host.Outcome State Fault Refusal := .next (sessionEnd s)
def execFieldDrop (returns : Bool) (s : State) : Host.Outcome State Fault Refusal := .next (fieldDrop s returns)
def execReqa (s : State) : Host.Outcome State Fault Refusal := .next (reqa s)
def execWupa (s : State) : Host.Outcome State Fault Refusal := .next (wupa s)
def execAnticollision (level : Nat) (known : Bytes) (s : State) : Host.Outcome State Fault Refusal := .next (anticollision s level known)
def execSelectCascade (level : Nat) (uid : Bytes) (s : State) : Host.Outcome State Fault Refusal := .next (selectCascade s level uid)
def execHlta (s : State) : Host.Outcome State Fault Refusal := .next (hlta s)
def execRats (fsdi : Nat) (s : State) : Host.Outcome State Fault Refusal := .next (rats s fsdi)
def execPps (rate106 : Bool) (s : State) : Host.Outcome State Fault Refusal := .next (pps s rate106)

/-- The block number of the reader is its own; the device's turns with each I-block (ISO/IEC 14443-4). -/
def execIBlock (_number chain : Bool) (inf : Bytes) (s : State) : Host.Outcome State Fault Refusal := .next (iBlock s chain inf)

def execRBlock (nak number : Bool) (s : State) : Host.Outcome State Fault Refusal := .next (rBlock s nak number)
def execSWtxResponse (s : State) : Host.Outcome State Fault Refusal := .next (wtxResponse s)
def execSDeselect (s : State) : Host.Outcome State Fault Refusal := .next (deselect s)
def execTagWtxTimer (s : State) : Host.Outcome State Fault Refusal := .next (wtxTimer s)
def execTagAnswerTimeout (s : State) : Host.Outcome State Fault Refusal := .next (answerTimeout s)

/-- A frame of no use in the state, or, where `bad`, with a CRC or parity error: both do the same (R375). -/
def execTagOtherFrame (_bad : Bool) (s : State) : Host.Outcome State Fault Refusal := .next (otherFrame s)

def execApduSelect (s : State) : Host.Outcome State Fault Refusal := .next (apdu s (fun a => a.ins == 0xA4) fun s _ => s)

def execApduGetOrigin (s : State) : Host.Outcome State Fault Refusal :=
  .next (apdu s (fun a => a.ins == 0x10) fun s _ => apduAnswer s originBytes 0x9000)

def execApduReadLog (s : State) : Host.Outcome State Fault Refusal :=
  .next (apdu s (fun a => a.ins == 0x12) fun s a => apduAnswer s (readLog s a) 0x9000)

def execApduReadEntry (s : State) : Host.Outcome State Fault Refusal := .next (apdu s (fun a => a.ins == 0x14) readEntryT)

/-- Step 1, and an AUTH with a P1 that names no step. -/
def execApduAuthStep1 (s : State) : Host.Outcome State Fault Refusal :=
  .next (apdu s (fun a => a.ins == 0x20 && a.p1 != 2) fun s a => authStep1 s a.data)

def execApduAuthStep2 (s : State) : Host.Outcome State Fault Refusal :=
  .next (apdu s (fun a => a.ins == 0x20 && a.p1 == 2) fun s a => authStep2 s a.data)

def execApduWriteEntry (s : State) : Host.Outcome State Fault Refusal := .next (apdu s (fun a => a.ins == 0x22) writeEntryT)

/-! ## The engine's turn and its N writes, with what they owe a waiting reader -/

def execDictEngineTake (s : State) : Host.Outcome State Fault Refusal := .next (deliverT (engineTake s))
def execNvmWriteComplete (s : State) : Host.Outcome State Fault Refusal := .next (deliverT (jobComplete s))
def execNvmWriteTimeout (s : State) : Host.Outcome State Fault Refusal := .next (deliverT (jobTimeout s))

end Sys2Proof.Machine
end

