-- ==== Sys2Proof/Machine/Bites.lean ====
section
/-! DEFINITION. The fabric watchdog (R207, R208). -/
namespace Sys2Proof.Machine

/-- The AES engine's job ends with TIMEOUT, and the message that it worked on is gone (log 61). -/
def biteAes (s : State) : State :=
  match aesNext s with
  | none => s
  | some u =>
    let job := (page s u).jobs.head?.bind PageJob.req?
    let s := (s.onSpindle fun x => { x with aesLast := u }).onPage u fun p => { p with
      jobs := p.jobs.drop 1, status := Sc.timeout, state := if p.key = [] then 0 else 1, run := [], mac := [], h := [], j0 := [], buf := [],
      aadLeft := 0, msgLeft := 0, unread := false }
    match job with
    | some q => respondJob s q Sc.timeout []
    | none => s.onCore fun c => { c with jobDone := true }

/-- The SHA-256 engine's job ends with TIMEOUT; the context that it worked on closes, the loader's hash is lost (log 61). -/
def biteSha (s : State) : State :=
  match shaNext s with
  | none => s
  | some j =>
    let s := s.onSpindle fun x => { x with shaJobs := x.shaJobs.erase j }
    match j with
    | .half _ _ _ => s.onLoader fun l => { l with hash := {} }
    | .mem _ _ => (s.onSha .M fun _ => { status := Sc.timeout }).onCore fun c => { c with jobDone := true }
    | .req q => respondJob (s.onSha q.user fun _ => { status := Sc.timeout }) q Sc.timeout []

/-- The running job of the big-number engine ends with TIMEOUT; an ephemeral scalar that it uses is consumed (R285). -/
def biteBn (s : State) : State :=
  match s.spindle.bn.running with
  | some (.user u op src) => bnRelease (bnFinish (bnForget (if op = 4 ∨ op = 6 then bnConsume s u src else s)) u Sc.timeout 0)
  | some .loader => bnAbort s Sc.timeout
  | some (.keeper _) => bnAbort s Sc.timeout
  | none => s

/-- The request whose transfer is aborted does not reach the engine: the core waits for no response to it. -/
def dropAsked (s : State) : State :=
  match s.spindle.core.asked with
  | none => s
  | some q =>
    let s := s.onDict fun d => { d with reqs := d.reqs.set q.user [], resps := d.resps.set q.user [] }
    (dropWaiting s q.user (· == q)).onCore fun c => { c with asked := none }

/-- The address of a transfer as the core put it out: for DICT the window address of the entry (R62, R208). -/
def biteAddr (res addr : Nat) : Word :=
  BitVec.ofNat 32 (if res = 5 then 0x40000000 + addr / 65536 % 65536 * 1024 + addr / 256 % 256 * 4 else addr)

/-- The effect of the port reset of each requester (R207). -/
def bitePort (s : State) (req res : Nat) (write : Bool) (addr : Nat) : State :=
  let core (cause : Nat) : State := if coreRuns s then takeExc (dropAsked s) (accessExc s.spindle.core cause (biteAddr res addr) 7 0) else s
  match req with
  | 0 => if s.spindle.alive && !loaderDone s then loaderFail s 8 else s
  | 1 => core 1
  | 2 => core (if write then 7 else 5)
  | 3 => portReset s .A
  | 4 => portReset s .B
  | 5 => portReset s .C
  | 6 => parserReset s
  | 7 => timeoutT s
  | 8 => drainResults (s.onSpindle fun x => { x with stq := x.stq.drop 1 })
  | 9 => biteAes s
  | 10 => biteBn s
  | 11 => biteSha s
  | _ => s

/-- The address in the record: for DICT its lowest byte is 0 (R208). -/
def biteWord (res addr : Nat) : Nat := if res = 5 then addr / 256 * 256 else addr

/-- The record of a bite, at most one of a requester in any 1 s (R208, R311). -/
def biteRecord (s : State) (req res : Nat) (write : Bool) (addr : Nat) : State :=
  let t := sparseGet 0 req s.log.fwdAt
  if t ≠ 0 ∧ s.keeper.aon < t - 1 + 32768 then s
  else
    logDie (s.onLog fun x => { x with fwdAt := sparseSet 0 req (s.keeper.aon + 1) x.fwdAt }) .spindle 0x53 req
      ([byte req, byte res, if write then 1 else 0, 0] ++ leBytes 4 (biteWord res addr))

/-- A bite (R207): the transfer is aborted, the port reset, the bite counted, noted and recorded. -/
def bite (s : State) (req res : Nat) (write : Bool) (addr : Nat) : State :=
  let s := (onArb s res fun r => { r with owner := none, heldFor := 0 }).put (Ent.OWNER_NOW res) 0x80
  let s := bitePort s req res write addr
  let s := ((s.bump (Ent.FWD_BITES (req + 1))).bump Ent.FWD_TOTAL).put Ent.FWD_LAST (res * 65536 + req * 256 + if write then 1 else 0)
  biteRecord (raise s 18) req res write addr

/-- The requester holds a transfer of the resource that has not completed by the end of the 1,024th cycle after its grant cycle (R201, R207). -/
def bites (s : State) (req res : Nat) : Bool := s.spindle.alive && (arbRes s res).owner == some req && 1025 ≤ (arbRes s res).heldFor

def execFabricWatchdogBite (req res : Nat) (write : Bool) (addr : Nat) (s : State) : Host.Outcome State Fault Refusal :=
  .next (if bites s req res && arbReach res req then bite s req res write addr else s)

end Sys2Proof.Machine
end

