-- ==== Sys2Proof/Machine/Debug.lean ====
section
/-! DEFINITION. The debug module and the TAP (R100, R235); what R235 takes from the RISC-V debug specification is PRESUMED (log 62). -/
namespace Sys2Proof.Machine

/-- The debug module reaches the hart: the port is open, the hart is available (R225, R235). -/
def debugReaches (s : State) : Bool :=
  s.spindle.core.debugOpen && s.spindle.alive && s.spindle.handed && !s.spindle.lockedUp && domState s .core == 2

/-- A halt request (R224, R235): held while the in-entry flag is set, and until a window access that blocks the core completes (R64). -/
def debugHalt (s : State) : State :=
  if !debugReaches s || s.spindle.core.halted then s
  else if s.spindle.core.inEntry || s.spindle.core.asked.isSome then s.onCore fun c => { c with haltOwed := true }
  else enterDebug s 3

/-! ## Abstract commands -/

/-- cmderr, which stands until the debugger clears it (log 62). -/
def setCmderr (s : State) (n : Nat) : State := s.onCore fun c => { c with cmderr := n }

/-- An exception in the program buffer: no trap is taken; an access fault writes FAULTINFO (R223, R228). -/
def debugExc (s : State) (e : Exc) : State :=
  let s := if e.kind = 3 ∨ e.kind = 4 ∨ e.kind = 5 then s.bump Ent.MPU_FAULTS else s
  setCmderr (if e.kind = 0 then s
    else s.onCore fun c => { c with faultinfo := BitVec.ofNat 32 (e.status + e.kind * 256 + e.regions * 65536) }) 3

/-- Instructions that move or read the pc, and those that trap, act as illegal in the program buffer. -/
def progIllegal : Rv → Bool
  | .auipc _ _ | .jal _ _ | .jalr _ _ _ | .branch _ _ _ _ | .ecall | .mret => true
  | _ => false

/-- The instruction at halfword `i` of the program buffer and its halfwords. -/
def progInstr (hw : List Nat) (i : Nat) : Option Rv × Nat :=
  let h := hw.getD i 0
  if h % 4 ≠ 3 then (decode16 h, 1) else if hw.length ≤ i + 1 then (none, 2) else (decode32 (h + 65536 * hw.getD (i + 1) 0), 2)

/-- The program buffer runs from halfword `i`; `k` bounds its instructions. An ebreak stands after its end. -/
def progRun (hw : List Nat) : Nat → Nat → State → State
  | 0, _, s => s
  | k + 1, i, s =>
    if hw.length ≤ i then s
    else
      match progInstr hw i with
      | (none, _) => setCmderr s 3
      | (some .ebreak, _) => s
      | (some .wfi, n) => progRun hw k (i + n) s
      | (some r, n) =>
        if progIllegal r then setCmderr s 3
        else
          match runInstr s r 0 0 true with
          | .retire t _ => progRun hw k (i + n) (countInstr t)
          | .counted t _ => progRun hw k (i + n) t
          | .exc t e => debugExc t e
          | .wait t => t.onCore fun c => { c with progAt := some i }
          | _ => s

/-- Halfwords of the program buffer. -/
def progHalves (w0 w1 : Word) : List Nat := [w0, w1].flatMap fun w => [w.toNat % 65536, w.toNat / 65536]

/-- The program buffer goes on once the response to its window access is there; a debug command that comes while it waits finds it busy. -/
def progResume (s : State) : State :=
  match s.spindle.core.progAt with
  | none => s
  | some i => progRun (progHalves (s.spindle.core.progbuf.getD 0 0) (s.spindle.core.progbuf.getD 1 0)) 4 i (s.onCore fun c => { c with progAt := none })

/-- The effect of an abstract command on the halted hart: cmderr 2 where the register does not exist, 3 on an exception. -/
def abstractRun (s : State) (a : Abstract) : State :=
  match a with
  | .readGpr r => if r < 32 then s.onCore fun c => { c with data0 := c.x r } else setCmderr s 2
  | .writeGpr r v => if r < 32 then s.onCore fun c => { c.setX r v with data0 := v } else setCmderr s 2
  | .readCsr n =>
    match csrRead s n true with
    | some v => s.onCore fun c => { c with data0 := v }
    | none => setCmderr s 3
  | .writeCsr n v => if csrAllowed s n true false true then writeCsr (s.onCore fun c => { c with data0 := v }) n v true else setCmderr s 3
  | .runProgram w0 w1 => progRun (progHalves w0 w1) 4 0 (s.onCore fun c => { c with progbuf := [w0, w1] })
  | .clearError => setCmderr s 0

/-- An abstract command: none starts while cmderr is not 0, which only the debugger clears; cmderr 1 while the program buffer still waits, 4 while
the hart runs. -/
def abstractCommand (s : State) (a : Abstract) : State :=
  if !debugReaches s then s
  else if a = .clearError then setCmderr s 0
  else
    let s := progResume s
    if s.spindle.core.cmderr ≠ 0 then s
    else if s.spindle.core.progAt.isSome then setCmderr s 1
    else if !s.spindle.core.halted then setCmderr s 4
    else abstractRun s a

/-! ## Resume and step -/

/-- Debug mode is left: to dpc at the privilege of dcsr. -/
def leaveDebug (s : State) : State :=
  (s.onCore fun c => { c with halted := false, pc := c.dpc, user := bits c.dcsr.toNat 1 0 == 0, queue := [] }).put Ent.CORE_STATE 2

/-- The hart is halted and the debug module is not busy. -/
def debugIdle (s : State) : Bool := debugReaches s && s.spindle.core.halted && s.spindle.core.progAt.isNone

def debugResume (s : State) : State := if debugIdle (progResume s) then leaveDebug (progResume s) else progResume s

/-- One instruction, or the interrupt that stepie lets in first; then debug mode again, at once or when its window access completes. -/
def singleStep (s : State) : State :=
  let s := progResume s
  if !debugIdle s then s
  else
    let s := (leaveDebug s).onCore fun c => { c with dcsr := c.dcsr ||| 4 }
    match dueIrq s with
    | some cause => stepHalt (takeIrq s cause)
    | none =>
      let t := stepInstr s (fun _ => true) true
      if t.spindle.core.halted || t.spindle.lockedUp || t.spindle.core.asked.isSome then t else enterDebug t 4

/-! ## The TAP -/

/-- The instruction codes. -/
def tapIdcode : Nat := 1
def tapBypass : Nat := 0x1F

/-- The instruction that a code selects: BYPASS where the port is closed, or the loader still runs, or the code is not known (R100, R237). -/
def tapSelects (opened : Bool) (ir : Nat) : Nat :=
  if ir = tapIdcode then tapIdcode else if opened ∧ (ir = 0x10 ∨ ir = 0x11) then ir else tapBypass

/-- IDCODE (R235). -/
def idcode : Nat := 0x04420001 % 2 ^ 28 + bits Config.siliconRev.toNat 11 8 * 2 ^ 28

/-- What the selected data register captures: the IDCODE register, or the one bit of BYPASS; none for the debug module's registers. -/
def tapCapture (ir : Nat) : Option Nat := if ir = tapIdcode then some idcode else if ir = tapBypass then some 0 else none

/-! ## The commands -/

def execDebugHalt (s : State) : Host.Outcome State Fault Refusal := .next (debugHalt s)
def execDebugResume (s : State) : Host.Outcome State Fault Refusal := .next (debugResume s)
def execDebugSingleStep (s : State) : Host.Outcome State Fault Refusal := .next (singleStep s)
def execDebugAbstractCommand (a : Abstract) (s : State) : Host.Outcome State Fault Refusal := .next (abstractCommand s a)

/-- ndmreset (R235). -/
def execNdmreset (s : State) : Host.Outcome State Fault Refusal :=
  .next (if s.spindle.alive && s.spindle.core.debugOpen then startReset s 6 else s)

/-- A TAP instruction is loaded (R100). -/
def execTapInstruction (ir : Nat) (s : State) : Host.Outcome State Fault Refusal :=
  .next (if s.spindle.alive then s.onSpindle fun x => { x with tapIr := tapSelects (x.core.debugOpen && x.handed) ir } else s)

end Sys2Proof.Machine
end

