-- ==== Sys2Proof/Machine/Watch.lean ====
section
/-! DEFINITION. Tamper alerts (R304 to R306) and what drives the log (R312 to R320). -/
namespace Sys2Proof.Machine

/-! ## Alerts -/

/-- An alert of a monitor that zeroises (R269, R304): once for each time its condition begins. -/
def zeroingAlert (s : State) (ty inst kind : Nat) (value threshold : Int) : State :=
  if !s.keeper.vddValid || alertActive s ty inst then s
  else monitorAlert (zeroise s) .spindle ty inst kind 0x20 value threshold true

/-- SUPPLY (R305): the flyer's rail, or VDD_IN as the keeper sees it. -/
def supplyAlert (s : State) (inst kind : Nat) (value threshold : Int) : State :=
  if inst = 0x2F ∧ s.flyer.up then monitorAlert s .flyer 0x42 0x2F kind 0x2F value threshold false
  else if inst = 0x30 ∧ domState s .tamper ≠ 0 then monitorAlert s .keeper 0x42 0x30 kind 0x30 value threshold false
  else s

/-- A threshold that the spec does not state: of a line or a switch (log 45). -/
def openThreshold (s : State) : Int := toSigned 32 (Config.freeNat s.free)

/-- CASE_SW or BASE_SW at a new level (R305): instance 0 or 1. A change is a wake source of TAMPER and CORE (R170). -/
def enclosure (s : State) (inst level : Nat) : State :=
  let high := level = 1
  let was := if inst = 0 then s.pads.caseSw else s.pads.baseSw
  if 1 < inst ∨ was = decide high ∨ domState s .tamper = 0 then s
  else
    let s := s.onPads fun p => if inst = 0 then { p with caseSw := high, caseLatch := true } else { p with baseSw := high, baseLatch := true }
    let t := openThreshold s
    processSwitches (wake (alertRecord (alertFlags s.used 0x47 inst level) .keeper 0x47 0x32 (monitorData inst level 0 t false)) 0x09 [])

/-- CLK_CORE against CLK_AON over 1 ms, in 0.01 % (R305). -/
def clkCore (s : State) (dev : Int) : State :=
  if !s.spindle.alive then s
  else if dev.natAbs ≤ 300 then monitorEnd s 0x43 1
  else monitorAlert s .spindle 0x43 1 (if dev < 0 then 0 else 1) 0x20 dev (if dev < 0 then -300 else 300) false

/-! ## Commands -/

def execGlitchAlert (kind : Nat) (value threshold : Int) (s : State) : Host.Outcome State Fault Refusal :=
  .next (zeroingAlert s 0x41 0x20 kind (if kind = 2 then 0 else value) threshold)

def execSupplyAlert (inst kind : Nat) (value threshold : Int) (s : State) : Host.Outcome State Fault Refusal :=
  .next (supplyAlert s inst kind value threshold)

def execLightAlert (inst : Nat) (value threshold : Int) (s : State) : Host.Outcome State Fault Refusal :=
  .next (zeroingAlert s 0x45 inst 0 value threshold)

def execMeshAlert (inst kind : Nat) (s : State) : Host.Outcome State Fault Refusal :=
  .next (zeroingAlert s.used 0x46 inst kind 0 (openThreshold s))

def execEnclosureAlert (inst level : Nat) (s : State) : Host.Outcome State Fault Refusal := .next (enclosure s inst level)

def execClkCoreDeviation (deviation : Int) (s : State) : Host.Outcome State Fault Refusal := .next (clkCore s deviation)

def execTamperConditionEnd (ty inst : Nat) (s : State) : Host.Outcome State Fault Refusal := .next (monitorEnd s ty inst)

def execLogAppend (s : State) : Host.Outcome State Fault Refusal := .next (logTake s)

def execLogAppendComplete (s : State) : Host.Outcome State Fault Refusal := .next (logWritten s)

/-- Steps 0x21 and 0x22 reach the spindle die (R315). -/
def execCkptDigest (s : State) : Host.Outcome State Fault Refusal :=
  .next (onSelftest s .spindle [0x21, 0x22] fun s m => bnDigest (wakeForStep s) (payNat m 0 1) ((m.payload.drop 1).take 16))

/-- Steps 0x23 to 0x27 reach the keeper (R315, R316). -/
def execCkptSignature (s : State) : Host.Outcome State Fault Refusal :=
  .next (onSelftest s .keeper [0x23, 0x24, 0x25, 0x26, 0x27] fun s m => signPart s (payNat m 0 1) (m.payload.drop 1))

/-- 1 s without the signature (R316). -/
def execCkptSignTimeout (s : State) : Host.Outcome State Fault Refusal := .next (signFailed s)

/-- 60 s after a failed final signature (R320). -/
def execLogFullRetry (s : State) : Host.Outcome State Fault Refusal := .next (askClose s)

end Sys2Proof.Machine
end

