-- ==== Sys2Proof/Machine/Engines.lean ====
section
/-! DEFINITION. What the crypto engines and the random-number source do on their own (R275, R278, R286 to R293, R296, R300). -/
namespace Sys2Proof.Machine

def execCryptoJobComplete (e : Engine) (s : State) : Host.Outcome State Fault Refusal :=
  .next (match e with
    | .aes => aesJob s
    | .sha => shaJob s)

def execBnJobStart (s : State) : Host.Outcome State Fault Refusal := .next (if s.spindle.alive then bnStart s else s)

def execBnRngWaitExpiry (s : State) : Host.Outcome State Fault Refusal := .next (bnRngExpiry s)

def execBnCandidateTimeout (s : State) : Host.Outcome State Fault Refusal := .next (bnCandidateTimeout s)

def execBnMsgTimeout (u : User) (s : State) : Host.Outcome State Fault Refusal := .next (bnMsgTimeout s u)

def execBnJobComplete (s : State) : Host.Outcome State Fault Refusal := .next (bnComplete s)

def execRngWordProduced (raw : BitVec 64) (s : State) : Host.Outcome State Fault Refusal := .next (rngProduce s raw)

/-- A window completes while RNG is ON; one that is interrupted is discarded (R300). -/
def execRngHealthWindowEnd (window : Nat) (s : State) : Host.Outcome State Fault Refusal :=
  .next (if s.spindle.alive && domState s .rng == 2 then judgeWindow s window else s)

end Sys2Proof.Machine
end

