-- ==== Sys2Proof/Machine/Host.lean ====
section
/-! DEFINITION. The host ports (R350 to R363): request frames and their checks, transactions, repeats, the answer slot and the kept response. -/
namespace Sys2Proof.Machine

/-! ## COBS (R359) -/

/-- COBS: every zero byte is replaced by the distance to the next; `run` holds the bytes since the last. A frame of at most 74 bytes has no run of 254. -/
def cobsRun : Bytes → Bytes → Bytes
  | run, [] => byte (run.length + 1) :: run
  | run, b :: bs => if b = 0 then byte (run.length + 1) :: (run ++ cobsRun [] bs) else cobsRun (run ++ [b]) bs

def cobsEncode (bs : Bytes) : Bytes := cobsRun [] bs

/-- COBS undone: `left` bytes of a block are still to come, and a zero stands before the next block where `gap` says so; none where a block is cut short. -/
def cobsBlock : Nat → Bool → Bytes → Option Bytes
  | left, _, [] => if left = 0 then some [] else none
  | 0, gap, b :: bs => if b = 0 then none else (cobsBlock (b.toNat - 1) (b != 0xFF) bs).map fun r => if gap then 0 :: r else r
  | left + 1, gap, b :: bs => if b = 0 then none else (cobsBlock left gap bs).map (b :: ·)

def cobsDecode (bs : Bytes) : Option Bytes := cobsBlock 0 false bs

/-! ## Frames (R352, R353) -/

/-- The port takes part: the engine is in service, HOST is ON, the port is in use (R351). -/
def portListens (s : State) (p : Port) : Bool := engineUp s && domState s .host == 2 && portEnabled s p

/-- The length that a request's byte 6 gives it. -/
def requestLength (f : Bytes) : Nat := 9 + (f.getD 6 0).toNat

/-- The code of HP_LAST_ERR that a frame has under check 1: 0 none, 1 sync, 2 short, 3 length. -/
def frameCode (f : Bytes) : Nat :=
  if f ≠ [] ∧ f.getD 0 0 ≠ 0x5A then 1 else if f.length < 9 then 2 else if f.length ≠ requestLength f ∨ 73 < f.length then 3 else 0

/-- A frame's CRC checks. -/
def frameCrcOk (f : Bytes) : Bool := leNat (f.drop (f.length - 2)) == crc16 (f.take (f.length - 2))

/-- The request that a frame spells. -/
def frameReq (p : Port) (f : Bytes) : Request :=
  ⟨portUser p, (f.getD 2 0).toNat, leNat ((f.drop 3).take 2), (f.getD 5 0).toNat, (f.drop 7).take (f.getD 6 0).toNat, (f.getD 1 0).toNat, 0, false, true⟩

/-- The value that a response carries: that of a read which returned OK. -/
def responseValue (r : Response) : Bytes := if r.req.op = 1 ∧ r.status = Sc.ok then r.value else []

/-- A response frame (R352). -/
def responseFrame (r : Response) : Bytes :=
  let v := responseValue r
  let b := [0xA5, byte r.req.seq, byte r.req.op] ++ leBytes 2 r.req.idx ++ [byte r.req.sub, byte (1 + v.length), byte r.status] ++ v
  b ++ leBytes 2 (crc16 b)

/-- A frame is discarded under check 1. -/
def frameError (s : State) (p : Port) (code : Nat) : State :=
  (s.bump (Ent.HP_FRAME_ERR (portNum p))).put (Ent.HP_LAST_ERR (portNum p)) code

/-- A frame that the port forms itself goes to the answer slot, or is dropped (R354). -/
def portAnswer (s : State) (p : Port) (r : Response) : State :=
  if (s.spindle.ports.get p).answer.isSome then s.bump (Ent.HP_ANS_DROPPED (portNum p)) else s.onPort p fun h => { h with answer := some r }

/-- Sequence, op and address agree (R360). -/
def sameHost (a b : Request) : Bool := a.seq == b.seq && a.op == b.op && a.idx == b.idx && a.sub == b.sub

/-- The requests of a user that are queued or being served; a request whose response has not left is still in flight (log 64). -/
def inFlight (s : State) (u : User) : List Request :=
  s.spindle.dict.reqs.get u ++ (s.keeper.jobs.filter fun j => j.req.user == u).map (·.req) ++ (s.spindle.dict.resps.get u).map (·.req)

/-- A request that passes check 4 is offered to the dictionary. -/
def offer (s : State) (p : Port) (q : Request) : State :=
  let r := enqueue s q
  if r.2 then r.1.put (Ent.HP_LAST_SEQ (portNum p)) q.seq else portAnswer r.1 p ⟨q, Sc.busy, []⟩

/-- Checks 3 to 5. -/
def hostRequest (s : State) (p : Port) (q : Request) : State :=
  if q.op < 1 ∨ 3 < q.op ∨ (q.op = 1 ∧ q.value ≠ []) then portAnswer s p ⟨q, Sc.range, []⟩
  else if (inFlight s q.user).any (sameHost q) then s.bump (Ent.HP_REPEAT_DROP (portNum p))
  else
    match (s.spindle.ports.get p).kept with
    | some r => if sameHost q r.req then (portAnswer s p r).bump (Ent.HP_REPEAT_SERVED (portNum p)) else offer s p q
    | none => offer s p q

/-- A request that has passed check 1: checks 2 to 5. -/
def frameRx (s : State) (p : Port) (f : Bytes) : State :=
  if !frameCrcOk f then s.bump (Ent.HP_CRC_ERR (portNum p)) else hostRequest (s.bump (Ent.HP_RX_FRAMES (portNum p))) p (frameReq p f)

/-- The frame parser of a port empties its frame buffers (queue 13) while its clock, CLK_CORE, runs. -/
def framesRun (s : State) (p : Port) : State :=
  if engineRuns s then (s.spindle.ports.get p).frames.foldl (fun s f => frameRx s p f) (s.onPort p fun h => { h with frames := [] }) else s

/-- A frame buffer takes a request, or it is lost because both are held (R190, R195). -/
def bufferFrame (s : State) (p : Port) (f : Bytes) : State :=
  let n := (s.spindle.ports.get p).frames.length
  if 2 ≤ n then (noteFull s 13).bump (Ent.HP_RX_OVERRUN (portNum p))
  else notePeak (s.onPort p fun h => { h with frames := h.frames ++ [f] }) 13 (n + 1)

/-- A whole frame reaches a port, its code under check 1 given; it raises CORE (R170). -/
def takeFrame (s : State) (p : Port) (f : Bytes) (code : Nat) : State :=
  if code ≠ 0 then frameError s p code else framesRun (raiseCore (bufferFrame s p f)) p

/-- Bytes on SDI of a transaction (R355): a first byte of 0xFF makes it a fetch; a complete request ends what it takes; a part of one may still be cut. -/
def sdiBytes (s : State) (p : Port) (f : Bytes) : State :=
  let h := s.spindle.ports.get p
  if !h.cs || h.taken || h.fetch || f == [] then s
  else if f.getD 0 0 = 0xFF then s.onPort p fun h => { h with fetch := true }
  else if f.getD 0 0 = 0x5A ∧ f.length < min (requestLength f) 73 then s.onPort p fun h => { h with part := true }
  else
    let f := f.take (requestLength f)
    takeFrame (s.onPort p fun h => { h with taken := true }) p f (frameCode f)

/-- What stands between two delimiters on HC_RXD (R359). An empty frame is ignored; `framing` is the UART's own error. -/
def uartFrame (s : State) (f : Bytes) (framing : Bool) : State :=
  let s := s.onPads fun p => { p with rxdLow := false }
  if framing then frameError s .C 5
  else if f = [] then s
  else
    match cobsDecode f with
    | some g => takeFrame s .C g (frameCode g)
    | none => frameError s .C 4

/-- What a host sends reaches a port: on SPI the bytes of a transaction from its first, on the UART an encoded frame without its delimiter. -/
def hostFrame (s : State) (p : Port) (f : Bytes) (framing : Bool) : State :=
  if !portListens s p then s else if p = .C then uartFrame s f framing else sdiBytes s p f

/-! ## What a port sends (R354 to R356) -/

/-- What a transaction will send: 1 the answer slot, 2 the response queue, 0 nothing. -/
def chooseFrame (s : State) (p : Port) : Nat :=
  if !portListens s p then 0
  else if (s.spindle.ports.get p).answer.isSome then 1
  else if (headResponse s (portUser p)).isSome then 2 else 0

/-- The frame that a transaction sends. -/
def chosenFrame (s : State) (p : Port) : Option Response :=
  match (s.spindle.ports.get p).chosen with
  | 1 => (s.spindle.ports.get p).answer
  | 2 => headResponse s (portUser p)
  | _ => none

/-- A falling CS edge; OFF, HOST sees none (R163). In its other rest states the port sends nothing in the transaction, and takes a request once HOST is
ON (R174, R356). -/
def csFall (s : State) (p : Port) (mode3 : Bool) : State :=
  if p = .C ∨ !s.spindle.alive ∨ domState s .host = 0 ∨ !portEnabled s p then s
  else s.onPort p fun h => { h with cs := true, mode3 := mode3, chosen := chooseFrame s p, taken := false, part := false, fetch := false }

/-- The frame in the answer slot has left. -/
def answerSent (s : State) (p : Port) : State := (s.onPort p fun h => { h with answer := none }).bump (Ent.HP_TX_FRAMES (portNum p))

/-- The head of the response queue has left: it is kept (R360). -/
def responseSent (s : State) (p : Port) (r : Response) : State :=
  let u := portUser p
  let s := s.onDict fun d => { d with resps := d.resps.set u ((d.resps.get u).drop 1) }
  (s.onPort p fun h => { h with kept := some r }).bump (Ent.HP_TX_FRAMES (portNum p))

/-- The chosen frame after `clocked` bytes: gone where all of it was clocked out, or aborted (R356). -/
def chosenEnds (s : State) (p : Port) (clocked : Nat) : State :=
  match chosenFrame s p with
  | some r =>
    if (responseFrame r).length ≤ clocked then (if (s.spindle.ports.get p).chosen = 1 then answerSent s p else responseSent s p r)
    else s.bump (Ent.HP_RESP_ABORT (portNum p))
  | none => s

/-- The bytes on SDO of a transaction of `clocked` bytes: the chosen frame from its first byte, then 0x00 (R356). -/
def sdoBytes (s : State) (p : Port) (clocked : Nat) : Bytes :=
  fitBytes clocked (match chosenFrame s p with
    | some r => responseFrame r
    | none => [])

/-- A rising CS edge; `cut` where it cut a request off. A port that takes no part leaves SDO at high impedance (R351). -/
def csRise (s : State) (p : Port) (clocked : Nat) (cut : Bool) : State :=
  let h := s.spindle.ports.get p
  if !h.cs then s
  else
    let on := portListens s p
    let t := (if on then chosenEnds s p clocked else s).onPort p fun h =>
      { h with cs := false, chosen := 0, out := if on then sdoBytes s p clocked else [] }
    if on && (cut || h.part) && !h.taken && !h.fetch then frameError t p 7 else t

/-- A response to a write that has set HP_BAUD ends the old rate (R358). -/
def endsBaud (r : Response) : Bool :=
  r.req.op == 2 && (entAt r.req.idx r.req.sub == Ent.HP_BAUD || entAt r.req.idx r.req.sub == Ent.COMMIT)

/-- The UART port sends what is at its head, COBS-encoded and delimited (R354, R359). -/
def uartSend (s : State) : State :=
  let run (s : State) (r : Response) : State := s.onPort .C fun h => { h with out := cobsEncode (responseFrame r) ++ [0] }
  match (s.spindle.ports.get .C).answer, headResponse s .C with
  | some r, _ => answerSent (run s r) .C
  | none, some r =>
    let s := responseSent (run s r) .C r
    if endsBaud r then s.onPort .C fun h => { h with baud := none } else s
  | none, none => s

/-! ## Commands -/

def execHostRead (p : Port) (frame : Bytes) (s : State) : Host.Outcome State Fault Refusal := .next (hostFrame s p frame false)

def execHostWrite (p : Port) (frame : Bytes) (s : State) : Host.Outcome State Fault Refusal := .next (hostFrame s p frame false)

def execHostStage (p : Port) (frame : Bytes) (s : State) : Host.Outcome State Fault Refusal := .next (hostFrame s p frame false)

/-- A frame that fails check 1 or 2; `framing` says that a UART byte had no stop bit. -/
def execHostFrameError (p : Port) (frame : Bytes) (framing : Bool) (s : State) : Host.Outcome State Fault Refusal :=
  .next (hostFrame s p frame framing)

def execHostCsFall (p : Port) (mode3 : Bool) (s : State) : Host.Outcome State Fault Refusal := .next (csFall s p mode3)

def execHostCsRise (p : Port) (clocked : Nat) (cutRequest : Bool) (s : State) : Host.Outcome State Fault Refusal :=
  .next (csRise s p clocked cutRequest)

/-- A gap of more than 10 ms inside a UART frame. -/
def execHostUartGapTimeout (s : State) : Host.Outcome State Fault Refusal :=
  .next (if portListens s .C then frameError (s.onPads fun p => { p with rxdLow := false }) .C 6 else s)

def execHostUartResponseSend (s : State) : Host.Outcome State Fault Refusal := .next (if portListens s .C then uartSend s else s)

def execKeptResponseExpiry (p : Port) (s : State) : Host.Outcome State Fault Refusal := .next (s.onPort p fun h => { h with kept := none })

/-! ## CORE comes back -/

/-- The frame parsers take what has waited for CLK_CORE. -/
def parsersRun (s : State) : State := [Port.A, .B, .C].foldl framesRun (parserRun s)

def execDomainExitComplete (d : Domain) (s : State) : Host.Outcome State Fault Refusal := .next (parsersRun (exitComplete s d))

end Sys2Proof.Machine
end

