-- ==== Sys2Proof/Machine/Rows.lean ====
section
/-! DEFINITION. The commands that are an access to one entry: each is that access by its user, in the engine's order of checks (R55). -/
namespace Sys2Proof.Machine

/-- A write of a number to an entry. -/
def writeNum (s : State) (u : User) (e v : Nat) : State := access s (numReq u e v)

/-- A write of a byte string to an entry. -/
def writeOct (s : State) (u : User) (e : Nat) (v : Bytes) : State := access s (octReq u e v)

/-- A write of a byte string to an address. -/
def writeAt (s : State) (u : User) (idx sub : Nat) (v : Bytes) : State := access s (writeReq u idx sub v)

/-- A read of an entry. -/
def readEnt (s : State) (u : User) (e : Nat) : State := access s (readReq u (e / 256) (e % 256))

/-! ## The ply link, the sensors, calibration -/

def execCaptHeldWrite (u : User) (v : Nat) (s : State) : Host.Outcome State Fault Refusal := .next (writeNum s u Ent.CAPT_HELD v)
def execOptRequest (u : User) (v : Nat) (s : State) : Host.Outcome State Fault Refusal := .next (writeNum s u Ent.OPT_REQUEST v)
def execCoPulse (u : User) (v : Nat) (s : State) : Host.Outcome State Fault Refusal := .next (writeNum s u Ent.CO_PULSE v)
def execCoEnableWrite (u : User) (v : Nat) (s : State) : Host.Outcome State Fault Refusal := .next (writeNum s u Ent.CO_ENABLE v)
def execAinPeriodWrite (u : User) (v : Nat) (s : State) : Host.Outcome State Fault Refusal := .next (writeNum s u Ent.AIN_PERIOD v)
def execCalFactoryWrite (u : User) (idx sub : Nat) (v : Bytes) (s : State) : Host.Outcome State Fault Refusal := .next (writeAt s u idx sub v)
def execCalDeltaWrite (u : User) (idx sub : Nat) (v : Bytes) (s : State) : Host.Outcome State Fault Refusal := .next (writeAt s u idx sub v)
def execAlarmFwWrite (u : User) (v : Nat) (s : State) : Host.Outcome State Fault Refusal := .next (writeNum s u Ent.ALARM_FW v)

/-! ## Modes and life-cycle -/

/-- A mode's code written to MODE_REQUEST (R85). -/
def requestMode (s : State) (u : User) (m : Mode) : State := writeNum s u Ent.MODE_REQUEST (modeCode m)

def execModeRequestCalibrate (u : User) (s : State) : Host.Outcome State Fault Refusal := .next (requestMode s u .calibrate)
def execModeRequestFactory (u : User) (s : State) : Host.Outcome State Fault Refusal := .next (requestMode s u .factory)
def execModeRequestSupervise (u : User) (s : State) : Host.Outcome State Fault Refusal := .next (requestMode s u .supervise)
def execModeRequestCommission (u : User) (s : State) : Host.Outcome State Fault Refusal := .next (requestMode s u .commission)
def execModeRequestVerify (u : User) (s : State) : Host.Outcome State Fault Refusal := .next (requestMode s u .verify)
def execModeRequestAlarm (u : User) (s : State) : Host.Outcome State Fault Refusal := .next (requestMode s u .alarm)
def execModeRequestHush (u : User) (s : State) : Host.Outcome State Fault Refusal := .next (requestMode s u .hush)
def execModeRequestSelftest (u : User) (s : State) : Host.Outcome State Fault Refusal := .next (requestMode s u .selftest)
def execFaultCauseClear (u : User) (v : Nat) (s : State) : Host.Outcome State Fault Refusal := .next (writeNum s u Ent.FAULT_CAUSE v)
def execFaultRequest (u : User) (v : Nat) (s : State) : Host.Outcome State Fault Refusal := .next (writeNum s u Ent.FAULT_REQUEST v)
def execLcRequestArm (u : User) (v : Nat) (s : State) : Host.Outcome State Fault Refusal := .next (writeNum s u Ent.LC_REQUEST v)
def execLcRequestConfirm (u : User) (v : Nat) (s : State) : Host.Outcome State Fault Refusal := .next (writeNum s u Ent.LC_REQUEST v)
def execDbgNew (u : User) (v : Nat) (s : State) : Host.Outcome State Fault Refusal := .next (writeNum s u Ent.DBG_NEW v)
def execDbgSig (u : User) (v : Bytes) (s : State) : Host.Outcome State Fault Refusal := .next (writeOct s u Ent.DBG_SIG v)

/-! ## The horn and the indicators (R148): the op byte and the seven bytes behind it -/

def execHornCmdTone (u : User) (rest : Bytes) (s : State) : Host.Outcome State Fault Refusal := .next (writeOct s u Ent.HORN_CMD (1 :: rest))
def execHornCmdIndicator (u : User) (rest : Bytes) (s : State) : Host.Outcome State Fault Refusal := .next (writeOct s u Ent.HORN_CMD (2 :: rest))
def execHornCmdStop (u : User) (rest : Bytes) (s : State) : Host.Outcome State Fault Refusal := .next (writeOct s u Ent.HORN_CMD (3 :: rest))

/-! ## Power, time, the arbiter, the watchdog -/

def execRestWrite (u : User) (ss v : Nat) (s : State) : Host.Outcome State Fault Refusal := .next (writeNum s u (Ent.REST ss) v)
def execTimeSet (u : User) (v : Nat) (s : State) : Host.Outcome State Fault Refusal := .next (writeNum s u Ent.TIME_SET v)
def execArbConfigWrite (u : User) (idx sub : Nat) (v : Bytes) (s : State) : Host.Outcome State Fault Refusal := .next (writeAt s u idx sub v)
def execWdtKick (u : User) (v : Nat) (s : State) : Host.Outcome State Fault Refusal := .next (writeNum s u Ent.WDT_KICK v)

/-! ## Booting and the flash -/

def execRollbackCommit (u : User) (v : Nat) (s : State) : Host.Outcome State Fault Refusal := .next (writeNum s u Ent.ROLLBACK_COMMIT v)
def execRotSig (u : User) (v : Bytes) (s : State) : Host.Outcome State Fault Refusal := .next (writeOct s u Ent.ROT_SIG v)
def execKeyRevoke0 (u : User) (v : Nat) (s : State) : Host.Outcome State Fault Refusal := .next (writeNum s u Ent.KEY_REVOKE0 v)
def execFOneTimeWrite (u : User) (idx sub : Nat) (v : Bytes) (s : State) : Host.Outcome State Fault Refusal := .next (writeAt s u idx sub v)
def execFlOpRead (u : User) (s : State) : Host.Outcome State Fault Refusal := .next (writeNum s u Ent.FL_OP 1)
def execFlOpProgram (u : User) (s : State) : Host.Outcome State Fault Refusal := .next (writeNum s u Ent.FL_OP 2)
def execFlOpErase (u : User) (s : State) : Host.Outcome State Fault Refusal := .next (writeNum s u Ent.FL_OP 3)

/-! ## Keys, pages, contexts -/

def execKdfDerive (u : User) (v : Nat) (s : State) : Host.Outcome State Fault Refusal := .next (writeNum s u Ent.KDF_DERIVE v)
def execExpKeyRead (u : User) (s : State) : Host.Outcome State Fault Refusal := .next (readEnt s u Ent.EXP_KEY)
def execAesStart (u : User) (v : Nat) (s : State) : Host.Outcome State Fault Refusal := .next (writeNum s u Ent.AES_START v)
def execAesIn (u : User) (v : Bytes) (s : State) : Host.Outcome State Fault Refusal := .next (writeOct s u Ent.AES_IN v)
def execAesOutRead (u : User) (s : State) : Host.Outcome State Fault Refusal := .next (readEnt s u Ent.AES_OUT)
def execAesClear (u : User) (v : Nat) (s : State) : Host.Outcome State Fault Refusal := .next (writeNum s u Ent.AES_CLEAR v)
def execAesMemGo (u : User) (v : Nat) (s : State) : Host.Outcome State Fault Refusal := .next (writeNum s u Ent.AES_MEM_GO v)
def execShaInit (u : User) (v : Nat) (s : State) : Host.Outcome State Fault Refusal := .next (writeNum s u Ent.SHA_INIT v)
def execShaData (u : User) (v : Bytes) (s : State) : Host.Outcome State Fault Refusal := .next (writeOct s u Ent.SHA_DATA v)
def execShaLast (u : User) (v : Bytes) (s : State) : Host.Outcome State Fault Refusal := .next (writeOct s u Ent.SHA_LAST v)
def execShaMemGo (u : User) (v : Nat) (s : State) : Host.Outcome State Fault Refusal := .next (writeNum s u Ent.SHA_MEM_GO v)

/-! ## The big-number engine: a write of BN_GO with BN_OP at the operation of the row (R285) -/

/-- BN_GO by a user whose BN_OP is `op`; with another BN_OP the command is that operation's, not this one's. -/
def bnCommand (s : State) (u : User) (op : Nat) : State := if s.getU Ent.BN_OP u = op then writeNum s u Ent.BN_GO 1 else s

def execBnPublicKey (u : User) (s : State) : Host.Outcome State Fault Refusal := .next (bnCommand s u 1)
def execBnEcdsaSign (u : User) (s : State) : Host.Outcome State Fault Refusal := .next (bnCommand s u 2)
def execBnEcdsaVerify (u : User) (s : State) : Host.Outcome State Fault Refusal := .next (bnCommand s u 3)
def execBnEcdh (u : User) (s : State) : Host.Outcome State Fault Refusal := .next (bnCommand s u 4)
def execBnX25519Public (u : User) (s : State) : Host.Outcome State Fault Refusal := .next (bnCommand s u 5)
def execBnX25519Shared (u : User) (s : State) : Host.Outcome State Fault Refusal := .next (bnCommand s u 6)
def execBnEd25519Verify (u : User) (s : State) : Host.Outcome State Fault Refusal := .next (bnCommand s u 7)
def execBnNewEphemeralP256 (u : User) (s : State) : Host.Outcome State Fault Refusal := .next (bnCommand s u 8)
def execBnNewEphemeralX25519 (u : User) (s : State) : Host.Outcome State Fault Refusal := .next (bnCommand s u 9)
def execBnMsg (u : User) (v : Bytes) (s : State) : Host.Outcome State Fault Refusal := .next (writeOct s u Ent.BN_MSG v)
def execBnMemGo (u : User) (v : Nat) (s : State) : Host.Outcome State Fault Refusal := .next (writeNum s u Ent.BN_MEM_GO v)
def execBnClear (u : User) (v : Nat) (s : State) : Host.Outcome State Fault Refusal := .next (writeNum s u Ent.BN_CLEAR v)

/-- RNG_DATA, or RNG_BLOCK where `block` (R298). -/
def execRngRead (u : User) (block : Bool) (s : State) : Host.Outcome State Fault Refusal :=
  .next (readEnt s u (if block then Ent.RNG_BLOCK else Ent.RNG_DATA))

/-! ## Tamper flags, counters, notices, claims, probing -/

def execTamperFlagsClear (u : User) (v : Nat) (s : State) : Host.Outcome State Fault Refusal := .next (writeNum s u Ent.TAMPER_FLAGS v)
def execMonoInc (u : User) (n v : Nat) (s : State) : Host.Outcome State Fault Refusal := .next (writeNum s u (Ent.MONO_INC n) v)
def execNoticeClear (u : User) (v : Nat) (s : State) : Host.Outcome State Fault Refusal := .next (writeNum s u Ent.NOTICE_PENDING v)
def execClaimTake (u : User) (g lease : Nat) (s : State) : Host.Outcome State Fault Refusal := .next (writeNum s u (Ent.CLAIM g) lease)
def execClaimRelease (u : User) (g : Nat) (s : State) : Host.Outcome State Fault Refusal := .next (writeNum s u (Ent.CLAIM g) 0)

/-- A lease runs out (R70). -/
def execClaimLeaseExpiry (g : Nat) (s : State) : Host.Outcome State Fault Refusal :=
  .next (if s.spindle.alive && claimGroups.contains g && claimHolder s g != 0x80 then claimFree s g else s)

def execProbeDescRead (u : User) (s : State) : Host.Outcome State Fault Refusal := .next (readEnt s u Ent.PROBE_DESC)

/-! ## Batches and the engine's own commands -/

def execCommit (u : User) (s : State) : Host.Outcome State Fault Refusal := .next (access s (numReq u Ent.COMMIT 1))
def execDiscard (u : User) (s : State) : Host.Outcome State Fault Refusal := .next (access s (numReq u Ent.COMMIT 2))
def execEntryWrite (u : User) (idx sub : Nat) (v : Bytes) (s : State) : Host.Outcome State Fault Refusal :=
  .next (access s (writeReq u idx sub v))

/-! ## The bus and the host ports -/

def execCanRestart (u : User) (v : Nat) (s : State) : Host.Outcome State Fault Refusal := .next (writeNum s u Ent.CAN_RESTART v)
def execNodeIdWrite (u : User) (v : Nat) (s : State) : Host.Outcome State Fault Refusal := .next (writeNum s u Ent.NODE_ID v)
def execHpReset (u : User) (p v : Nat) (s : State) : Host.Outcome State Fault Refusal := .next (writeNum s u (Ent.HP_RESET p) v)

end Sys2Proof.Machine
end

