-- ==== Sys2Proof/Machine/Dispatch.lean ====
section
/-! DEFINITION. The meaning of each command, by its name. -/
namespace Sys2Proof.Machine

/-- The command's effect on everything but the queue. -/
def exec (i : Instr) (s : State) : Host.Outcome State Fault Refusal :=
  match i with
  | .vddInValid mv => Sys2Proof.Machine.execVddInValid mv s
  | .vddInLost mv => Sys2Proof.Machine.execVddInLost mv s
  | .keeperPowerOnReset testmode => Sys2Proof.Machine.execKeeperPowerOnReset testmode s
  | .nrstAssert => Sys2Proof.Machine.execNrstAssert s
  | .nrstRelease => Sys2Proof.Machine.execNrstRelease s
  | .keeperAonCycle evs => Sys2Proof.Machine.execKeeperAonCycle evs s
  | .sbSendStart => Sys2Proof.Machine.execSbSendStart s
  | .sbMessageDropped dies => Sys2Proof.Machine.execSbMessageDropped dies s
  | .sbMessageCutOff dies => Sys2Proof.Machine.execSbMessageCutOff dies s
  | .sbAckTimeout die ty => Sys2Proof.Machine.execSbAckTimeout die ty s
  | .logWriteRetry die => Sys2Proof.Machine.execLogWriteRetry die s
  | .lockup => Sys2Proof.Machine.execLockup s
  | .lockupRepeatTimer => Sys2Proof.Machine.execLockupRepeatTimer s
  | .lockupResetDelay => Sys2Proof.Machine.execLockupResetDelay s
  | .backstopAlarm => Sys2Proof.Machine.execBackstopAlarm s
  | .backstopAlarmRepeat => Sys2Proof.Machine.execBackstopAlarmRepeat s
  | .heartbeat => Sys2Proof.Machine.execHeartbeat s
  | .heartbeatSendTimer => Sys2Proof.Machine.execHeartbeatSendTimer s
  | .heartbeatTimeout => Sys2Proof.Machine.execHeartbeatTimeout s
  | .flyerResetRepeat => Sys2Proof.Machine.execFlyerResetRepeat s
  | .logWrite => Sys2Proof.Machine.execLogWrite s
  | .ack => Sys2Proof.Machine.execAck s
  | .domain => Sys2Proof.Machine.execDomain s
  | .domainResend => Sys2Proof.Machine.execDomainResend s
  | .reset => Sys2Proof.Machine.execReset s
  | .hello => Sys2Proof.Machine.execHello s
  | .peerReset => Sys2Proof.Machine.execPeerReset s
  | .plyQuiet => Sys2Proof.Machine.execPlyQuiet s
  | .peerResetQuietTimeout => Sys2Proof.Machine.execPeerResetQuietTimeout s
  | .captureReady => Sys2Proof.Machine.execCaptureReady s
  | .mode => Sys2Proof.Machine.execMode s
  | .modeRepeatTimer => Sys2Proof.Machine.execModeRepeatTimer s
  | .time => Sys2Proof.Machine.execTime s
  | .calShadow => Sys2Proof.Machine.execCalShadow s
  | .calShadowResend => Sys2Proof.Machine.execCalShadowResend s
  | .plyBurstRequest byFlyer => Sys2Proof.Machine.execPlyBurstRequest byFlyer s
  | .plyStartMarkerAligned => Sys2Proof.Machine.execPlyStartMarkerAligned s
  | .plyWakeTimeout lanes => Sys2Proof.Machine.execPlyWakeTimeout lanes s
  | .plyFlitDiscarded lane why => Sys2Proof.Machine.execPlyFlitDiscarded lane why s
  | .plyCaptureFlit lane => Sys2Proof.Machine.execPlyCaptureFlit lane s
  | .plyCommandFlit reg val => Sys2Proof.Machine.execPlyCommandFlit reg val s
  | .plyHornFlit => Sys2Proof.Machine.execPlyHornFlit s
  | .plyEndFlit lane => Sys2Proof.Machine.execPlyEndFlit lane s
  | .plyIdleFlit lane => Sys2Proof.Machine.execPlyIdleFlit lane s
  | .plyRetryTimeout lane => Sys2Proof.Machine.execPlyRetryTimeout lane s
  | .plyDrainExpiry => Sys2Proof.Machine.execPlyDrainExpiry s
  | .captHeldWrite u v => Sys2Proof.Machine.execCaptHeldWrite u v s
  | .statusOptical lane => Sys2Proof.Machine.execStatusOptical lane s
  | .statusHeat lane => Sys2Proof.Machine.execStatusHeat lane s
  | .statusCo lane => Sys2Proof.Machine.execStatusCo lane s
  | .statusAux lane => Sys2Proof.Machine.execStatusAux lane s
  | .statusSupply lane => Sys2Proof.Machine.execStatusSupply lane s
  | .statusQueues lane => Sys2Proof.Machine.execStatusQueues lane s
  | .optMeasurementTick vddMv => Sys2Proof.Machine.execOptMeasurementTick vddMv s
  | .optMeasurementComplete caps ledShort loadedMv => Sys2Proof.Machine.execOptMeasurementComplete caps ledShort loadedMv s
  | .heatMeasurementTick => Sys2Proof.Machine.execHeatMeasurementTick s
  | .heatConversionComplete code => Sys2Proof.Machine.execHeatConversionComplete code s
  | .coMeasurementTick => Sys2Proof.Machine.execCoMeasurementTick s
  | .coConversionComplete code => Sys2Proof.Machine.execCoConversionComplete code s
  | .ainMeasurementTick => Sys2Proof.Machine.execAinMeasurementTick s
  | .ainConversionComplete code => Sys2Proof.Machine.execAinConversionComplete code s
  | .dieTempTick spindle flyer keeper clkFlyHz => Sys2Proof.Machine.execDieTempTick spindle flyer keeper clkFlyHz s
  | .optRequest u v => Sys2Proof.Machine.execOptRequest u v s
  | .coPulse u v => Sys2Proof.Machine.execCoPulse u v s
  | .coPulseRestore peak => Sys2Proof.Machine.execCoPulseRestore peak s
  | .coPulseSettleEnd => Sys2Proof.Machine.execCoPulseSettleEnd s
  | .coEnableWrite u v => Sys2Proof.Machine.execCoEnableWrite u v s
  | .ainPeriodWrite u v => Sys2Proof.Machine.execAinPeriodWrite u v s
  | .calFactoryWrite u idx sub v => Sys2Proof.Machine.execCalFactoryWrite u idx sub v s
  | .calDeltaWrite u idx sub v => Sys2Proof.Machine.execCalDeltaWrite u idx sub v s
  | .alarmFwWrite u v => Sys2Proof.Machine.execAlarmFwWrite u v s
  | .kindsCommandSend => Sys2Proof.Machine.execKindsCommandSend s
  | .modeRequestCalibrate u => Sys2Proof.Machine.execModeRequestCalibrate u s
  | .modeRequestFactory u => Sys2Proof.Machine.execModeRequestFactory u s
  | .modeRequestSupervise u => Sys2Proof.Machine.execModeRequestSupervise u s
  | .modeRequestCommission u => Sys2Proof.Machine.execModeRequestCommission u s
  | .modeRequestVerify u => Sys2Proof.Machine.execModeRequestVerify u s
  | .modeRequestAlarm u => Sys2Proof.Machine.execModeRequestAlarm u s
  | .modeRequestHush u => Sys2Proof.Machine.execModeRequestHush u s
  | .modeRequestSelftest u => Sys2Proof.Machine.execModeRequestSelftest u s
  | .testBtnPress => Sys2Proof.Machine.execTestBtnPress s
  | .testBtnHold => Sys2Proof.Machine.execTestBtnHold s
  | .verifyTimeout => Sys2Proof.Machine.execVerifyTimeout s
  | .commissionTimeout => Sys2Proof.Machine.execCommissionTimeout s
  | .hushExpiry => Sys2Proof.Machine.execHushExpiry s
  | .flyerHushTimerExpiry => Sys2Proof.Machine.execFlyerHushTimerExpiry s
  | .faultCauseClear u v => Sys2Proof.Machine.execFaultCauseClear u v s
  | .faultRequest u v => Sys2Proof.Machine.execFaultRequest u v s
  | .serviceSecondTick => Sys2Proof.Machine.execServiceSecondTick s
  | .serviceCommitHourly => Sys2Proof.Machine.execServiceCommitHourly s
  | .endOfLifeReached => Sys2Proof.Machine.execEndOfLifeReached s
  | .lcRequestArm u v => Sys2Proof.Machine.execLcRequestArm u v s
  | .lcRequestConfirm u v => Sys2Proof.Machine.execLcRequestConfirm u v s
  | .lcRequestExpiry => Sys2Proof.Machine.execLcRequestExpiry s
  | .lcProgramComplete => Sys2Proof.Machine.execLcProgramComplete s
  | .dbgNew u v => Sys2Proof.Machine.execDbgNew u v s
  | .dbgSig u v => Sys2Proof.Machine.execDbgSig u v s
  | .dbgChallengeExpiry => Sys2Proof.Machine.execDbgChallengeExpiry s
  | .dbgLockoutExpiry => Sys2Proof.Machine.execDbgLockoutExpiry s
  | .echoTimeoutExpiry => Sys2Proof.Machine.execEchoTimeoutExpiry s
  | .icLineRelayStart => Sys2Proof.Machine.execIcLineRelayStart s
  | .icLineRelayEnd => Sys2Proof.Machine.execIcLineRelayEnd s
  | .beaconTimer => Sys2Proof.Machine.execBeaconTimer s
  | .hornSourceSelect => Sys2Proof.Machine.execHornSourceSelect s
  | .hornPhase => Sys2Proof.Machine.execHornPhase s
  | .hornVboostReady mv => Sys2Proof.Machine.execHornVboostReady mv s
  | .hornFbTimeout => Sys2Proof.Machine.execHornFbTimeout s
  | .hornFault => Sys2Proof.Machine.execHornFault s
  | .hornOvercurrent => Sys2Proof.Machine.execHornOvercurrent s
  | .hornCmdTone u rest => Sys2Proof.Machine.execHornCmdTone u rest s
  | .hornCmdIndicator u rest => Sys2Proof.Machine.execHornCmdIndicator u rest s
  | .hornCmdStop u rest => Sys2Proof.Machine.execHornCmdStop u rest s
  | .hornQueueTake => Sys2Proof.Machine.execHornQueueTake s
  | .selftestDue => Sys2Proof.Machine.execSelftestDue s
  | .stChamber caps ledShort loadedMv => Sys2Proof.Machine.execStChamber caps ledShort loadedMv s
  | .stHorn ohm riseMs overcurrent => Sys2Proof.Machine.execStHorn ohm riseMs overcurrent s
  | .stBattery mv => Sys2Proof.Machine.execStBattery mv s
  | .stCoCell peak => Sys2Proof.Machine.execStCoCell peak s
  | .stNvm => Sys2Proof.Machine.execStNvm s
  | .stRngHealth window => Sys2Proof.Machine.execStRngHealth window s
  | .stKnownAnswer failing => Sys2Proof.Machine.execStKnownAnswer failing s
  | .stStepResult => Sys2Proof.Machine.execStStepResult s
  | .stStepTimeout => Sys2Proof.Machine.execStStepTimeout s
  | .stRngWords => Sys2Proof.Machine.execStRngWords s
  | .uidPoolRefill words => Sys2Proof.Machine.execUidPoolRefill words s
  | .restWrite u ss v => Sys2Proof.Machine.execRestWrite u ss v s
  | .domainEntryStart d => Sys2Proof.Machine.execDomainEntryStart d s
  | .domainEntryRetry d => Sys2Proof.Machine.execDomainEntryRetry d s
  | .domainEntryComplete d => Sys2Proof.Machine.execDomainEntryComplete d s
  | .domainWake source more => Sys2Proof.Machine.execDomainWake source more s
  | .domainExitComplete d => Sys2Proof.Machine.execDomainExitComplete d s
  | .isolationWindowEnd d low => Sys2Proof.Machine.execIsolationWindowEnd d low s
  | .aonCrystalLost => Sys2Proof.Machine.execAonCrystalLost s
  | .aonCrystalReturn => Sys2Proof.Machine.execAonCrystalReturn s
  | .fllUnlock => Sys2Proof.Machine.execFllUnlock s
  | .xoCheckEnd found => Sys2Proof.Machine.execXoCheckEnd found s
  | .xoStartFail => Sys2Proof.Machine.execXoStartFail s
  | .rtcSecondTick => Sys2Proof.Machine.execRtcSecondTick s
  | .timeSet u v => Sys2Proof.Machine.execTimeSet u v s
  | .arbDecision begins stalled withdrawn => Sys2Proof.Machine.execArbDecision begins stalled withdrawn s
  | .creditWindowStart res => Sys2Proof.Machine.execCreditWindowStart res s
  | .slotWrapApply res => Sys2Proof.Machine.execSlotWrapApply res s
  | .arbConfigWrite u idx sub v => Sys2Proof.Machine.execArbConfigWrite u idx sub v s
  | .fabricWatchdogBite req res write addr => Sys2Proof.Machine.execFabricWatchdogBite req res write addr s
  | .instrExecute => Sys2Proof.Machine.execInstrExecute s
  | .load => Sys2Proof.Machine.execLoad s
  | .store => Sys2Proof.Machine.execStore s
  | .coreWindowLoad => Sys2Proof.Machine.execCoreWindowLoad s
  | .coreWindowStore => Sys2Proof.Machine.execCoreWindowStore s
  | .coreStageStore => Sys2Proof.Machine.execCoreStageStore s
  | .csrAccess => Sys2Proof.Machine.execCsrAccess s
  | .svctlWrite => Sys2Proof.Machine.execSvctlWrite s
  | .mpuCsrWrite => Sys2Proof.Machine.execMpuCsrWrite s
  | .ecall => Sys2Proof.Machine.execEcall s
  | .ebreak => Sys2Proof.Machine.execEbreak s
  | .mret => Sys2Proof.Machine.execMret s
  | .wfi => Sys2Proof.Machine.execWfi s
  | .wfiResume => Sys2Proof.Machine.execWfiResume s
  | .fence => Sys2Proof.Machine.execFence s
  | .fenceI => Sys2Proof.Machine.execFenceI s
  | .interruptTaken => Sys2Proof.Machine.execInterruptTaken s
  | .wdtKick u v => Sys2Proof.Machine.execWdtKick u v s
  | .wdtExpiry => Sys2Proof.Machine.execWdtExpiry s
  | .debugHalt => Sys2Proof.Machine.execDebugHalt s
  | .debugResume => Sys2Proof.Machine.execDebugResume s
  | .debugSingleStep => Sys2Proof.Machine.execDebugSingleStep s
  | .debugAbstractCommand c => Sys2Proof.Machine.execDebugAbstractCommand c s
  | .ndmreset => Sys2Proof.Machine.execNdmreset s
  | .tapInstruction ir => Sys2Proof.Machine.execTapInstruction ir s
  | .loaderDiscovery sfdp qe => Sys2Proof.Machine.execLoaderDiscovery sfdp qe s
  | .loaderSelect => Sys2Proof.Machine.execLoaderSelect s
  | .loaderManifestRead => Sys2Proof.Machine.execLoaderManifestRead s
  | .loaderSignatureDone => Sys2Proof.Machine.execLoaderSignatureDone s
  | .loaderHalfBlock => Sys2Proof.Machine.execLoaderHalfBlock s
  | .loaderBlockDigest => Sys2Proof.Machine.execLoaderBlockDigest s
  | .loaderClose => Sys2Proof.Machine.execLoaderClose s
  | .bootReport => Sys2Proof.Machine.execBootReport s
  | .bootAttemptTimeout => Sys2Proof.Machine.execBootAttemptTimeout s
  | .bootRetryDelayExpiry => Sys2Proof.Machine.execBootRetryDelayExpiry s
  | .rollbackCommit u v => Sys2Proof.Machine.execRollbackCommit u v s
  | .rotSig u v => Sys2Proof.Machine.execRotSig u v s
  | .keyRevoke0 u v => Sys2Proof.Machine.execKeyRevoke0 u v s
  | .fOneTimeWrite u idx sub v => Sys2Proof.Machine.execFOneTimeWrite u idx sub v s
  | .flOpRead u => Sys2Proof.Machine.execFlOpRead u s
  | .flOpProgram u => Sys2Proof.Machine.execFlOpProgram u s
  | .flOpErase u => Sys2Proof.Machine.execFlOpErase u s
  | .flOpComplete => Sys2Proof.Machine.execFlOpComplete s
  | .flOpTimeout => Sys2Proof.Machine.execFlOpTimeout s
  | .kdfDerive u v => Sys2Proof.Machine.execKdfDerive u v s
  | .expKeyRead u => Sys2Proof.Machine.execExpKeyRead u s
  | .aesStart u v => Sys2Proof.Machine.execAesStart u v s
  | .aesIn u v => Sys2Proof.Machine.execAesIn u v s
  | .aesOutRead u => Sys2Proof.Machine.execAesOutRead u s
  | .aesClear u v => Sys2Proof.Machine.execAesClear u v s
  | .aesMemGo u v => Sys2Proof.Machine.execAesMemGo u v s
  | .shaInit u v => Sys2Proof.Machine.execShaInit u v s
  | .shaData u v => Sys2Proof.Machine.execShaData u v s
  | .shaLast u v => Sys2Proof.Machine.execShaLast u v s
  | .shaMemGo u v => Sys2Proof.Machine.execShaMemGo u v s
  | .cryptoJobComplete e => Sys2Proof.Machine.execCryptoJobComplete e s
  | .bnPublicKey u => Sys2Proof.Machine.execBnPublicKey u s
  | .bnEcdsaSign u => Sys2Proof.Machine.execBnEcdsaSign u s
  | .bnEcdsaVerify u => Sys2Proof.Machine.execBnEcdsaVerify u s
  | .bnEcdh u => Sys2Proof.Machine.execBnEcdh u s
  | .bnX25519Public u => Sys2Proof.Machine.execBnX25519Public u s
  | .bnX25519Shared u => Sys2Proof.Machine.execBnX25519Shared u s
  | .bnEd25519Verify u => Sys2Proof.Machine.execBnEd25519Verify u s
  | .bnNewEphemeralP256 u => Sys2Proof.Machine.execBnNewEphemeralP256 u s
  | .bnNewEphemeralX25519 u => Sys2Proof.Machine.execBnNewEphemeralX25519 u s
  | .bnJobStart => Sys2Proof.Machine.execBnJobStart s
  | .bnRngWaitExpiry => Sys2Proof.Machine.execBnRngWaitExpiry s
  | .bnCandidateTimeout => Sys2Proof.Machine.execBnCandidateTimeout s
  | .bnMsg u v => Sys2Proof.Machine.execBnMsg u v s
  | .bnMemGo u v => Sys2Proof.Machine.execBnMemGo u v s
  | .bnMsgTimeout u => Sys2Proof.Machine.execBnMsgTimeout u s
  | .bnJobComplete => Sys2Proof.Machine.execBnJobComplete s
  | .bnClear u v => Sys2Proof.Machine.execBnClear u v s
  | .rngWordProduced raw => Sys2Proof.Machine.execRngWordProduced raw s
  | .rngRead u block => Sys2Proof.Machine.execRngRead u block s
  | .rngHealthWindowEnd window => Sys2Proof.Machine.execRngHealthWindowEnd window s
  | .glitchAlert kind value threshold => Sys2Proof.Machine.execGlitchAlert kind value threshold s
  | .supplyAlert inst kind value threshold => Sys2Proof.Machine.execSupplyAlert inst kind value threshold s
  | .lightAlert inst value threshold => Sys2Proof.Machine.execLightAlert inst value threshold s
  | .meshAlert inst kind => Sys2Proof.Machine.execMeshAlert inst kind s
  | .enclosureAlert inst level => Sys2Proof.Machine.execEnclosureAlert inst level s
  | .logAppend => Sys2Proof.Machine.execLogAppend s
  | .logAppendComplete => Sys2Proof.Machine.execLogAppendComplete s
  | .ckptDigest => Sys2Proof.Machine.execCkptDigest s
  | .ckptSignature => Sys2Proof.Machine.execCkptSignature s
  | .ckptSignTimeout => Sys2Proof.Machine.execCkptSignTimeout s
  | .logFullRetry => Sys2Proof.Machine.execLogFullRetry s
  | .tamperFlagsClear u v => Sys2Proof.Machine.execTamperFlagsClear u v s
  | .monoInc u n v => Sys2Proof.Machine.execMonoInc u n v s
  | .noticeClear u v => Sys2Proof.Machine.execNoticeClear u v s
  | .claimTake u g lease => Sys2Proof.Machine.execClaimTake u g lease s
  | .claimRelease u g => Sys2Proof.Machine.execClaimRelease u g s
  | .claimLeaseExpiry g => Sys2Proof.Machine.execClaimLeaseExpiry g s
  | .probeDescRead u => Sys2Proof.Machine.execProbeDescRead u s
  | .commit u => Sys2Proof.Machine.execCommit u s
  | .discard u => Sys2Proof.Machine.execDiscard u s
  | .dictEngineTake => Sys2Proof.Machine.execDictEngineTake s
  | .entryWrite u idx sub v => Sys2Proof.Machine.execEntryWrite u idx sub v s
  | .nvmWriteComplete => Sys2Proof.Machine.execNvmWriteComplete s
  | .nvmWriteTimeout => Sys2Proof.Machine.execNvmWriteTimeout s
  | .canBusJoin => Sys2Proof.Machine.execCanBusJoin s
  | .canBeaconRx b0 b1 => Sys2Proof.Machine.execCanBeaconRx b0 b1 s
  | .canSourceRx node => Sys2Proof.Machine.execCanSourceRx node s
  | .canRequestRead target payload => Sys2Proof.Machine.execCanRequestRead target payload s
  | .canRequestWrite target payload => Sys2Proof.Machine.execCanRequestWrite target payload s
  | .canRequestStage target payload => Sys2Proof.Machine.execCanRequestStage target payload s
  | .canSegmentTimeout => Sys2Proof.Machine.execCanSegmentTimeout s
  | .canTimeRx node time => Sys2Proof.Machine.execCanTimeRx node time s
  | .canHeartbeatRx node => Sys2Proof.Machine.execCanHeartbeatRx node s
  | .canFrameIgnored => Sys2Proof.Machine.execCanFrameIgnored s
  | .canTxStart => Sys2Proof.Machine.execCanTxStart s
  | .canTxSuccess loopDelay => Sys2Proof.Machine.execCanTxSuccess loopDelay s
  | .canTxError e pos dataPhase tec => Sys2Proof.Machine.execCanTxError e pos dataPhase tec s
  | .canBackoffExpiry => Sys2Proof.Machine.execCanBackoffExpiry s
  | .canBusOff => Sys2Proof.Machine.execCanBusOff s
  | .canBusOffRecovered => Sys2Proof.Machine.execCanBusOffRecovered s
  | .canRestart u v => Sys2Proof.Machine.execCanRestart u v s
  | .nodeIdWrite u v => Sys2Proof.Machine.execNodeIdWrite u v s
  | .canNoticeTimer => Sys2Proof.Machine.execCanNoticeTimer s
  | .canTimeTimer => Sys2Proof.Machine.execCanTimeTimer s
  | .canHeartbeatTimer => Sys2Proof.Machine.execCanHeartbeatTimer s
  | .canResponseSend => Sys2Proof.Machine.execCanResponseSend s
  | .hostRead p frame => Sys2Proof.Machine.execHostRead p frame s
  | .hostWrite p frame => Sys2Proof.Machine.execHostWrite p frame s
  | .hostStage p frame => Sys2Proof.Machine.execHostStage p frame s
  | .hostFrameError p frame framing => Sys2Proof.Machine.execHostFrameError p frame framing s
  | .hostCsFall p mode3 => Sys2Proof.Machine.execHostCsFall p mode3 s
  | .hostCsRise p clocked cutRequest => Sys2Proof.Machine.execHostCsRise p clocked cutRequest s
  | .hostUartGapTimeout => Sys2Proof.Machine.execHostUartGapTimeout s
  | .hostUartResponseSend => Sys2Proof.Machine.execHostUartResponseSend s
  | .keptResponseExpiry p => Sys2Proof.Machine.execKeptResponseExpiry p s
  | .hpReset u p v => Sys2Proof.Machine.execHpReset u p v s
  | .fieldSessionStart => Sys2Proof.Machine.execFieldSessionStart s
  | .fieldSessionEnd => Sys2Proof.Machine.execFieldSessionEnd s
  | .reqa => Sys2Proof.Machine.execReqa s
  | .wupa => Sys2Proof.Machine.execWupa s
  | .anticollision level known => Sys2Proof.Machine.execAnticollision level known s
  | .selectCascade level uid => Sys2Proof.Machine.execSelectCascade level uid s
  | .hlta => Sys2Proof.Machine.execHlta s
  | .rats fsdi => Sys2Proof.Machine.execRats fsdi s
  | .pps rate106 => Sys2Proof.Machine.execPps rate106 s
  | .iBlock number chain inf => Sys2Proof.Machine.execIBlock number chain inf s
  | .rBlock nak number => Sys2Proof.Machine.execRBlock nak number s
  | .sWtxResponse => Sys2Proof.Machine.execSWtxResponse s
  | .sDeselect => Sys2Proof.Machine.execSDeselect s
  | .tagWtxTimer => Sys2Proof.Machine.execTagWtxTimer s
  | .tagAnswerTimeout => Sys2Proof.Machine.execTagAnswerTimeout s
  | .apduSelect => Sys2Proof.Machine.execApduSelect s
  | .apduGetOrigin => Sys2Proof.Machine.execApduGetOrigin s
  | .apduReadLog => Sys2Proof.Machine.execApduReadLog s
  | .apduReadEntry => Sys2Proof.Machine.execApduReadEntry s
  | .apduAuthStep1 => Sys2Proof.Machine.execApduAuthStep1 s
  | .apduAuthStep2 => Sys2Proof.Machine.execApduAuthStep2 s
  | .apduWriteEntry => Sys2Proof.Machine.execApduWriteEntry s
  | .canRxError e id dataPhase rec => Sys2Proof.Machine.execCanRxError e id dataPhase rec s
  | .canResponseNoticeRx => Sys2Proof.Machine.execCanResponseNoticeRx s
  | .clkCoreDeviation deviation => Sys2Proof.Machine.execClkCoreDeviation deviation s
  | .tamperConditionEnd ty inst => Sys2Proof.Machine.execTamperConditionEnd ty inst s
  | .tagOtherFrame bad => Sys2Proof.Machine.execTagOtherFrame bad s
  | .fieldDrop returns => Sys2Proof.Machine.execFieldDrop returns s

end Sys2Proof.Machine
end

