-- ==== Sys2Proof/Safety.lean ====
section
/-! DEFINITION. The terms of the claims: a safe step, a command that answers a next state, the canonical form of the state. -/
namespace Sys2Proof.Machine

/-- A step is safe: it answers a next state, neither a fault nor a refusal. -/
def Safe (s : State) : Prop := ∃ t, step s = .next t

/-- The command answers a next state, and that state satisfies `p`. -/
def Answers (c : Instr) (s : State) (p : State → Prop) : Prop := ∃ t, exec c s = .next t ∧ p t

/-- A sparse list in canonical form: keys strictly rising, no value equal to what its key reads as when unlisted. -/
def SparseCanon {α : Type} (d : Nat → α) (l : Sparse α) : Prop := SparseWf l ∧ ∀ c ∈ l, c.2 ≠ d c.1

/-- What a key of the entry store reads as when it is not listed. -/
def keyDefault (k : Nat) : Nat := entryDefault (k / 8)

/-- The entry store in canonical form. -/
abbrev EntCanon (l : Sparse Nat) : Prop := SparseCanon keyDefault l

/-- Every memory is in canonical form. -/
structure MemOk (m : Mem) : Prop where
  code : m.code.wf
  data : m.data.wf
  capt : m.capt.wf
  scratch : m.scratch.wf
  flash : m.flash.wf

/-- The canonical form of the state: the entry store, the memories, the core's transfer buffers. -/
structure Canon (s : State) : Prop where
  ent : EntCanon s.ent
  mem : MemOk s.spindle.mem
  xferM : s.spindle.dict.xferM.wf
  xferU : s.spindle.dict.xferU.wf

/-- A counter has counted one, saturating (R44, R45). -/
abbrev Counted (s t : State) (e : Nat) : Prop := t.get e = min (s.get e + 1) (256 ^ entrySize e - 1)

/-- A write that the engine serves as it arrives and whose every check passes, up to what its action itself judges (R55, R56). -/
def accepts (s : State) (q : Request) : Bool :=
  q.op == 2 && !unserved s q.user && !coreBlocked s q.user && servedAtOnce s q &&
    match rowAt q.idx q.sub with
    | some r =>
      decide (writeStatus s q.user r (entAt q.idx q.sub) q.value = Sc.ok) && writeInRange s r (entAt q.idx q.sub) (leNat q.value)
    | none => false

/-- A read that the engine serves as it arrives and that the user's right and the life-cycle allow (R55, R56). -/
def readable (s : State) (q : Request) : Bool :=
  q.op == 1 && !unserved s q.user && !coreBlocked s q.user && servedAtOnce s q &&
    match rowAt q.idx q.sub with
    | some r => decide (readStatus s q.user r (entAt q.idx q.sub) = Sc.ok)
    | none => false

/-- The command leads to the state `t` of its effect and the response to its request, of a status and a value (R54, R57). -/
def Serves (c : Instr) (s : State) (q : Request) (t : State) (status : Nat) (v : Bytes := []) : Prop := exec c s = .next (respond t q status v)

/-- The N write of one value to an entry that a request asks for (R59). -/
abbrev nvmJob (q : Request) (e v : Nat) : NvmJob := ⟨q, [(e, v)], false⟩

/-- The command hands an N write to the keeper: it is in progress from then on, its place in the response queue claimed (R59, R191). -/
def Starts (c : Instr) (s : State) (q : Request) (e v : Nat) : Prop :=
  exec c s = .next (claimPlace (s.onKeeper fun k => { k with jobs := k.jobs ++ [nvmJob q e v] }) q)

/-- The keeper commits the oldest N write in progress, which is that of one value to an entry: the state `p` of its effect, and OK to its request
(R47, R59). -/
def Commits (s : State) (q : Request) (e v : Nat) (p : State → Prop) : Prop :=
  ∀ rest, s.keeper.jobs = nvmJob q e v :: rest → Answers .nvmWriteComplete s fun t => t.keeper.jobs = rest ∧ t.getU Ent.LAST_STATUS q.user = Sc.ok ∧ p t

/-- The message that a die takes next has left its receive buffer, or the line (R19, R190). -/
abbrev Taken (s t : State) (d : Die) : Prop := t.sb.wire = (sbLift s d).sb.wire ∧ (sbDie t d).rxq = (sbDie (sbLift s d) d).rxq

/-- The sender of a lane has nothing to repeat and may send a new flit, its receiver waits for it, and its END has not been sent (R28, R31). -/
def fresh (s : State) (l : Lane) : Bool :=
  plyState s == 2 && !(laneOf s.ply l).ended && (laneOf s.ply l).next == (laneOf s.ply l).recv && canSendNew (laneOf s.ply l)

/-- The message is the last of a die's transmit queue. -/
abbrev Queued (t : State) (d : Die) (ty dst : Nat) (payload : Bytes) : Prop := (sbDie t d).txq.getLast? = some ⟨ty, d, dst, payload⟩

/-- A die's transmit queue has room. -/
abbrev roomFor (s : State) (d : Die) : Prop := (sbDie s d).txq.length < 8

/-- The hart is ready to execute the instruction `i` of the given bits and length, no trigger stands on its address, and nothing halts it after it. -/
def fetches (s : State) (i : Rv) (word len : Nat) : Bool :=
  coreReady s && (triggerHit s.spindle.core 0 s.spindle.core.pc).isNone && !s.spindle.core.dcsr.getLsbD 2 && !s.spindle.core.haltOwed &&
    match fetch s with
    | .ok f => f.inst == some i && f.word == word && f.len == len
    | .error _ => false

/-- The address after an instruction of a length. -/
abbrev after (s : State) (len : Nat) : Word := s.spindle.core.pc + BitVec.ofNat 32 len

/-- An instruction whose effect on the core is `c` has retired: beside it the pc, the in-entry flag, the prefetch queue and minstret change (R211, R224). -/
abbrev Retires (s t : State) (c : Core) (next : Word) : Prop :=
  t.spindle.core = { c with pc := next, inEntry := false, queue := t.spindle.core.queue,
                            minstret := if s.spindle.core.mcountinhibit.getLsbD 2 then s.spindle.core.minstret else s.spindle.core.minstret + 1 }

/-- A SHA-256 context into which the bytes `m` have been hashed since SHA_INIT (R277). -/
abbrev hashed (m : Bytes) : ShaCtx := ({ open_ := true, h := sha256Init } : ShaCtx).feed m

/-- The flags of the measurement of the self-test's step 1 (R152): those of the flyer, and bit 1 where a reference is low. -/
abbrev chamberFlags (s : State) (caps : Captures) (led : Bool) : Nat :=
  flyerFlags s (integralsOf s caps) led false |||
    if refLow (integralsOf s caps).rIr (shadowNat s.flyer.bs 16 4) || refLow (integralsOf s caps).rBl (shadowNat s.flyer.bs 20 4) then 2 else 0

/-- The state in which the arbiter decides a cycle: the cycle counted, every clock moved on (R199, R202). -/
abbrev clocked (s : State) : State := resources.foldl arbClock (countCycle s)

/-- The core has put out a window access and waits for its response (R64); the instruction is of the given length. -/
abbrev asking (s : State) (n : Nat) (q : Request) : State := (fillQueue s n).onCore fun c => { c with asked := some q }

/-- The loader runs, in state `k` of R238. -/
abbrev loaderAt (s : State) (k : Nat) : Bool := s.spindle.alive && !s.spindle.handed && s.spindle.loader.word == wideCode k

/-- A page without its masking generator (R275). -/
abbrev unmasked (p : Page) : Page := { p with mask := 0, blocks := 0, owes := false, asked := false, words := [] }

/-- A user's page is cleared (R268); one that was zeroised still reads state 6 (R269). -/
abbrev PageCleared (s t : State) (u : User) : Prop := unmasked (page t u) = { state := if (page s u).state = 6 then 6 else 0 }

/-- A host port hears a request: CLK_CORE runs, the port takes part, nothing waits for its parser, and on SPI a transaction runs that has brought nothing
yet (R351, R355). -/
abbrev hears (s : State) (p : Port) : Bool :=
  engineRuns s && portListens s p && (s.spindle.ports.get p).frames == [] &&
    (p == .C || ((s.spindle.ports.get p).cs && !(s.spindle.ports.get p).taken && !(s.spindle.ports.get p).fetch))

/-- A request frame as the host sends it: as it is on SPI, COBS-encoded on the UART (R355, R359). -/
abbrev onLine (p : Port) (f : Bytes) : Bytes := if p = .C then cobsEncode f else f

/-- A port that has taken the request of its transaction. -/
abbrev heard (s : State) (p : Port) : HostPort :=
  if p = .C then s.spindle.ports.get p else { s.spindle.ports.get p with taken := true }

/-- An alert of a monitor has been flagged, counted and noted (R304). -/
abbrev Alerted (s t : State) (ty inst kind : Nat) : Prop :=
  bit (t.get Ent.TAMPER_FLAGS) (ty - 0x40) = true ∧ Counted s t (Ent.TAMPER_COUNT (ty - 0x40 + 1)) ∧
    t.get Ent.LAST_TAMPER = ty + 256 * (inst % 256) + 65536 * (kind % 256) ∧ t.get Ent.LAST_TAMPER_TIME = now s

/-- A frame in states of a kind: whenever the command answers a next state, that state is as before up to what `forget` wipes out and up to its entries,
and every entry whose index is not listed is as before. -/
def LeavesWhen (p : State → Prop) (c : Instr) (forget : State → State) (idx : List Nat) : Prop :=
  ∀ s t, p s → exec c s = .next t →
    forget { t with ent := [] } = forget { s with ent := [] } ∧ ∀ e, e / 256 ∉ idx → t.get e = s.get e ∧ ∀ u, t.getU e u = s.getU e u

/-- A frame in every state. -/
abbrev Leaves (c : Instr) (forget : State → State) (idx : List Nat) : Prop := LeavesWhen (fun _ => True) c forget idx

/-- What the engine answers, and whom it served last, wiped out. -/
abbrev forgetReplies (s : State) : State :=
  s.onDict fun d => { d with last := State.reset.spindle.dict.last, reply := (0, []), resps := State.reset.spindle.dict.resps }

/-- What waits for the engine and what it answers, wiped out. -/
abbrev forgetRequests (s : State) : State := (forgetReplies s).onDict fun d => { d with reqs := State.reset.spindle.dict.reqs }

/-- What a request does that raises CORE, wiped out: the sequencers of the domains, the sideband. -/
abbrev forgetCore (s : State) : State := ({ s with doms := State.reset.doms }).onSb fun _ => {}

/-- Notices owed, wiped out: those that the keeper holds for the spindle die, the NOTICE frames owed. -/
abbrev forgetNotices (s : State) : State :=
  (s.onKeeper fun x => { x with notices := State.reset.keeper.notices }).onCan fun x => { x with notices := [] }

end Sys2Proof.Machine
end

