-- ==== Sys2Proof/Certificates/Slice0/Obligations.lean ====
section
/-! DEFINITION. The statements for the provers. -/
open Sys2Proof Sys2Proof.Machine

/-! ## Words of the whole device -/

/-- Every mode code and every life-cycle code is a word built from a 4-bit value v; each byte of the word is (v << 4) | (~v & 0xF), and the byte is repeated four times. Two words built from v and w differ in 8 bits for each bit in which v and w differ. A word is read as a mode, or as a life-cycle state, only if it equals that code exactly: no word is corrected to its nearest code. -/
def Obligations.CodeWords : Prop :=
  (∀ m : Mode, ∃ v, v < 16 ∧ modeCode m = wideCode v) ∧ (∀ l : Lc, ∃ v, v < 16 ∧ lcCode l = wideCode v) ∧
    (∀ v, v < 16 → wideCode v < 2 ^ 32 ∧ ∀ i, i < 4 → wideCode v / 256 ^ i % 256 = v * 16 + (15 - v)) ∧
    (∀ v, v < 16 → ∀ w, w < 16 → ((List.range 32).filter fun i => (wideCode v ^^^ wideCode w).testBit i).length = 8 * ((List.range 4).filter fun i => (v ^^^ w).testBit i).length) ∧
    (∀ w m, modeOf w = some m ↔ w = modeCode m) ∧ (∀ w l, lcOf w = some l ↔ w = lcCode l) ∧
    (∀ m n, modeCode m = modeCode n → m = n) ∧ (∀ k l, lcCode k = lcCode l → k = l)

/-- In every state bit 18 of mip, the RNG ready interrupt of R220, is set exactly while the FIFO holds at least RNG_IRQ_LEVEL words. -/
def Obligations.RngReadyInterrupt : Prop :=
  ∀ s : State, bit (mip s) 18 = true ↔ s.get Ent.RNG_IRQ_LEVEL ≤ s.spindle.rng.fifo.length

/-! ## The block -/

/-- For every command and state, the step of a state whose queue begins with the command is exec of that command on the state with the queue's rest. -/
def Obligations.StepRunsFront : Prop :=
  ∀ (s : State) (c : Instr) (cs : List Instr), step { s with pending := c :: cs } = exec c { s with pending := cs }

/-- On an empty queue a step answers the state unchanged. That is the model's choice (log 6), no rule of the spec. -/
def Obligations.EmptyQueueIdles : Prop :=
  ∀ s : State, s.pending = [] → step s = .next s

/-- In every state, whatever command is at the front of the queue, a step answers a next state. -/
def Obligations.EveryStepCompletes : Prop :=
  ∀ s : State, Safe s

/-- In the state after reset every dictionary entry reads its default for every user, no command waits, VDD_IN is not valid, the flyer and the spindle die are not in service, and the life-cycle word is valid and BLANK. That the part is BLANK and unpowered is the model's choice of a start (log 2, log 4). -/
def Obligations.ResetValues : Prop :=
  (∀ e u, State.reset.get e = entryDefault e ∧ State.reset.getU e u = entryDefault e) ∧
  State.reset.pending = [] ∧ State.reset.keeper.vddValid = false ∧ State.reset.flyer.up = false ∧ State.reset.spindle.alive = false ∧
  State.reset.keeper.seq = .held ∧ lcNow State.reset = .blank ∧ lcValid State.reset = true

/-- The entry store, the memories and the core's transfer buffers of the state after reset are in canonical form. -/
def Obligations.ResetCanonical : Prop :=
  Canon State.reset

/-- For every state in canonical form (entry store, code, data, capture, scratch and flash memories, transfer buffers), if a step answers a next state, that state is in canonical form. The step may be of any of the commands. -/
def Obligations.StepKeepsCanonical : Prop :=
  ∀ s t : State, Canon s → step s = .next t → Canon t

/-- For every state, if a step answers a next state, the commands waiting in it are those waiting before, without the first. -/
def Obligations.StepTakesFront : Prop :=
  ∀ s t : State, step s = .next t → t.pending = s.pending.tail

/-! ## Power and resets -/

/-- VDD_IN valid powers the flyer from its reset state. VDD_IN lost resets the flyer and the spindle die, takes the line free, lapses an armed life-cycle request and returns SERVICE_SECONDS to its committed value. A keeper power-on reset holds the spindle die in reset and forgets the keeper's volatile state; with no fuse programming under way MODE is then FAULT where the life-cycle word is invalid, FACTORY in BLANK and MAKER, RETIRED in RETIRED, and in OWNED and FIELD the base mode (R83), and MODE_SINCE is the time of start-up. NRST low starts the spindle reset sequence with cause 1 (R38, step 1); NRST high releases the die, whose loader starts. -/
def Obligations.PowerCommands : Prop :=
  ∀ (s : State),
  (∀ (mv : Nat), s.keeper.vddValid = false → Answers (.vddInValid mv) s fun t =>
      t.keeper.vddValid = true ∧ t.keeper.vddMv = mv ∧ t.flyer = flyerFresh ∧ t.spindle.alive = s.spindle.alive) ∧
  (∀ (mv : Nat), s.keeper.vddValid = true → Answers (.vddInLost mv) s fun t =>
      t.keeper.vddValid = false ∧ t.flyer = {} ∧ t.spindle.alive = false ∧ t.spindle.handed = false ∧ t.keeper.live = false ∧ t.sb.wire = none ∧
        t.keeper.lcArmed = none ∧ t.get Ent.SERVICE_SECONDS = s.keeper.savedService) ∧
  (∀ (tm : Bool), Answers (.keeperPowerOnReset tm) s fun t =>
      t.spindle.alive = false ∧ t.keeper.seq = .held ∧ t.keeper.lcArmed = none ∧ t.keeper.jobs = [] ∧ t.log.await = none ∧ t.tag = {}) ∧
  (s.keeper.seq = .released → s.flyer.up = true → Answers .nrstAssert s fun t =>
      t.keeper.nrstLow = true ∧ t.keeper.seq = .quiet 1) ∧
  (s.keeper.seq = .held → s.keeper.vddValid = true → s.keeper.live = true → domState s .core = 2 → Answers .nrstRelease s fun t =>
      t.keeper.nrstLow = false ∧ t.keeper.seq = .released ∧ t.spindle.alive = true ∧ t.spindle.loader = {}) ∧
  (∀ (tm : Bool), s.keeper.lcProgramming = none → Answers (.keeperPowerOnReset tm) s fun t =>
      (lcValid s = false → t.get Ent.MODE = modeCode .fault) ∧
      (lcValid s = true → lcNow s = .blank ∨ lcNow s = .maker → t.get Ent.MODE = modeCode .factory) ∧
      (lcValid s = true → lcNow s = .retired → t.get Ent.MODE = modeCode .retired) ∧
      (lcValid s = true → lcNow s = .owned ∨ lcNow s = .field → t.get Ent.MODE = t.get Ent.BASE_MODE) ∧
      t.get Ent.MODE_SINCE = now t)

/-! ## The sideband -/

/-- On an idle line the ready message that wins arbitration takes the wire. A message that has ended good stands in the receive buffer of its die, and one that finds 2 there is lost and counted in Q_FULL:06. A receiver that drops a message counts it, and a broadcast still reaches the other receiver. A message cut off is counted and gone. Without an ACK a message is due again after its first and second attempt, and abandoned and counted after the third. A record's retry timer makes it due. An ACK frees the line and releases its message; that of a DOMAIN message confirms the flyer domain's state. -/
def Obligations.SidebandTransport : Prop :=
  ∀ (s : State) (m : SbMsg) (d : Die) (n : Nat) (b : Bool),
  (s.sb.wire = none → sbWinner ([Die.keeper, .flyer, .spindle].filterMap (sbReady s)) = some m → Answers .sbSendStart s fun t =>
      t.sb.wire = some m) ∧
  (s.sb.wire = some m → m.src ≠ .keeper → m.dst = 0 → s.sb.keeper.rxq.length < 2 → Answers .sbSendStart s fun t =>
      t.sb.keeper.rxq = s.sb.keeper.rxq ++ [m] ∧ t.sb.wire = sbWinner ([Die.keeper, .flyer, .spindle].filterMap (sbReady (sbLand s)))) ∧
  (s.sb.wire = some m → m.src ≠ .keeper → m.dst = 0 → 2 ≤ s.sb.keeper.rxq.length → s.spindle.alive = true → Answers .sbSendStart s fun t =>
      t.sb.keeper.rxq = s.sb.keeper.rxq ∧ Counted s t (Ent.Q_FULL 6)) ∧
  (s.sb.wire = some m → m.src ≠ .keeper → m.dst = 0 → Answers (.sbMessageDropped [.keeper]) s fun t =>
      Counted s t Ent.SB_CRC_ERR_KEEP ∧ t.sb.wire = none) ∧
  (s.sb.wire = some m → m.src = .keeper → m.dst = 3 → m.ty = 0xB → Answers (.sbMessageDropped [.spindle]) s fun t =>
      Counted s t Ent.SB_CRC_ERR ∧ t.sb.wire = some { m with dst := 1 }) ∧
  (s.sb.wire = some m → m.src ≠ .keeper → m.dst = 0 → Answers (.sbMessageCutOff [.keeper]) s fun t =>
      Counted s t Ent.SB_CRC_ERR_KEEP ∧ t.sb.wire = none) ∧
  ((sbDie s d).wait = [(m, n, false)] → n < 3 → Answers (.sbAckTimeout d m.ty) s fun t =>
      (sbDie t d).wait = [(m, n, true)]) ∧
  ((sbDie s d).wait = [(m, n, false)] → 3 ≤ n → m.ty ≠ 8 → Answers (.sbAckTimeout d m.ty) s fun t =>
      (sbDie t d).wait = [] ∧ Counted s t Ent.SB_LOST) ∧
  ((sbDie s d).holdSent = true → Answers (.logWriteRetry d) s fun t =>
      (sbDie t d).holdDue = true) ∧
  (s.sb.wire = some ⟨4, .flyer, 0, [byte m.ty, 0]⟩ → s.sb.keeper.wait = [(m, n, b)] → m.ty < 16 → m.ty ≠ 3 → m.dst = 1 → s.sb.keeper.rxq = [] → s.sb.flyer.rxq = [] → s.sb.spindle.rxq = [] → Answers .ack s fun t =>
      t.sb.wire = none ∧ t.sb.keeper.wait = [] ∧
      ∀ (dom : Domain) (r : Nat), r < 3 → m.ty = 5 → m.payload = [byte (domId dom), byte r] → domState t dom = r)

/-- The message that wins arbitration is one of those sent, and no message sent has a lower header. -/
def Obligations.LowestHeaderWins : Prop :=
  ∀ (ms : List SbMsg) (m : SbMsg), sbWinner ms = some m → m ∈ ms ∧ ∀ x ∈ ms, sbHeader m ≤ sbHeader x

/-- The first LOCKUP is taken with its cause and epc, its time, RESET_CAUSE 2 and a count. The spindle die repeats LOCKUP while it is locked up. 2 ms after the first LOCKUP the reset sequence begins with cause 2, on ndmreset with cause 6. PLY_QUIET, or its time limit, resets the spindle die: RESET_CAUSE is the cause, the core is at its reset values and not handed over. -/
def Obligations.LockupAndResets : Prop :=
  ∀ (s : State) (m : SbMsg) (cause : Nat),
  (sbArrived s 0 .keeper = some m → s.keeper.lockedUp = false → Answers .lockup s fun t =>
      Taken s t .keeper ∧ t.keeper.lockedUp = true ∧ t.get Ent.LOCKUP_CAUSE = leNat (m.payload.take 4) ∧
      t.get Ent.LOCKUP_EPC = leNat ((m.payload.drop 4).take 4) ∧ t.get Ent.LOCKUP_TIME = now s ∧ t.get Ent.RESET_CAUSE = 2 ∧ Counted s t Ent.LOCKUPS) ∧
  (s.spindle.lockedUp = true → ((s.sb.spindle.txq.any fun x => x.ty == 0) = false) → roomFor s .spindle → Answers .lockupRepeatTimer s fun t =>
      Queued t .spindle 0 0 (leBytes 4 s.spindle.lockCause.toNat ++ leBytes 4 s.spindle.lockEpc.toNat)) ∧
  (s.keeper.lockedUp = true → s.keeper.seq = .released → s.flyer.up = true → Answers .lockupResetDelay s fun t =>
      t.keeper.seq = .quiet 2) ∧
  (s.spindle.alive = true → s.spindle.core.debugOpen = true → s.keeper.seq = .released → s.flyer.up = true → Answers .ndmreset s fun t =>
      t.keeper.seq = .quiet 6) ∧
  (s.keeper.seq = .quiet cause → cause ≠ 5 → cause ≠ 7 → (sbArrived s 9 .keeper).isSome = true → Answers .plyQuiet s fun t =>
      t.get Ent.RESET_CAUSE = cause ∧ t.spindle.handed = false ∧ t.spindle.core = Core.atReset) ∧
  (s.keeper.seq = .quiet cause → cause ≠ 5 → cause ≠ 7 → s.sb.keeper.txq = [] → s.sb.keeper.wait = [] → Answers .peerResetQuietTimeout s fun t =>
      t.get Ent.RESET_CAUSE = cause ∧ t.spindle.handed = false ∧ t.spindle.core = Core.atReset)

/-- BACKSTOP_ALARM gives BS_ALARM and the no-hush level. The flyer repeats it while a kind is present. HEARTBEAT gives the backstop status and the flyer's drop count and ends a loss; the flyer sends it every second from its first measurement on. Its absence sets FAULT_CAUSE bit 1 and FAULT_OUT, and RESET is sent again while it lasts. LOG_WRITE is queued and acknowledged, or rejected, counted and answered INTEGRITY where the die may not produce its type. The spindle die's HELLO is answered with PEER_RESET 1. MODE is repeated. A shadow copy that does not check sets FAULT_OUT. A DOMAIN message that is owed is sent again. -/
def Obligations.MessagesToKeeper : Prop :=
  ∀ (s : State) (m : SbMsg),
  (sbArrived s 1 .keeper = some m → Answers .backstopAlarm s fun t =>
      Taken s t .keeper ∧ t.get Ent.BS_ALARM = (m.payload.getD 0 0).toNat % 8 ∧ t.keeper.noHush = bit (m.payload.getD 0 0).toNat 3) ∧
  (s.flyer.up = true → s.flyer.bs.kinds ≠ 0 → roomFor s .flyer → Answers .backstopAlarmRepeat s fun t =>
      Queued t .flyer 1 3 [byte (backstopBits s.flyer)]) ∧
  (sbArrived s 2 .keeper = some m → Answers .heartbeat s fun t =>
      Taken s t .keeper ∧ t.keeper.hbLost = false ∧ t.get Ent.BS_STATUS = leNat ((fitBytes 14 m.payload).take 2) ∧
      t.get Ent.SB_CRC_ERR_FLY = leNat (((fitBytes 14 m.payload).drop 4).take 2)) ∧
  (s.flyer.up = true → s.flyer.res.supplyN ≠ 0 → roomFor s .flyer → Answers .heartbeatSendTimer s fun t =>
      Queued t .flyer 2 0 (heartbeatPayload t.flyer) ∧ t.flyer.bs.armed = shadowChecks s.flyer.bs) ∧
  (s.keeper.vddValid = true → s.keeper.hbLost = false → Answers .heartbeatTimeout s fun t =>
      t.keeper.hbLost = true ∧ bit (t.get Ent.FAULT_CAUSE) 1 = true ∧ faultOut t = true) ∧
  (s.keeper.hbLost = true → s.keeper.vddValid = true → roomFor s .keeper → Answers .flyerResetRepeat s fun t =>
      ∃ b, Queued t .keeper 6 1 [b]) ∧
  (sbArrived s 3 .keeper = some m → (dieTypes m.src).contains (m.payload.getD 0 0).toNat = true → (m.payload.getD 0 0).toNat ≠ 0x49 → ((s.log.queue.filter fun r => !r.keeper).length < 12) → Answers .logWrite s fun t =>
      t.log.queue = s.log.queue ++ [⟨(m.payload.getD 0 0).toNat, (m.payload.getD 1 0).toNat, fitBytes 12 (m.payload.drop 2), false⟩] ∧
        ⟨4, .keeper, dieNum m.src, [3, 0]⟩ ∈ t.sb.keeper.acks) ∧
  (sbArrived s 3 .keeper = some m → (dieTypes m.src).contains (m.payload.getD 0 0).toNat = false → Answers .logWrite s fun t =>
      t.log = s.log ∧ Counted s t Ent.LOG_REJECTED ∧ ⟨4, .keeper, dieNum m.src, [3, 10]⟩ ∈ t.sb.keeper.acks) ∧
  (sbArrived s 7 .keeper = some m → m.src = .spindle → roomFor s .keeper → s.get Ent.LOG_NEXT < 3069 → Answers .hello s fun t =>
      t.keeper.helloSeen = true ∧ t.keeper.notices = 0 ∧ Queued t .keeper 8 1 [1] ∧ ⟨4, .keeper, 2, [7, 0]⟩ ∈ t.sb.keeper.acks) ∧
  (roomFor s .keeper → Answers .modeRepeatTimer s fun t =>
      Queued t .keeper 0xB 3 (leBytes 4 (s.get Ent.MODE))) ∧
  (s.keeper.vddValid = true → backstopSetWritten s = true → s.keeper.shadowOk = false → Answers .calShadowResend s fun t =>
      t.keeper.shadowBad = true ∧ faultOut t = true) ∧
  (∀ (r : Nat), (∀ d ∈ flyerDomains, (domSeq s d).owed = if d = .horn then some r else none) → s.sb.keeper.txq = [] → s.sb.keeper.wait = [] → Answers .domainResend s fun t =>
      Queued t .keeper 5 1 [byte (domId .horn), byte r])

/-- The flyer acknowledges DOMAIN and follows its rest state, a domain below it coming up; resets on RESET and says HELLO; on PEER_RESET 0 starts no new burst and forgets queue 01, on PEER_RESET 1 may burst again; takes a block of CAL_SHADOW and is armed exactly while its copy checks. CAPTURE_READY wakes CORE with CODE and DATA, CAPT and PLY_S. MODE and TIME set the copies of both dies. -/
def Obligations.MessagesToDies : Prop :=
  ∀ (s : State) (m : SbMsg), s.flyer.up = true →
  (sbArrived s 5 .flyer = some m → Answers .domain s fun t =>
      Taken s t .flyer ∧ ⟨4, .flyer, dieNum m.src, [5, 0]⟩ ∈ t.sb.flyer.acks ∧
      ∀ d r, isFlyerDom d = true → r < 3 → s.flyer.doms.length = 7 → m.payload = [byte (domId d), byte r] →
        restNow t d = r ∧ domNow t d = if domNow s d < 2 ∧ domNow s d < r ∨ domNow s d = 3 ∧ (domSeq s d).target < r then 4 else domNow s d) ∧
  (sbArrived s 6 .flyer = some m → Answers .reset s fun t =>
      t.sb.wire = (sbLift s .flyer).sb.wire ∧ t.flyer = { flyerFresh with sense := { pulse := (pulseCut s.flyer.sense).pulse } } ∧
      t.sb.flyer = { txq := [⟨7, .flyer, 0, [1, m.payload.getD 0 0]⟩] }) ∧
  (sbArrived s 8 .flyer = some m → m.payload = [0] → Answers .peerReset s fun t =>
      t.flyer.mayBurst = false ∧ t.flyer.horn.queue = [] ∧ (plyState s = 0 → roomFor s .flyer → Queued t .flyer 9 0 []) ∧ ⟨4, .flyer, dieNum m.src, [8, 0]⟩ ∈ t.sb.flyer.acks) ∧
  (sbArrived s 8 .flyer = some m → m.payload = [1] → Answers .peerReset s fun t =>
      t.flyer.mayBurst = true ∧ t.flyer.quietOwed = false ∧ t.flyer.horn = s.flyer.horn) ∧
  (sbArrived s 0xA .spindle = some m → (∀ d ∈ [Domain.core, .code, .data, .capt, .plyS], domState s d = 1) → Answers .captureReady s fun t =>
      Taken s t .spindle ∧ (∀ d ∈ [Domain.core, .code, .data, .capt, .plyS], domState t d = 4) ∧ t.get (Ent.LAST_WAKE (domId .core)) = 0x0B) ∧
  (∀ (k : Mode), s.sb.wire = some m → m.src = .keeper → m.ty = 0xB → m.dst = 3 → s.sb.flyer.rxq = [] → s.sb.spindle.rxq = [] → s.spindle.alive = true → modeOf (leNat m.payload) = some k → Answers .mode s fun t =>
      t.sb.wire = none ∧ t.flyer.mode = some k ∧ t.spindle.mode = some k) ∧
  (s.sb.wire = some m → m.src = .keeper → m.ty = 0xC → m.dst = 3 → s.sb.keeper.rxq = [] → s.sb.flyer.rxq = [] → s.sb.spindle.rxq = [] → s.spindle.alive = true → Answers .time s fun t =>
      t.sb.wire = none ∧ t.flyer = { s.flyer with rtc := some (leNat m.payload) } ∧ t.spindle = { s.spindle with rtc := some (leNat m.payload) }) ∧
  (sbArrived s 0xD .flyer = some m → (m.payload.getD 0 0).toNat < s.flyer.bs.blocks.length → Answers .calShadow s fun t =>
      t.flyer.bs.blocks = s.flyer.bs.blocks.set (m.payload.getD 0 0).toNat (some (fitBytes 24 (m.payload.drop 1))) ∧
      t.flyer.bs.armed = shadowChecks t.flyer.bs ∧ ⟨4, .flyer, dieNum m.src, [0xD, 0]⟩ ∈ t.sb.flyer.acks)

/-! ## The ply link -/

/-- From OFF, with both ends of the link ON, a request of the flyer and one of the spindle die wakes the link, counts a burst and carries the buffered measurement unless it can no longer be delivered, CAPT_HELD keeps it back or a reset of the spindle die is announced; with PLY_F at rest the flyer's request stays asserted and brings PLY_F up; with PLY_S not ON the flyer sends CAPTURE_READY. The start marker makes the link ACTIVE; a lane that does not find it abandons the burst. A request in ACTIVE joins the burst and brings the measurement; one in DRAINING makes the link ACTIVE again, its lanes not ended. An END is sent once the lane's data is acknowledged; when the END of every lane is acknowledged the link drains, and after 4 flit times it is OFF. A retry timeout sends the lane again from its oldest unacknowledged flit, and after three retransmissions of that flit abandons the burst. -/
def Obligations.PlyBursts : Prop :=
  ∀ (s : State) (lane : Lane),
  (plyState s = 0 → s.flyer.up = true → s.flyer.mayBurst = true → plyOn s = true → Answers (.plyBurstRequest true) s fun t =>
      t.get Ent.PLY_STATE = 1 ∧ Counted s t Ent.PLY_BURSTS ∧ t.ply.carry = mayCarry s ∧ t.ply.reqFlyer = true ∧ t.ply.f2s0 = {} ∧ t.ply.f2s1 = {} ∧ t.ply.s2f = {}) ∧
  (plyState s = 0 → plyOn s = true → Answers (.plyBurstRequest false) s fun t =>
      t.get Ent.PLY_STATE = 1 ∧ Counted s t Ent.PLY_BURSTS ∧ t.ply.carry = mayCarry s ∧ t.ply.reqSpindle = true) ∧
  (plyState s = 0 → s.flyer.up = true → s.flyer.mayBurst = true → plySOn s = true → domNow s .plyF < 2 → Answers (.plyBurstRequest true) s fun t =>
      t.get Ent.PLY_STATE = 0 ∧ t.ply.reqFlyer = true ∧ domNow t .plyF = 4) ∧
  (∀ (x : Measurement), plyState s = 0 → s.flyer.up = true → s.flyer.mayBurst = true → plySOn s = false → s.ply.waiting = false → s.flyer.sense.buf = some x → roomFor s .flyer → Answers (.plyBurstRequest true) s fun t =>
      t.get Ent.PLY_STATE = 0 ∧ t.ply.waiting = true ∧ Queued t .flyer 0xA 2 (leBytes 2 x.tag)) ∧
  (plyState s = 1 → Answers .plyStartMarkerAligned s fun t =>
      t = s.put Ent.PLY_STATE 2) ∧
  (plyState s = 1 → Answers (.plyWakeTimeout [lane]) s fun t =>
      t.get Ent.PLY_STATE = 0 ∧ Counted s t Ent.PLY_ABANDONED ∧ t.ply.carry = false ∧ (s.ply.carry = true → t.flyer.sense.buf = none)) ∧
  (plyState s = 2 → Answers (.plyBurstRequest true) s fun t =>
      t.get Ent.PLY_STATE = 2 ∧ t.ply.reqFlyer = true ∧ t.ply.carry = (s.ply.carry || mayCarry s) ∧ t.ply.f2s0.ended = false ∧ t.ply.f2s1.ended = false) ∧
  (plyState s = 3 → Answers (.plyBurstRequest false) s fun t =>
      t.get Ent.PLY_STATE = 2 ∧ t.ply.reqSpindle = true ∧ t.ply.s2f.ended = false ∧ t.ply.f2s0 = s.ply.f2s0 ∧ t.ply.f2s1 = s.ply.f2s1) ∧
  (fresh s lane = true → laneDrained s lane = true → (laneOf s.ply lane).out = [] → Answers (.plyEndFlit lane) s fun t =>
      (laneOf t.ply lane).ended = true ∧ (laneOf t.ply lane).recv = (laneOf s.ply lane).recv + 1 ∧ (laneOf t.ply lane).out.map (·.ty) = [5] ∧
      t.get Ent.PLY_STATE = 2) ∧
  (plyState s = 2 → s.ply.s2f.next = s.ply.s2f.recv → s.ply.s2f.ended = true → s.ply.s2f.out = [] → s.ply.f2s0.ended = true → s.ply.f2s1.ended = true → s.ply.f2s0.sentTo ≤ s.ply.f2s0.recv → s.ply.f2s1.sentTo ≤ s.ply.f2s1.recv → Answers (.plyIdleFlit .s2f) s fun t =>
      t.get Ent.PLY_STATE = 3 ∧ t.ply.f2s0.out = [] ∧ t.ply.f2s1.out = []) ∧
  (plyState s = 3 → Answers .plyDrainExpiry s fun t =>
      t.get Ent.PLY_STATE = 0 ∧ t.ply.reqFlyer = false ∧ t.ply.reqSpindle = false) ∧
  (plyState s = 2 → (laneOf s.ply lane).out ≠ [] → (laneOf s.ply lane).retries < 3 → Answers (.plyRetryTimeout lane) s fun t =>
      Counted s t Ent.PLY_RETRIES ∧ (laneOf t.ply lane).next = (laneOf s.ply lane).acked ∧ (laneOf t.ply lane).out = (laneOf s.ply lane).out ∧
      (laneOf t.ply lane).retries = (laneOf s.ply lane).retries + 1) ∧
  (plyState s = 2 → (laneOf s.ply lane).out ≠ [] → 3 ≤ (laneOf s.ply lane).retries → Answers (.plyRetryTimeout lane) s fun t =>
      t.get Ent.PLY_STATE = 0 ∧ Counted s t Ent.PLY_ABANDONED ∧ t.ply.carry = false)

/-- A good flit of an ACTIVE link is counted and moves its lane's receiver on by one; an IDLE flit moves no receiver and acknowledges what the reverse lanes have received; a discarded flit is counted as sent and moves no receiver, and one with a bad CRC is counted as such. A CAPTURE flit of a carried measurement writes its 16 samples at its place in capture SRAM and no other byte; the last one sets CAPT_HELD and OPT_CAPT_TAG, and the flyer lets go of the measurement when its last CAPTURE flits are acknowledged. A COMMAND flit sets its register of the flyer. A HORN flit moves its commands to queue 01, or the kinds of op 0x04 to their slot. CAPT_HELD is written as given. -/
def Obligations.PlyFlits : Prop :=
  ∀ (s : State) (lane : Lane),
  (plyState s = 2 ∨ plyState s = 3 → (laneOf s.ply lane).next = (laneOf s.ply lane).recv → Answers (.plyIdleFlit lane) s fun t =>
      Counted s t Ent.PLY_FLITS ∧ (laneOf t.ply lane).recv = (laneOf s.ply lane).recv ∧
      (if lane = .s2f then t.ply.f2s0.acked = max s.ply.f2s0.acked s.ply.f2s0.recv ∧ t.ply.f2s1.acked = max s.ply.f2s1.acked s.ply.f2s1.recv
       else t.ply.s2f.acked = max s.ply.s2f.acked s.ply.s2f.recv)) ∧
  (∀ (why : Discard), plyState s = 2 ∨ plyState s = 3 → Answers (.plyFlitDiscarded lane (why, .idle)) s fun t =>
      Counted s t Ent.PLY_FLITS ∧ (laneOf t.ply lane).recv = (laneOf s.ply lane).recv ∧
      (if why = .crc then Counted s t Ent.PLY_CRC_ERR else t.get Ent.PLY_CRC_ERR = s.get Ent.PLY_CRC_ERR)) ∧
  (∀ (why : Discard) (k : FlitKind), k ≠ .idle → plyState s = 2 → (nextFlit s lane k).isSome = true → Answers (.plyFlitDiscarded lane (why, k)) s fun t =>
      Counted s t Ent.PLY_FLITS ∧ (laneOf t.ply lane).recv = (laneOf s.ply lane).recv ∧ (laneOf t.ply lane).next = (laneOf s.ply lane).next + 1 ∧
      (if why = .crc then Counted s t Ent.PLY_CRC_ERR else t.get Ent.PLY_CRC_ERR = s.get Ent.PLY_CRC_ERR)) ∧
  (∀ (x : Measurement) (k addr : Nat), fresh s lane = true → lane ≠ .s2f → s.flyer.sense.buf = some x → s.ply.carry = true → k = (laneOf s.ply lane).data → k < 256 → addr = (k / 128 * 2 + laneNum lane) * 0x1000 + k % 128 * 32 → Answers (.plyCaptureFlit lane) s fun t =>
      (laneOf t.ply lane).data = k + 1 ∧ (laneOf t.ply lane).recv = (laneOf s.ply lane).recv + 1 ∧ Counted s t Ent.PLY_FLITS ∧
      (∀ j, j < 16 → leNat (t.spindle.mem.capt.getAll (addr + 2 * j) 2) = (laneCapture x.caps lane k).getD (k % 128 * 16 + j) 0 % 4096) ∧
      (∀ a, a < addr ∨ addr + 32 ≤ a → t.spindle.mem.capt.get a = s.spindle.mem.capt.get a)) ∧
  (∀ (x : Measurement), fresh s .f2s1 = true → s.flyer.sense.buf = some x → s.ply.carry = true → s.ply.f2s0.got = 256 → s.ply.f2s1.got = 255 → s.ply.f2s1.data = 255 → Answers (.plyCaptureFlit .f2s1) s fun t =>
      t.get Ent.CAPT_HELD = 1 ∧ t.get Ent.OPT_CAPT_TAG = x.tag ∧ t.ply.written = true ∧ t.flyer.sense.buf = some x) ∧
  (plyState s = 2 → s.ply.s2f.next = s.ply.s2f.recv → s.ply.written = true → s.ply.f2s0.sentTo ≤ s.ply.f2s0.recv → s.ply.f2s1.sentTo ≤ s.ply.f2s1.recv → Answers (.plyIdleFlit .s2f) s fun t =>
      t.flyer.sense.buf = none ∧ t.ply.carry = false ∧ t.ply.written = false ∧ (t.flyer.res.opt.map (·.offered)) = s.flyer.res.opt.map (fun _ => false)) ∧
  (∀ (reg val : Nat), fresh s .s2f = true → reg < 256 → val < 2 ^ 32 → Answers (.plyCommandFlit reg val) s fun t =>
      sparseGet 0 reg t.flyer.regs = val ∧ Counted s t Ent.PLY_FLITS ∧ t.ply.s2f.recv = s.ply.s2f.recv + 1) ∧
  (∀ (cs : List HornCmd) (rest : List (List HornCmd)), fresh s .s2f = true → s.ply.kinds = none → s.ply.q = cs :: rest → cs.length ≤ 3 → (∀ c ∈ cs, c.op < 256 ∧ c.op ≠ 4 ∧ c.arg < 256 ∧ c.onMs < 65536 ∧ c.offMs < 65536 ∧ c.reps < 256) → s.flyer.horn.queue.length ≤ 8 → Answers .plyHornFlit s fun t =>
      t.ply.q = rest ∧ t.flyer.horn.queue = (s.flyer.horn.queue ++ cs).take 8 ∧ t.ply.s2f.recv = s.ply.s2f.recv + 1) ∧
  (∀ (fw rel : Nat), fresh s .s2f = true → s.ply.kinds = some (fw, rel) → fw < 8 → rel < 8 → Answers .plyHornFlit s fun t =>
      t.ply.kinds = none ∧ t.ply.q = s.ply.q ∧ t.flyer.horn.fwKinds = some fw ∧ t.flyer.horn.relKinds = rel ∧ t.ply.s2f.recv = s.ply.s2f.recv + 1) ∧
  (∀ (u : User) (v : Nat), v < 256 → accepts s (numReq u Ent.CAPT_HELD v) = true → Serves (.captHeldWrite u v) s (numReq u Ent.CAPT_HELD v) (s.put Ent.CAPT_HELD v) Sc.ok)

/-- With the link ACTIVE and the result unit free a STATUS flit on a lane from the flyer, of a pending result whose fields fit its payload, empties the kind's pending slot and fills the result's entries: tag, time, sums, references, flags and count of an optical result; code, temperature, time and flags of a heat result; code, current, ppm, time and flags of a CO result, with the pulse it carries; code, voltage, time and flags of an auxiliary result; voltage, temperatures and time of a supply result; the level of queue 01 and the commands it discarded. -/
def Obligations.StatusResults : Prop :=
  ∀ (s : State) (lane : Lane), fresh s lane = true → lane ≠ .s2f → s.spindle.stq.length < 4 → plyHolds s = false →
  (∀ (r : OptResult), s.flyer.res.opt = some r → (Flight.opt r).fit = .opt r → Answers (.statusOptical lane) s fun t =>
      t.flyer.res.opt = none ∧ t.get Ent.OPT_TAG = r.tag ∧ t.get Ent.OPT_TIME = r.tick ∧ t.getS Ent.OPT_S_IR = satSigned 32 r.sIr ∧
      t.get Ent.OPT_REF_BL = r.rBl ∧ t.get Ent.OPT_DARK = r.dark ∧ t.get Ent.OPT_FLAGS = optFlags s r ∧ Counted s t Ent.OPT_COUNT) ∧
  (∀ (r : CodeResult) (x : Frac), s.flyer.res.heat = some r → (Flight.heat r).fit = .heat r → heatTemp s r.code.toNat = some x → Answers (.statusHeat lane) s fun t =>
      t.flyer.res.heat = none ∧ t.get Ent.HEAT_CODE = r.code.toNat ∧ t.getS Ent.HEAT_TEMP = satSigned 32 (f32Of x) ∧ t.get Ent.HEAT_TIME = r.tick ∧
      t.get Ent.HEAT_FLAGS = heatFlags s r.code.toNat ∧ Counted s t Ent.HEAT_COUNT) ∧
  (∀ (r : CodeResult), s.flyer.res.heat = some r → (Flight.heat r).fit = .heat r → heatTemp s r.code.toNat = none → Answers (.statusHeat lane) s fun t =>
      t.flyer.res.heat = none ∧ t.get Ent.HEAT_CODE = r.code.toNat ∧ t.get Ent.HEAT_TEMP = 0 ∧ bit (t.get Ent.HEAT_FLAGS) 3 = true ∧ t.spindle.temps = s.spindle.temps) ∧
  (∀ (r : CoResult), s.flyer.res.co = some r → (Flight.co r).fit = .co r → Answers (.statusCo lane) s fun t =>
      t.flyer.res.co = none ∧ t.getS Ent.CO_CODE = satSigned 32 r.code ∧ t.getS Ent.CO_CURRENT = satSigned 32 (f32Of (coCurrent r.code)) ∧
      t.getS Ent.CO_PPM = satSigned 32 (f32Opt (coPpm s r.code)) ∧ t.get Ent.CO_TIME = r.tick ∧ t.get Ent.CO_FLAGS = coFlags s r ∧
      (bit r.flags 7 = true → t.get Ent.CO_PULSE_TIME = r.stepAt ∧ t.get Ent.CO_PULSE_PASS = if pulsePasses s r.di then 1 else 0) ∧
      (bit r.flags 7 = false → t.get Ent.CO_PULSE_TIME = s.get Ent.CO_PULSE_TIME)) ∧
  (∀ (r : CodeResult), s.flyer.res.aux = some r → (Flight.aux r).fit = .aux r → Answers (.statusAux lane) s fun t =>
      t.flyer.res.aux = none ∧ t.getS Ent.AIN_CODE = satSigned 32 r.code ∧ t.getS Ent.AIN_MV = satSigned 32 (f32Of (ainMv s r.code)) ∧
      t.get Ent.AIN_TIME = r.tick ∧ t.get Ent.AIN_FLAGS = ainFlags s r) ∧
  (∀ (r : SupplyResult), s.flyer.res.supply = some r → (Flight.supply r).fit = .supply r → Answers (.statusSupply lane) s fun t =>
      t.flyer.res.supply = none ∧ t.get Ent.VDD_NOW = vddSum s r.vdd ∧ t.getS (Ent.DIE_TEMP 2) = satSigned 32 (tempF32 r.flyerT) ∧
      t.getS (Ent.DIE_TEMP 3) = satSigned 32 (tempF32 r.keeperT) ∧ t.get Ent.SUPPLY_TIME = r.tick) ∧
  (∀ (r : QueueReport), s.flyer.res.queues = some r → (Flight.queues r).fit = .queues r → Answers (.statusQueues lane) s fun t =>
      t.flyer.res.queues = none ∧ t.get Ent.HORN_QUEUE = r.level ∧ t.get (Ent.Q_LEVEL 1) = r.level ∧ t.spindle.freed = r.removed ∧
      t.spindle.placed = (if r.mark then 0 else s.spindle.placed) ∧ t.spindle.dropSeen = r.discarded)

/-! ## Sensing -/

/-- While the flyer runs and is not retired, a measurement that falls due starts, with the time the flyer knows as its tick time, and raises the domain of its sensor; one whose sensor is busy waits. An optical measurement takes an accepted request with it. The CO tick counts only while CO_ENABLE is 1, the auxiliary tick only with a period. Each second the dies in service read their temperatures and the flyer its clock, and a reading out of range begins the monitor's condition. -/
def Obligations.MeasurementTicks : Prop :=
  ∀ (s : State), schedules s = true →
  (∀ (mv : Nat), s.flyer.sense.opt = none → Answers (.optMeasurementTick mv) s fun t =>
      t.flyer.sense.opt = some ⟨s.flyer.sense.reqAccepted, flyerTime s, mv⟩ ∧ t.flyer.sense.reqAccepted = false ∧
      (s.flyer.sense.reqAccepted = true → t.flyer.sense.reqBegan = some s.keeper.aon) ∧ (domNow s .opt < 2 → domNow t .opt = 4)) ∧
  (∀ (mv : Nat), s.flyer.sense.opt.isSome = true → Answers (.optMeasurementTick mv) s fun t =>
      t.flyer.sense = { s.flyer.sense with optWaiting := some mv }) ∧
  (Answers .heatMeasurementTick s fun t =>
      if s.flyer.sense.heat.isSome = true then t.flyer.sense = { s.flyer.sense with heatWait := true }
      else t.flyer.sense = { s.flyer.sense with heat := some (flyerTime s), heatWait := false } ∧ (domNow s .heat < 2 → domNow t .heat = 4)) ∧
  (s.get Ent.CO_ENABLE = 1 → Answers .coMeasurementTick s fun t =>
      if s.flyer.sense.co.isSome = true then t.flyer.sense = { s.flyer.sense with coWait := true }
      else t.flyer.sense = { s.flyer.sense with co := some (flyerTime s), coWait := false }) ∧
  (s.get Ent.AIN_PERIOD ≠ 0 → Answers .ainMeasurementTick s fun t =>
      if s.flyer.sense.aux.isSome = true then t.flyer.sense = { s.flyer.sense with auxWait := true }
      else t.flyer.sense = { s.flyer.sense with aux := some (flyerTime s), auxWait := false }) ∧
  (∀ (a f k : Int) (hz : Nat), s.flyer.up = true → Answers (.dieTempTick a f k hz) s fun t =>
      t.get Ent.CLK_FLY_MEAS = hz ∧ t.flyer.sense = { s.flyer.sense with flyerT := dieReading s 2 f, keeperT := dieReading s 3 k } ∧
      (s.spindle.alive = true → domState s .core = 2 → t.getS (Ent.DIE_TEMP 1) = satSigned 32 (tempF32 (dieReading s 1 a))) ∧
      (dieReading s 3 k < -450 ∨ 1100 < dieReading s 3 k → (0x44, 0x30) ∈ t.log.active))

/-- At its end a measurement leaves its result in the kind's pending slot, the backstop evaluates it, and a measurement that waited starts. An optical result is offered with its captures in the buffer unless CAPT_HELD keeps them back, or its mode offers none; the supply result goes with it. The CO integrity pulse restores after 1 s, keeping its peak, and has settled after 60 s. -/
def Obligations.MeasurementResults : Prop :=
  ∀ (s : State),
  (∀ (run : OptRun) (caps : Captures) (led : Bool) (mv : Nat), s.flyer.sense.opt = some run → Answers (.optMeasurementComplete caps led mv) s fun t =>
      t.flyer.res.opt = some (if optOffered s run.requested && !captHeld s then formOpt s (integralsOf s caps) led run mv
          else undelivered (formOpt s (integralsOf s caps) led run mv)) ∧
      (optOffered s run.requested = true → t.flyer.sense.buf = some ⟨s.flyer.sense.tag, caps, captHeld s⟩) ∧
      t.flyer.res.supply = some ⟨run.vdd, s.flyer.sense.flyerT, s.flyer.sense.keeperT, s.flyer.res.supplyN % 256, run.tick⟩ ∧
      t.flyer.sense.tag = (s.flyer.sense.tag + 1) % 65536 ∧ t.flyer.sense.loadedRaw = mv ∧
      t.flyer.bs.kinds = (evalOptical s.flyer.bs (integralsOf s caps)).kinds ∧
      t.flyer.sense.opt = if schedules s then s.flyer.sense.optWaiting.map (fun v => ⟨s.flyer.sense.reqAccepted, flyerTime s, v⟩) else none) ∧
  (∀ (tick code : Nat), s.flyer.sense.heat = some tick → Answers (.heatConversionComplete code) s fun t =>
      t.flyer.res.heat = some ⟨code, (if 65000 ≤ code then 1 else 0) + (if code ≤ 1000 then 2 else 0), s.flyer.res.heatN % 256, tick⟩ ∧
      t.flyer.bs.heat = (evalHeat s.flyer.bs code).heat ∧ t.flyer.bs.kinds = (evalHeat s.flyer.bs code).kinds ∧
      t.flyer.sense.heat = if s.flyer.sense.heatWait && schedules s then some (flyerTime s) else none) ∧
  (∀ (tick : Nat) (code : Int), s.flyer.sense.co = some tick → Answers (.coConversionComplete code) s fun t =>
      t.flyer.res.co = some (formCo s code tick) ∧ t.flyer.sense.pulseResult = none ∧
      t.flyer.bs.dose = (if coOn s then (evalCo s.flyer.bs code (pulsing s)).dose else s.flyer.bs.dose) ∧
      t.flyer.sense.co = if s.flyer.sense.coWait && schedules s && coOn s then some (flyerTime s) else none) ∧
  (∀ (tick : Nat) (code : Int), s.flyer.sense.aux = some tick → Answers (.ainConversionComplete code) s fun t =>
      t.flyer.res.aux = some ⟨code, if code ≤ -8388608 ∨ 8388607 ≤ code then 1 else 0, s.flyer.res.auxN % 256, tick⟩ ∧
      t.flyer.sense.aux = if s.flyer.sense.auxWait && schedules s then some (flyerTime s) else none) ∧
  (∀ (tick peak : Nat), s.flyer.sense.pulse = .step tick → Answers (.coPulseRestore peak) s fun t =>
      t.flyer.sense = { s.flyer.sense with pulse := .settling, pulseResult := some (peak, tick) }) ∧
  (s.flyer.sense.pulse = .settling → Answers .coPulseSettleEnd s fun t =>
      t.flyer.sense = { s.flyer.sense with pulse := .idle })

/-- An accepted OPT_REQUEST or CO_PULSE does what its status says: with OK the request is accepted, the pulse steps with GAS brought up. CO_ENABLE, AIN_PERIOD, a factory-calibration entry and a delta are handed to the keeper. Committed, CO_ENABLE and AIN_PERIOD hold what was written, and their channel's first measurement is due at once; a factory-calibration entry takes its one write, and its completion of the backstop set stores the shadow CRC; a delta rewrites its row with a count and a CRC. -/
def Obligations.SensingWrites : Prop :=
  ∀ (s : State) (u : User) (v : Nat),
  (accepts s (numReq u Ent.OPT_REQUEST v) = true → Serves (.optRequest u v) s (numReq u Ent.OPT_REQUEST v)
      (if optRequestStatus s = Sc.ok then s.onSense fun x => { x with reqAccepted := true } else s) (optRequestStatus s)) ∧
  (accepts s (numReq u Ent.CO_PULSE v) = true → Serves (.coPulse u v) s (numReq u Ent.CO_PULSE v)
      (if pulseStatus s = Sc.ok then (rise s .gas).onSense fun x => { x with pulse := .step (flyerTime s) } else s) (pulseStatus s)) ∧
  (v < 256 → accepts s (numReq u Ent.CO_ENABLE v) = true → Starts (.coEnableWrite u v) s (numReq u Ent.CO_ENABLE v) Ent.CO_ENABLE v) ∧
  (v < 256 → Commits s (numReq u Ent.CO_ENABLE v) Ent.CO_ENABLE v fun t =>
      t.get Ent.CO_ENABLE = v ∧ Ent.CO_ENABLE ∈ t.keeper.written ∧
      (v = 1 → s.get Ent.CO_ENABLE ≠ 1 → schedules s = true → s.flyer.sense.co = none → t.flyer.sense.co = some (flyerTime s))) ∧
  (v < 65536 → accepts s (numReq u Ent.AIN_PERIOD v) = true → Starts (.ainPeriodWrite u v) s (numReq u Ent.AIN_PERIOD v) Ent.AIN_PERIOD v) ∧
  (v < 65536 → Commits s (numReq u Ent.AIN_PERIOD v) Ent.AIN_PERIOD v fun t =>
      t.get Ent.AIN_PERIOD = v ∧
      (v ≠ 0 → s.get Ent.AIN_PERIOD = 0 → schedules s = true → s.flyer.sense.aux = none → t.flyer.sense.aux = some (flyerTime s))) ∧
  (∀ (idx sub : Nat) (x : Bytes), (rowAt idx sub).map (·.cls) = some .f → (rowAt idx sub).map (·.action) = some false → accepts s (writeReq u idx sub x) = true → Starts (.calFactoryWrite u idx sub x) s (writeReq u idx sub x) (entAt idx sub) (leNat x)) ∧
  (∀ (idx sub : Nat) (x : Bytes), (rowAt idx sub).map (·.cls) = some .f → Commits s (writeReq u idx sub x) (entAt idx sub) (leNat x) fun t =>
      t.get (entAt idx sub) = leNat x ∧ entAt idx sub ∈ t.keeper.written ∧
      (backstopSetWritten s = false → backstopSetWritten t = true → t.get Ent.BS_SHADOW_CRC = crc16 (shadowImage t))) ∧
  (∀ (idx sub : Nat) (x : Bytes), isDelta (entAt idx sub) = true → accepts s (writeReq u idx sub x) = true → Starts (.calDeltaWrite u idx sub x) s (writeReq u idx sub x) (entAt idx sub) (leNat x)) ∧
  (∀ (idx sub : Nat) (x : Bytes), idx < 65536 → sub < 256 → isDelta (entAt idx sub) = true → Commits s (writeReq u idx sub x) (entAt idx sub) (leNat x) fun t =>
      t.keeper.calRows = s.keeper.calRows.set (deltaRow (entAt idx sub)) (calRewrite (calRow s (deltaRow (entAt idx sub))) [(sub, toSigned (8 * entrySize (entAt idx sub)) (leNat x))]))

/-! ## Modes -/

/-- With no backstop alarm present, an accepted write of MODE_REQUEST that a row of R84 allows from the current mode leads to the mode it names, answers OK and sets MODE_SINCE; SUPERVISE leads to the base mode, or out of HUSH where the alarms lead. HUSH sets HUSH_LEFT and counts; SELFTEST begins step 1. A refused hush changes no mode, is counted and answers STATE. -/
def Obligations.ModeRequests : Prop :=
  ∀ (s : State) (u : User), s.get Ent.BS_ALARM = 0 →
  (accepts s (numReq u Ent.MODE_REQUEST (modeCode .calibrate)) = true → requestTo s u .calibrate = some .calibrate → Answers (.modeRequestCalibrate u) s fun t =>
      t.get Ent.MODE = modeCode .calibrate ∧ t.getU Ent.LAST_STATUS u = Sc.ok ∧ t.get Ent.MODE_SINCE = now s) ∧
  (accepts s (numReq u Ent.MODE_REQUEST (modeCode .factory)) = true → requestTo s u .factory = some .factory → Answers (.modeRequestFactory u) s fun t =>
      t.get Ent.MODE = modeCode .factory ∧ t.getU Ent.LAST_STATUS u = Sc.ok ∧ t.get Ent.MODE_SINCE = now s) ∧
  (∀ (k : Mode), accepts s (numReq u Ent.MODE_REQUEST (modeCode .supervise)) = true → modeIs s .supervise = false → requestTo s u .supervise = some k → Answers (.modeRequestSupervise u) s fun t =>
      t.getU Ent.LAST_STATUS u = Sc.ok ∧ t.get Ent.MODE_SINCE = now s ∧
      (if modeIs s .hush then t.get Ent.MODE = modeCode (afterAlarm s) else t.get Ent.MODE = t.get Ent.BASE_MODE)) ∧
  (accepts s (numReq u Ent.MODE_REQUEST (modeCode .commission)) = true → requestTo s u .commission = some .commission → Answers (.modeRequestCommission u) s fun t =>
      t.get Ent.MODE = modeCode .commission ∧ t.getU Ent.LAST_STATUS u = Sc.ok ∧ t.get Ent.MODE_SINCE = now s) ∧
  (accepts s (numReq u Ent.MODE_REQUEST (modeCode .verify)) = true → requestTo s u .verify = some .verify → Answers (.modeRequestVerify u) s fun t =>
      t.get Ent.MODE = modeCode .verify ∧ t.getU Ent.LAST_STATUS u = Sc.ok ∧ t.get Ent.MODE_SINCE = now s) ∧
  (accepts s (numReq u Ent.MODE_REQUEST (modeCode .alarm)) = true → requestTo s u .alarm = some .alarm → Answers (.modeRequestAlarm u) s fun t =>
      t.get Ent.MODE = modeCode .alarm ∧ t.getU Ent.LAST_STATUS u = Sc.ok ∧ t.get Ent.MODE_SINCE = now s ∧ Counted s t Ent.ALARM_COUNT) ∧
  (accepts s (numReq u Ent.MODE_REQUEST (modeCode .hush)) = true → requestTo s u .hush = some .hush → Answers (.modeRequestHush u) s fun t =>
      t.get Ent.MODE = modeCode .hush ∧ t.getU Ent.LAST_STATUS u = Sc.ok ∧ t.get Ent.HUSH_LEFT = 600 ∧ Counted s t Ent.HUSH_COUNT) ∧
  (accepts s (numReq u Ent.MODE_REQUEST (modeCode .hush)) = true → modeIn s [.alarm, .echo] = true → hushRefused s = true → Serves (.modeRequestHush u) s (numReq u Ent.MODE_REQUEST (modeCode .hush)) (s.bump Ent.HUSH_REFUSED) Sc.state) ∧
  (accepts s (numReq u Ent.MODE_REQUEST (modeCode .selftest)) = true → requestTo s u .selftest = some .selftest → Answers (.modeRequestSelftest u) s fun t =>
      t.get Ent.MODE = modeCode .selftest ∧ t.getU Ent.LAST_STATUS u = Sc.ok ∧ t.keeper.st.step = 1 ∧ t.keeper.st.trigger = 2 ∧ Counted s t Ent.ST_RUNS)

/-- A press of TEST_BTN hushes an alarm, is counted where the hush is refused, and starts a self-test from a base mode; a hold opens COMMISSION. VERIFY and COMMISSION end in the base mode, and the first end of COMMISSION sets COMMISSIONED_AT and starts SERVICE_SECONDS. HUSH ends where the alarms lead. End of life makes the base mode END_OF_LIFE. A due self-test starts from a base mode and otherwise waits. A write to FAULT_CAUSE is handed to the keeper, and its commit clears the bits written; FAULT_REQUEST sets its bit. ALARM_FW, and the relayed kinds without a BEACON, take their values. -/
def Obligations.ModeEvents : Prop :=
  ∀ (s : State) (u : User) (v : Nat),
  (modeIn s [.alarm, .echo] = true → hushRefused s = false → Answers .testBtnPress s fun t =>
      t.get Ent.MODE = modeCode .hush ∧ t.get Ent.HUSH_LEFT = 600 ∧ Counted s t Ent.HUSH_COUNT) ∧
  (modeIn s [.alarm, .echo] = true → hushRefused s = true → Answers .testBtnPress s fun t =>
      t.get Ent.MODE = s.get Ent.MODE ∧ Counted s t Ent.HUSH_REFUSED ∧ t.flyer.horn.refused = some 0) ∧
  (modeIn s [.supervise, .fault, .endOfLife] = true → s.get Ent.BS_ALARM = 0 → Answers .testBtnPress s fun t =>
      t.get Ent.MODE = modeCode .selftest ∧ t.keeper.st.step = 1 ∧ t.keeper.st.trigger = 1) ∧
  (modeIn s [.supervise, .fault] = true → lcNow s = .owned ∨ lcNow s = .field → s.get Ent.BS_ALARM = 0 → Answers .testBtnHold s fun t =>
      t.get Ent.MODE = modeCode .commission) ∧
  (modeIs s .verify = true → s.get Ent.BS_ALARM = 0 → Answers .verifyTimeout s fun t =>
      t.get Ent.MODE = modeCode (baseMode s)) ∧
  (modeIs s .commission = true → s.get Ent.BS_ALARM = 0 → Answers .commissionTimeout s fun t =>
      t.get Ent.MODE = t.get Ent.BASE_MODE ∧
      (lcNow s = .owned ∨ lcNow s = .field → s.get Ent.COMMISSIONED_AT = 0 → t.get Ent.COMMISSIONED_AT = now s ∧ t.get Ent.SERVICE_SECONDS = 0)) ∧
  (modeIs s .hush = true → Answers .hushExpiry s fun t =>
      t.get Ent.MODE = modeCode (afterAlarm s) ∧ t.get Ent.HUSH_LEFT = 0) ∧
  (eolReached s = true → modeIs s .supervise = true → s.get Ent.FAULT_CAUSE = 0 → s.get Ent.BS_ALARM = 0 → Answers .endOfLifeReached s fun t =>
      t.get Ent.MODE = modeCode .endOfLife ∧ t.get Ent.BASE_MODE = modeCode .endOfLife) ∧
  (s.get Ent.COMMISSIONED_AT ≠ 0 → s.get Ent.ST_NEXT_DUE ≤ s.get Ent.SERVICE_SECONDS → Answers .selftestDue s fun t =>
      if modeIn s [.supervise, .fault, .endOfLife] then t.get Ent.MODE = modeCode .selftest ∧ t.keeper.st.step = 1 ∧ t.keeper.st.trigger = 0
      else t.get Ent.MODE = s.get Ent.MODE ∧ t.keeper.st.waiting = true) ∧
  (v < 65536 → accepts s (numReq u Ent.FAULT_CAUSE v) = true → Starts (.faultCauseClear u v) s (numReq u Ent.FAULT_CAUSE v) Ent.FAULT_CAUSE v) ∧
  (v < 65536 → Commits s (numReq u Ent.FAULT_CAUSE v) Ent.FAULT_CAUSE v fun t =>
      t.get Ent.FAULT_CAUSE = clearBits (s.get Ent.FAULT_CAUSE) v) ∧
  (accepts s (numReq u Ent.FAULT_REQUEST v) = true → Answers (.faultRequest u v) s fun t =>
      bit (t.get Ent.FAULT_CAUSE) 6 = true ∧ t.getU Ent.LAST_STATUS u = Sc.ok) ∧
  (v < 256 → accepts s (numReq u Ent.ALARM_FW v) = true → Answers (.alarmFwWrite u v) s fun t =>
      t.get Ent.ALARM_FW = v ∧ t.getU Ent.LAST_STATUS u = Sc.ok ∧
      (modeIs s .alarm = true → s.get Ent.BS_ALARM = 0 → v = 0 → t.get Ent.MODE = modeCode (afterAlarm (s.put Ent.ALARM_FW 0)))) ∧
  (Answers .echoTimeoutExpiry s fun t =>
      t.keeper.relCan = 0 ∧ t.get Ent.ALARM_RELAYED = relayedValue (s.onKeeper fun k => { k with relCan := 0 })) ∧
  (s.flyer.bs.hushTimer = true → Answers .flyerHushTimerExpiry s fun t =>
      t.flyer.bs.hushTimer = false ∧ t.flyer.bs.suppressed = 0)

/-- A cycle counts CLK_AON, and AONTIME while the spindle die is out of reset. An invalid mode word in a device that is not retired leads to FAULT with FAULT_CAUSE bit 0 set where no event falls in the cycle, no backstop alarm is present and no self-test waits. Of a backstop alarm and a hush request in one cycle the alarm acts first, so that a mode other than ALARM is left for ALARM before the request is judged. -/
def Obligations.KeeperCycle : Prop :=
  ∀ (s : State),
  (∀ (evs : List ModeEvent), Answers (.keeperAonCycle evs) s fun t =>
      t.keeper.aon = s.keeper.aon + 1 ∧ (s.spindle.alive = true → t.spindle.core.aontime = s.spindle.core.aontime + 1)) ∧
  (modeOf (s.get Ent.MODE) = none → lcIsRetired s = false → s.get Ent.BS_ALARM = 0 → s.keeper.st.waiting = false → Answers (.keeperAonCycle []) s fun t =>
      t.get Ent.MODE = modeCode .fault ∧ bit (t.get Ent.FAULT_CAUSE) 0 = true ∧ t.get Ent.BASE_MODE = modeCode .fault) ∧
  (∀ (u : User), checkWords s = s → modeIs s .supervise = true → s.get Ent.ALARM_FW = 0 → s.get Ent.BS_ALARM = 0 → backstopSetWritten s = true → s.keeper.st.waiting = false → Answers (.keeperAonCycle [.hushRequest u, .backstop 2]) s fun t =>
      t.get Ent.MODE = modeCode .alarm ∧ t.get Ent.BS_ALARM = 2 ∧ Counted s t Ent.HUSH_REFUSED)

/-- A second of VDD_IN counts SERVICE_SECONDS once commissioned, and counts down HUSH_LEFT and the leases. Hourly, SERVICE_SECONDS and the time are committed. The second tick moves RTC_TIME and the flyer's copy on, to their end. TIME_SET at the time changes nothing, back answers STATE outside COMMISSION, up to 2 s on is a nudge, and else is a logged set that remembers both times and the setter. -/
def Obligations.TimeKeeping : Prop :=
  ∀ (s : State) (u : User) (v : Nat),
  (s.keeper.vddValid = true → Answers .serviceSecondTick s fun t =>
      t.get Ent.SERVICE_SECONDS = (if s.get Ent.COMMISSIONED_AT = 0 then s.get Ent.SERVICE_SECONDS else min (s.get Ent.SERVICE_SECONDS + 1) 0xFFFFFFFF) ∧
      t.get Ent.HUSH_LEFT = s.get Ent.HUSH_LEFT - 1 ∧
      ∀ g ∈ claimGroups, t.get (Ent.CLAIM g) =
        if claimHolder s g = 0x80 ∨ s.get (Ent.CLAIM g) < 256 then s.get (Ent.CLAIM g) else s.get (Ent.CLAIM g) - 256) ∧
  (Answers .serviceCommitHourly s fun t =>
      t.keeper.savedService = s.get Ent.SERVICE_SECONDS ∧ t.keeper.savedTime = now s ∧
      (s.flyer.horn.on = false → t.flyer.horn.onCycles = s.flyer.horn.onCycles % 32768)) ∧
  (Answers .rtcSecondTick s fun t =>
      t.get Ent.RTC_TIME = (if now s < 0xFFFFFFFF then now s + 1 else now s) ∧ t.get Ent.RTC_SUBSEC = 0 ∧
      t.flyer.rtc = s.flyer.rtc.map (fun x => min (x + 1) 0xFFFFFFFF)) ∧
  (accepts s (numReq u Ent.TIME_SET v) = true → v = now s → Serves (.timeSet u v) s (numReq u Ent.TIME_SET v) s Sc.ok) ∧
  (accepts s (numReq u Ent.TIME_SET v) = true → v < now s → now s < 2 ^ 32 → modeIs s .commission = false → Serves (.timeSet u v) s (numReq u Ent.TIME_SET v) s Sc.state) ∧
  (accepts s (numReq u Ent.TIME_SET v) = true → v < 2 ^ 32 → now s < v → v ≤ now s + 2 → Answers (.timeSet u v) s fun t =>
      t.get Ent.RTC_TIME = v ∧ t.get Ent.RTC_SUBSEC = 0 ∧ Counted s t Ent.TIME_NUDGES ∧ t.get Ent.TIME_SETS = s.get Ent.TIME_SETS) ∧
  (accepts s (numReq u Ent.TIME_SET v) = true → v < 2 ^ 32 → now s + 2 < v → Answers (.timeSet u v) s fun t =>
      t.get Ent.RTC_TIME = v ∧ Counted s t Ent.TIME_SETS ∧ t.get Ent.LAST_SET_FROM = now s ∧ t.get Ent.LAST_SET_TO = v ∧ t.get Ent.LAST_SET_BY = userId u)

/-! ## Life-cycle and debug port -/

/-- A target code arms a change that the table and the conditions of R97 allow; its complement by the same user, with VDD_IN at 2,400 mV or more, starts programming; an armed change lapses. When programming completes, every row above the top row up to the target's holds its code. DBG_NEW draws 32 RNG bytes as the challenge. A signature that verifies opens the debug port; another is counted and locks the port out; both forget the challenge, as its expiry does. -/
def Obligations.LifecycleCommands : Prop :=
  ∀ (s : State) (u : User) (v : Nat) (tgt : Lc),
  (accepts s (numReq u Ent.LC_REQUEST v) = true → v = lcCode tgt → lcValid s = true → lcAllowed (lcNow s) tgt = true → s.keeper.lcProgramming = none → lcConditions s tgt = true → Serves (.lcRequestArm u v) s (numReq u Ent.LC_REQUEST v) (s.onKeeper fun k => { k with lcArmed := some (u, lcRow tgt) }) Sc.ok) ∧
  (accepts s (numReq u Ent.LC_REQUEST v) = true → v = complement32 (lcCode tgt) → lcValid s = true → s.keeper.lcArmed = some (u, lcRow tgt) → lcConditions s tgt = true → 2400 ≤ s.keeper.vddMv → Serves (.lcRequestConfirm u v) s (numReq u Ent.LC_REQUEST v)
      ((commitService s).onKeeper fun k => { k with lcArmed := none, lcProgramming := some (u, lcRow tgt) }) Sc.ok) ∧
  (Answers .lcRequestExpiry s fun t =>
      t = s.onKeeper fun k => { k with lcArmed := none }) ∧
  (∀ (row : Nat), s.keeper.lcProgramming = some (u, row) → s.keeper.lcRows.length = 5 → Answers .lcProgramComplete s fun t =>
      t.keeper.lcProgramming = none ∧
      ∀ l ∈ allLc, t.keeper.lcRows.getD (lcRow l) 0 = if lcTop s < lcRow l ∧ lcRow l ≤ row then lcCode l else s.keeper.lcRows.getD (lcRow l) 0) ∧
  (accepts s (numReq u Ent.DBG_NEW v) = true → s.keeper.dbgLockout = false → domState s .rng = 2 → s.spindle.rng.waiting = [] → 8 ≤ s.spindle.rng.fifo.length → Answers (.dbgNew u v) s fun t =>
      t.get Ent.DBG_CHALLENGE = leNat (wordBytes (s.spindle.rng.fifo.take 8)) ∧ t.keeper.dbgValid = true ∧ t.spindle.rng.fifo = s.spindle.rng.fifo.drop 8 ∧
      t.getU Ent.LAST_STATUS u = Sc.ok) ∧
  (∀ (sig : Bytes), accepts s (octReq u Ent.DBG_SIG sig) = true → Answers (.dbgSig u sig) s fun t =>
      t.get Ent.DBG_CHALLENGE = 0 ∧ t.keeper.dbgValid = false ∧
      (if dbgVerifies s sig then t.spindle.core.debugOpen = true ∧ t.getU Ent.LAST_STATUS u = Sc.ok
       else t.spindle.core.debugOpen = s.spindle.core.debugOpen ∧ t.keeper.dbgLockout = true ∧ Counted s t Ent.DBG_FAILS ∧
         t.getU Ent.LAST_STATUS u = Sc.integrity)) ∧
  (Answers .dbgChallengeExpiry s fun t =>
      t.get Ent.DBG_CHALLENGE = 0 ∧ t.keeper.dbgValid = false) ∧
  (Answers .dbgLockoutExpiry s fun t =>
      t = s.onKeeper fun k => { k with dbgLockout := false })

/-! ## Horn, indicators, interconnect -/

/-- Every 1 ms the flyer takes the row of R146, its pattern and its pads; a new alarm row empties queue 01. A phase moves what is played on by the time to the next change. VBOOST ready lets the pattern start; no feedback drives at 3,200 Hz; a fault or an overcurrent stops the drive for the rest of the phase and is counted. The head of queue 01 is played, op 3 empties it. A HORN_CMD in range with credit goes to queue 03, without credit answers BUSY. The kinds go to their slot in ALARM and ECHO, and IC_LINE relays by its level. -/
def Obligations.HornCommands : Prop :=
  ∀ (s : State) (u : User) (x : Bytes),
  (s.flyer.up = true → Answers .hornSourceSelect s fun t =>
      t.flyer.horn.row = hornRow s.flyer ∧ t.flyer.horn.pattern = rowPattern s.flyer (hornRow s.flyer) ∧
      t.flyer.horn.alarmOut = (hornRow s.flyer == 2 || hornRow s.flyer == 3) ∧
      t.get Ent.ALARM_PATTERN = (if isAlarmRow (hornRow s.flyer) then (if rowPattern s.flyer (hornRow s.flyer) = .co then 2 else 1) else 0) ∧
      (isAlarmRow (hornRow s.flyer) = true → s.flyer.horn.row ≠ hornRow s.flyer → t.flyer.horn.queue = [])) ∧
  (∀ (d : Nat), s.flyer.up = true → (nextChanges s.flyer.horn).min? = some d → Answers .hornPhase s fun t =>
      t.flyer.horn = hornOutputs s.keeper.aon (hornAdvance s.flyer.horn d)) ∧
  (∀ (mv : Nat), s.flyer.up = true → Answers (.hornVboostReady mv) s fun t =>
      t.flyer.horn.vboost = mv ∧ (s.flyer.horn.boost ≠ 0 → t.flyer.horn.ready = true)) ∧
  (s.flyer.up = true → s.flyer.horn.on = true → playsOp s.flyer.horn 1 = false → Answers .hornFbTimeout s fun t =>
      t.flyer.horn = { s.flyer.horn with fallback := true }) ∧
  (s.flyer.up = true → s.flyer.horn.boost ≠ 0 → Answers .hornFault s fun t =>
      t.flyer.horn.stopped = s.flyer.horn.drive ∧ t.flyer.horn.on = false ∧ t.flyer.horn.fault = true ∧ Counted s t Ent.HORN_FAULTS) ∧
  (s.flyer.up = true → s.flyer.horn.drive = true → Answers .hornOvercurrent s fun t =>
      t.flyer.horn.on = false ∧ t.flyer.horn.fault = true ∧ Counted s t Ent.HORN_FAULTS) ∧
  (∀ (k : HornCmd) (ks : List HornCmd), s.flyer.up = true → s.flyer.horn.row = 8 → s.flyer.horn.playing = none → s.flyer.horn.queue = k :: ks → Answers .hornQueueTake s fun t =>
      if k.op = 3 then t.flyer.horn.queue = [] ∧ t.flyer.horn.playing = none ∧ t.flyer.horn.removed = s.flyer.horn.removed + 1 + ks.length
      else t.flyer.horn.queue = ks ∧ t.flyer.horn.playing = some k ∧ t.flyer.horn.removed = s.flyer.horn.removed + 1) ∧
  (accepts s (octReq u Ent.HORN_CMD (1 :: x)) = true → hornCmdOk (1 :: x) = true → hornCredit s ≠ 0 → Answers (.hornCmdTone u x) s fun t =>
      t.ply.q = placeCommand s.ply.q (hornCmdOf (1 :: x)) ∧ t.spindle.placed = (s.spindle.placed + 1) % 256 ∧ t.getU Ent.LAST_STATUS u = Sc.ok) ∧
  (accepts s (octReq u Ent.HORN_CMD (1 :: x)) = true → hornCmdOk (1 :: x) = true → hornCredit s = 0 → Serves (.hornCmdTone u x) s (octReq u Ent.HORN_CMD (1 :: x)) s Sc.busy) ∧
  (accepts s (octReq u Ent.HORN_CMD (2 :: x)) = true → hornCmdOk (2 :: x) = true → hornCredit s ≠ 0 → Answers (.hornCmdIndicator u x) s fun t =>
      t.ply.q = placeCommand s.ply.q (hornCmdOf (2 :: x)) ∧ t.spindle.placed = (s.spindle.placed + 1) % 256 ∧ t.getU Ent.LAST_STATUS u = Sc.ok) ∧
  (accepts s (octReq u Ent.HORN_CMD (3 :: x)) = true → hornCmdOk (3 :: x) = true → hornCredit s ≠ 0 → Answers (.hornCmdStop u x) s fun t =>
      t.ply.q = placeCommand s.ply.q (hornCmdOf (3 :: x)) ∧ t.spindle.placed = (s.spindle.placed + 1) % 256 ∧ t.getU Ent.LAST_STATUS u = Sc.ok) ∧
  (s.spindle.alive = true → modeIn s [.alarm, .echo] = true → Answers .kindsCommandSend s fun t =>
      t.ply = { s.ply with kinds := some (s.get Ent.ALARM_FW, s.get Ent.ALARM_RELAYED % 8) }) ∧
  (s.flyer.up = true → s.flyer.horn.icDriven = false → s.get Ent.IC_LINE_MODE ≠ 0 → Answers .icLineRelayStart s fun t =>
      t.flyer.horn.icRelayed = true ∧ t.flyer.horn.icLevel = true) ∧
  (s.flyer.up = true → Answers .icLineRelayEnd s fun t =>
      t.flyer.horn.icRelayed = false ∧ t.flyer.horn.icLevel = false)

/-! ## Self-test -/

/-- Each step answers its request with its verdict and its result: the references within tolerance, the dark level and no flag of a fault; the rise, the impedance and no overcurrent; the loaded voltage; the pulse's peak in its band; the RNG window; the known-answer vectors. A measurement in progress is left. The keeper runs step 5 itself, and counts the records that fail it. An answer to the running step notes its verdict and begins the next step; the answer to step 7 ends the test in the base mode, with ST_STATE 9 while its record is to be signed, or the idle state where the keeper's share of the log queue is full. A missed limit fails a flyer step and leaves a spindle step not run. RNG words that reach the keeper go to its first request: the spread is set, or a UID joins the pool. The spindle die answers a request for the spread with the words it has, or none. -/
def Obligations.SelftestSteps : Prop :=
  ∀ (s : State) (m : SbMsg) (mv : Nat),
  (∀ (caps : Captures) (led : Bool), stMessage s .flyer [1] = some m → s.flyer.up = true → s.sb.flyer.txq.length ≤ 5 → Answers (.stChamber caps led mv) s fun t =>
      Taken s t .flyer ∧ t.flyer.sense.opt = s.flyer.sense.opt ∧
      Queued t .flyer 0xE 0 ([0x81, if withinPercent (integralsOf s caps).rIr (shadowNat s.flyer.bs 16 4) (payNat m 1 1) = true ∧
            withinPercent (integralsOf s caps).rBl (shadowNat s.flyer.bs 20 4) (payNat m 1 1) = true ∧
            (((integralsOf s caps).dark : Int) - payNat m 2 2).natAbs ≤ payNat m 4 2 ∧ chamberFlags s caps led &&& 11 = 0 then 1 else 0,
          byte (stPercent (integralsOf s caps).rIr (shadowNat s.flyer.bs 16 4)), byte (stPercent (integralsOf s caps).rBl (shadowNat s.flyer.bs 20 4))] ++
        leBytes 2 (integralsOf s caps).dark ++ [byte (chamberFlags s caps led % 256)])) ∧
  (∀ (ohm rise : Nat) (surge : Bool), stMessage s .flyer [2] = some m → s.flyer.up = true → roomFor s .flyer → Answers (.stHorn ohm rise surge) s fun t =>
      Taken s t .flyer ∧ t.flyer.horn.check = false ∧
      Queued t .flyer 0xE 0 ([0x82, if rise ≤ 20 ∧ payNat m 1 2 ≤ ohm ∧ ohm ≤ payNat m 3 2 ∧ surge = false then 1 else 0] ++ leBytes 2 (min ohm 65535) ++ [byte rise, if surge then 1 else 0])) ∧
  (stMessage s .flyer [3] = some m → s.flyer.up = true → roomFor s .flyer → Answers (.stBattery mv) s fun t =>
      Taken s t .flyer ∧ Queued t .flyer 0xE 0 ([0x83, if payNat m 2 2 ≤ mv then 1 else 0] ++ leBytes 2 mv)) ∧
  (∀ (peak : Nat), stMessage s .flyer [4] = some m → s.flyer.up = true → roomFor s .flyer → pulseStatus s = Sc.ok → Answers (.stCoCell peak) s fun t =>
      Taken s t .flyer ∧ t.flyer.sense.pulse = .settling ∧
      Queued t .flyer 0xE 0 ([0x84, if toSigned 32 (payNat m 3 4) ≤ (peak : Int) ∧ (peak : Int) ≤ toSigned 32 (payNat m 7 4) then 1 else 0] ++ leBytes 4 peak)) ∧
  (s.keeper.st.step = 5 → Answers .stNvm s fun t =>
      t.keeper.st.step = 6 ∧ t.get Ent.ST_STATE = 7 ∧ t.keeper.st.run = s.keeper.st.run ||| 16 ∧
      t.get Ent.LOG_CRC_ERR = min (s.get Ent.LOG_CRC_ERR + chainFaults s) 0xFFFFFFFF ∧ t.keeper.st.passed = if nvmGood s then s.keeper.st.passed ||| 16 else s.keeper.st.passed) ∧
  (∀ (win : Nat), stMessage s .spindle [6] = some m → s.spindle.alive = true → roomFor s .spindle → Answers (.stRngHealth win) s fun t =>
      Taken s t .spindle ∧ Queued t .spindle 0xE 0 ([0x86, if windowFails s win then 0 else 1] ++ leBytes 2 (ofSigned 16 (windowBias win)) ++ leBytes 2 (ofSigned 16 (windowCorr win)))) ∧
  (∀ (failing : Nat), stMessage s .spindle [7] = some m → s.spindle.alive = true → roomFor s .spindle → Answers (.stKnownAnswer failing) s fun t =>
      Taken s t .spindle ∧ Queued t .spindle 0xE 0 [0x87, if failing % 8 = 0 then 1 else 0, byte (failing % 8)]) ∧
  (∀ (k : Nat), stMessage s .keeper [0x81, 0x82, 0x83, 0x84, 0x86, 0x87] = some m → payNat m 0 1 = 0x80 + k → s.keeper.st.step = k → k < 7 → payNat m 1 1 < 2 → Answers .stStepResult s fun t =>
      Taken s t .keeper ∧ t.keeper.st.step = stNextStep s k ∧ t.keeper.st.run = s.keeper.st.run ||| 2 ^ (k - 1) ∧
      t.keeper.st.passed = if payNat m 1 1 = 1 then s.keeper.st.passed ||| 2 ^ (k - 1) else s.keeper.st.passed) ∧
  (stMessage s .keeper [0x81, 0x82, 0x83, 0x84, 0x86, 0x87] = some m → payNat m 0 1 = 0x87 → s.keeper.st.step = 7 → modeIs s .selftest = true → s.get Ent.BS_ALARM = 0 → Answers .stStepResult s fun t =>
      t.keeper.st.step = 0 ∧ t.get Ent.MODE = t.get Ent.BASE_MODE ∧
      t.get Ent.ST_STATE = if (s.log.queue.filter (·.keeper)).length < 4 then 9 else stIdle s) ∧
  (∀ (k : Nat), s.keeper.st.step = k → 1 ≤ k → k < 7 → Answers .stStepTimeout s fun t =>
      t.keeper.st.step = stNextStep s k ∧ t.keeper.st.passed = s.keeper.st.passed ∧
      t.keeper.st.run = if 6 ≤ k then s.keeper.st.run else s.keeper.st.run ||| 2 ^ (k - 1)) ∧
  (stMessage s .spindle [0x20] = none → stMessage s .keeper [0x20] = some m → s.keeper.words = [.spread] → 5 ≤ m.payload.length → Answers .stRngWords s fun t =>
      Taken s t .keeper ∧ t.keeper.words = [] ∧ t.get Ent.ST_SPREAD = leNat ((m.payload.drop 1).take 4) % 3601) ∧
  (∀ (ws : List WordUse), stMessage s .spindle [0x20] = none → stMessage s .keeper [0x20] = some m → s.keeper.words = .pool :: ws → 5 ≤ m.payload.length → Answers .stRngWords s fun t =>
      Taken s t .keeper ∧ t.keeper.pool = poolAdd s.keeper.pool (leNat ((m.payload.drop 1).take 4))) ∧
  (∀ (ws : List WordUse), stMessage s .keeper [0x20] = none → stMessage s .spindle [0x20] = some m → s.spindle.alive = true → s.keeper.words = .spread :: ws → domState s .rng = 2 → roomFor s .spindle → Answers .stRngWords s fun t =>
      Taken s t .spindle ∧ Queued t .spindle 0xE 0 (0x20 :: if s.spindle.rng.waiting = [] ∧ payNat m 1 1 / 4 ≤ s.spindle.rng.fifo.length then wordBytes (s.spindle.rng.fifo.take (payNat m 1 1 / 4)) else []))

/-- A valid rest word that breaks no static rule is stored; one that does is counted, names its refuser and answers STATE. A flyer domain is told its rest, which is owed until acknowledged. An entry of a domain that is ON, rests below ON and is idle starts, unless a unit refuses it, which is counted with the first refuser; a refused entry is tried again the same way. CORE whose rest is OFF starts the reset of the spindle die. An entry completes in its target, and what OFF loses is lost. A wake source starts the exit of every domain it raises from RETENTION or OFF, with CODE and DATA behind CORE, and aborts an entry, which is counted. The exit completes ON. A level at the end of HOST's isolation window wakes it late. Entries and wakes are counted but for the domains of the flyer. -/
def Obligations.DomainCommands : Prop :=
  ∀ (s : State) (d : Domain), s.flyer.doms.length = 7 → s.doms.length = 19 →
  (∀ (u : User) (ss v r : Nat), accepts s (numReq u (Ent.REST ss) v) = true → domOf ss = some d → restOf v = some r → staticRefuser s d r = none → Answers (.restWrite u ss v) s fun t =>
      t.get (Ent.REST ss) = wideCode (r + 1) ∧ t.getU Ent.LAST_STATUS u = Sc.ok ∧ (isFlyerDom d = true → (domSeq t d).owed = some r)) ∧
  (∀ (u : User) (ss v r who : Nat), accepts s (numReq u (Ent.REST ss) v) = true → domOf ss = some d → restOf v = some r → staticRefuser s d r = some who → Serves (.restWrite u ss v) s (numReq u (Ent.REST ss) v) (refuse s d who r) Sc.state) ∧
  (mayEnter s d = true → domIdle s d = true → levelSource s d = none → (d = .core → restState s d = 1) → Answers (.domainEntryStart d) s fun t =>
      if refusers s d (restNow s d) = [] then domNow t d = 3 ∧ (domSeq t d).target = restNow s d else domNow t d = 2 ∧ Counted s t (Ent.REFUSALS (domId d)) ∧
        t.get (Ent.LAST_REFUSER (domId d)) = (refusers s d (restNow s d)).headD 0) ∧
  (mayEnter s .core = true → domIdle s .core = true → restState s .core = 0 → refusers s .core 0 = [] → levelSource s .core = none → s.keeper.seq = .released → s.flyer.up = true → Answers (.domainEntryStart .core) s fun t =>
      domState t .core = 3 ∧ t.keeper.seq = .quiet 5) ∧
  ((domSeq s d).idleTried = true → mayEnter s d = true → domIdle s d = true → levelSource s d = none → (d = .core → restState s d = 1) → Answers (.domainEntryRetry d) s fun t =>
      if refusers s d (restNow s d) = [] then domNow t d = 3 ∧ (domSeq t d).target = restNow s d else domNow t d = 2 ∧ Counted s t (Ent.REFUSALS (domId d)) ∧
        t.get (Ent.LAST_REFUSER (domId d)) = (refusers s d (restNow s d)).headD 0) ∧
  (domNow s d = 3 → (domSeq s d).wake = none → ¬(d = .core ∧ (domSeq s d).target = 0 ∧ s.spindle.alive = true) → Answers (.domainEntryComplete d) s fun t =>
      domNow t d = (domSeq s d).target ∧ (isFlyerDom d = false → Counted s t (Ent.ENTRIES (domId d))) ∧
      (d = .capt → (domSeq s d).target = 0 → t.get Ent.CAPT_HELD = 0) ∧ (d = .horn → t.flyer.horn.boost = 0)) ∧
  (∀ (src : Nat) (more : List Domain) (owner : Domain) (rest : List Domain), wakeLost s src = false → raisedBy s src more = owner :: rest → d ∈ withNeeds (owner :: rest) → domNow s d < 2 → domState s .core ≠ 0 → Answers (.domainWake src more) s fun t =>
      domNow t d = 4 ∧ t.get (Ent.LAST_WAKE (domId d)) = src) ∧
  (∀ (src : Nat) (more : List Domain) (owner : Domain) (rest : List Domain), wakeLost s src = false → raisedBy s src more = owner :: rest → d ∈ owner :: rest → domNow s d = 3 → d ≠ .core → d ≠ .code → d ≠ .data → (owner :: rest).Nodup → domState s .core ≠ 0 → Answers (.domainWake src more) s fun t =>
      domNow t d = 4 ∧ t.get (Ent.LAST_WAKE (domId d)) = src ∧ Counted s t (Ent.REFUSALS (domId d)) ∧ t.get (Ent.LAST_REFUSER (domId d)) = domId owner) ∧
  (domNow s d = 4 → Answers (.domainExitComplete d) s fun t =>
      domNow t d = 2 ∧ (isFlyerDom d = false → Counted s t (Ent.WAKES (domId d)))) ∧
  (∀ (low : List Port), domState s .host = 3 → domState s .core ≠ 0 → low.any (portEnabled s) = true → Answers (.isolationWindowEnd .host low) s fun t =>
      domState t .host = 4 ∧ Counted s t Ent.LATE_WAKES ∧ t.get (Ent.LAST_WAKE (domId .host)) = 0x0E) ∧
  (∀ (low : List Port), d = .host ∨ d = .net → domState s d = 3 → (d = .host → low.any (portEnabled s) = false) → (domSeq s d).wake = none → Answers (.isolationWindowEnd d low) s fun t =>
      domState t d = (domSeq s d).target ∧ Counted s t (Ent.ENTRIES (domId d)))

/-- A lost crystal puts CLK_AON on its fallback, is counted and begins the CLOCK condition of instance 3; 1,024 good edges end both. An FLL unlock is counted while CORE is ON. The one check after a release says whether CLK_XO has a crystal, and a start of NET that fails is counted once. -/
def Obligations.ClockCommands : Prop :=
  ∀ (s : State),
  (onFallback s = false → Answers .aonCrystalLost s fun t =>
      onFallback t = true ∧ Counted s t Ent.AON_LOSSES ∧ (0x43, 3) ∈ t.log.active) ∧
  (onFallback s = true → Answers .aonCrystalReturn s fun t =>
      onFallback t = false ∧ (0x43, 3) ∉ t.log.active ∧ t.get Ent.TIME_FLAGS = clearBits (s.get Ent.TIME_FLAGS) 2) ∧
  (s.spindle.alive = true → domState s .core = 2 → Answers .fllUnlock s fun t =>
      t = s.bump Ent.FLL_UNLOCKS) ∧
  (∀ (found : Bool), s.spindle.alive = true → s.spindle.xoChecked = false → Answers (.xoCheckEnd found) s fun t =>
      t.spindle = { s.spindle with xoChecked := true, xoFound := found }) ∧
  (s.spindle.alive = true → s.spindle.xoFound = true → s.spindle.xoFail = false → domState s .net = 2 ∨ domState s .net = 4 → Answers .xoStartFail s fun t =>
      t.spindle = { s.spindle with xoFail := true } ∧ Counted s t Ent.XO_FAILS)

/-! ## The fabric -/

/-- While CORE is ON a decision counts a cycle and moves the clock of every resource. It gives each resource that no stalled transfer holds to the winner of its mode among the requests registered before; the grant is counted and takes one transfer off the request; a held resource is counted. The requests that begin are registered for the next cycle. A new window loads the credits. A wrap sets the slot to 0, applies every pending value and starts a window. A configuration write is held pending. A bite at the end of the 1,024th held cycle frees the resource and is counted and noted. A kick loads the watchdog. -/
def Obligations.ArbiterCommands : Prop :=
  ∀ (s : State), s.spindle.arb.length = 6 → s.spindle.asks.length = 12 →
  (∀ (begins : List (Nat × Nat × Nat)) (stalled withdrawn : List Nat), arbRuns s = true → Answers (.arbDecision begins stalled withdrawn) s fun t =>
      t.spindle.core.mcycle = (if s.spindle.core.mcountinhibit.getLsbD 0 then s.spindle.core.mcycle else s.spindle.core.mcycle + 1) ∧
      ∀ k ∈ resources, ((∀ i ∈ resources, (arbRes s i).pend = []) → t.get (Ent.SLOT_NOW k) = nextSlot (s.get (Ent.SLOT_NOW k))) ∧
        if arbHeld (clocked s) k stalled then t.get (Ent.OWNER_NOW k) = (clocked s).get (Ent.OWNER_NOW k) ∧ Counted (clocked s) t (Ent.HELD_CYCLES k)
        else t.get (Ent.OWNER_NOW k) = (arbWinner (clocked s) k).getD 0x80 ∧
          ∀ j, arbWinner (clocked s) k = some j → Counted (clocked s) t (Ent.GRANTS (j + 1)) ∧ (withdrawn.contains j = true → Counted (clocked s) t (Ent.EMPTY_GRANTS (j + 1))) ∧
            (withdrawn.contains j = false → (∀ a ∈ begins, a.1 ≠ j) → (askOf t j).left = (askOf s j).left - 1)) ∧
  (∀ (j k n : Nat) (stalled : List Nat), arbRuns s = true → j < 12 → arbReach k j = true → (askOf s j).left = 0 → Answers (.arbDecision [(j, k, n)] stalled []) s fun t =>
      askOf t j = ⟨k, transfersOf k n⟩) ∧
  (∀ (res : Nat), arbRuns s = true → res ∈ resources → Answers (.creditWindowStart res) s fun t =>
      (arbRes t res).window = 0 ∧ ∀ j, j < 12 → creditOf t res j = octByte (s.get (Ent.CREDIT_REFILL res)) j) ∧
  (∀ (res : Nat), arbRuns s = true → res ∈ resources → ((arbRes s res).pend.map (·.1)).Nodup → (∀ p ∈ (arbRes s res).pend, 0x1300 ≤ p.1 / 256 ∧ p.1 / 256 ≤ 0x1304) → Answers (.slotWrapApply res) s fun t =>
      t.get (Ent.SLOT_NOW res) = 0 ∧ (∀ p ∈ (arbRes s res).pend, t.get p.1 = p.2) ∧ (arbRes t res).pend = [] ∧
      ((arbRes s res).pend ≠ [] → bit (t.get Ent.ARB_PENDING) (res - 1) = false ∧ (arbRes t res).window = 0 ∧ (arbRes t res).spent = [])) ∧
  (∀ (u : User) (idx sub : Nat) (x : Bytes), accepts s (writeReq u idx sub x) = true → 0x1300 ≤ idx ∧ idx ≤ 0x1304 → Serves (.arbConfigWrite u idx sub x) s (writeReq u idx sub x) (arbHold s (entAt idx sub) (leNat x)) Sc.ok) ∧
  (∀ (req res : Nat) (write : Bool) (addr : Nat), s.spindle.alive = true → (arbRes s res).owner = some req → 1025 ≤ (arbRes s res).heldFor → arbReach res req = true → req < 12 → Answers (.fabricWatchdogBite req res write addr) s fun t =>
      t.get (Ent.OWNER_NOW res) = 0x80 ∧ (arbRes t res).owner = none ∧
      Counted s t (Ent.FWD_BITES (req + 1)) ∧ Counted s t Ent.FWD_TOTAL ∧ t.get Ent.FWD_LAST = res * 65536 + req * 256 + if write then 1 else 0) ∧
  (∀ (u : User) (v : Nat), accepts s (numReq u Ent.WDT_KICK v) = true → Serves (.wdtKick u v) s (numReq u Ent.WDT_KICK v) (if s.keeper.wdt.isSome then wdtStart s else s) Sc.ok)

/-! ## The core -/

/-- After bytes are written to a memory from an address on, each of them reads as written, and every other byte reads as before. A register of the core written reads as written; x0 reads zero whatever is written; every other register reads as before. -/
def Obligations.MemoryAndRegisters : Prop :=
  (∀ (r : Region) (a x : Nat) (b : Bytes), (r.putAll a b).get x = if a ≤ x ∧ x < a + b.length then b.getD (x - a) 0 else r.get x) ∧
    (∀ (c : Core) (r q : Nat) (v : Word), c.gpr.length = 31 → r < 32 → (c.setX r v).x q = if q = 0 then 0 else if q = r then v else c.x q)

/-- A ready hart executes LUI, AUIPC, JAL, JALR, branches, the register-immediate, shift, register-register and multiply and divide instructions as RV32IM gives them: rd takes the result (a write of x0 is discarded), the pc moves on or to the target, minstret counts, and no memory, no entry and no other register changes. An illegal instruction traps with cause 2 and its bits in mtval; while the in-entry flag is set it locks the core up. -/
def Obligations.CoreOrdinary : Prop :=
  ∀ (s : State) (w n rd rs1 rs2 f3 k : Nat) (imm : Word),
  (fetches s (.lui rd imm) w n = true → Answers .instrExecute s fun t =>
      Retires s t (s.spindle.core.setX rd imm) (after s n) ∧ t.spindle.mem = s.spindle.mem ∧ t.ent = s.ent) ∧
  (fetches s (.auipc rd imm) w n = true → Answers .instrExecute s fun t =>
      Retires s t (s.spindle.core.setX rd (s.spindle.core.pc + imm)) (after s n) ∧ t.spindle.mem = s.spindle.mem ∧ t.ent = s.ent) ∧
  (fetches s (.jal rd imm) w n = true → Answers .instrExecute s fun t =>
      Retires s t (s.spindle.core.setX rd (after s n)) (s.spindle.core.pc + imm) ∧ t.spindle.mem = s.spindle.mem ∧ t.ent = s.ent) ∧
  (fetches s (.jalr rd rs1 imm) w n = true → Answers .instrExecute s fun t =>
      Retires s t (s.spindle.core.setX rd (after s n)) ((s.spindle.core.x rs1 + imm) &&& 0xFFFFFFFE) ∧ t.spindle.mem = s.spindle.mem ∧ t.ent = s.ent) ∧
  (fetches s (.branch f3 rs1 rs2 imm) w n = true → Answers .instrExecute s fun t =>
      Retires s t s.spindle.core (if branchTaken f3 (s.spindle.core.x rs1) (s.spindle.core.x rs2) then s.spindle.core.pc + imm else after s n) ∧
      t.spindle.mem = s.spindle.mem ∧ t.ent = s.ent) ∧
  (fetches s (.opImm f3 rd rs1 imm) w n = true → Answers .instrExecute s fun t =>
      Retires s t (s.spindle.core.setX rd (aluOp f3 false (s.spindle.core.x rs1) imm)) (after s n) ∧ t.spindle.mem = s.spindle.mem ∧ t.ent = s.ent) ∧
  (∀ (b : Bool), fetches s (.shiftImm f3 rd rs1 k b) w n = true → Answers .instrExecute s fun t =>
      Retires s t (s.spindle.core.setX rd (aluOp f3 b (s.spindle.core.x rs1) (BitVec.ofNat 32 k))) (after s n) ∧ t.spindle.mem = s.spindle.mem ∧ t.ent = s.ent) ∧
  (∀ (b : Bool), fetches s (.op f3 rd rs1 rs2 b) w n = true → Answers .instrExecute s fun t =>
      Retires s t (s.spindle.core.setX rd (aluOp f3 b (s.spindle.core.x rs1) (s.spindle.core.x rs2))) (after s n) ∧ t.spindle.mem = s.spindle.mem ∧ t.ent = s.ent) ∧
  (fetches s (.muldiv f3 rd rs1 rs2) w n = true → Answers .instrExecute s fun t =>
      Retires s t (s.spindle.core.setX rd (mulDivOp f3 (s.spindle.core.x rs1) (s.spindle.core.x rs2))) (after s n) ∧ t.spindle.mem = s.spindle.mem ∧ t.ent = s.ent) ∧
  (coreReady s = true → triggerHit s.spindle.core 0 s.spindle.core.pc = none → s.spindle.core.dcsr.getLsbD 2 = false → fetchHalf s s.spindle.core.pc = .ok 0 → Answers .instrExecute s fun t =>
      if s.spindle.core.inEntry then t.spindle.lockedUp = true ∧ t.spindle.lockupPad = true ∧ t.spindle.lockCause = 2 ∧ t.spindle.lockEpc = s.spindle.core.pc
      else t.spindle.core = s.spindle.core.enterTrap 2 false 0 ∧ Counted s t (Ent.TRAPS 3))

/-- A load that no check of R221 and no trigger stops gives rd the extended bytes of its region. A store to data, code or crypto scratch SRAM changes exactly its bytes, at rs1 plus the offset; every other byte of every memory reads as before. A load from the scalar window gives rd the value that the engine answers, and traps with cause 5 and the address in mtval on another status. A store to it is the engine's write by M or U: with an OK at hand the core goes on; where the response is claimed the core is blocked, and goes on once the response is there. One to the staging window stages a write. A misaligned load traps with cause 4. -/
def Obligations.CoreLoadsStores : Prop :=
  ∀ (s : State) (w n f3 rd rs1 rs2 : Nat) (off a : Word) (u : Bool), a = s.spindle.core.x rs1 + off → u = effUser s.spindle.core →
  (fetches s (.load f3 rd rs1 off) w n = true → triggerHit s.spindle.core 2 a = none → dataCheck s u false (accessSize f3) a = none → regionOf a.toNat ≠ some .window → Answers .load s fun t =>
      Retires s t (s.spindle.core.setX rd (loadExtend f3 (readMem s u (accessSize f3) a.toNat).2)) (after s n) ∧ t.spindle.mem = s.spindle.mem) ∧
  (fetches s (.load f3 rd rs1 off) w n = true → triggerHit s.spindle.core 2 a = none → a.toNat % accessSize f3 ≠ 0 → regionOf a.toNat ≠ some .window → s.spindle.core.inEntry = false → Answers .load s fun t =>
      t.spindle.core = s.spindle.core.enterTrap 4 false a ∧ Counted s t (Ent.TRAPS 5)) ∧
  (fetches s (.store f3 rs1 rs2 off) w n = true → triggerHit s.spindle.core 1 a = none → dataCheck s u true (accessSize f3) a = none → regionOf a.toNat = some .data → Answers .store s fun t =>
      Retires s t s.spindle.core (after s n) ∧ t.ent = s.ent ∧
      t.spindle.mem = { s.spindle.mem with data := t.spindle.mem.data } ∧
      ∀ x, t.spindle.mem.data.get x = if a.toNat - 0x20000000 ≤ x ∧ x < a.toNat - 0x20000000 + accessSize f3
        then (leBytes (accessSize f3) (s.spindle.core.x rs2).toNat).getD (x - (a.toNat - 0x20000000)) 0 else s.spindle.mem.data.get x) ∧
  (fetches s (.store f3 rs1 rs2 off) w n = true → triggerHit s.spindle.core 1 a = none → dataCheck s u true (accessSize f3) a = none → regionOf a.toNat = some .code → Answers .store s fun t =>
      Retires s t s.spindle.core (after s n) ∧
      t.spindle.mem = { s.spindle.mem with code := t.spindle.mem.code } ∧
      ∀ x, t.spindle.mem.code.get x = if a.toNat - 0x10000000 ≤ x ∧ x < a.toNat - 0x10000000 + accessSize f3
        then (leBytes (accessSize f3) (s.spindle.core.x rs2).toNat).getD (x - (a.toNat - 0x10000000)) 0 else s.spindle.mem.code.get x) ∧
  (fetches s (.store f3 rs1 rs2 off) w n = true → triggerHit s.spindle.core 1 a = none → dataCheck s u true (accessSize f3) a = none → regionOf a.toNat = some .scratch → Answers .store s fun t =>
      Retires s t s.spindle.core (after s n) ∧
      t.spindle.mem = { s.spindle.mem with scratch := s.spindle.mem.scratch.putAll (a.toNat - 0x30000000) (leBytes (accessSize f3) (s.spindle.core.x rs2).toNat) }) ∧
  (∀ (ty : Ty), fetches s (.load f3 rd rs1 off) w n = true → triggerHit s.spindle.core 2 a = none → dataCheck s u false (accessSize f3) a = none → regionOf a.toNat = some .window → (rowAt (windowIdx 0x40000000 a.toNat) (windowSub 0x40000000 a.toNat)).map (·.ty) = some ty → (ty matches .oct _) = false → readable s (readReq (windowUser u) (windowIdx 0x40000000 a.toNat) (windowSub 0x40000000 a.toNat)) = true → (readAccess (fillQueue s n) (windowUser u) (windowIdx 0x40000000 a.toNat) (windowSub 0x40000000 a.toNat)).2.1 = Sc.ok → f3 = 2 → s.spindle.core.gpr.length = 31 → 1 ≤ rd ∧ rd < 32 → Answers .coreWindowLoad s fun t =>
      t.spindle.core.x rd = scalarWord ty (readAccess (fillQueue s n) (windowUser u) (windowIdx 0x40000000 a.toNat) (windowSub 0x40000000 a.toNat)).2.2 ∧
      t.spindle.core.pc = after s n ∧ t.spindle.mem = s.spindle.mem) ∧
  (fetches s (.load f3 rd rs1 off) w n = true → triggerHit s.spindle.core 2 a = none → dataCheck s u false (accessSize f3) a = none → regionOf a.toNat = some .window → s.spindle.core.asked = none → s.spindle.dict.resps.get (windowUser u) = [] → servedAtOnce s (readReq (windowUser u) (windowIdx 0x40000000 a.toNat) (windowSub 0x40000000 a.toNat)) = true → rowAt (windowIdx 0x40000000 a.toNat) (windowSub 0x40000000 a.toNat) = none → s.spindle.core.inEntry = false → Answers .coreWindowLoad s fun t =>
      t.spindle.core.mcause = 5 ∧ t.spindle.core.mtval = a ∧ t.spindle.core.mepc = s.spindle.core.pc &&& 0xFFFFFFFE ∧ t.spindle.core.gpr = s.spindle.core.gpr ∧
      t.getU Ent.LAST_STATUS (windowUser u) = Sc.noEntry) ∧
  (∀ (q : Request), fetches s (.store 2 rs1 rs2 off) w n = true → triggerHit s.spindle.core 1 a = none → dataCheck s u true 4 a = none → regionOf a.toNat = some .window → s.spindle.core.asked = none → q = coreReq u 2 (windowIdx 0x40000000 a.toNat) (windowSub 0x40000000 a.toNat) (storedValue s u (windowIdx 0x40000000 a.toNat) (windowSub 0x40000000 a.toNat) (s.spindle.core.x rs2)).1 (storedValue s u (windowIdx 0x40000000 a.toNat) (windowSub 0x40000000 a.toNat) (s.spindle.core.x rs2)).2 → s.spindle.dict.resps.get q.user = [] → servedAtOnce s q = true → (serve (asking s n q) q).spindle.dict.resps.get q.user = [⟨q, Sc.ok, []⟩] → Answers .coreWindowStore s fun t =>
      t.ent = (serve (asking s n q) q).ent ∧ t.keeper = (serve (asking s n q) q).keeper ∧ t.spindle.core.asked = none ∧ t.spindle.dict.resps.get q.user = [] ∧ t.spindle.core.pc = after s n) ∧
  (∀ (q : Request), fetches s (.store 2 rs1 rs2 off) w n = true → triggerHit s.spindle.core 1 a = none → dataCheck s u true 4 a = none → regionOf a.toNat = some .window → s.spindle.core.asked = none → q = coreReq u 2 (windowIdx 0x40000000 a.toNat) (windowSub 0x40000000 a.toNat) (storedValue s u (windowIdx 0x40000000 a.toNat) (windowSub 0x40000000 a.toNat) (s.spindle.core.x rs2)).1 (storedValue s u (windowIdx 0x40000000 a.toNat) (windowSub 0x40000000 a.toNat) (s.spindle.core.x rs2)).2 → s.spindle.dict.resps.get q.user = [] → servedAtOnce s q = true → (serve (asking s n q) q).spindle.dict.resps.get q.user = [⟨q, Sc.claimed, []⟩] → Answers .coreWindowStore s fun t =>
      t = serve (asking s n q) q) ∧
  (∀ (q : Request) (rest : List Response), fetches s (.store 2 rs1 rs2 off) w n = true → triggerHit s.spindle.core 1 a = none → dataCheck s u true 4 a = none → regionOf a.toNat = some .window → s.spindle.core.asked = some q → s.spindle.dict.resps.get q.user = ⟨q, Sc.ok, []⟩ :: rest → Answers .coreWindowStore s fun t =>
      t.ent = s.ent ∧ t.keeper = s.keeper ∧ t.spindle.core.asked = none ∧ t.spindle.dict.resps.get q.user = rest ∧ t.spindle.core.pc = after s n) ∧
  (∀ (x : Bytes) (idx sub : Nat), fetches s (.store 2 rs1 rs2 off) w n = true → triggerHit s.spindle.core 1 a = none → dataCheck s u true 4 a = none → regionOf a.toNat = some .staging → idx = windowIdx 0x48000000 a.toNat → sub = windowSub 0x48000000 a.toNat → s.spindle.core.asked = none → s.spindle.dict.resps.get (windowUser u) = [] → storedValue s u idx sub (s.spindle.core.x rs2) = (x, true) → servedAtOnce s (Request.mk' (windowUser u) 3 idx sub x) = true → (stage s (windowUser u) idx sub x).2 = Sc.ok → Answers .coreStageStore s fun t =>
      t.spindle.dict.staged.get (windowUser u) = s.spindle.dict.staged.get (windowUser u) ++ [(entAt idx sub, leNat x)] ∧ t.spindle.core.pc = after s n)

/-- A CSR access gives rd the old value and writes the new one. A write of SVCTL sets CODE_LOCK and never clears it; one of an MPU CSR changes an unlocked region and its view. ECALL traps with cause 8 from U and 11 from M; EBREAK with cause 3 and its address, or into debug mode where dcsr says so; MRET in M returns to mepc, in U it is illegal. WFI in M waits while nothing enabled is pending, and resumes when something is. FENCE changes nothing, FENCE.I empties the prefetch queue. A due interrupt enters its handler. The watchdog's end is counted and starts the reset sequence with cause 3, or 2 after a LOCKUP. -/
def Obligations.CoreSystem : Prop :=
  ∀ (s : State) (w n f3 rd rs1 a : Nat) (x : Word),
  (fetches s (.csr f3 rd rs1 a) w n = true → coreRow s.spindle.core (.csr f3 rd rs1 a) = .csr → csrAllowed s a (csrWrites f3 rs1) s.spindle.core.user false = true → x = (if f3 < 4 then s.spindle.core.x rs1 else BitVec.ofNat 32 rs1) → Answers .csrAccess s fun t =>
      t.spindle.mem = s.spindle.mem ∧ t.spindle.core = { (if csrWrites f3 rs1 then ({ s.spindle.core with minstret := if s.spindle.core.mcountinhibit.getLsbD 2 then s.spindle.core.minstret else s.spindle.core.minstret + 1 } : Core).csrWrite a (csrNew f3 ((csrRead s a false).getD 0) x) false else { s.spindle.core with minstret := if s.spindle.core.mcountinhibit.getLsbD 2 then s.spindle.core.minstret else s.spindle.core.minstret + 1 }).setX rd ((csrRead s a false).getD 0) with pc := after s n, inEntry := false, queue := t.spindle.core.queue }) ∧
  (fetches s (.csr f3 rd rs1 0x7C0) w n = true → csrWrites f3 rs1 = true → s.spindle.core.user = false → x = csrNew f3 s.spindle.core.svctl (if f3 < 4 then s.spindle.core.x rs1 else BitVec.ofNat 32 rs1) → Answers .svctlWrite s fun t =>
      t.spindle.core.svctl.getLsbD 0 = (s.spindle.core.svctl.getLsbD 0 || x.getLsbD 0) ∧ t.spindle.core.svctl.getLsbD 1 = x.getLsbD 1 ∧
      (s.spindle.core.svctl.getLsbD 0 = false → x.getLsbD 0 = true → t.get Ent.CODE_LOCKED = 1 ∧ t.get Ent.CODE_LOCK_BY = 1) ∧ t.spindle.core.pc = after s n) ∧
  (∀ (i : Nat), fetches s (.csr f3 rd rs1 (0x7C8 + i)) w n = true → i < 8 → csrWrites f3 rs1 = true → s.spindle.core.user = false → x = csrNew f3 (s.spindle.core.mpuBase.getD i 0) (if f3 < 4 then s.spindle.core.x rs1 else BitVec.ofNat 32 rs1) → Answers .mpuCsrWrite s fun t =>
      t.spindle.core.pc = after s n ∧ t.spindle.core.mpuAttr = s.spindle.core.mpuAttr ∧
      if (s.spindle.core.mpuAttr.getD i 0).getLsbD 31 then t.spindle.core.mpuBase = s.spindle.core.mpuBase
      else t.spindle.core.mpuBase = s.spindle.core.mpuBase.set i (mpuBaseValue x) ∧ t.get (Ent.MPU_VIEW (i + 1)) = (mpuBaseValue x).toNat) ∧
  (∀ (i : Nat), fetches s (.csr f3 rd rs1 (0x7D0 + i)) w n = true → i < 8 → csrWrites f3 rs1 = true → s.spindle.core.user = false → x = csrNew f3 (s.spindle.core.mpuAttr.getD i 0) (if f3 < 4 then s.spindle.core.x rs1 else BitVec.ofNat 32 rs1) → Answers .mpuCsrWrite s fun t =>
      t.spindle.core.pc = after s n ∧ t.spindle.core.mpuBase = s.spindle.core.mpuBase ∧
      if (s.spindle.core.mpuAttr.getD i 0).getLsbD 31 then t.spindle.core.mpuAttr = s.spindle.core.mpuAttr
      else t.spindle.core.mpuAttr = s.spindle.core.mpuAttr.set i (mpuAttrValue x) ∧ t.get (Ent.MPU_VIEW (i + 9)) = (mpuAttrValue x).toNat) ∧
  (fetches s .ecall w n = true → Answers .ecall s fun t =>
      if s.spindle.core.inEntry then t.spindle.lockedUp = true ∧ t.spindle.lockEpc = s.spindle.core.pc
      else t.spindle.core = s.spindle.core.enterTrap (if s.spindle.core.user then 8 else 11) false 0 ∧ Counted s t (Ent.TRAPS ((if s.spindle.core.user then 8 else 11) + 1))) ∧
  (fetches s .ebreak w n = true → ebreakHalts s.spindle.core = false → s.spindle.core.inEntry = false → Answers .ebreak s fun t =>
      t.spindle.core = s.spindle.core.enterTrap 3 false s.spindle.core.pc ∧ Counted s t (Ent.TRAPS 4)) ∧
  (fetches s .ebreak w n = true → ebreakHalts s.spindle.core = true → Answers .ebreak s fun t =>
      t.spindle.core.halted = true ∧ t.spindle.core.dpc = s.spindle.core.pc ∧ t.get Ent.CORE_STATE = 4 ∧ Counted s t Ent.DEBUG_HALTS) ∧
  (fetches s .mret w n = true → s.spindle.core.user = false → Answers .mret s fun t =>
      Retires s t s.spindle.core.mret s.spindle.core.mepc ∧ t.spindle.mem = s.spindle.mem ∧ t.ent = s.ent) ∧
  (fetches s .mret w n = true → s.spindle.core.user = true → s.spindle.core.inEntry = false → Answers .mret s fun t =>
      t.spindle.core = s.spindle.core.enterTrap 2 false (BitVec.ofNat 32 w) ∧ Counted s t (Ent.TRAPS 3)) ∧
  (fetches s .wfi w n = true → s.spindle.core.user = false → Answers .wfi s fun t =>
      Retires s t { s.spindle.core with waiting := s.spindle.core.waiting || enabledIrqs s == 0 } (after s n) ∧ t.spindle.mem = s.spindle.mem ∧ t.ent = s.ent) ∧
  (coreRuns s = true → enabledIrqs s ≠ 0 → Answers .wfiResume s fun t =>
      t = s.onCore fun c => { c with waiting := false }) ∧
  (fetches s .fence w n = true → Answers .fence s fun t =>
      Retires s t s.spindle.core (after s n) ∧ t.spindle.mem = s.spindle.mem ∧ t.ent = s.ent) ∧
  (fetches s .fenceI w n = true → Answers .fenceI s fun t =>
      Retires s t s.spindle.core (after s n) ∧ t.spindle.core.queue = [] ∧ t.spindle.mem = s.spindle.mem ∧ t.ent = s.ent) ∧
  (∀ (cause : Nat), coreRuns s = true → s.spindle.core.asked = none → dueIrq s = some cause → s.spindle.core.dcsr.getLsbD 2 = false → Answers .interruptTaken s fun t =>
      t.spindle.core = { s.spindle.core.enterTrap cause true 0 with waiting := false } ∧ Counted s t (Ent.INTERRUPTS (irqIndex cause))) ∧
  (s.keeper.wdt.isSome = true → s.spindle.core.halted = false → s.keeper.seq = .released → s.flyer.up = true → Answers .wdtExpiry s fun t =>
      t.keeper.wdt = none ∧ wdtLeft t = 0 ∧ Counted s t Ent.WDT_BITES ∧ t.get Ent.RESET_CAUSE = (if s.keeper.lockedUp then 2 else 3) ∧ t.keeper.seq = .quiet (if s.keeper.lockedUp then 2 else 3))

/-- With the port open and the hart available, a halt request halts it with the pc in dpc, or is held while the in-entry flag is set or a window access blocks the core; a resume continues at dpc at the privilege of dcsr; a single step executes one instruction and halts again. On the halted hart abstract commands read and write registers and CSRs, and run the program buffer; while it runs they are refused. An error stands, and nothing starts, until the debugger clears it. The TAP takes its instruction; with the port closed, or before handover, all but IDCODE is BYPASS. Details not in R235 follow log 62. -/
def Obligations.DebugCommands : Prop :=
  ∀ (s : State),
  (debugReaches s = true → s.spindle.core.halted = false → s.spindle.core.inEntry = false → s.spindle.core.asked = none → Answers .debugHalt s fun t =>
      t.spindle.core.halted = true ∧ t.spindle.core.dpc = s.spindle.core.pc ∧ t.get Ent.CORE_STATE = 4 ∧ Counted s t Ent.DEBUG_HALTS) ∧
  (debugReaches s = true → s.spindle.core.halted = false → s.spindle.core.inEntry = true ∨ s.spindle.core.asked.isSome = true → Answers .debugHalt s fun t =>
      t = s.onCore fun c => { c with haltOwed := true }) ∧
  (debugReaches s = true → s.spindle.core.halted = true → s.spindle.core.progAt = none → Answers .debugResume s fun t =>
      t.spindle.core.halted = false ∧ t.spindle.core.pc = s.spindle.core.dpc ∧ t.spindle.core.user = (bits s.spindle.core.dcsr.toNat 1 0 == 0) ∧ t.get Ent.CORE_STATE = 2) ∧
  (debugReaches s = true → s.spindle.core.halted = true → s.spindle.core.progAt = none → Answers .debugSingleStep s fun t =>
      t.spindle.core.halted = true ∨ t.spindle.lockedUp = true ∨ t.spindle.core.asked.isSome = true) ∧
  (∀ (r : State), debugReaches s = true → s.spindle.core.halted = true → s.spindle.core.progAt = none → (r = (leaveDebug s).onCore fun c => { c with dcsr := c.dcsr ||| 4 }) → dueIrq r = none → triggerHit r.spindle.core 0 r.spindle.core.pc = none → fetchHalf r r.spindle.core.pc = .ok 0x0093 → fetchHalf r (r.spindle.core.pc + 2) = .ok 0x0050 → s.spindle.core.gpr.length = 31 → Answers .debugSingleStep s fun t =>
      t.spindle.core.halted = true ∧ t.spindle.core.dpc = s.spindle.core.dpc + 4 ∧ t.spindle.core.x 1 = 5) ∧
  (∀ (a : Abstract), debugReaches s = true → s.spindle.core.halted = false → s.spindle.core.progAt = none → s.spindle.core.cmderr = 0 → a ≠ .clearError → Answers (.debugAbstractCommand a) s fun t =>
      t = s.onCore fun c => { c with cmderr := 4 }) ∧
  (∀ (a : Abstract), debugReaches s = true → s.spindle.core.progAt = none → s.spindle.core.cmderr ≠ 0 → a ≠ .clearError → Answers (.debugAbstractCommand a) s fun t => t = s) ∧
  (debugReaches s = true → Answers (.debugAbstractCommand .clearError) s fun t => t = s.onCore fun c => { c with cmderr := 0 }) ∧
  (∀ (n : Nat), debugIdle s = true → s.spindle.core.cmderr = 0 → n < 32 → Answers (.debugAbstractCommand (.readGpr n)) s fun t =>
      t.spindle.core = { s.spindle.core with data0 := s.spindle.core.x n }) ∧
  (∀ (n : Nat) (v : Word), debugIdle s = true → s.spindle.core.cmderr = 0 → n < 32 → Answers (.debugAbstractCommand (.writeGpr n v)) s fun t =>
      t.spindle.core = { s.spindle.core.setX n v with data0 := v }) ∧
  (∀ (n : Nat) (v : Word), debugIdle s = true → s.spindle.core.cmderr = 0 → csrRead s n true = some v → Answers (.debugAbstractCommand (.readCsr n)) s fun t =>
      t.spindle.core = { s.spindle.core with data0 := v }) ∧
  (∀ (n : Nat) (v : Word), debugIdle s = true → s.spindle.core.cmderr = 0 → csrAllowed s n true false true = true → Answers (.debugAbstractCommand (.writeCsr n v)) s fun t =>
      t = writeCsr (s.onCore fun c => { c with data0 := v }) n v true) ∧
  (∀ (v : Word), debugIdle s = true → s.spindle.core.cmderr = 0 → s.spindle.core.gpr.length = 31 → Answers (.debugAbstractCommand (.runProgram 0x00500093 v)) s fun t =>
      t.spindle.core.progbuf = [0x00500093, v] ∧ (v = 0x00100073 → t.spindle.core.x 1 = 5 ∧ t.spindle.core.halted = true ∧ t.spindle.core.cmderr = 0)) ∧
  (∀ (n : Nat), s.spindle.alive = true → Answers (.tapInstruction n) s fun t =>
      t.spindle = { s.spindle with tapIr := tapSelects (s.spindle.core.debugOpen && s.spindle.handed) n })

/-! ## Booting, keys, the flash -/

/-- Without a good SFDP header discovery falls back to 0x110000 bytes and the read 0x03; with one it takes the size and the read of the tables, and fails with reason 7 where addresses have 4 bytes only or the flash is too small. SELECT takes the preferred slot, or the other while the alternation bit is set, and fails with reason 2 or 1 where it is no candidate. The manifest is read into crypto scratch; a malformed one fails with reason 1, an unusable key with 3, and the unbound key of a BLANK or MAKER part asks for the verification with BOOT_KEY 0xFF. The signature starts the stream or fails with 5. A half-block puts its flash bytes into code SRAM, changes no other byte of it, and places its hash job. A digest that matches counts its block, another fails with 6 and names the block. The close reports 0, clears scratch and every byte of code SRAM above the load size. An invalid state word fails with 0x0A. -/
def Obligations.LoaderSteps : Prop :=
  ∀ (s : State),
  (∀ (sfdp : Bytes) (qe : Bool), loaderAt s 1 = true → sfdpGood sfdp = false → Answers (.loaderDiscovery sfdp qe) s fun t =>
      t.spindle.loader.word = wideCode 2 ∧ t.spindle.loader.fallback = true ∧ t.spindle.loader.size = 0x110000 ∧ t.spindle.loader.mode = 0 ∧ t.spindle.loader.read = modeRead 0 0 1 ∧
      t.spindle.loader.eraseOk = false ∧ t.spindle.loader.div = (readDirectory (flashBytes s 0 32)).2.2) ∧
  (∀ (sfdp : Bytes) (qe : Bool) (base : Nat), loaderAt s 1 = true → sfdpGood sfdp = true → base = leNat ((sfdp.drop 12).take 3) → Answers (.loaderDiscovery sfdp qe) s fun t =>
      t.spindle.loader.size = flashSize (bfptWord sfdp base 2) ∧
      if bits (bfptWord sfdp base 1) 18 17 = 2 ∨ flashSize (bfptWord sfdp base 2) < 0x110000 then t.spindle.loader.word = wideCode 6 ∧ t.spindle.loader.report = some 7
      else t.spindle.loader.word = wideCode 2 ∧ t.spindle.loader.report = s.spindle.loader.report ∧ t.spindle.loader.mode ∈ ([1, 2, 3] : List Nat) ∧
        t.spindle.loader.read = modeRead t.spindle.loader.mode (bfptWord sfdp base 3) t.spindle.loader.div) ∧
  (∀ (k : Nat) (a b hd : Bytes), loaderAt s 2 = true → a = flashBytes s 0x10000 32 → b = flashBytes s 0x90000 32 → k = (if s.keeper.altBit then 1 - preferred s a b else preferred s a b) → hd = (if k = 0 then a else b) → Answers .loaderSelect s fun t =>
      t.spindle.loader.slot = k ∧ t.spindle.loader.headA = a ∧ t.spindle.loader.headB = b ∧
      if candidate s hd then t.spindle.loader.word = wideCode 3 ∧ t.spindle.loader.report = s.spindle.loader.report
      else t.spindle.loader.word = wideCode 6 ∧ t.spindle.loader.report = some (if wellFormed hd then 2 else 1)) ∧
  (∀ (a : Nat), loaderAt s 3 = true → s.spindle.bn.loader = false → s.spindle.bn.running ≠ some .loader → a = slotBase s.spindle.loader.slot → wellFormed (flashBytes s a 32) = true → oemUnbound s = true → Answers .loaderManifestRead s fun t =>
      t.spindle.mem.scratch.getAll 0 4096 = flashBytes s a 4096 ∧ t.spindle.bn.loader = true ∧ t.spindle.loader.key = 0xFF ∧ t.spindle.loader.word = wideCode 3) ∧
  (loaderAt s 3 = true → s.spindle.bn.loader = false → s.spindle.bn.running ≠ some .loader → wellFormed (flashBytes s (slotBase s.spindle.loader.slot) 32) = false → Answers .loaderManifestRead s fun t =>
      t.spindle.loader.word = wideCode 6 ∧ t.spindle.loader.report = some 1 ∧ t.spindle.bn.loader = false) ∧
  (∀ (a k : Nat), loaderAt s 3 = true → s.spindle.bn.loader = false → s.spindle.bn.running ≠ some .loader → a = slotBase s.spindle.loader.slot → wellFormed (flashBytes s a 32) = true → oemUnbound s = false → k = manKey (slotHead s.spindle.loader s.spindle.loader.slot) → oemUsable s k = false ∨ sha256 (flashBytes s (a + 32) 64) ≠ oemHash s k → Answers .loaderManifestRead s fun t =>
      t.spindle.loader.word = wideCode 6 ∧ t.spindle.loader.report = some 3 ∧ t.spindle.bn.loader = false) ∧
  (loaderAt s 3 = true → s.spindle.bn.running = some .loader → Answers .loaderSignatureDone s fun t =>
      t.spindle.bn.running = none ∧
      if ecdsaVerify (manifestBytes s 32 64) (sha256 (manifestBytes s 0 4032)) (manifestBytes s 4032 64) = none then t.spindle.loader.word = wideCode 4 ∧ t.spindle.loader.report = s.spindle.loader.report
      else t.spindle.loader.word = wideCode 6 ∧ t.spindle.loader.report = some 5) ∧
  (∀ (l : Loader) (n buf : Nat), loaderAt s 4 = true → l = s.spindle.loader → n = halfLength l → n ≠ 0 → buf = 0x1000 + l.got / 2048 % 2 * 0x800 → s.spindle.shaJobs.length < 2 → Answers .loaderHalfBlock s fun t =>
      t.spindle.loader = { l with got := l.got + n } ∧ t.spindle.mem.scratch.getAll buf n = flashBytes s (slotBase l.slot + 0x1000 + l.got) n ∧
      t.spindle.shaJobs = s.spindle.shaJobs ++ [.half (0x30000000 + buf) n (l.got + n == min (loadSize l) (4096 * (l.got / 4096) + 4096))] ∧
      ∀ x, t.spindle.mem.code.get x = if l.got ≤ x ∧ x < l.got + n then s.spindle.mem.flash.get ((slotBase l.slot + 0x1000 + x) % 2 ^ 24) else s.spindle.mem.code.get x) ∧
  (∀ (l : Loader) (d : Bytes), loaderAt s 4 = true → l = s.spindle.loader → l.digest = some d → Answers .loaderBlockDigest s fun t =>
      if d = manifestBytes s (96 + 32 * l.block) 32 then t.spindle.loader = { l with digest := none, block := l.block + 1 }
      else t.spindle.loader = { l with word := wideCode 6, report := some 6, digest := none, failBlock := l.block }) ∧
  (∀ (n : Nat), loaderAt s 4 = true → n = loadSize s.spindle.loader → n ≤ 4096 * s.spindle.loader.block → Answers .loaderClose s fun t =>
      t.spindle.loader.word = wideCode 5 ∧ t.spindle.loader.report = some 0 ∧ t.spindle.mem.scratch = {} ∧
      ∀ x, t.spindle.mem.code.get x = if x < n then s.spindle.mem.code.get x else 0) ∧
  (∀ (c : Instr) (sfdp : Bytes) (qe : Bool), s.spindle.alive = true → s.spindle.handed = false → (∀ k < 6, s.spindle.loader.word ≠ wideCode (k + 1)) → c ∈ [.loaderDiscovery sfdp qe, .loaderSelect, .loaderManifestRead, .loaderSignatureDone, .loaderHalfBlock, .loaderBlockDigest, .loaderClose] → Answers c s fun t =>
      t.spindle.loader.word = wideCode 6 ∧ t.spindle.loader.report = some 0x0A)

/-- The report 0 hands the core over: it starts in code SRAM at the manifest's entry with x10 and x11 naming slot and sequence, BOOT_FAILS returns to 0, the loader's time is over. Another reason, or 500 ms without a report, is a failed attempt: LAST_FAIL holds reason, slot and block, BOOT_FAILS counts up to its end, the alternation bit turns, and the reset sequence begins. When the 64 s are over the spindle die is released. -/
def Obligations.BootOutcome : Prop :=
  ∀ (s : State) (l : Loader), l = s.spindle.loader →
  (∀ (x : Bytes), s.spindle.alive = true → s.spindle.handed = false → l.report = some 0 → x = slotHead l l.slot → Answers .bootReport s fun t =>
      t.spindle.handed = true ∧ t.spindle.core.pc = BitVec.ofNat 32 (0x10000000 + manEntry x) ∧ t.spindle.core.x 10 = BitVec.ofNat 32 l.slot ∧
      t.spindle.core.x 11 = BitVec.ofNat 32 (manSequence x) ∧ t.get Ent.BOOT_FAILS = 0 ∧ t.get Ent.CORE_STATE = 2 ∧ t.get Ent.BOOT_SLOT = l.slot ∧
      t.get Ent.BOOT_SEQ = manSequence x ∧ t.get Ent.BOOT_KEY = l.key) ∧
  (∀ (r : Nat), s.spindle.alive = true → s.spindle.handed = false → l.report = some r → r ≠ 0 → s.flyer.up = true → s.keeper.seq = .released → Answers .bootReport s fun t =>
      t.keeper.seq = .quiet 7 ∧ t.get Ent.BOOT_FAILS = min (s.get Ent.BOOT_FAILS + 1) 65535 ∧ t.keeper.altBit = !s.keeper.altBit ∧
      t.get Ent.LAST_FAIL = r + 256 * l.slot + 65536 * l.failBlock ∧ Counted s t Ent.BOOT_ATTEMPTS ∧ t.keeper.attempt = false) ∧
  (s.keeper.attempt = true → s.spindle.alive = true → s.spindle.handed = false → l.report = none → s.flyer.up = true → s.keeper.seq = .released → Answers .bootAttemptTimeout s fun t =>
      t.keeper.seq = .quiet 7 ∧ t.get Ent.BOOT_FAILS = min (s.get Ent.BOOT_FAILS + 1) 65535 ∧ t.keeper.altBit = !s.keeper.altBit ∧
      t.get Ent.LAST_FAIL = 9 + 256 * l.slot + 65536 * l.failBlock ∧ Counted s t Ent.BOOT_ATTEMPTS) ∧
  (s.keeper.seq = .heldBackoff → s.keeper.vddValid = true → s.keeper.live = true → s.keeper.nrstLow = false → domState s .core ≠ 0 → domState s .core ≠ 3 → Answers .bootRetryDelayExpiry s fun t =>
      t.keeper.seq = .released ∧ t.spindle.alive = true ∧ t.keeper.attempt = true ∧ t.spindle.loader = {})

/-- A write of FL_OP that passes its checks starts the operation at FL_ADDR and shows it in FL_STATUS; one that does not answers its code and changes nothing else. A completed read gives FL_DATA the 64 bytes; a program clears bits of exactly its 64 bytes; an erase sets exactly its 4,096 bytes (the model's reading of a NOR flash, log 46). A timeout ends the operation with TIMEOUT. ROLLBACK_COMMIT raises the counter to that of the booted image and never lowers it. A rotation programs slot 1 where it verifies and answers INTEGRITY where not. KEY_REVOKE0 revokes slot 0. A one-time write is handed to the keeper, and its commit stores its value and uses it up. -/
def Obligations.FlashAndKeys : Prop :=
  ∀ (s : State) (u : User) (v : Nat),
  (accepts s (numReq u Ent.FL_OP 1) = true → Serves (.flOpRead u) s (numReq u Ent.FL_OP 1) (if flOpStatus s 1 = Sc.ok then
      ((onFlBus s (flOpBus s.spindle.loader 1 (s.get Ent.FL_ADDR))).onSpindle fun x => { x with flOp := some (1, s.get Ent.FL_ADDR) }).put Ent.FL_STATUS (s.get Ent.FL_STATUS / 256 * 256 + 1) else s) (flOpStatus s 1)) ∧
  (accepts s (numReq u Ent.FL_OP 2) = true → Serves (.flOpProgram u) s (numReq u Ent.FL_OP 2) (if flOpStatus s 2 = Sc.ok then
      ((onFlBus s (flOpBus s.spindle.loader 2 (s.get Ent.FL_ADDR))).onSpindle fun x => { x with flOp := some (2, s.get Ent.FL_ADDR) }).put Ent.FL_STATUS (s.get Ent.FL_STATUS / 256 * 256 + 1) else s) (flOpStatus s 2)) ∧
  (accepts s (numReq u Ent.FL_OP 3) = true → Serves (.flOpErase u) s (numReq u Ent.FL_OP 3) (if flOpStatus s 3 = Sc.ok then
      ((onFlBus s (flOpBus s.spindle.loader 3 (s.get Ent.FL_ADDR))).onSpindle fun x => { x with flOp := some (3, s.get Ent.FL_ADDR) }).put Ent.FL_STATUS (s.get Ent.FL_STATUS / 256 * 256 + 1) else s) (flOpStatus s 3)) ∧
  (∀ (a : Nat), s.spindle.flOp = some (1, a) → Answers .flOpComplete s fun t =>
      t.get Ent.FL_DATA = leNat (flashBytes s a 64) ∧ t.spindle.flOp = none ∧ t.get Ent.FL_STATUS = 0 ∧ t.spindle.mem = s.spindle.mem) ∧
  (∀ (a : Nat), s.spindle.flOp = some (2, a) → a + 64 ≤ 2 ^ 24 → Answers .flOpComplete s fun t =>
      t.spindle.flOp = none ∧ t.get Ent.FL_STATUS = 0 ∧ ∀ x, t.spindle.mem.flash.get x = if a ≤ x ∧ x < a + 64 then s.spindle.mem.flash.get x &&& (leBytes 64 (s.get Ent.FL_DATA)).getD (x - a) 0 else s.spindle.mem.flash.get x) ∧
  (∀ (a : Nat), s.spindle.flOp = some (3, a) → Answers .flOpComplete s fun t =>
      t.spindle.flOp = none ∧ t.get Ent.FL_STATUS = 0 ∧ ∀ x, t.spindle.mem.flash.get x = if a ≤ x ∧ x < a + 4096 then 0xFF else s.spindle.mem.flash.get x) ∧
  (s.spindle.flOp ≠ none → Answers .flOpTimeout s fun t =>
      t.spindle.flOp = none ∧ t.get Ent.FL_STATUS = 256 * Sc.timeout) ∧
  (v = 1 → accepts s (numReq u Ent.ROLLBACK_COMMIT v) = true → s.get Ent.ROLLBACK_COUNTER < 65535 → Answers (.rollbackCommit u v) s fun t =>
      t.get Ent.ROLLBACK_COUNTER = max (s.get Ent.ROLLBACK_COUNTER) (s.get Ent.BOOT_RBV) ∧ t.getU Ent.LAST_STATUS u = Sc.ok) ∧
  (∀ (x : Bytes), accepts s (octReq u Ent.ROT_SIG x) = true → s.keeper.oem1 = false → oemUsable s 0 = true → 2400 ≤ s.keeper.vddMv → Answers (.rotSig u x) s fun t =>
      if rotVerifies s x then t.keeper.oem1 = true ∧ t.get Ent.OEM_KEY_HASH1 = s.get Ent.ROT_NEW_HASH ∧ t.getU Ent.LAST_STATUS u = Sc.ok
      else t.keeper.oem1 = false ∧ t.get Ent.OEM_KEY_HASH1 = s.get Ent.OEM_KEY_HASH1 ∧ t.getU Ent.LAST_STATUS u = Sc.integrity) ∧
  (v = 1 → accepts s (numReq u Ent.KEY_REVOKE0 v) = true → s.get Ent.BOOT_KEY = 1 → 2400 ≤ s.keeper.vddMv → Answers (.keyRevoke0 u v) s fun t =>
      t.keeper.revoked0 = true ∧ t.getU Ent.LAST_STATUS u = Sc.ok) ∧
  (∀ (idx sub : Nat) (x : Bytes), (rowAt idx sub).map (·.cls) = some .f → (rowAt idx sub).map (·.action) = some false → accepts s (writeReq u idx sub x) = true → Starts (.fOneTimeWrite u idx sub x) s (writeReq u idx sub x) (entAt idx sub) (leNat x)) ∧
  (∀ (idx sub : Nat) (x : Bytes), (rowAt idx sub).map (·.cls) = some .f → Commits s (writeReq u idx sub x) (entAt idx sub) (leNat x) fun t =>
      t.get (entAt idx sub) = leNat x ∧ entAt idx sub ∈ t.keeper.written ∧ (entAt idx sub = Ent.OEM_KEY_HASH0 → t.keeper.oem0 = true))

/-! ## Keys, the cipher pages, SHA-256 -/

/-- KDF_DERIVE puts the key of R262, of the user's own label, ID and life-cycle, into its page and its check value into KEY_CHECK; while the engine cannot take it, it waits as a job of queue 08, which derives when it runs. EXP_KEY gives a port's key of a later life-cycle state, counted. AES_START begins a message of the mode, the lengths and the IV, and answers RANGE for lengths that break R270. AES_IN encrypts and decrypts CBC and CTR into AES_OUT, absorbs AAD, and returns INTEGRITY with AES_OUT 0 where a tag fails. AES_OUT is read once. AES_CLEAR clears the page but for state 6 and the masking generator, and the ephemeral slot. A memory job is queued; run, it has left the queue, and one of CBC has written its ciphertext. -/
def Obligations.PageCommands : Prop :=
  ∀ (s : State) (u : User) (v : Nat) (x : Bytes),
  (∀ (n : Nat), accepts s (numReq u Ent.KDF_DERIVE v) = true → engineFree s (numReq u Ent.KDF_DERIVE v) .aes = true → inMessage (page s u) = false → n = s.getU Ent.KDF_KEYLEN u → Answers (.kdfDerive u v) s fun t =>
      (page t u).key = kdfKey (leBytes 16 (s.getU Ent.KDF_LABEL u)) 0 (userId u) (lcWord s) n ∧ (page t u).state = 1 ∧ t.getU Ent.KEY_STATE u = n / 16 ∧
      t.getU Ent.KEY_CHECK u = leNat ((cmac (page t u).key []).take 4) ∧ t.getU Ent.LAST_STATUS u = Sc.ok ∧ ∀ w, w ≠ u → page t w = page s w) ∧
  (accepts s (numReq u Ent.KDF_DERIVE v) = true → engineFree s (numReq u Ent.KDF_DERIVE v) .aes = false → inMessage (page s u) = false → (page s u).jobs = [] → Answers (.kdfDerive u v) s fun t =>
      (page t u).jobs = [.req (numReq u Ent.KDF_DERIVE v)] ∧ (page t u).key = (page s u).key ∧ t.getU Ent.LAST_STATUS u = s.getU Ent.LAST_STATUS u) ∧
  (∀ (who lc : Nat), readable s (readReq u (Ent.EXP_KEY / 256) (Ent.EXP_KEY % 256)) = true → who = s.getU Ent.EXP_USER u → lc = s.getU Ent.EXP_LC u → 0x13 ≤ who ∧ who ≤ 0x17 → lc = lcCode .owned ∨ lc = lcCode .field → engineFree s (readReq u (Ent.EXP_KEY / 256) (Ent.EXP_KEY % 256)) .aes = true → Serves (.expKeyRead u) s (readReq u (Ent.EXP_KEY / 256) (Ent.EXP_KEY % 256)) (expKey s u).1 Sc.ok
        (fitBytes 32 (kdfKey (leBytes 16 (s.getU Ent.EXP_LABEL u)) 0 who lc (s.getU Ent.EXP_KEYLEN u))) ∧ Counted s (expKey s u).1 Ent.EXP_COUNT) ∧
  (∀ (mode aad msg : Nat), accepts s (numReq u Ent.AES_START v) = true → mode = s.getU Ent.AES_MODE u → aad = s.getU Ent.AAD_LEN u → msg = s.getU Ent.MSG_LEN u → (page s u).key ≠ [] → engineFree s (numReq u Ent.AES_START v) .aes = true → Answers (.aesStart u v) s fun t =>
      if lengthsOk mode aad msg then t.getU Ent.LAST_STATUS u = Sc.ok ∧
        unmasked (page t u) = { unmasked (pageStart (page s u) mode aad msg (leBytes 16 (s.getU Ent.AES_IV u))) with
                       state := if 4 ≤ mode ∧ aad + msg = 0 then 4 else if aad = 0 then 3 else 2 }
      else t.getU Ent.LAST_STATUS u = Sc.range ∧ page t u = page s u) ∧
  (∀ (p : Page), accepts s (octReq u Ent.AES_IN x) = true → p = page s u → p.state = 3 → p.unread = false → engineFree s (octReq u Ent.AES_IN x) .aes = true → p.buf = [] → 64 < p.msgLeft → Answers (.aesIn u x) s fun t =>
      (page t u).unread = decide (s.getU Ent.AES_MODE u ≠ 4) ∧ (page t u).msgLeft = p.msgLeft - 64 ∧ t.getU Ent.LAST_STATUS u = Sc.ok ∧
      (s.getU Ent.AES_MODE u = 1 → t.getU Ent.AES_OUT u = leNat (cbcEncrypt p.key 4 p.run x).1 ∧ (page t u).run = (cbcEncrypt p.key 4 p.run x).2) ∧
      (s.getU Ent.AES_MODE u = 2 → t.getU Ent.AES_OUT u = leNat (cbcDecrypt p.key 4 p.run x).1 ∧ (page t u).run = (cbcDecrypt p.key 4 p.run x).2) ∧
      (s.getU Ent.AES_MODE u = 3 → t.getU Ent.AES_OUT u = leNat (ctrBlocks p.key ctrInc 4 p.run x).1 ∧ (page t u).run = (ctrBlocks p.key ctrInc 4 p.run x).2)) ∧
  (∀ (p : Page), accepts s (octReq u Ent.AES_IN x) = true → p = page s u → p.state = 2 → p.unread = false → engineFree s (octReq u Ent.AES_IN x) .aes = true → p.buf = [] → 64 < p.aadLeft → Answers (.aesIn u x) s fun t =>
      (page t u).mac = ghash p.h p.mac x ∧ (page t u).aadLeft = p.aadLeft - 64 ∧ (page t u).state = 2 ∧ (page t u).unread = false ∧ t.getU Ent.LAST_STATUS u = Sc.ok) ∧
  (accepts s (octReq u Ent.AES_IN x) = true → inMessage (page s u) = true → (page s u).unread = false → engineFree s (octReq u Ent.AES_IN x) .aes = true → (feedChunk (demand s .crypto) u x).2.2 = true → Answers (.aesIn u x) s fun t =>
      t.getU Ent.AES_OUT u = 0 ∧ (page t u).state = 5 ∧ (page t u).unread = false ∧ t.getU Ent.LAST_STATUS u = Sc.integrity) ∧
  (readable s (readReq u (Ent.AES_OUT / 256) (Ent.AES_OUT % 256)) = true → Serves (.aesOutRead u) s (readReq u (Ent.AES_OUT / 256) (Ent.AES_OUT % 256)) (if (page s u).unread then s.onPage u fun p => { p with unread := false } else s)
      (if (page s u).unread then Sc.ok else Sc.state) (if (page s u).unread then leBytes 64 (s.getU Ent.AES_OUT u) else [])) ∧
  (accepts s (numReq u Ent.AES_CLEAR v) = true → Answers (.aesClear u v) s fun t =>
      PageCleared s t u ∧ (bnUser t u).eph = [] ∧ t.getU Ent.KEY_STATE u = 0 ∧ t.getU Ent.KEY_CHECK u = 0 ∧ t.getU Ent.AES_OUT u = 0 ∧ t.getU Ent.AES_TAG u = 0 ∧
      t.getU Ent.LAST_STATUS u = Sc.ok) ∧
  (∀ (src dst n : Nat), accepts s (numReq u Ent.AES_MEM_GO v) = true → src = s.get Ent.AES_MEM_SRC → dst = s.get Ent.AES_MEM_DST → n = s.get Ent.AES_MEM_LEN → inMessage (page s .M) = true → memJobRange src n false = true → memJobRange dst n false = true → src % 4 = 0 ∧ dst % 4 = 0 ∧ n ≤ partLeft (page s .M) → src = dst ∨ src + n ≤ dst ∨ dst + n ≤ src → (page s .M).jobs.length < 2 → Answers (.aesMemGo u v) s fun t =>
      (page t .M).jobs = (page s .M).jobs ++ [.mem src dst n] ∧ t.getU Ent.LAST_STATUS u = Sc.ok) ∧
  (∀ (src dst n : Nat) (more : List PageJob) (p : Page), p = page s u → aesNext s = some u → p.jobs = .mem src dst n :: more → pageJobRuns s u (.mem src dst n) = true → p.owes = false → p.blocks + n + 16 < 1024 → Answers (.cryptoJobComplete .aes) s fun t =>
      (page t u).jobs = more ∧ t.spindle.aesLast = u ∧ t.spindle.core.jobDone = true ∧
      (s.getU Ent.AES_MODE u = 1 → p.state = 3 → p.buf = [] → 0 < n → n ≤ 64 → n % 16 = 0 → n ≤ p.msgLeft → memJobRange src n false = true → memJobRange dst n false = true →
        memRead t dst n = (cbcEncrypt p.key (n / 16) p.run (memRead s src n)).1 ∧ (page t u).run = (cbcEncrypt p.key (n / 16) p.run (memRead s src n)).2)) ∧
  (∀ (n : Nat) (more : List PageJob), aesNext s = some u → (page s u).jobs = .req (numReq u Ent.KDF_DERIVE v) :: more → pageJobRuns s u (.req (numReq u Ent.KDF_DERIVE v)) = true → inMessage (page s u) = false → memBusy (page s u) = false → v = 1 → (rowAt (Ent.KDF_DERIVE / 256) (Ent.KDF_DERIVE % 256)).map (fun r => writeStatus s u r Ent.KDF_DERIVE (numReq u Ent.KDF_DERIVE v).value) = some Sc.ok → n = s.getU Ent.KDF_KEYLEN u → Answers (.cryptoJobComplete .aes) s fun t =>
      (page t u).jobs = more ∧ (page t u).key = kdfKey (leBytes 16 (s.getU Ent.KDF_LABEL u)) 0 (userId u) (lcWord s) n ∧ (page t u).state = 1)

/-- SHA_INIT begins an empty message; SHA_DATA and a completed memory job add their bytes to it; SHA_LAST adds the first SHA_LAST_LEN bytes, and SHA_DIGEST holds SHA-256 of the whole message. SHA_MEM_GO queues a job, and SHA_DATA does while the engine is not free; the job adds its bytes when it runs. The loader's last half-block of a block leaves the digest of the block. Without a context data answers STATE. -/
def Obligations.HashCommands : Prop :=
  ∀ (s : State) (u : User) (v : Nat) (x m : Bytes),
  (accepts s (numReq u Ent.SHA_INIT v) = true → ownWaits s u .sha = false → shaMemBusy s u = false → Answers (.shaInit u v) s fun t =>
      shaCtx t u = hashed [] ∧ t.spindle.shaJobs = s.spindle.shaJobs ∧ t.getU Ent.LAST_STATUS u = Sc.ok) ∧
  (accepts s (octReq u Ent.SHA_DATA x) = true → engineFree s (octReq u Ent.SHA_DATA x) .sha = true → shaCtx s u = hashed m → Answers (.shaData u x) s fun t =>
      shaCtx t u = hashed (m ++ x) ∧ t.getU Ent.LAST_STATUS u = Sc.ok) ∧
  (accepts s (octReq u Ent.SHA_DATA x) = true → engineFree s (octReq u Ent.SHA_DATA x) .sha = false → s.spindle.shaJobs.length < 2 → shaMemBusy s u = false → shaCtx s u = hashed m → Answers (.shaData u x) s fun t =>
      shaCtx t u = hashed m ∧ t.spindle.shaJobs = s.spindle.shaJobs ++ [.req (octReq u Ent.SHA_DATA x)] ∧ t.getU Ent.LAST_STATUS u = s.getU Ent.LAST_STATUS u) ∧
  (accepts s (octReq u Ent.SHA_DATA x) = true → ownWaits s u .sha = false → (shaCtx s u).open_ = false → Serves (.shaData u x) s (octReq u Ent.SHA_DATA x) s Sc.state) ∧
  (∀ (n : Nat), accepts s (octReq u Ent.SHA_LAST x) = true → engineFree s (octReq u Ent.SHA_LAST x) .sha = true → shaCtx s u = hashed m → n = s.getU Ent.SHA_LAST_LEN u → Answers (.shaLast u x) s fun t =>
      t.getU Ent.SHA_DIGEST u = leNat (sha256 (m ++ x.take n)) ∧ (shaCtx t u).open_ = false ∧ (shaCtx t u).ready = true ∧ t.getU Ent.LAST_STATUS u = Sc.ok) ∧
  (∀ (a n : Nat), accepts s (numReq u Ent.SHA_MEM_GO v) = true → a = s.get Ent.SHA_MEM_ADDR → n = s.get Ent.SHA_MEM_LEN → (shaCtx s .M).open_ = true → memJobRange a n true = true → a % 4 = 0 → s.spindle.shaJobs.length < 2 → Answers (.shaMemGo u v) s fun t =>
      t.spindle.shaJobs = s.spindle.shaJobs ++ [.mem a n] ∧ t.getU Ent.LAST_STATUS u = Sc.ok) ∧
  (∀ (a n : Nat), shaNext s = some (.mem a n) → cryptoOn s = true → memAtHand s a = true → shaCtx s .M = hashed m → Answers (.cryptoJobComplete .sha) s fun t =>
      shaCtx t .M = hashed (m ++ memRead s a n) ∧ t.spindle.shaJobs = s.spindle.shaJobs.erase (.mem a n) ∧ t.spindle.core.jobDone = true) ∧
  (∀ (a n : Nat), shaNext s = some (.half a n true) → cryptoOn s = true → s.spindle.loader.digest = none → s.spindle.loader.hash = hashed m → Answers (.cryptoJobComplete .sha) s fun t =>
      t.spindle.loader.digest = some (sha256 (m ++ s.spindle.mem.scratch.getAll (a - 0x30000000) n)) ∧ t.spindle.loader.hash = {} ∧ t.spindle.shaJobs = s.spindle.shaJobs.erase (.half a n true)) ∧
  (shaNext s = some (.req (octReq u Ent.SHA_DATA x)) → cryptoOn s = true → shaMemBusy s u = false → (rowAt (Ent.SHA_DATA / 256) (Ent.SHA_DATA % 256)).map (fun r => writeStatus s u r Ent.SHA_DATA x) = some Sc.ok → shaCtx s u = hashed m → Answers (.cryptoJobComplete .sha) s fun t =>
      shaCtx t u = hashed (m ++ x) ∧ t.spindle.shaLast = u ∧ t.spindle.shaJobs = s.spindle.shaJobs.erase (.req (octReq u Ent.SHA_DATA x)))

/-! ## The big-number engine and the random source -/

/-- A write of BN_GO with BN_OP at any of the nine operations, by a user with no job, with room in the queue and a usable key source, queues the job; where two jobs of others are queued it answers BUSY and counts the full queue. BN_MSG and BN_MEM_GO add bytes to the message that an op 7 job awaits. BN_CLEAR withdraws the user's queued job, clears the ephemeral slot and leaves state 6. -/
def Obligations.BnCommands : Prop :=
  ∀ (s : State) (u : User) (src v : Nat),
  (s.getU Ent.BN_OP u = 1 → accepts s (numReq u Ent.BN_GO 1) = true → bnBusy s u = false → s.spindle.bn.users.length < 2 → src = s.getU Ent.BN_KEY_SRC u → ¬(src = 0 ∧ attestRefused s = true) → src ≤ 2 → (src = 2 → (bnUser s u).eph ≠ [] ∧ (bnUser s u).ephX = false) → Answers (.bnPublicKey u) s fun t =>
      t.spindle.bn.users = s.spindle.bn.users ++ [(u, 1, src)] ∧ (bnUser t u).state = 1 ∧ (bnUser t u).left = s.getU Ent.BN_MSG_LEN u ∧ t.getU Ent.LAST_STATUS u = Sc.ok) ∧
  (s.getU Ent.BN_OP u = 2 → accepts s (numReq u Ent.BN_GO 1) = true → bnBusy s u = false → s.spindle.bn.users.length < 2 → src = s.getU Ent.BN_KEY_SRC u → ¬(src = 0 ∧ attestRefused s = true) → src ≤ 1 → Answers (.bnEcdsaSign u) s fun t =>
      t.spindle.bn.users = s.spindle.bn.users ++ [(u, 2, src)] ∧ (bnUser t u).state = 1 ∧ (bnUser t u).left = s.getU Ent.BN_MSG_LEN u ∧ t.getU Ent.LAST_STATUS u = Sc.ok) ∧
  (s.getU Ent.BN_OP u = 3 → accepts s (numReq u Ent.BN_GO 1) = true → bnBusy s u = false → s.spindle.bn.users.length < 2 → src = s.getU Ent.BN_KEY_SRC u → src ≤ 2 → Answers (.bnEcdsaVerify u) s fun t =>
      t.spindle.bn.users = s.spindle.bn.users ++ [(u, 3, src)] ∧ (bnUser t u).state = 1 ∧ (bnUser t u).left = s.getU Ent.BN_MSG_LEN u ∧ t.getU Ent.LAST_STATUS u = Sc.ok) ∧
  (s.getU Ent.BN_OP u = 4 → accepts s (numReq u Ent.BN_GO 1) = true → bnBusy s u = false → s.spindle.bn.users.length < 2 → src = s.getU Ent.BN_KEY_SRC u → ¬(src = 0 ∧ attestRefused s = true) → src = 1 ∨ src = 2 → (src = 2 → (bnUser s u).eph ≠ [] ∧ (bnUser s u).ephX = false) → Answers (.bnEcdh u) s fun t =>
      t.spindle.bn.users = s.spindle.bn.users ++ [(u, 4, src)] ∧ (bnUser t u).state = 1 ∧ (bnUser t u).left = s.getU Ent.BN_MSG_LEN u ∧ t.getU Ent.LAST_STATUS u = Sc.ok) ∧
  (s.getU Ent.BN_OP u = 5 → accepts s (numReq u Ent.BN_GO 1) = true → bnBusy s u = false → s.spindle.bn.users.length < 2 → src = s.getU Ent.BN_KEY_SRC u → ¬(src = 0 ∧ attestRefused s = true) → src = 1 ∨ src = 2 → (src = 2 → (bnUser s u).eph ≠ [] ∧ (bnUser s u).ephX = true) → Answers (.bnX25519Public u) s fun t =>
      t.spindle.bn.users = s.spindle.bn.users ++ [(u, 5, src)] ∧ (bnUser t u).state = 1 ∧ (bnUser t u).left = s.getU Ent.BN_MSG_LEN u ∧ t.getU Ent.LAST_STATUS u = Sc.ok) ∧
  (s.getU Ent.BN_OP u = 6 → accepts s (numReq u Ent.BN_GO 1) = true → bnBusy s u = false → s.spindle.bn.users.length < 2 → src = s.getU Ent.BN_KEY_SRC u → ¬(src = 0 ∧ attestRefused s = true) → src = 1 ∨ src = 2 → (src = 2 → (bnUser s u).eph ≠ [] ∧ (bnUser s u).ephX = true) → Answers (.bnX25519Shared u) s fun t =>
      t.spindle.bn.users = s.spindle.bn.users ++ [(u, 6, src)] ∧ (bnUser t u).state = 1 ∧ (bnUser t u).left = s.getU Ent.BN_MSG_LEN u ∧ t.getU Ent.LAST_STATUS u = Sc.ok) ∧
  (s.getU Ent.BN_OP u = 7 → accepts s (numReq u Ent.BN_GO 1) = true → bnBusy s u = false → s.spindle.bn.users.length < 2 → src = s.getU Ent.BN_KEY_SRC u → src ≤ 2 → Answers (.bnEd25519Verify u) s fun t =>
      t.spindle.bn.users = s.spindle.bn.users ++ [(u, 7, src)] ∧ (bnUser t u).state = 1 ∧ (bnUser t u).left = s.getU Ent.BN_MSG_LEN u ∧ t.getU Ent.LAST_STATUS u = Sc.ok) ∧
  (s.getU Ent.BN_OP u = 8 → accepts s (numReq u Ent.BN_GO 1) = true → bnBusy s u = false → s.spindle.bn.users.length < 2 → src = s.getU Ent.BN_KEY_SRC u → src ≤ 2 → Answers (.bnNewEphemeralP256 u) s fun t =>
      t.spindle.bn.users = s.spindle.bn.users ++ [(u, 8, src)] ∧ (bnUser t u).state = 1 ∧ (bnUser t u).left = s.getU Ent.BN_MSG_LEN u ∧ t.getU Ent.LAST_STATUS u = Sc.ok) ∧
  (s.getU Ent.BN_OP u = 9 → accepts s (numReq u Ent.BN_GO 1) = true → bnBusy s u = false → s.spindle.bn.users.length < 2 → src = s.getU Ent.BN_KEY_SRC u → src ≤ 2 → Answers (.bnNewEphemeralX25519 u) s fun t =>
      t.spindle.bn.users = s.spindle.bn.users ++ [(u, 9, src)] ∧ (bnUser t u).state = 1 ∧ (bnUser t u).left = s.getU Ent.BN_MSG_LEN u ∧ t.getU Ent.LAST_STATUS u = Sc.ok) ∧
  (∀ (x : Bytes), accepts s (octReq u Ent.BN_MSG x) = true → (bnUser s u).state = 3 → (bnUser s u).ready = false → Answers (.bnMsg u x) s fun t =>
      bnUser t u = { bnUser s u with msg := (bnUser s u).msg ++ x.take (bnUser s u).left, left := (bnUser s u).left - 64, ready := decide ((bnUser s u).left ≤ 64) } ∧
      t.getU Ent.LAST_STATUS u = Sc.ok) ∧
  (∀ (a n : Nat), accepts s (numReq u Ent.BN_MEM_GO v) = true → a = s.get Ent.BN_MEM_ADDR → n = s.get Ent.BN_MEM_LEN → (bnUser s .M).state = 3 → a % 4 = 0 ∧ 0x30000000 ≤ a ∧ a + n ≤ 0x30002000 → n ≤ (bnUser s .M).left → Answers (.bnMemGo u v) s fun t =>
      (bnUser t .M).msg = (bnUser s .M).msg ++ s.spindle.mem.scratch.getAll (a - 0x30000000) n ∧ (bnUser t .M).left = (bnUser s .M).left - n ∧
      (bnUser t .M).ready = decide ((bnUser s .M).left ≤ n) ∧ t.getU Ent.LAST_STATUS u = Sc.ok) ∧
  (accepts s (numReq u Ent.BN_CLEAR v) = true → Answers (.bnClear u v) s fun t =>
      (bnUser t u).eph = [] ∧ (∀ j ∈ t.spindle.bn.users, j.1 ≠ u) ∧ ((bnUser s u).state = 6 → (bnUser t u).state = 0) ∧ t.getU Ent.LAST_STATUS u = Sc.ok) ∧
  (s.getU Ent.BN_OP u = 3 → accepts s (numReq u Ent.BN_GO 1) = true → bnBusy s u = false → 2 ≤ s.spindle.bn.users.length → Serves (.bnEcdsaVerify u) s (numReq u Ent.BN_GO 1) (noteFull s 8) Sc.busy)

/-- While CRYPTO is ON the free engine takes the loader's job first, then the keeper's, then the users' in turn. Without its words in time a job goes on, its blinding stale and its nonce unhedged; a job that draws candidates waits on, and ends with TIMEOUT and detail 7 after its limit. A message that does not come ends its job with TIMEOUT. A completed job leaves the result of its operation, OK and state 4, or INTEGRITY, its detail and state 5; an ephemeral scalar used is gone; a P-256 candidate out of range is drawn again. A signature by the attestation key is refused while the debug port is open in OWNED. The keeper's signature goes out in four steps. -/
def Obligations.BnEngine : Prop :=
  ∀ (s : State) (u w : User) (op src : Nat) (e : Bn), e = s.spindle.bn →
  (cryptoOn s = true → e.running = none → e.loader = true → Answers .bnJobStart s fun t =>
      t.spindle.bn = { e with loader := false, running := some .loader }) ∧
  (∀ (d : Bytes), cryptoOn s = true → e.running = none → e.loader = false → e.keeper = some d → Answers .bnJobStart s fun t =>
      t.spindle.bn.running = some (.keeper d) ∧ t.spindle.bn.keeper = none ∧ t.spindle.bn.users = e.users) ∧
  (cryptoOn s = true → e.running = none → e.loader = false → e.keeper = none → bnNextUser s = some u → bnReady s u = false → (e.users.find? (fun j => j.1 == u) = some (w, op, src)) → op ≠ 7 → Answers .bnJobStart s fun t =>
      t.spindle.bn.running = some (.user u op src) ∧ (bnUser t u).state = 2 ∧ t.spindle.bn.last = u ∧ (∀ j ∈ t.spindle.bn.users, j.1 ≠ u)) ∧
  (cryptoOn s = true → e.running = none → e.loader = false → e.keeper = none → bnNextUser s = some u → bnReady s u = false → (e.users.find? (fun j => j.1 == u) = some (w, 7, src)) → Answers .bnJobStart s fun t =>
      t.spindle.bn.running = none ∧ (∀ j ∈ t.spindle.bn.users, j.1 ≠ u) ∧
      (((bnUser t u).state = 3 ∧ u ∈ t.spindle.bn.waiting) ∨ ((bnUser t u).state = 5 ∧ (bnUser t u).status = Sc.integrity))) ∧
  (cryptoOn s = true → e.running = none → e.loader = false → e.keeper = none → bnNextUser s = some u → bnReady s u = true → Answers .bnJobStart s fun t =>
      t.spindle.bn.running = some (.user u 7 0) ∧ (bnUser t u).state = 2 ∧ u ∉ t.spindle.bn.waiting) ∧
  (e.rngLeft ≠ 0 → bnRunningOp s ≠ 8 ∧ bnRunningOp s ≠ 9 → Answers .bnRngWaitExpiry s fun t =>
      t.spindle.bn = { e with rngLeft := 0, stale := true } ∧ (bnRunningOp s = 2 → Counted s t Ent.BN_UNHEDGED) ∧
      (e.words.length < 2 → e.stale = false → Counted s t Ent.BN_STALE)) ∧
  (e.rngLeft ≠ 0 → bnRunningOp s = 8 ∨ bnRunningOp s = 9 → Answers .bnRngWaitExpiry s fun t =>
      t.spindle.bn = { e with stale := true } ∧ (e.words.length < 2 → e.stale = false → Counted s t Ent.BN_STALE)) ∧
  (e.running = some (.user u op src) → op = 8 ∨ op = 9 → e.rngLeft ≠ 0 → Answers .bnCandidateTimeout s fun t =>
      t.spindle.bn.running = none ∧ (bnUser t u).state = 5 ∧ (bnUser t u).status = Sc.timeout ∧ (bnUser t u).detail = 7 ∧ Counted s t Ent.BN_JOBS) ∧
  ((bnUser s u).state = 3 → (bnUser s u).ready = false → Answers (.bnMsgTimeout u) s fun t =>
      (bnUser t u).state = 5 ∧ (bnUser t u).status = Sc.timeout ∧ u ∉ t.spindle.bn.waiting ∧ Counted s t Ent.BN_JOBS) ∧
  (e.rngLeft = 0 → e.running = some (.user u 1 src) → (src = 1 → maskReady s u = true) → Answers .bnJobComplete s fun t =>
      t.spindle.bn.running = none ∧ Counted s t Ent.BN_JOBS ∧ (bnUser t u).state = 4 ∧ t.getU Ent.BN_RESULT u = leNat (fitBytes 64 (p256Out (p256Base (p256Scalar s u src))))) ∧
  (e.rngLeft = 0 → e.running = some (.user u 2 src) → src = 1 → maskReady s u = true → Answers .bnJobComplete s fun t =>
      t.spindle.bn.running = none ∧ Counted s t Ent.BN_JOBS ∧ (bnUser t u).state = 4 ∧ (bnUser t u).detail = (if e.words.length = 10 then 0 else 6) ∧
      t.getU Ent.BN_SIG u = leNat (ecdsaSign (p256Scalar s u 1) (leBytes 32 (s.getU Ent.BN_HASH u)) (bnExtra e))) ∧
  (e.rngLeft = 0 → e.running = some (.user u 2 src) → src = 0 → attestRefused s = false → Answers .bnJobComplete s fun t =>
      t.spindle.bn.running = none ∧ Counted s t Ent.BN_JOBS ∧ (bnUser t u).state = 4 ∧ Counted s t Ent.ATTEST_SIGNS ∧ t.getU Ent.BN_SIG u =
        leNat (ecdsaSign (p256Scalar s u 0) (sha256 ([0x53, 0x56, 0x55, 0x41, byte (userId u)] ++ leBytes 32 (s.getU Ent.BN_HASH u))) (bnExtra e))) ∧
  (e.rngLeft = 0 → e.running = some (.user u 3 src) → Answers .bnJobComplete s fun t =>
      t.spindle.bn.running = none ∧ Counted s t Ent.BN_JOBS ∧ (if ecdsaVerify (leBytes 64 (s.getU Ent.BN_PEER u)) (leBytes 32 (s.getU Ent.BN_HASH u)) (leBytes 64 (s.getU Ent.BN_SIG u)) = none then (bnUser t u).state = 4
        else (bnUser t u).state = 5 ∧ (bnUser t u).status = Sc.integrity ∧ some (bnUser t u).detail = ecdsaVerify (leBytes 64 (s.getU Ent.BN_PEER u)) (leBytes 32 (s.getU Ent.BN_HASH u)) (leBytes 64 (s.getU Ent.BN_SIG u)))) ∧
  (∀ (q : Nat × Nat), e.rngLeft = 0 → e.running = some (.user u 4 src) → (src = 1 → maskReady s u = true) → p256In (leBytes 64 (s.getU Ent.BN_PEER u)) = .ok q → Answers .bnJobComplete s fun t =>
      t.spindle.bn.running = none ∧ Counted s t Ent.BN_JOBS ∧ (src = 2 → (bnUser t u).eph = []) ∧ (bnUser t u).state = 4 ∧
      t.getU Ent.BN_RESULT u = leNat (fitBytes 64 ((p256Out (p256Mul 256 (p256Scalar s u src) (some q))).take 32))) ∧
  (∀ (d : Nat), e.rngLeft = 0 → e.running = some (.user u 4 src) → (src = 1 → maskReady s u = true) → p256In (leBytes 64 (s.getU Ent.BN_PEER u)) = .error d → Answers .bnJobComplete s fun t =>
      t.spindle.bn.running = none ∧ Counted s t Ent.BN_JOBS ∧ (src = 2 → (bnUser t u).eph = []) ∧
      (bnUser t u).state = 5 ∧ (bnUser t u).status = Sc.integrity ∧ (bnUser t u).detail = d) ∧
  (e.rngLeft = 0 → e.running = some (.user u 5 src) → (src = 1 → maskReady s u = true) → Answers .bnJobComplete s fun t =>
      t.spindle.bn.running = none ∧ Counted s t Ent.BN_JOBS ∧ (bnUser t u).state = 4 ∧ t.getU Ent.BN_RESULT u = leNat (fitBytes 64 (leBytes 32 (x25519 (xScalar s u src) 9)))) ∧
  (∀ (q : Nat), e.rngLeft = 0 → e.running = some (.user u 6 src) → (src = 1 → maskReady s u = true) → q = leNat (leBytes 32 (s.getU Ent.BN_PEER u)) % 2 ^ 255 % p25519 → Answers .bnJobComplete s fun t =>
      t.spindle.bn.running = none ∧ Counted s t Ent.BN_JOBS ∧ (src = 2 → (bnUser t u).eph = []) ∧
      if lowOrderU.contains q = true ∨ x25519 (xScalar s u src) q = 0 then (bnUser t u).state = 5 ∧ (bnUser t u).status = Sc.integrity ∧ (bnUser t u).detail = 3
      else (bnUser t u).state = 4 ∧ t.getU Ent.BN_RESULT u = leNat (fitBytes 64 (leBytes 32 (x25519 (xScalar s u src) q)))) ∧
  (e.rngLeft = 0 → e.running = some (.user u 7 src) → Answers .bnJobComplete s fun t =>
      t.spindle.bn.running = none ∧ Counted s t Ent.BN_JOBS ∧ (if ed25519Check (leBytes 32 (s.getU Ent.BN_PEER u)) (leBytes 64 (s.getU Ent.BN_SIG u)) (bnUser s u).msg = none then (bnUser t u).state = 4
        else (bnUser t u).state = 5 ∧ (bnUser t u).status = Sc.integrity ∧ some (bnUser t u).detail = ed25519Check (leBytes 32 (s.getU Ent.BN_PEER u)) (leBytes 64 (s.getU Ent.BN_SIG u)) (bnUser s u).msg)) ∧
  (e.rngLeft = 0 → e.running = some (.user u 8 src) → bnRedraw s 8 = false → Answers .bnJobComplete s fun t =>
      t.spindle.bn.running = none ∧ Counted s t Ent.BN_JOBS ∧ (bnUser t u).state = 4 ∧ (bnUser t u).eph = bnCandidate e ∧ (bnUser t u).ephX = false ∧
      t.getU Ent.BN_RESULT u = leNat (fitBytes 64 (p256Out (p256Base (beNat (bnCandidate e)))))) ∧
  (e.rngLeft = 0 → e.running = some (.user u 9 src) → Answers .bnJobComplete s fun t =>
      t.spindle.bn.running = none ∧ Counted s t Ent.BN_JOBS ∧ (bnUser t u).state = 4 ∧ (bnUser t u).eph = bnCandidate e ∧ (bnUser t u).ephX = true ∧
      t.getU Ent.BN_RESULT u = leNat (fitBytes 64 (leBytes 32 (x25519 (bnCandidate e) 9)))) ∧
  (e.rngLeft = 0 → e.running = some (.user u 8 src) → bnRedraw s 8 = true → Answers .bnJobComplete s fun t =>
      t.spindle.bn.running = e.running ∧ bnUser t u = bnUser s u) ∧
  (e.rngLeft = 0 → e.running = some (.user u 2 0) → attestRefused s = true → Answers .bnJobComplete s fun t =>
      t.spindle.bn.running = none ∧ (bnUser t u).state = 5 ∧ (bnUser t u).status = Sc.state ∧ t.getU Ent.BN_SIG u = s.getU Ent.BN_SIG u) ∧
  (∀ (d : Bytes), e.rngLeft = 0 → e.running = some (.keeper d) → attestRefused s = false → s.sb.spindle.txq = [] → Answers .bnJobComplete s fun t =>
      t.spindle.bn.running = none ∧ Counted s t Ent.BN_JOBS ∧ t.sb.spindle.txq = ([0, 1, 2, 3] : List Nat).map fun i => ⟨0xE, .spindle, 0, byte (0x23 + i) :: ((ecdsaSign attestScalar d (bnExtra e)).drop (16 * i)).take 16⟩)

/-- While RNG is ON and the FIFO has room the conditioner hashes pool, raw bits and counter into the next pool, whose first word joins the FIFO. A read takes the words at hand, says how many bytes it got, and one that finds too few flags it, is counted and reads zeros for the rest. A completed window is measured and counted, failed by bias, correlation or a run of 48. A due refill of the UID pool asks the spindle die for its first word; a full pool, or a die that is not ready, ends it. -/
def Obligations.RandomSource : Prop :=
  ∀ (s : State) (u : User),
  (∀ (raw : BitVec 64) (r : Machine.Rng) (d : Bytes), s.spindle.alive = true → domState s .rng = 2 → r = s.spindle.rng → r.waiting = [] → r.fifo.length < 8 → d = sha256 (r.pool ++ leBytes 8 raw.toNat ++ leBytes 4 r.counter) → Answers (.rngWordProduced raw) s fun t =>
      t.spindle.rng = { r with pool := d, counter := (r.counter + 1) % 2 ^ 32, fifo := r.fifo ++ [BitVec.ofNat 32 (leNat (d.take 4))] }) ∧
  (∀ (raw : BitVec 64), s.spindle.rng.waiting = [] → 8 ≤ s.spindle.rng.fifo.length → Answers (.rngWordProduced raw) s fun t =>
      t = s) ∧
  (∀ (b : Bool) (e n k : Nat) (r : Machine.Rng), e = (if b then Ent.RNG_BLOCK else Ent.RNG_DATA) → n = (if b then 8 else 1) → readable s (readReq u (e / 256) (e % 256)) = true → r = s.spindle.rng → r.waiting = [] → k = min n r.fifo.length → Answers (.rngRead u b) s fun t =>
      t.spindle.rng = { r with fifo := r.fifo.drop k } ∧ t.getU Ent.RNG_GOT u = 4 * k ∧ t.getU Ent.RNG_ERR u = (if k < n then 1 else 0) ∧
      (k < n → Counted s t Ent.RNG_EMPTY_READS) ∧ t.getU Ent.LAST_STATUS u = Sc.ok ∧
      (u = .M → t.spindle.dict.reply = (Sc.ok, fitBytes (4 * n) (wordBytes (r.fifo.take k))))) ∧
  (∀ (w : Nat), s.spindle.alive = true → domState s .rng = 2 → Answers (.rngHealthWindowEnd w) s fun t =>
      t.getS Ent.RNG_BIAS = windowBias w ∧ t.getS Ent.RNG_CORR = windowCorr w ∧ Counted s t Ent.RNG_WINDOWS ∧
      (windowFails s w = true → Counted s t Ent.RNG_FAILS ∧ bit (t.get Ent.RNG_FLAGS) 0 = true ∧ bit (t.get Ent.RNG_FLAGS) 1 = true) ∧
      (windowFails s w = false → t.get Ent.RNG_FAILS = s.get Ent.RNG_FAILS ∧ bit (t.get Ent.RNG_FLAGS) 0 = false)) ∧
  (s.keeper.poolDue = true → spindleReady s = true → s.keeper.pool.length < 64 → s.keeper.words = [] → roomFor s .keeper → Answers (.uidPoolRefill ()) s fun t =>
      t.keeper.words = [.pool] ∧ t.keeper.pool = s.keeper.pool ∧ Queued t .keeper 0xE 2 [0x20, 4]) ∧
  (s.keeper.poolDue = true → s.keeper.words.contains .pool = false → spindleReady s = false ∨ 64 ≤ s.keeper.pool.length → Answers (.uidPoolRefill ()) s fun t =>
      t = s.onKeeper fun k => { k with poolDue := false })

/-! ## Tamper monitors and the log -/

/-- An alert whose condition did not hold sets its flag, is counted and noted with its time. A glitch, light or mesh alert zeroises every page. An alert of a type with no record in the last 60 s places its record; else it is counted as unlogged. A switch at a new level alerts and wakes CORE. A deviation of CLK_CORE over 3 % begins the condition of instance 1, one within it ends it. The end of a condition changes nothing else. A write to TAMPER_FLAGS is handed to the keeper, and its commit clears the flags written. -/
def Obligations.TamperAlerts : Prop :=
  ∀ (s : State) (inst kind : Nat) (value threshold : Int),
  (s.keeper.vddValid = true → alertActive s 0x41 0x20 = false → Answers (.glitchAlert kind value threshold) s fun t =>
      Alerted s t 0x41 0x20 kind ∧ (0x41, 0x20) ∈ t.log.active ∧ Counted s t Ent.ZEROISE_COUNT ∧ (s.spindle.alive = true → ∀ u ∈ users, (page t u).key = [] ∧ (page t u).state = 6) ∧
      (recentRecord s 0x41 = true → Counted s t Ent.TAMPER_UNLOGGED ∧ t.sb.spindle.hold = s.sb.spindle.hold) ∧
      (recentRecord s 0x41 = false → s.sb.spindle.hold.length < 4 → t.sb.spindle.hold = s.sb.spindle.hold ++ [⟨3, .spindle, 0, [0x41, 0x20] ++
        fitBytes 12 (monitorData 0x20 kind (if kind = 2 then 0 else value) threshold true (sparseGet 0 0x41 s.log.since + 1))⟩])) ∧
  (s.keeper.vddValid = true → alertActive s 0x45 inst = false → Answers (.lightAlert inst value threshold) s fun t =>
      Alerted s t 0x45 inst 0 ∧ (0x45, inst) ∈ t.log.active ∧ Counted s t Ent.ZEROISE_COUNT ∧ (s.spindle.alive = true → ∀ u ∈ users, (page t u).key = [] ∧ (page t u).state = 6)) ∧
  (s.keeper.vddValid = true → alertActive s 0x46 inst = false → Answers (.meshAlert inst kind) s fun t =>
      Alerted s t 0x46 inst kind ∧ (0x46, inst) ∈ t.log.active ∧ Counted s t Ent.ZEROISE_COUNT ∧ (s.spindle.alive = true → ∀ u ∈ users, (page t u).key = [] ∧ (page t u).state = 6)) ∧
  (alertActive s 0x41 0x20 = true → Answers (.glitchAlert kind value threshold) s fun t =>
      t = s) ∧
  (s.flyer.up = true → alertActive s 0x42 0x2F = false → Answers (.supplyAlert 0x2F kind value threshold) s fun t =>
      Alerted s t 0x42 0x2F kind ∧ (0x42, 0x2F) ∈ t.log.active ∧ (recentRecord s 0x42 = true → Counted s t Ent.TAMPER_UNLOGGED) ∧
      (recentRecord s 0x42 = false → s.sb.flyer.hold.length < 4 → t.sb.flyer.hold = s.sb.flyer.hold ++ [⟨3, .flyer, 0, [0x42, 0x2F] ++
        fitBytes 12 (monitorData 0x2F kind value threshold false (sparseGet 0 0x42 s.log.since + 1))⟩])) ∧
  (domState s .tamper ≠ 0 → alertActive s 0x42 0x30 = false → Answers (.supplyAlert 0x30 kind value threshold) s fun t =>
      Alerted s t 0x42 0x30 kind ∧ (recentRecord s 0x42 = false → (s.log.queue.filter (·.keeper)).length < 4 →
        t.log.queue = s.log.queue ++ [⟨0x42, 0x30, fitBytes 12 (monitorData 0x30 kind value threshold false (sparseGet 0 0x42 s.log.since + 1)), true⟩])) ∧
  (∀ (k : Nat), inst ≤ 1 ∧ k ≤ 1 → domState s .tamper ≠ 0 → (if inst = 0 then s.pads.caseSw else s.pads.baseSw) = decide (k = 0) → Answers (.enclosureAlert inst k) s fun t =>
      Alerted s t 0x47 inst k ∧ t.pads.caseSw = (if inst = 0 then decide (k = 1) else s.pads.caseSw) ∧ t.pads.baseSw = (if inst = 0 then s.pads.baseSw else decide (k = 1)) ∧
      (domState s .core = 1 → domState t .core = 4)) ∧
  (∀ (dev : Int), s.spindle.alive = true → 300 < dev.natAbs → alertActive s 0x43 1 = false → Answers (.clkCoreDeviation dev) s fun t =>
      Alerted s t 0x43 1 (if dev < 0 then 0 else 1) ∧ (0x43, 1) ∈ t.log.active) ∧
  (∀ (dev : Int), s.spindle.alive = true → dev.natAbs ≤ 300 → Answers (.clkCoreDeviation dev) s fun t =>
      t = s.onLog (fun l => { l with active := t.log.active }) ∧ (0x43, 1) ∉ t.log.active) ∧
  (∀ (k : Nat), Answers (.tamperConditionEnd k inst) s fun t =>
      t = s.onLog (fun l => { l with active := t.log.active }) ∧ (k, inst) ∉ t.log.active ∧ ∀ x ∈ s.log.active, x ≠ (k, inst) → x ∈ t.log.active) ∧
  (∀ (u : User) (v : Nat), v < 65536 → accepts s (numReq u Ent.TAMPER_FLAGS v) = true → Starts (.tamperFlagsClear u v) s (numReq u Ent.TAMPER_FLAGS v) Ent.TAMPER_FLAGS v) ∧
  (∀ (u : User) (v : Nat), v < 65536 → Commits s (numReq u Ent.TAMPER_FLAGS v) Ent.TAMPER_FLAGS v fun t =>
      t.get Ent.TAMPER_FLAGS = clearBits (s.get Ent.TAMPER_FLAGS) v)

/-- The oldest waiting record is formed for the slot at LOG_NEXT with the link to the record before it: with a checkpoint where one is due and a signature can be had, else alone; in the reserve a record of class Y, and while closing and when full every record, is only counted. PAD comes first where it is owed. A completed write advances LOG_NEXT and hashes the record into CHAIN_HEAD; a pair fills the two slots behind it and counts. The digest's halves give the keeper's job its entry; the four parts of the signature complete the pair; a missing or failed signature forms the record again without one, and is counted. The close asks again. -/
def Obligations.LogAppends : Prop :=
  ∀ (s : State) (r : LogRec) (n : Nat), n = s.get Ent.LOG_NEXT →
  (∀ (rest : List LogRec), s.keeper.vddValid = true → s.log.writing = none → s.log.await = none → padOwed s = false → s.log.queue = r :: rest → logState s = 0 ∨ (logState s = 1 ∧ recClass r.ty r.data ≠ 5) → ¬(pairDue s r = true ∧ n + 2 < 3069) → Answers .logAppend s fun t =>
      t.log = { s.log with queue := rest, writing := some ⟨r, n, recordBytes s n r false, none⟩ } ∧ t.ent = s.ent) ∧
  (∀ (rest : List LogRec), s.keeper.vddValid = true → s.log.writing = none → s.log.await = none → padOwed s = false → s.log.queue = r :: rest → logState s = 0 ∨ (logState s = 1 ∧ recClass r.ty r.data ≠ 5) → pairDue s r = true → n + 2 < 3069 → Answers .logAppend s fun t =>
      if mayAsk s false then t.log.writing = none ∧ t.log.await = some ⟨r, n, recordBytes s n r true, sha256 (ckptMessage n (chainNext s (recordBytes s n r true))), []⟩
      else t.log.await = none ∧ t.log.writing = some ⟨stByte4 r (noSignature s), n, recordBytes s n (stByte4 r (noSignature s)) false, none⟩) ∧
  (∀ (rest : List LogRec), s.keeper.vddValid = true → s.log.writing = none → s.log.await = none → padOwed s = false → s.log.queue = r :: rest → 2 ≤ logState s ∨ (logState s = 1 ∧ recClass r.ty r.data = 5) → Answers .logAppend s fun t =>
      t.log = (unlogged (s.onLog fun l => { l with queue := rest }) r).log ∧ (recClass r.ty r.data ≠ 0 → Counted s t (Ent.LOG_SUMMARY (recClass r.ty r.data)))) ∧
  (s.keeper.vddValid = true → s.log.writing = none → s.log.await = none → padOwed s = true → Answers .logAppend s fun t =>
      t.log = { s.log with writing := some ⟨padRecord, 3068, recordBytes s 3068 padRecord false, none⟩ } ∧ t.ent = s.ent) ∧
  (∀ (f : Formed), s.keeper.vddValid = true → s.log.writing = some f → f.pair = none → f.slot < 3071 → Answers .logAppendComplete s fun t =>
      t.get Ent.LOG_NEXT = f.slot + 1 ∧ t.get Ent.CHAIN_HEAD = leNat (sha256 (leBytes 32 (s.get Ent.CHAIN_HEAD) ++ f.bytes)) ∧ t.log.last = some f.bytes ∧
      logSlot t f.slot = f.bytes ∧ ∀ k, k ≠ f.slot → logSlot t k = logSlot s k) ∧
  (∀ (f : Formed) (x y : Bytes), s.keeper.vddValid = true → s.log.writing = some f → f.pair = some (x, y) → f.slot < 3071 → Answers .logAppendComplete s fun t =>
      t.get Ent.LOG_NEXT = f.slot + 3 ∧ logSlot t f.slot = f.bytes ∧ logSlot t (f.slot + 1) = x ∧ logSlot t (f.slot + 2) = y ∧
      t.get Ent.LAST_CKPT = f.slot ∧ Counted s t Ent.CKPT_COUNT ∧ Counted s t Ent.ATTEST_SIGNS) ∧
  (∀ (f : Formed), s.keeper.vddValid = true → s.log.writing = some f → f.slot = 3071 → Answers .logAppendComplete s fun t =>
      t.get Ent.LOG_NEXT = 3072 ∧ logState t = 3 ∧ logSlot t 3071 = f.bytes) ∧
  (∀ (m : SbMsg) (d : Bytes), stMessage s .spindle [0x21, 0x22] = some m → s.spindle.alive = true → s.spindle.bn.sign = [(0x21, d)] → m.payload.headD 0 = 0x22 → Answers .ckptDigest s fun t =>
      t.spindle.bn.keeper = some (fitBytes 16 d ++ fitBytes 16 ((m.payload.drop 1).take 16)) ∧ t.spindle.bn.sign = [] ∧ Taken s t .spindle) ∧
  (∀ (m : SbMsg) (a : Await) (x y z : Bytes), stMessage s .keeper [0x23, 0x24, 0x25, 0x26, 0x27] = some m → m.payload.headD 0 = 0x26 → s.log.await = some a → a.parts = [(0x23, x), (0x24, y), (0x25, z)] → Answers .ckptSignature s fun t =>
      t.log = { s.log with await := none, writing := some ⟨a.what, a.slot, a.bytes, some (x ++ y, z ++ fitBytes 16 (m.payload.drop 1))⟩ } ∧ t.ent = s.ent) ∧
  (∀ (m : SbMsg) (a : Await), stMessage s .keeper [0x23, 0x24, 0x25, 0x26, 0x27] = some m → m.payload.headD 0 = 0x27 → s.log.await = some a → a.slot ≠ 3071 → Answers .ckptSignature s fun t =>
      t.log.await = none ∧ t.log.failAt = some s.keeper.aon ∧ Counted s t Ent.CKPT_MISSED ∧ t.log.writing = some ⟨stByte4 a.what 3, a.slot, recordBytes s a.slot (stByte4 a.what 3) false, none⟩) ∧
  (∀ (a : Await), s.log.await = some a → Answers .ckptSignTimeout s fun t =>
      t.log.await = none ∧ t.log.failAt = some s.keeper.aon ∧ Counted s t Ent.CKPT_MISSED ∧
      t.log.writing = (if a.slot = 3071 then s.log.writing else some ⟨stByte4 a.what 3, a.slot, recordBytes s a.slot (stByte4 a.what 3) false, none⟩)) ∧
  (logState s = 2 → s.log.await = none → s.log.writing = none → mayAsk s true = true → Answers .logFullRetry s fun t =>
      t.log.writing = none ∧ t.log.await = some ⟨logFull s, 3071, recordBytes s 3071 (logFull s) true, sha256 (ckptMessage 3071 (chainNext s (recordBytes s 3071 (logFull s) true))), []⟩)

/-! ## The dictionary -/

/-- A response to a request that is not discarded joins the response queue of a port, of the node, of a waiting tag or of a core that waits for it, or else is the engine's reply to the core or the loader; LAST_STATUS takes its status but by a read of LAST_STATUS itself; DENIED is counted by user and recorded; the user is the one served last. It changes no other user's LAST_STATUS, no other entry but the peak level of queue 11, and no part of the device but the engine's queues and its reply. -/
def Obligations.Responses : Prop :=
  ∀ (s : State) (q : Request) (c : Nat) (v : Bytes),
  (entAt q.idx q.sub ≠ Ent.LAST_STATUS → (respond s q c v).getU Ent.LAST_STATUS q.user = c) ∧
  (∀ (u : User), u ≠ q.user → (respond s q c v).getU Ent.LAST_STATUS u = s.getU Ent.LAST_STATUS u) ∧
  (c = Sc.denied → Counted s (respond s q c v) (Ent.DENIED_COUNT (userNum q.user + 1)) ∧
      (respond s q c v).get Ent.LAST_DENIED = userId q.user + 256 * (q.sub % 256) + 65536 * (q.idx % 65536)) ∧
  (q.dropped = false → queues s q = false → (respond s q c v).spindle.dict.reply = (c, v)) ∧
  (q.dropped = false → queues s q = true → (respond s q c v).spindle.dict.resps.get q.user = s.spindle.dict.resps.get q.user ++ [⟨q, c, v⟩]) ∧
  (∀ (e : Nat), e / 256 ∉ ([0x100B, 0x1012, 0x1013, 0x120D] : List Nat) → (respond s q c v).get e = s.get e ∧ ∀ u, (respond s q c v).getU e u = s.getU e u) ∧
  (∀ (t : State), t = respond s q c v → t = { s with ent := t.ent, spindle := { s.spindle with dict := { s.spindle.dict with last := q.user, resps := t.spindle.dict.resps, reply := t.spindle.dict.reply } } })

/-- A write that a check refuses answers its code and changes nothing else. One to no entry answers NO_ENTRY. A request behind others joins its user's queue of 4, and is refused and counted where it is full. The engine's turn goes to the first user after the last served whose request can be served. A write of an N entry becomes the keeper's and, for a user with a response queue, claims the place of its response; committed, its value stands and OK is answered in that place; timed out, its entries keep their values and TIMEOUT is answered. COMMIT empties the staging area and either applies every staged write, with RESULT saying how many, or none, with RESULT naming the first that fails. A discard empties the area. -/
def Obligations.EngineService : Prop :=
  ∀ (s : State) (u : User) (c : Nat),
  (∀ (idx sub : Nat) (x : Bytes), unserved s u = false → coreBlocked s u = false → servedAtOnce s (writeReq u idx sub x) = true → ((rowAt idx sub).map (fun r => writeStatus s u r (entAt idx sub) x) = some c) → c ≠ Sc.ok → Serves (.entryWrite u idx sub x) s (writeReq u idx sub x) s c) ∧
  (∀ (idx sub : Nat) (x : Bytes), unserved s u = false → coreBlocked s u = false → servedAtOnce s (writeReq u idx sub x) = true → rowAt idx sub = none → Serves (.entryWrite u idx sub x) s (writeReq u idx sub x) s Sc.noEntry) ∧
  (∀ (idx sub : Nat) (x : Bytes), unserved s u = false → coreBlocked s u = false → servedAtOnce s (writeReq u idx sub x) = false → Answers (.entryWrite u idx sub x) s fun t =>
      if (s.spindle.dict.reqs.get u).length < 4 then t.spindle.dict.reqs.get u = s.spindle.dict.reqs.get u ++ [writeReq u idx sub x] ∧ t.keeper = s.keeper
      else t.spindle.dict = s.spindle.dict ∧ t.keeper = s.keeper ∧ Counted s t (Ent.BUSY_COUNT (userNum u + 1)) ∧ Counted s t (Ent.Q_FULL 10)) ∧
  (∀ (idx sub : Nat) (x : Bytes), accepts s (writeReq u idx sub x) = true → isN (entAt idx sub) = true → (rowAt idx sub).map (·.action) = some false → entAt idx sub ≠ Ent.COMMIT → Answers (.entryWrite u idx sub x) s fun t =>
      t = claimPlace (s.onKeeper (fun k => { k with jobs := k.jobs ++ [⟨writeReq u idx sub x, [(entAt idx sub, leNat x)], false⟩] })) (writeReq u idx sub x)) ∧
  (∀ (q : Request) (v : Nat) (rest : List NvmJob), s.tag.waitingT = false → s.keeper.jobs = ⟨q, [(Ent.NOM_RATE, v)], false⟩ :: rest → q.op = 2 → Answers .nvmWriteComplete s fun t =>
      t.keeper.jobs = rest ∧ t.get Ent.NOM_RATE = v ∧ t.getU Ent.LAST_STATUS q.user = Sc.ok ∧ ∀ e, e ≠ Ent.NOM_RATE → isN e = true → t.get e = s.get e) ∧
  (∀ (q : Request) (v : Nat) (rest : List NvmJob) (pre post : List Response) (x : Response), s.keeper.jobs = ⟨q, [(Ent.NOM_RATE, v)], false⟩ :: rest → q.op = 2 ∧ q.dropped = false → q.user = .A ∨ q.user = .B ∨ q.user = .C ∨ q.user = .N → s.spindle.dict.resps.get q.user = pre ++ x :: post → (∀ r ∈ pre, r.status ≠ Sc.claimed) → x.status = Sc.claimed → Answers .nvmWriteComplete s fun t =>
      t.spindle.dict.resps.get q.user = pre ++ ⟨q, Sc.ok, []⟩ :: post) ∧
  (∀ (j : NvmJob) (rest : List NvmJob), s.tag.waitingT = false → s.keeper.jobs = j :: rest → j.req.op = 2 → Answers .nvmWriteTimeout s fun t =>
      t.keeper.jobs = rest ∧ t.getU Ent.LAST_STATUS j.req.user = Sc.timeout ∧ ∀ e, isN e = true → t.get e = s.get e) ∧
  (∀ (q : Request) (pre post : List User) (rest : List Request), s.tag.waitingT = false → engineRuns s = true → usersAfter s.spindle.dict.last = pre ++ u :: post → (∀ w ∈ pre, s.spindle.dict.reqs.get w = []) → s.spindle.dict.reqs.get u = q :: rest → unserved s u = false → (s.spindle.dict.resps.get u).length < 4 → mustWait s q = false → Answers .dictEngineTake s fun t =>
      t = serve (s.onDict fun d => { d with reqs := d.reqs.set u rest, held := d.held.set u false }) q) ∧
  (s.tag.waitingT = false → (∀ w ∈ users, s.spindle.dict.reqs.get w = []) → Answers .dictEngineTake s fun t =>
      t = s) ∧
  (∀ (ws : List (Nat × Nat)), accepts s (numReq u Ent.COMMIT 1) = true → ws = stagedOf s u → batchCheck s u 0 ws = none → (ws.any (fun w => isN w.1) = false) → Serves (.commit u) s (numReq u Ent.COMMIT 1) (setResult (applyWrites (dropStaged s u) u ws) u Sc.ok 0xFF ws.length) Sc.ok) ∧
  (∀ (ws : List (Nat × Nat)), accepts s (numReq u Ent.COMMIT 1) = true → ws = stagedOf s u → batchCheck s u 0 ws = none → (ws.any (fun w => isN w.1) = true) → Answers (.commit u) s fun t =>
      stagedOf t u = [] ∧ t = claimPlace ((dropStaged s u).onKeeper (fun k => { k with jobs := k.jobs ++ [⟨numReq u Ent.COMMIT 1, ws, true⟩] })) (numReq u Ent.COMMIT 1)) ∧
  (∀ (k : Nat), accepts s (numReq u Ent.COMMIT 1) = true → batchCheck s u 0 (stagedOf s u) = some (k, c) → Serves (.commit u) s (numReq u Ent.COMMIT 1) (setResult (dropStaged s u) u c k 0) c) ∧
  (accepts s (numReq u Ent.COMMIT 2) = true → Answers (.discard u) s fun t =>
      stagedOf t u = [] ∧ t.keeper = s.keeper ∧ t.getU Ent.LAST_STATUS u = Sc.ok ∧ ∀ w, w ≠ u → stagedOf t w = stagedOf s w)

/-- MONO_INC is handed to the keeper, whose commit counts one, gives MONO_LAST the new count and flags the end; at the end it answers EXHAUSTED. NOTICE_PENDING bits written as 1 are cleared for their user alone. A claim that is free is taken with its lease, one's own renewed, another's answers STATE; it is released by its holder, by M, or by the end of its lease; every user is told of a claim taken or released. PROBE_DESC describes the target, or answers NO_ENTRY. -/
def Obligations.CountersAndClaims : Prop :=
  ∀ (s : State) (u : User) (g : Nat),
  (∀ (n v : Nat), accepts s (numReq u (Ent.MONO_INC n) v) = true → v < 256 → 1 ≤ n ∧ n ≤ 8 → s.get (Ent.MONO n) < 65535 → Starts (.monoInc u n v) s (numReq u (Ent.MONO_INC n) v) (Ent.MONO_INC n) v) ∧
  (∀ (n v c : Nat), 1 ≤ n ∧ n ≤ 8 → c = s.get (Ent.MONO n) → c < 65535 → Commits s (numReq u (Ent.MONO_INC n) v) (Ent.MONO_INC n) v fun t =>
      t.get (Ent.MONO n) = c + 1 ∧ t.getU Ent.MONO_LAST u = c + 1 ∧ (c + 1 = 65535 → bit (t.get Ent.MONO_FLAGS) (n - 1) = true)) ∧
  (∀ (n v : Nat), accepts s (numReq u (Ent.MONO_INC n) v) = true → 1 ≤ n ∧ n ≤ 8 → 65535 ≤ s.get (Ent.MONO n) → Serves (.monoInc u n v) s (numReq u (Ent.MONO_INC n) v) s Sc.exhausted) ∧
  (∀ (v : Nat), accepts s (numReq u Ent.NOTICE_PENDING v) = true → v < 2 ^ 32 → Answers (.noticeClear u v) s fun t =>
      t.getU Ent.NOTICE_PENDING u = clearBits (s.getU Ent.NOTICE_PENDING u) v ∧ t.getU Ent.LAST_STATUS u = Sc.ok ∧ ∀ w ∈ users, w ≠ u → t.getU Ent.NOTICE_PENDING w = s.getU Ent.NOTICE_PENDING w) ∧
  (∀ (lease : Nat), accepts s (numReq u (Ent.CLAIM g) lease) = true → g ∈ claimGroups → 1 ≤ lease ∧ lease ≤ 3600 → Answers (.claimTake u g lease) s fun t =>
      if claimHolder s g = 0x80 ∨ claimHolder s g = userId u then t.get (Ent.CLAIM g) = userId u + 256 * lease ∧ t.getU Ent.LAST_STATUS u = Sc.ok ∧
        ∀ w ∈ users, if claimHolder s g = 0x80 then bit (t.getU Ent.NOTICE_PENDING w) 12 = true else t.getU Ent.NOTICE_PENDING w = s.getU Ent.NOTICE_PENDING w
      else t.get (Ent.CLAIM g) = s.get (Ent.CLAIM g) ∧ t.getU Ent.LAST_STATUS u = Sc.state) ∧
  (accepts s (numReq u (Ent.CLAIM g) 0) = true → g ∈ claimGroups → claimHolder s g ≠ 0x80 → Answers (.claimRelease u g) s fun t =>
      if claimHolder s g = userId u ∨ u = .M then t.get (Ent.CLAIM g) = 0x80 ∧ t.getU Ent.LAST_STATUS u = Sc.ok ∧ ∀ w ∈ users, bit (t.getU Ent.NOTICE_PENDING w) 12 = true
      else t.get (Ent.CLAIM g) = s.get (Ent.CLAIM g) ∧ t.getU Ent.LAST_STATUS u = Sc.state) ∧
  (s.spindle.alive = true → g ∈ claimGroups → claimHolder s g ≠ 0x80 → Answers (.claimLeaseExpiry g) s fun t =>
      t.get (Ent.CLAIM g) = 0x80 ∧ (domState s .core ≠ 0 → ∀ w ∈ users, bit (t.getU Ent.NOTICE_PENDING w) 12 = true)) ∧
  (∀ (a : Nat), readable s (readReq u (Ent.PROBE_DESC / 256) (Ent.PROBE_DESC % 256)) = true → a = s.getU Ent.PROBE_TARGET u → Serves (.probeDescRead u) s (readReq u (Ent.PROBE_DESC / 256) (Ent.PROBE_DESC % 256)) s
      (if (rowAt (a / 256) (a % 256)).isSome then Sc.ok else Sc.noEntry) (((rowAt (a / 256) (a % 256)).map fun r => leBytes 4 (probeDesc s u r a)).getD []))

/-! ## The CAN bus -/

/-- In ALARM the device tries a BEACON of its kinds and zone, and the SOURCE behind it; its TIME, HEARTBEAT and NOTICE frames carry what R339 to R341 give them, a NOTICE for each one owed, else a repeated one; what finds queue 09 without room is dropped and counted. A joined controller starts the frame at the head, during a back-off or without a node ID only a BEACON. A frame sent counts and ends with TEC one lower; an error raises TEC and counts; a BEACON that meets one is lost and delayed; three errors at one data position abandon a frame, show a conflict and begin a back-off, any other error leaves the frame. A controller that may not send completes and fails nothing. Bus-off empties the queue and counts, its end clears the counters, unless the limit holds it until a restart. NODE_ID's committed write ends the conflict. -/
def Obligations.CanSending : Prop :=
  ∀ (s : State) (f : Frame) (fs : List Frame),
  (s.spindle.alive = true → modeIs s .alarm = true → canBlocked s = false → s.spindle.can.tx = [] → s.spindle.can.sending = none → s.get Ent.NODE_ID ≠ 0 → f = ⟨0, [byte ((s.get Ent.BS_ALARM ||| s.get Ent.ALARM_FW) % 8), byte (s.get Ent.ALARM_ZONE % 16)], false⟩ → Answers .beaconTimer s fun t =>
      t.spindle.can.tx.map (·.id) = [0, 128 + s.get Ent.NODE_ID] ∧ t.spindle.can.tx.head? = some f ∧ (∀ g ∈ t.spindle.can.tx, g.data.take 2 = f.data) ∧
      t.spindle.can.beaconDelay = none) ∧
  (s.spindle.alive = true → modeIs s .alarm = true → s.get Ent.LISTEN_ONLY = 1 → Answers .beaconTimer s fun t =>
      Counted s t Ent.TX_DROPPED ∧ t.spindle.can = { s.spindle.can with beaconDelay := none }) ∧
  (s.spindle.alive = true → s.get Ent.TIME_PERIOD ≠ 0 → s.get Ent.NODE_ID ≠ 0 → canBlocked s = false → s.spindle.can.tx = [] → s.spindle.can.sending = none → Answers .canTimeTimer s fun t =>
      t.spindle.can.tx = [⟨5 * 128 + s.get Ent.NODE_ID, leBytes 4 (now s) ++ leBytes 2 (s.get Ent.RTC_SUBSEC) ++ [byte (s.get Ent.TIME_FLAGS), 0], true⟩]) ∧
  (s.spindle.alive = true → s.get Ent.HB_PERIOD ≠ 0 → s.get Ent.NODE_ID ≠ 0 → canBlocked s = false → s.spindle.can.tx = [] → s.spindle.can.sending = none → Answers .canHeartbeatTimer s fun t =>
      t.spindle.can.tx.length = 1 ∧ (t.spindle.can.tx.headD f).id = 6 * 128 + s.get Ent.NODE_ID ∧
      (t.spindle.can.tx.headD f).data.take 4 = [byte (s.get Ent.MODE / 16 % 16), byte (s.get Ent.BASE_MODE / 16 % 16)] ++ leBytes 2 (s.get Ent.FAULT_CAUSE)) ∧
  (s.get Ent.HB_PERIOD = 0 → Answers .canHeartbeatTimer s fun t =>
      t = s) ∧
  (s.spindle.alive = true → s.get Ent.NODE_ID ≠ 0 → canBlocked s = false → s.spindle.can.tx = [] → s.spindle.can.sending = none → s.spindle.can.notices = [] → Answers .canNoticeTimer s fun t =>
      t.spindle.can.tx = (if signalled s .N = 0 ∨ s.get Ent.NOTICE_REPEAT = 0 then []
        else [⟨4 * 128 + s.get Ent.NODE_ID, leBytes 4 (signalled s .N) ++ leBytes 4 (s.getU Ent.NOTICE_PENDING .N) ++ leBytes 4 (now s), true⟩])) ∧
  (s.spindle.alive = true → s.get Ent.NODE_ID ≠ 0 → canBlocked s = false → s.spindle.can.tx = [] → s.spindle.can.sending = none → s.spindle.can.notices ≠ [] → s.spindle.can.notices.length ≤ 4 → Answers .canNoticeTimer s fun t =>
      t.spindle.can.notices = [] ∧ t.spindle.can.tx = s.spindle.can.notices.map (ownFrame s 4)) ∧
  (xoRuns s = true → s.spindle.xoChecked = true → s.get Ent.CAN_ENABLE = 1 → Answers .canBusJoin s fun t =>
      t.spindle.can = { s.spindle.can with joined := true } ∧ t.ent = s.ent) ∧
  (canSends s = true → s.spindle.can.sending = none → s.spindle.can.tx = f :: fs → (s.spindle.can.backoff = none ∧ s.get Ent.NODE_ID ≠ 0) ∨ isBeacon f = true → Answers .canTxStart s fun t =>
      t.spindle.can = { s.spindle.can with tx := fs, sending := some f, count := 0, lastPos := 0 } ∧ t.ent = s.ent) ∧
  (s.spindle.can.tx = f :: fs → s.spindle.can.backoff ≠ none ∨ s.get Ent.NODE_ID = 0 → isBeacon f = false → Answers .canTxStart s fun t =>
      t = s) ∧
  (∀ (k : Nat), canSends s = true → s.spindle.can.sending = some f → Answers (.canTxSuccess k) s fun t =>
      t.spindle.can = { s.spindle.can with sending := none, sinceOk := 0, count := 0 } ∧ Counted s t Ent.TX_FRAMES ∧ t.get Ent.TEC = s.get Ent.TEC - 1 ∧
      (f.fd = true → s.get Ent.DATA_RATE ≠ 0 → t.get Ent.TDC_MEAS = k % 65536) ∧ (isBeacon f = true → Counted s t Ent.BEACONS_SENT)) ∧
  (∀ (e : CanError) (pos : Option Nat) (dp ex : Bool) (k : Nat), k ≤ 100 → canSends s = true → s.spindle.can.sending = some f → isBeacon f = true → Answers (.canTxError (some e) pos dp (ex, k)) s fun t =>
      t.spindle.can.sending = none ∧ Counted s t Ent.BEACON_LOST ∧ t.get Ent.TEC = s.get Ent.TEC + tecGain s e ex k ∧ Counted s t (Ent.ERR_COUNT (canErrorNum e)) ∧
      t.get Ent.LAST_ERROR = canErrorNum e + 8 + (if dp then 16 else 0) ∧ ∃ k < 256, t.spindle.can.beaconDelay = some (100 + k % 401)) ∧
  (∀ (k : Nat) (dp ex : Bool), canSends s = true → s.spindle.can.sending = some f → isBeacon f = false → Answers (.canTxError (some .bit) (some k) dp (ex, 0)) s fun t =>
      t.get Ent.TEC = s.get Ent.TEC + 8 ∧ Counted s t (Ent.ERR_COUNT 1) ∧
      if s.spindle.can.count = 0 ∨ s.spindle.can.lastPos ≠ k then t.spindle.can = { s.spindle.can with count := 1, lastPos := k }
      else if s.spindle.can.count = 1 then t.spindle.can = { s.spindle.can with count := 2 }
      else t.spindle.can.sending = none ∧ t.get Ent.NODE_CONFLICT = 1 ∧ Counted s t Ent.DUP_COUNT ∧ t.get Ent.DUP_LAST = f.id % 2048 + k % 512 * 65536 ∧
        ∃ x < 256, t.spindle.can.backoff = some (s.keeper.aon + aonMs (10 + x % 241))) ∧
  (∀ (e : Option CanError) (pos : Option Nat) (dp ex : Bool) (k : Nat), s.spindle.can.sending = some f → canSends s = false ∨ e = none → Answers (.canTxError e pos dp (ex, k)) s fun t =>
      t = if canSends s then s.onCan (fun c => { c with count := 0 }) else s) ∧
  (∀ (k : Nat), canSends s = false → Answers (.canTxSuccess k) s fun t =>
      t = s) ∧
  (Answers .canBackoffExpiry s fun t =>
      t = s.onCan (fun c => { c with backoff := none })) ∧
  (∀ (n k : Nat), 255 < s.get Ent.TEC → s.spindle.can.busOff = false → n = s.spindle.can.sinceOk + 1 → k = s.get Ent.BUSOFF_LIMIT → Answers .canBusOff s fun t =>
      t.spindle.can = { s.spindle.can with tx := [], sending := none, count := 0, backoff := none, busOff := true, held := decide (k ≠ 255 ∧ k ≤ n), sinceOk := n } ∧
      Counted s t Ent.BUSOFF_COUNT ∧ t.get Ent.TX_DROPPED = min (s.get Ent.TX_DROPPED + canLevel s) (256 ^ entrySize Ent.TX_DROPPED - 1)) ∧
  (xoRuns s = true → s.spindle.can.busOff = true → Answers .canBusOffRecovered s fun t =>
      if s.spindle.can.held then t = s else t.spindle.can = { s.spindle.can with busOff := false } ∧ t.get Ent.TEC = 0 ∧ t.get Ent.REC = 0) ∧
  (∀ (u : User) (v : Nat), accepts s (numReq u Ent.CAN_RESTART v) = true → Answers (.canRestart u v) s fun t =>
      t.spindle.can = { s.spindle.can with held := false } ∧ t.getU Ent.LAST_STATUS u = Sc.ok) ∧
  (∀ (u : User) (v : Nat), v < 256 → accepts s (numReq u Ent.NODE_ID v) = true → s.keeper.jobs.length < 2 → Starts (.nodeIdWrite u v) s (numReq u Ent.NODE_ID v) Ent.NODE_ID v) ∧
  (∀ (u : User) (v : Nat), v < 256 → Commits s (numReq u Ent.NODE_ID v) Ent.NODE_ID v fun t =>
      t.get Ent.NODE_ID = v ∧ t.get Ent.NODE_CONFLICT = 0 ∧ t.spindle.can = { s.spindle.can with backoff := none })

/-- On the bus a frame that R331 accepts is counted, lowers REC as ISO 11898-1 has it, and is parsed while the core's clock runs; while CORE rests it waits in the receive FIFO and raises CORE, and a full FIFO loses it and counts. A frame with no valid node field is ignored and counted. A BEACON of an allowed zone adds its kinds to the relayed ones while the bus is an echo source. A SOURCE or HEARTBEAT of the own node ID shows a conflict. A request to the own node ID joins the queue of user N; a second segment completes the first; a malformed header answers RANGE; a repeat within 1 s repeats the kept response. A TIME frame of the accepted source is a write of TIME_SET. A response is sent, kept and taken from its queue. An error while receiving counts and raises REC. -/
def Obligations.CanReceiving : Prop :=
  ∀ (s : State) (n : Nat) (x : Bytes) (k : Request), canOnBus s = true →
  (∀ (b0 b1 : Byte), engineRuns s = true → s.spindle.can.rx = [] → Answers (.canBeaconRx b0 b1) s fun t =>
      Counted s t Ent.RX_FRAMES ∧ Counted s t Ent.BEACONS_RX ∧ t.get Ent.LAST_BEACON = b0.toNat % 8 + 256 * (b1.toNat % 16) ∧ t.spindle = s.spindle ∧
      t.keeper.relCan = if bit (s.get Ent.ECHO_SOURCES) 0 && bit (s.get Ent.ECHO_ZONE_MASK) (b1.toNat % 16) then s.keeper.relCan ||| b0.toNat % 8 else s.keeper.relCan) ∧
  (engineRuns s = true → s.spindle.can.rx = [] → nodeOk n = true → Answers (.canSourceRx n) s fun t =>
      Counted s t Ent.RX_FRAMES ∧ (n = s.get Ent.NODE_ID → t.get Ent.NODE_CONFLICT = 1 ∧ Counted s t Ent.DUP_COUNT ∧ t.get Ent.DUP_LAST = 128 + n + 0x1FF0000) ∧
      (n ≠ s.get Ent.NODE_ID → t.get Ent.NODE_CONFLICT = s.get Ent.NODE_CONFLICT ∧ t.spindle = s.spindle)) ∧
  (engineRuns s = true → s.spindle.can.rx = [] → nodeOk n = true → Answers (.canHeartbeatRx n) s fun t =>
      Counted s t Ent.RX_FRAMES ∧ (n = s.get Ent.NODE_ID → t.get Ent.NODE_CONFLICT = 1 ∧ Counted s t Ent.DUP_COUNT ∧ t.get Ent.DUP_LAST = 768 + n + 0x1FF0000) ∧
      (n ≠ s.get Ent.NODE_ID → t.get Ent.NODE_CONFLICT = s.get Ent.NODE_CONFLICT ∧ t.spindle = s.spindle)) ∧
  (engineRuns s = true → s.spindle.can.rx = [] → nodeOk n = true → n = s.get Ent.NODE_ID → 8 ≤ x.length → (canParse x).req.op = 1 → canMalformed x = false → (canParse x).more = false → (canParse x).second = false → keptPayloads s (canParse x).req = none → s.spindle.dict.reqs.n.length < 4 → Answers (.canRequestRead n x) s fun t =>
      t.spindle.dict.reqs.n = s.spindle.dict.reqs.n ++ [(canParse x).req] ∧ Counted s t Ent.RX_FRAMES ∧ t.spindle.can = s.spindle.can) ∧
  (engineRuns s = true → s.spindle.can.rx = [] → nodeOk n = true → n = s.get Ent.NODE_ID → 8 ≤ x.length → (canParse x).req.op = 2 → canMalformed x = false → (canParse x).more = false → (canParse x).second = false → keptPayloads s (canParse x).req = none → s.spindle.dict.reqs.n.length < 4 → Answers (.canRequestWrite n x) s fun t =>
      t.spindle.dict.reqs.n = s.spindle.dict.reqs.n ++ [(canParse x).req] ∧ Counted s t Ent.RX_FRAMES ∧ t.spindle.can = s.spindle.can) ∧
  (∀ (y : Bytes), engineRuns s = true → s.spindle.can.rx = [] → nodeOk n = true → n = s.get Ent.NODE_ID → 8 ≤ x.length → (canParse x).req.op = 2 → canMalformed x = false → (canParse x).second = true → s.spindle.can.seg = some (k, y) → sameRequest (canParse x).req k = true → s.spindle.can.kept = none → s.spindle.dict.reqs.n.length < 4 → Answers (.canRequestWrite n x) s fun t =>
      t.spindle.dict.reqs.n = s.spindle.dict.reqs.n ++ [{ (canParse x).req with value := y ++ (canParse x).req.value }] ∧ t.spindle.can = { s.spindle.can with seg := none }) ∧
  (engineRuns s = true → s.spindle.can.rx = [] → nodeOk n = true → n = s.get Ent.NODE_ID → 8 ≤ x.length → (canParse x).req.op = 3 → canMalformed x = false → (canParse x).more = false → (canParse x).second = false → keptPayloads s (canParse x).req = none → s.spindle.dict.reqs.n.length < 4 → Answers (.canRequestStage n x) s fun t =>
      t.spindle.dict.reqs.n = s.spindle.dict.reqs.n ++ [(canParse x).req] ∧ Counted s t Ent.RX_FRAMES ∧ t.spindle.can = s.spindle.can) ∧
  (∀ (y : Bytes), engineRuns s = true → s.spindle.can.rx = [] → nodeOk n = true → n = s.get Ent.NODE_ID → 8 ≤ x.length → (canParse x).req.op = 3 → canMalformed x = false → (canParse x).second = true → s.spindle.can.seg = some (k, y) → sameRequest (canParse x).req k = true → s.spindle.can.kept = none → s.spindle.dict.reqs.n.length < 4 → Answers (.canRequestStage n x) s fun t =>
      t.spindle.dict.reqs.n = s.spindle.dict.reqs.n ++ [{ (canParse x).req with value := y ++ (canParse x).req.value }] ∧ t.spindle.can = { s.spindle.can with seg := none }) ∧
  (engineRuns s = true → s.spindle.can.rx = [] → nodeOk n = true → n = s.get Ent.NODE_ID → 8 ≤ x.length → canMalformed x = true → canBlocked s = false → s.spindle.can.tx = [] → s.spindle.can.sending = none → Answers (.canRequestRead n x) s fun t =>
      t.spindle.can.tx = [⟨3 * 128 + s.get Ent.NODE_ID, responsePayload (canParse x).req 0 Sc.range [], true⟩] ∧ t.spindle.dict = s.spindle.dict) ∧
  (∀ (p : Bytes), engineRuns s = true → s.spindle.can.rx = [] → nodeOk n = true → n = s.get Ent.NODE_ID → 8 ≤ x.length → canMalformed x = false → (canParse x).more = false → (canParse x).second = false → keptPayloads s (canParse x).req = some [p] → canBlocked s = false → s.spindle.can.tx = [] → s.spindle.can.sending = none → Answers (.canRequestWrite n x) s fun t =>
      t.spindle.can.tx = [ownFrame s 3 p] ∧ Counted s t Ent.RESP_REPEATS ∧ t.spindle.dict = s.spindle.dict) ∧
  (∀ (y : Bytes), s.spindle.can.seg = some (k, y) → Answers .canSegmentTimeout s fun t =>
      t.spindle.can = { s.spindle.can with seg := none } ∧ Counted s t Ent.SEG_TIMEOUTS) ∧
  (∀ (time : Nat), engineRuns s = true → s.spindle.can.rx = [] → nodeOk n = true → s.get Ent.TIME_PERIOD = 0 → s.get Ent.TIME_ACCEPT = 1 → s.get Ent.TIME_SOURCE = 0 ∨ s.get Ent.TIME_SOURCE = n → s.spindle.dict.reqs.n.length < 4 → Answers (.canTimeRx n time) s fun t =>
      t.spindle.dict.reqs.n = s.spindle.dict.reqs.n ++ [{ numReq .N Ent.TIME_SET time with dropped := true }] ∧ Counted s t Ent.RX_FRAMES) ∧
  (s.get Ent.REC ≤ 127 → Answers .canFrameIgnored s fun t =>
      Counted s t Ent.RX_IGNORED ∧ t.get Ent.REC = s.get Ent.REC - 1 ∧ t.spindle = s.spindle ∧ t.keeper = s.keeper) ∧
  (∀ (time : Nat), s.get Ent.REC ≤ 127 → nodeOk n = false → Answers (.canTimeRx n time) s fun t =>
      Counted s t Ent.RX_IGNORED ∧ t.get Ent.RX_FRAMES = s.get Ent.RX_FRAMES ∧ t.get Ent.REC = s.get Ent.REC - 1 ∧ t.spindle = s.spindle ∧ t.keeper = s.keeper) ∧
  (engineRuns s = true → s.spindle.can.rx = [] → Answers .canResponseNoticeRx s fun t =>
      Counted s t Ent.RX_FRAMES ∧ (s.get Ent.REC ≤ 127 → t.get Ent.REC = s.get Ent.REC - 1) ∧ (127 < s.get Ent.REC → 119 ≤ t.get Ent.REC ∧ t.get Ent.REC ≤ 127) ∧ t.spindle = s.spindle) ∧
  (domState s .core = 1 → s.spindle.can.rx.length < 16 → nodeOk n = true → Answers (.canHeartbeatRx n) s fun t =>
      Counted s t Ent.RX_FRAMES ∧ t.spindle.can = { s.spindle.can with rx := s.spindle.can.rx ++ [.heartbeat n] } ∧ domState t .core = 4) ∧
  (engineRuns s = false → s.spindle.can.rx.length = 16 → nodeOk n = true → Answers (.canHeartbeatRx n) s fun t =>
      Counted s t Ent.RX_OVERRUN ∧ t.get Ent.RX_FRAMES = s.get Ent.RX_FRAMES ∧ t.spindle.can = s.spindle.can) ∧
  (∀ (e : CanError) (dp fl : Bool) (j : Nat), j ≤ 100 → s.get Ent.REC ≤ 255 → Answers (.canRxError e n dp (fl, j)) s fun t =>
      Counted s t (Ent.ERR_COUNT (canErrorNum e)) ∧ t.get Ent.REC = s.get Ent.REC + recGain e fl j ∧ t.get Ent.LAST_ERROR = canErrorNum e + (if dp then 16 else 0) + n % 2048 * 65536 ∧ t.spindle = s.spindle) ∧
  (∀ (v : Bytes) (c : Nat) (rest : List Response), engineUp s = true → s.spindle.dict.resps.n = ⟨k, c, v⟩ :: rest → c ≠ 0xFF → v.length ≤ 56 → s.get Ent.NODE_ID ≠ 0 → canBlocked s = false → s.spindle.can.tx = [] → s.spindle.can.sending = none → Answers .canResponseSend s fun t =>
      t.spindle.dict.resps.n = rest ∧ t.spindle.can.tx = [ownFrame s 3 (responsePayload k 0 c v)] ∧ t.spindle.can.kept = some ([responsePayload k 0 c v], k, s.keeper.aon))

/-! ## The host ports -/

/-- A whole frame that passes the checks counts and joins its user's queue with its sequence in HP_LAST_SEQ, on the UART after COBS is undone, on SPI with what follows it ignored; where the queue is full the port answers BUSY. A repeat of a request in flight is dropped and counted; one of the kept response sends that again. An op out of range, or a read with a value, answers RANGE. A frame that fails check 1 counts with its code, one that fails its CRC counts as that; neither does anything else. A first byte of 0xFF makes an SPI transaction a fetch, the first part of a request leaves it open. While the core's clock rests a frame waits in the port's buffers and raises CORE; a third one is lost and counted. HP_RESET empties the port's slots, its user's staging area, claims and page, and counts. -/
def Obligations.HostRequests : Prop :=
  ∀ (s : State) (u : User) (f : Bytes) (p : Port) (r : Request) (k : Response),
  (hears s p = true → frameCode f = 0 → frameCrcOk f = true → r = frameReq p f → r.op = 1 → r.value = [] → (inFlight s r.user).any (sameHost r) = false → (s.spindle.ports.get p).kept = none → (s.spindle.dict.reqs.get r.user).length < 4 → Answers (.hostRead p (onLine p f)) s fun t =>
      t.spindle.dict.reqs.get r.user = s.spindle.dict.reqs.get r.user ++ [r] ∧ t.get (Ent.HP_LAST_SEQ (portNum p)) = r.seq ∧ Counted s t (Ent.HP_RX_FRAMES (portNum p)) ∧
      t.keeper = s.keeper ∧ t.spindle.ports.get p = heard s p) ∧
  (∀ (x : Bytes), p ≠ .C ∨ x = [] → hears s p = true → frameCode f = 0 → frameCrcOk f = true → r = frameReq p f → r.op = 2 → (inFlight s r.user).any (sameHost r) = false → (s.spindle.ports.get p).kept = none → (s.spindle.dict.reqs.get r.user).length < 4 → Answers (.hostWrite p (onLine p f ++ x)) s fun t =>
      t.spindle.dict.reqs.get r.user = s.spindle.dict.reqs.get r.user ++ [r] ∧ t.get (Ent.HP_LAST_SEQ (portNum p)) = r.seq ∧ Counted s t (Ent.HP_RX_FRAMES (portNum p)) ∧
      t.keeper = s.keeper ∧ t.spindle.ports.get p = heard s p) ∧
  (hears s p = true → frameCode f = 0 → frameCrcOk f = true → r = frameReq p f → r.op = 3 → (inFlight s r.user).any (sameHost r) = false → (s.spindle.ports.get p).kept = none → (s.spindle.dict.reqs.get r.user).length < 4 → Answers (.hostStage p (onLine p f)) s fun t =>
      t.spindle.dict.reqs.get r.user = s.spindle.dict.reqs.get r.user ++ [r] ∧ t.get (Ent.HP_LAST_SEQ (portNum p)) = r.seq ∧ Counted s t (Ent.HP_RX_FRAMES (portNum p)) ∧
      t.keeper = s.keeper ∧ t.spindle.ports.get p = heard s p) ∧
  (hears s p = true → frameCode f = 0 → frameCrcOk f = true → r = frameReq p f → r.op = 2 → (inFlight s r.user).any (sameHost r) = true → Answers (.hostWrite p (onLine p f)) s fun t =>
      Counted s t (Ent.HP_REPEAT_DROP (portNum p)) ∧ Counted s t (Ent.HP_RX_FRAMES (portNum p)) ∧ t.spindle.dict = s.spindle.dict ∧ t.spindle.ports.get p = heard s p ∧ t.keeper = s.keeper) ∧
  (hears s p = true → frameCode f = 0 → frameCrcOk f = true → r = frameReq p f → r.op = 2 → (inFlight s r.user).any (sameHost r) = false → (s.spindle.ports.get p).kept = some k → sameHost r k.req = true → (s.spindle.ports.get p).answer = none → Answers (.hostWrite p (onLine p f)) s fun t =>
      Counted s t (Ent.HP_REPEAT_SERVED (portNum p)) ∧ t.spindle.ports.get p = { heard s p with answer := some k } ∧ t.spindle.dict = s.spindle.dict) ∧
  (hears s p = true → frameCode f = 0 → frameCrcOk f = true → r = frameReq p f → r.op = 2 → (inFlight s r.user).any (sameHost r) = false → (s.spindle.ports.get p).kept = none → (s.spindle.ports.get p).answer = none → 4 ≤ (s.spindle.dict.reqs.get r.user).length → Answers (.hostWrite p (onLine p f)) s fun t =>
      t.spindle.ports.get p = { heard s p with answer := some ⟨r, Sc.busy, []⟩ } ∧ Counted s t (Ent.BUSY_COUNT (userNum r.user + 1)) ∧ t.spindle.dict = s.spindle.dict) ∧
  (hears s p = true → frameCode f = 0 → frameCrcOk f = true → r = frameReq p f → (r.op = 1 ∧ r.value ≠ []) ∨ r.op = 0 ∨ 3 < r.op → Answers (.hostRead p (onLine p f)) s fun t =>
      t.spindle.dict = s.spindle.dict ∧ Counted s t (Ent.HP_RX_FRAMES (portNum p)) ∧
      if (s.spindle.ports.get p).answer = none then t.spindle.ports.get p = { heard s p with answer := some ⟨r, Sc.range, []⟩ }
      else t.spindle.ports.get p = heard s p ∧ Counted s t (Ent.HP_ANS_DROPPED (portNum p))) ∧
  (hears s p = true → p ≠ .C → f ≠ [] → f.getD 0 0 ≠ 0x5A → f.getD 0 0 ≠ 0xFF → Answers (.hostFrameError p f false) s fun t =>
      Counted s t (Ent.HP_FRAME_ERR (portNum p)) ∧ t.get (Ent.HP_LAST_ERR (portNum p)) = 1 ∧ t.spindle.dict = s.spindle.dict ∧ t.spindle.ports.get p = heard s p ∧ t.keeper = s.keeper) ∧
  (hears s p = true → p ≠ .C → f.getD 0 0 = 0x5A → 73 ≤ f.length → 73 < requestLength f → Answers (.hostFrameError p f false) s fun t =>
      Counted s t (Ent.HP_FRAME_ERR (portNum p)) ∧ t.get (Ent.HP_LAST_ERR (portNum p)) = 3 ∧ t.spindle.dict = s.spindle.dict ∧ t.spindle.ports.get p = heard s p ∧ t.keeper = s.keeper) ∧
  (∀ (b : Bool), portListens s .C = true → f ≠ [] → f.length ≤ 74 → (b = true ∨ cobsDecode f = none ∨ ∃ g, cobsDecode f = some g ∧ frameCode g ≠ 0) → Answers (.hostFrameError .C f b) s fun t =>
      Counted s t (Ent.HP_FRAME_ERR 3) ∧ t.get (Ent.HP_LAST_ERR 3) = (if b then 5 else ((cobsDecode f).map frameCode).getD 4) ∧ t.spindle = s.spindle ∧ t.keeper = s.keeper) ∧
  (hears s p = true → frameCode f = 0 → frameCrcOk f = false → Answers (.hostFrameError p (onLine p f) false) s fun t =>
      Counted s t (Ent.HP_CRC_ERR (portNum p)) ∧ t.spindle.dict = s.spindle.dict ∧ t.spindle.ports.get p = heard s p ∧ t.keeper = s.keeper ∧ t.get (Ent.HP_RX_FRAMES (portNum p)) = s.get (Ent.HP_RX_FRAMES (portNum p))) ∧
  (hears s p = true → p ≠ .C → f.getD 0 0 = 0xFF → Answers (.hostWrite p f) s fun t =>
      t = s.onPort p (fun h => { h with fetch := true })) ∧
  (hears s p = true → p ≠ .C → f.getD 0 0 = 0x5A → f.length < requestLength f → f.length < 73 → Answers (.hostWrite p f) s fun t =>
      t = s.onPort p (fun h => { h with part := true })) ∧
  (∀ (x : Bytes), domState s .core = 1 → portListens s .C = true → frameCode f = 0 → (s.spindle.ports.get .C).frames = [x] → Answers (.hostWrite .C (cobsEncode f)) s fun t =>
      t.spindle.ports.get .C = { s.spindle.ports.get .C with frames := [x, f] } ∧ domState t .core = 4 ∧ t.spindle.dict = s.spindle.dict) ∧
  (domState s .core = 4 → portListens s .C = true → frameCode f = 0 → (s.spindle.ports.get .C).frames.length = 2 → Answers (.hostWrite .C (cobsEncode f)) s fun t =>
      Counted s t (Ent.HP_RX_OVERRUN 3) ∧ t.spindle.ports = s.spindle.ports ∧ t.spindle.dict = s.spindle.dict) ∧
  (portListens s .C = true → Answers .hostUartGapTimeout s fun t =>
      Counted s t (Ent.HP_FRAME_ERR 3) ∧ t.get (Ent.HP_LAST_ERR 3) = 6 ∧ t.spindle = s.spindle) ∧
  (∀ (n v : Nat), accepts s (numReq u (Ent.HP_RESET n) v) = true → 1 ≤ n → n ≤ 3 → p = portOf n → Answers (.hpReset u n v) s fun t =>
      t.spindle.ports.get p = { s.spindle.ports.get p with chosen := 0, part := false, frames := [], answer := none, kept := none, baud := none } ∧ stagedOf t (portUser p) = [] ∧
      PageCleared s t (portUser p) ∧ (bnUser t (portUser p)).eph = [] ∧
      (∀ g ∈ claimGroups, claimHolder t g ≠ userId (portUser p)) ∧ Counted s t (Ent.HP_RESETS n) ∧ (∀ q ∈ t.spindle.dict.reqs.get (portUser p), q.dropped = true) ∧ t.getU Ent.LAST_STATUS u = Sc.ok)

/-- At the falling edge of CS a port in use chooses what it will send: its answer slot, else the head of its response queue where that has been answered, else nothing. During the transaction SDO carries that frame from its first byte, then zeros. At the rising edge a chosen frame that has been clocked whole has left: the slot is empty, or the response is kept and taken from its queue; one cut off stays and is counted. A request cut off counts with code 7, but not in a fetch or behind a whole request. The UART sends the slot, then the queue, COBS-encoded with a delimiter. A kept response expires. -/
def Obligations.HostResponses : Prop :=
  ∀ (s : State) (p : Port) (k : Response) (rest : List Response),
  (∀ (b : Bool), p ≠ .C → portListens s p = true → Answers (.hostCsFall p b) s fun t =>
      t.spindle.ports.get p = { s.spindle.ports.get p with cs := true, mode3 := b, chosen := (t.spindle.ports.get p).chosen, taken := false, part := false, fetch := false } ∧ t.ent = s.ent ∧
      (t.spindle.ports.get p).chosen = (if (s.spindle.ports.get p).answer ≠ none then 1 else if headResponse s (portUser p) = none then 0 else 2)) ∧
  (∀ (n : Nat), portListens s p = true → (s.spindle.ports.get p).cs = true → (s.spindle.ports.get p).part = false → (s.spindle.ports.get p).chosen = 1 → (s.spindle.ports.get p).answer = some k → Answers (.hostCsRise p n false) s fun t =>
      (t.spindle.ports.get p).cs = false ∧ (t.spindle.ports.get p).out = fitBytes n (responseFrame k) ∧ t.spindle.dict = s.spindle.dict ∧
      (if (responseFrame k).length ≤ n then (t.spindle.ports.get p).answer = none ∧ Counted s t (Ent.HP_TX_FRAMES (portNum p))
        else (t.spindle.ports.get p).answer = some k ∧ Counted s t (Ent.HP_RESP_ABORT (portNum p)))) ∧
  (∀ (n : Nat), portListens s p = true → (s.spindle.ports.get p).cs = true → (s.spindle.ports.get p).part = false → (s.spindle.ports.get p).chosen = 2 → s.spindle.dict.resps.get (portUser p) = k :: rest → k.status ≠ Sc.claimed → Answers (.hostCsRise p n false) s fun t =>
      (t.spindle.ports.get p).cs = false ∧ (t.spindle.ports.get p).out = fitBytes n (responseFrame k) ∧
      (if (responseFrame k).length ≤ n then t.spindle.dict.resps.get (portUser p) = rest ∧ (t.spindle.ports.get p).kept = some k ∧
          Counted s t (Ent.HP_TX_FRAMES (portNum p))
        else t.spindle.dict = s.spindle.dict ∧ Counted s t (Ent.HP_RESP_ABORT (portNum p)))) ∧
  (∀ (n : Nat), portListens s p = true → (s.spindle.ports.get p).cs = true → (s.spindle.ports.get p).chosen = 0 → Answers (.hostCsRise p n false) s fun t =>
      (t.spindle.ports.get p).cs = false ∧ (t.spindle.ports.get p).out = zeros n ∧
      if (s.spindle.ports.get p).part = true ∧ (s.spindle.ports.get p).taken = false ∧ (s.spindle.ports.get p).fetch = false then
        Counted s t (Ent.HP_FRAME_ERR (portNum p)) ∧ t.get (Ent.HP_LAST_ERR (portNum p)) = 7
      else t.ent = s.ent) ∧
  (∀ (n : Nat), portListens s p = true → (s.spindle.ports.get p).cs = true → (s.spindle.ports.get p).taken = false → (s.spindle.ports.get p).fetch = false → Answers (.hostCsRise p n true) s fun t =>
      (t.spindle.ports.get p).cs = false ∧ (t.spindle.ports.get p).chosen = 0 ∧ Counted s t (Ent.HP_FRAME_ERR (portNum p)) ∧ t.get (Ent.HP_LAST_ERR (portNum p)) = 7) ∧
  (portListens s .C = true → (s.spindle.ports.get .C).answer = some k → Answers .hostUartResponseSend s fun t =>
      (t.spindle.ports.get .C).answer = none ∧ (t.spindle.ports.get .C).out = cobsEncode (responseFrame k) ++ [0] ∧ Counted s t (Ent.HP_TX_FRAMES 3) ∧ t.spindle.dict = s.spindle.dict) ∧
  (portListens s .C = true → (s.spindle.ports.get .C).answer = none → s.spindle.dict.resps.c = k :: rest → k.status ≠ Sc.claimed → Answers .hostUartResponseSend s fun t =>
      t.spindle.dict.resps.c = rest ∧ (t.spindle.ports.get .C).kept = some k ∧ (t.spindle.ports.get .C).out = cobsEncode (responseFrame k) ++ [0] ∧ Counted s t (Ent.HP_TX_FRAMES 3) ∧
      (t.spindle.ports.get .C).baud = if endsBaud k then none else (s.spindle.ports.get .C).baud) ∧
  (Answers (.keptResponseExpiry p) s fun t =>
      t = s.onPort p (fun h => { h with kept := none }))

/-! ## Tap access -/

/-- A field session begins in IDLE, counted, with the origin UID in mode 0 and else a UID of the pool; without the spindle die the origin UID stands in, counted. It ends in POWER-OFF, its authentication closed and its page cleared. REQA in IDLE, and WUPA in IDLE or HALT, lead to READY. Anticollision answers the rest of the level's bytes and their check byte; SELECT of the last level leads to ACTIVE, RATS to PROTOCOL, HLTA to HALT. Any other frame returns READY and ACTIVE to IDLE and changes nothing else. -/
def Obligations.TagFrames : Prop :=
  ∀ (s : State) (n : Nat) (x : Bytes),
  (s.tag.session = false → tagOff s = false → s.get Ent.TAG_UID_MODE = 0 → Answers .fieldSessionStart s fun t =>
      t.tag.session = true ∧ t.get Ent.TAG_STATE = 1 ∧ t.tag.uid = originUid ∧ t.tag.open_ = false ∧ (s.keeper.vddValid = true → Counted s t Ent.TAG_SESSIONS) ∧ t.pads.field = true) ∧
  (∀ (a : Nat) (rest : List Nat), s.tag.session = false → tagOff s = false → s.keeper.vddValid = true → s.get Ent.TAG_UID_MODE ≠ 0 → s.keeper.pool = a :: rest → Answers .fieldSessionStart s fun t =>
      t.tag.uid = leBytes 4 a ∧ t.keeper.pool = rest ∧ t.get Ent.TAG_STATE = 1 ∧ Counted s t Ent.TAG_SESSIONS) ∧
  (s.tag.session = false → tagOff s = false → s.keeper.vddValid = true → spindleReady s = false → s.get Ent.TAG_UID_MODE ≠ 0 → s.keeper.pool = [] → Answers .fieldSessionStart s fun t =>
      t.tag.uid = originUid ∧ Counted s t Ent.TAG_FALLBACKS ∧ t.get Ent.TAG_STATE = 1) ∧
  (s.tag.session = true → Answers .fieldSessionEnd s fun t =>
      t.get Ent.TAG_STATE = 0 ∧ t.tag = {} ∧ PageCleared s t .T ∧ t.spindle.dict.reqs.t = [] ∧ t.pads.field = false) ∧
  (∀ (b : Bool), Answers (.fieldDrop b) s fun t =>
      t = s.onPads (fun q => { q with field := b })) ∧
  (tagState s = 1 → s.tag.uid.length = 4 → Answers .reqa s fun t =>
      t.get Ent.TAG_STATE = 3 ∧ t.tag = { s.tag with level := 1, answer := [0x04, 0x00] }) ∧
  (tagState s = 2 → Answers .reqa s fun t =>
      t = s) ∧
  (tagState s = 1 ∨ tagState s = 2 → s.tag.uid.length = 7 → Answers .wupa s fun t =>
      t.get Ent.TAG_STATE = 3 ∧ t.tag = { s.tag with level := 1, answer := [0x44, 0x00] }) ∧
  (∀ (y : Bytes), tagState s = 3 → n = s.tag.level → y = cascadeBytes s.tag n → y.take x.length = x → Answers (.anticollision n x) s fun t =>
      t.tag.answer = (y ++ [bcc y]).drop x.length ∧ t.get Ent.TAG_STATE = 3 ∧ t.tag = { s.tag with answer := t.tag.answer }) ∧
  (tagState s = 3 → n = s.tag.level → x = cascadeBytes s.tag n → Answers (.selectCascade n x) s fun t =>
      if s.tag.uid.length = 4 ∨ n = 2 then t.get Ent.TAG_STATE = 4 ∧ t.tag = { s.tag with answer := [0x20] }
      else t.get Ent.TAG_STATE = 3 ∧ t.tag = { s.tag with level := 2, answer := [0x04] }) ∧
  (tagState s = 4 → Answers .hlta s fun t =>
      t.get Ent.TAG_STATE = 2 ∧ t.tag.open_ = false ∧ PageCleared s t .T) ∧
  (tagState s = 4 → Answers (.rats n) s fun t =>
      t.get Ent.TAG_STATE = 5 ∧ t.tag.fsd = fsdOf n ∧ t.tag.block = true ∧ t.tag.answer = [0x05, 0x78, 0x00, 0x60, 0x00] ∧ t.tag.open_ = s.tag.open_) ∧
  (∀ (b : Bool), tagState s = 5 → Answers (.pps b) s fun t =>
      t = if b then s.onTag (fun q => { q with answer := [0xD0] }) else s) ∧
  (∀ (b : Bool), Answers (.tagOtherFrame b) s fun t =>
      t.get Ent.TAG_STATE = (if tagState s = 3 ∨ tagState s = 4 then 1 else tagState s) ∧ t.tag = s.tag ∧ t.keeper = s.keeper ∧ t.spindle = s.spindle)

/-- In PROTOCOL an I-block that chains is acknowledged and kept; the last one of a command puts it into the buffer, and one with no listed command is answered 6D00 or 6E00 at once. R(NAK) of the last block has it sent again; an R(ACK) of the next sends the next part of a response. The reader's S(WTX) response restarts the waiting time, or releases the waiting answer. S(DESELECT) ends in HALT with the authentication closed. After 15 ms without an answer S(WTX) goes out, after 2 s 6F00. -/
def Obligations.TagBlocks : Prop :=
  ∀ (s : State) (x : Bytes) (a b : Bool), tagState s = 5 →
  (tagBusy s = false → Answers (.iBlock a true x) s fun t =>
      t.tag = { s.tag with block := !s.tag.block, out := [], chain := (s.tag.chain ++ x).take 512, answer := [if s.tag.block then 0xA2 else 0xA3], lastBlock := [if s.tag.block then 0xA2 else 0xA3] } ∧ t.ent = s.ent) ∧
  (∀ (y : Bytes), tagBusy s = false → y = (s.tag.chain ++ x).take 512 → insListed (y.getD 1 0).toNat = true → Answers (.iBlock a false x) s fun t =>
      t.tag = { s.tag with block := !s.tag.block, out := [], chain := [], pendingApdu := some y, wtx := false } ∧ t.get Ent.TAG_APDUS = s.get Ent.TAG_APDUS ∧ t.get Ent.TAG_STATE = 5) ∧
  (∀ (y : Bytes), tagBusy s = false → y = (s.tag.chain ++ x).take 512 → insListed (y.getD 1 0).toNat = false → 5 ≤ s.tag.fsd → Answers (.iBlock a false x) s fun t =>
      t.tag.pendingApdu = none ∧ t.get Ent.TAG_LAST_SW = (if y.getD 0 0 = 0x80 then 0x6D00 else 0x6E00) ∧ t.tag.answer.drop 1 = (if y.getD 0 0 = 0x80 then [0x6D, 0] else [0x6E, 0]) ∧
      Counted s t Ent.TAG_APDUS ∧ t.tag.step1 = false) ∧
  (tagBusy s = false → b = s.tag.block → Answers (.rBlock a b) s fun t =>
      t = s.onTag (fun q => { q with answer := q.lastBlock })) ∧
  (tagBusy s = false → b ≠ s.tag.block → s.tag.out ≠ [] → Answers (.rBlock false b) s fun t =>
      t.tag.block = b ∧ t.tag.out = s.tag.out.drop (s.tag.fsd - 3) ∧ t.tag.answer.drop 1 = s.tag.out.take (s.tag.fsd - 3) ∧ t.ent = s.ent) ∧
  (s.tag.wtx = true → Answers .sWtxResponse s fun t =>
      t.tag.wtx = false ∧ t.tag.ready = none ∧ (s.tag.ready = none → t.tag = { s.tag with wtx := false, ready := none }) ∧
      ∀ r, s.tag.ready = some r → t.tag.answer.drop 1 = r.take (s.tag.fsd - 3) ∧ t.tag.out = r.drop (s.tag.fsd - 3)) ∧
  (tagBusy s = false → Answers .sDeselect s fun t =>
      t.get Ent.TAG_STATE = 2 ∧ t.tag.answer = [0xC2] ∧ t.tag.selected = false ∧ t.tag.open_ = false ∧ PageCleared s t .T) ∧
  (s.tag.pendingApdu ≠ none → s.tag.wtx = false → Answers .tagWtxTimer s fun t =>
      t = s.onTag (fun q => { q with wtx := true, answer := [0xF2, 0x01], lastBlock := [0xF2, 0x01] })) ∧
  (s.tag.pendingApdu ≠ none → s.tag.wtx = false → 5 ≤ s.tag.fsd → Answers .tagAnswerTimeout s fun t =>
      t.tag.pendingApdu = none ∧ t.get Ent.TAG_LAST_SW = 0x6F00 ∧ t.tag.waitingT = false ∧ t.spindle.dict.reqs.t = [] ∧ t.tag.answer.drop 1 = [0x6F, 0])

/-- A command in the buffer whose class, lengths, parameters and conditions are in order answers 9000 and its data, and else the first status word that applies. SELECT selects the application and closes the authentication; GET_ORIGIN answers the origin; READ_LOG the next records. READ_ENTRY asks the engine for user T, and the keeper answers for itself where the spindle die is away. AUTH step 1 counts monotonic counter 7 and derives K; step 2 opens where its MAC matches and counts a failure where not. WRITE_ENTRY with the right counter and MAC is a write by user T, with a wrong one it closes the authentication. -/
def Obligations.TagCommands : Prop :=
  ∀ (s : State) (x : Bytes) (a : Apdu), s.tag.pendingApdu = some x → a = parseApdu x → s.tag.waitingT = false → tagState s = 5 → s.tag.wtx = false → 5 ≤ s.tag.fsd →
  (a.ins = 0xA4 → firstSw s a = 0x9000 → Answers .apduSelect s fun t =>
      t.tag.selected = true ∧ t.tag.open_ = false ∧ PageCleared s t .T ∧ t.get Ent.TAG_LAST_SW = 0x9000 ∧ t.tag.answer.drop 1 = [0x90, 0] ∧ t.tag.pendingApdu = none) ∧
  (a.ins = 0x10 → Answers .apduGetOrigin s fun t =>
      t.tag.pendingApdu = none ∧ t.get Ent.TAG_LAST_SW = firstSw s a ∧ Counted s t Ent.TAG_APDUS ∧ t.tag.selected = s.tag.selected ∧
      (firstSw s a = 0x9000 → t.tag.answer.drop 1 ++ t.tag.out = originBytes ++ [0x90, 0]) ∧ (firstSw s a ≠ 0x9000 → t.tag.answer.drop 1 = beBytes 2 (firstSw s a))) ∧
  (a.ins = 0x12 → firstSw s a = 0x9000 → Answers .apduReadLog s fun t =>
      t.tag.answer.drop 1 ++ t.tag.out = readLog s a ++ [0x90, 0] ∧ t.get Ent.TAG_LAST_SW = 0x9000 ∧ t.log = s.log) ∧
  (a.ins = 0x14 → firstSw s a = 0x9000 → available s = true → s.spindle.dict.reqs.t.length < 4 → Answers .apduReadEntry s fun t =>
      t.spindle.dict.reqs.t = s.spindle.dict.reqs.t ++ [readReq .T a.p12 (a.data.getD 0 0).toNat] ∧ t.tag.waitingT = true ∧ t.tag.pendingApdu = some x) ∧
  (∀ (r : State × Nat × Bytes), a.ins = 0x14 → firstSw s a = 0x9000 → available s = false → (r = readAccess (s.onTag fun q => { q with step1 := false }) .T a.p12 (a.data.getD 0 0).toNat) → Answers .apduReadEntry s fun t =>
      t.tag.pendingApdu = none ∧ t.get Ent.TAG_LAST_SW = 0x9000 ∧ t.tag.waitingT = false ∧ t.tag.answer.drop 1 ++ t.tag.out =
        (if keeperAnswers a.p12 then (if r.2.1 = Sc.ok then byte Sc.ok :: r.2.2 else [byte r.2.1]) else [byte Sc.state]) ++ [0x90, 0]) ∧
  (∀ (k rd : Bytes) (v : Nat), a.ins = 0x20 → a.p1 = 1 → authReady s true = true → firstSw s a = 0x9000 → v = s.get (Ent.MONO 7) + 1 → k = authKey s → rd = cmac k ([0x53, 0x56, 0x41, 0x44] ++ fitBytes 7 s.tag.uid ++ leBytes 2 v ++ a.data) → Answers .apduAuthStep1 s fun t =>
      t.get (Ent.MONO 7) = v ∧ (page t .T).key = k ∧ (page t .T).state = 1 ∧ t.tag.rndD = rd ∧ t.tag.rndR = a.data ∧ t.tag.v = v ∧ t.tag.step1 = true ∧ t.tag.open_ = false ∧
      t.tag.answer.drop 1 ++ t.tag.out = rd ++ leBytes 2 v ++ (cmac k ([0x53, 0x56, 0x41, 0x31] ++ a.data ++ rd ++ leBytes 2 v)).take 8 ++ [0x90, 0]) ∧
  (∀ (m : Bytes), a.ins = 0x20 → a.p1 = 2 → authReady s false = true → firstSw s a = 0x9000 → (page s .T).key ≠ [] → m = cmac (page s .T).key ([0x53, 0x56, 0x41, 0x32] ++ s.tag.rndD ++ s.tag.rndR ++ leBytes 2 s.tag.v) → Answers .apduAuthStep2 s fun t =>
      if m = a.data then t.tag.open_ = true ∧ t.tag.c = 0 ∧ Counted s t Ent.TAG_AUTH_OK ∧ t.get Ent.TAG_LAST_SW = 0x9000
      else t.tag.open_ = false ∧ t.tag.fails = s.tag.fails + 1 ∧ Counted s t Ent.TAG_AUTH_FAILS ∧ PageCleared s t .T ∧ t.get Ent.TAG_LAST_SW = 0x6300) ∧
  (∀ (f : Nat × Nat × Bytes × Bytes), a.ins = 0x22 → authReady s false = true → firstSw s a = 0x9000 → f = writeFields a → s.spindle.dict.reqs.t.length < 4 → Answers .apduWriteEntry s fun t =>
      if f.2.1 = s.tag.c ∧ writeMac s f.2.1 a.p12 f.1 f.2.2.1 = some f.2.2.2 then
        t.spindle.dict.reqs.t = s.spindle.dict.reqs.t ++ [writeReq .T a.p12 f.1 f.2.2.1] ∧ t.tag.waitingT = true ∧ Counted s t Ent.TAG_WRITES ∧ t.tag.pendingApdu = some x
      else t.tag.open_ = false ∧ PageCleared s t .T ∧ t.get Ent.TAG_LAST_SW = 0x6300 ∧ t.spindle.dict.reqs = s.spindle.dict.reqs)

/-! ## Frames -/

/-- Whatever state they answer, a measurement or conversion, a phase of the horn, a relay of IC_LINE, a STATUS result leave unchanged everything that is not named for the command: all the rest of the state, and every entry outside the listed indices. -/
def Obligations.FrameSensing : Prop :=
  (∀ (vddMv : Nat), Leaves (.optMeasurementTick vddMv) (fun s => ((forgetNotices s).onFlyer fun x => { x with doms := flyDomsReset }).onSense fun x => { x with opt := none, optWaiting := none, reqAccepted := false, reqBegan := none }) [0x100E, 0x1102, 0x1103, 0x1106, 0x1107]) ∧
    Leaves .heatMeasurementTick (fun s => ((forgetNotices s).onFlyer fun x => { x with doms := flyDomsReset }).onSense fun x => { x with heat := none, heatWait := false }) [0x100E, 0x1102, 0x1103, 0x1106, 0x1107] ∧
    Leaves .coMeasurementTick (fun s => ((forgetNotices s).onFlyer fun x => { x with doms := flyDomsReset }).onSense fun x => { x with co := none, coWait := false }) [0x100E, 0x1102, 0x1103, 0x1106, 0x1107] ∧
    Leaves .ainMeasurementTick (fun s => ((forgetNotices s).onFlyer fun x => { x with doms := flyDomsReset }).onSense fun x => { x with aux := none, auxWait := false }) [0x100E, 0x1102, 0x1103, 0x1106, 0x1107] ∧
    (∀ (code : Int), Leaves (.ainConversionComplete code) (fun s => (((forgetNotices s).onFlyer fun x => { x with doms := flyDomsReset }).onSense fun x => { x with aux := none, auxWait := false }).onRes fun x => { x with aux := none, auxN := 0 }) [0x100E, 0x1102, 0x1103, 0x1106, 0x1107]) ∧
    Leaves .coPulseSettleEnd (fun s => s.onSense fun x => { x with pulse := .idle }) [] ∧
    (∀ (peak : Nat), Leaves (.coPulseRestore peak) (fun s => s.onSense fun x => { x with pulse := .idle, pulseResult := none }) []) ∧
    (∀ (code : Nat), Leaves (.heatConversionComplete code) (fun s => (((((forgetNotices s).onSb fun _ => {}).onFlyer fun x => { x with doms := flyDomsReset }).onSense fun x => { x with heat := none, heatWait := false }).onRes fun x => { x with heat := none, heatN := 0 }).onBs fun _ => {}) [0x100E, 0x1102, 0x1103, 0x1106, 0x1107, 0x120D, 0x120E]) ∧
    (∀ (code : Int), Leaves (.coConversionComplete code) (fun s => (((((forgetNotices s).onSb fun _ => {}).onFlyer fun x => { x with doms := flyDomsReset }).onSense fun x => { x with co := none, coWait := false, pulseResult := none }).onRes fun x => { x with co := none, coN := 0 }).onBs fun _ => {}) [0x100E, 0x1102, 0x1103, 0x1106, 0x1107, 0x120D, 0x120E]) ∧
    (∀ (spindle : Int) (flyer : Int) (keeper : Int) (clkFlyHz : Nat), Leaves (.dieTempTick spindle flyer keeper clkFlyHz) (fun s => (((forgetNotices s).onSb fun _ => {}).onSense fun x => { x with flyerT := 0, keeperT := 0 }).onLog fun x => { x with active := [], lastAt := [], queue := [], since := [] }) [0x100E, 0x120B, 0x120D, 0x120E, 0x2304, 0x2602, 0x4000, 0x4001, 0x4002, 0x4003, 0x4004, 0x4106, 0x5309]) ∧
    Leaves .hornPhase (fun s => ((((forgetNotices s).onSb fun _ => {}).onFlyer fun x => { x with doms := flyDomsReset }).onBs fun x => { x with lastSent := 0 }).onHorn fun _ => {}) [0x100E, 0x1102, 0x1103, 0x1106, 0x1107, 0x120D, 0x120E] ∧
    Leaves .hornQueueTake (fun s => (((s.onSb fun _ => {}).onRes fun x => { x with queues := none, queuesN := 0 }).onBs fun x => { x with lastSent := 0 }).onHorn fun _ => {}) [0x120D, 0x120E] ∧
    (∀ (mv : Nat), Leaves (.hornVboostReady mv) (fun s => s.onHorn fun _ => {}) []) ∧
    Leaves .hornFbTimeout (fun s => s.onHorn fun x => { x with fallback := false }) [] ∧
    Leaves .hornFault (fun s => s.onHorn fun _ => {}) [0x2507] ∧
    Leaves .hornOvercurrent (fun s => s.onHorn fun _ => {}) [0x2507] ∧
    Leaves .icLineRelayStart (fun s => ((s.onSb fun _ => {}).onBs fun x => { x with lastSent := 0 }).onHorn fun x => { x with icLevel := false, icRelayed := false }) [0x120D, 0x120E] ∧
    Leaves .icLineRelayEnd (fun s => ((s.onSb fun _ => {}).onBs fun x => { x with lastSent := 0 }).onHorn fun x => { x with icLevel := false, icRelayed := false }) [0x120D, 0x120E] ∧
    Leaves .flyerHushTimerExpiry (fun s => s.onBs fun x => { x with hushTimer := false, suppressed := 0 }) [] ∧
    (∀ (ohm : Nat) (riseMs : Nat) (overcurrent : Bool), Leaves (.stHorn ohm riseMs overcurrent) (fun s => (s.onSb fun _ => {}).onHorn fun x => { x with check := false }) [0x120D, 0x120E]) ∧
    (∀ (lane : Lane), Leaves (.statusHeat lane) (fun s => ((((forgetNotices s).onSense fun x => { x with buf := none }).onRes fun x => { x with flight := [], heat := none, mark := true, opt := none }).onPly fun x => { x with carry := false, f2s0 := {}, f2s1 := {}, s2f := {}, written := false }).onSpindle fun x => { x with stq := [], temps := [] }) [0x100E, 0x2100, 0x2101, 0x2102, 0x2103, 0x2104, 0x2105, 0x2106, 0x5300, 0x5305]) ∧
    (∀ (lane : Lane), Leaves (.statusCo lane) (fun s => ((((forgetNotices s).onSense fun x => { x with buf := none }).onRes fun x => { x with co := none, flight := [], mark := true, opt := none }).onPly fun x => { x with carry := false, f2s0 := {}, f2s1 := {}, s2f := {}, written := false }).onSpindle fun x => { x with stq := [] }) [0x100E, 0x2201, 0x2202, 0x2203, 0x2204, 0x2205, 0x2206, 0x5300, 0x5305]) ∧
    (∀ (lane : Lane), Leaves (.statusAux lane) (fun s => ((((forgetNotices s).onSense fun x => { x with buf := none }).onRes fun x => { x with aux := none, flight := [], mark := true, opt := none }).onPly fun x => { x with carry := false, f2s0 := {}, f2s1 := {}, s2f := {}, written := false }).onSpindle fun x => { x with stq := [] }) [0x100E, 0x220A, 0x220B, 0x220C, 0x220D, 0x5300, 0x5305]) ∧
    (∀ (lane : Lane), Leaves (.statusSupply lane) (fun s => ((((forgetNotices s).onSense fun x => { x with buf := none }).onRes fun x => { x with flight := [], mark := true, opt := none, supply := none }).onPly fun x => { x with carry := false, f2s0 := {}, f2s1 := {}, s2f := {}, written := false }).onSpindle fun x => { x with stq := [] }) [0x100E, 0x2300, 0x2303, 0x2304, 0x5300, 0x5305]) ∧
    (∀ (lane : Lane), Leaves (.statusQueues lane) (fun s => (((s.onSense fun x => { x with buf := none }).onRes fun x => { x with flight := [], mark := true, opt := none, queues := none }).onPly fun x => { x with carry := false, f2s0 := {}, f2s1 := {}, s2f := {}, written := false }).onSpindle fun x => { x with dropSeen := 0, freed := 0, placed := 0, stq := [] }) [0x120C, 0x120D, 0x2501, 0x250C, 0x5300, 0x5305])

/-- Whatever state they answer, a frame of the reader, a transmission on the bus, a request or a transaction of a host port leave unchanged everything that is not named for the command: all the rest of the state, and every entry outside the listed indices. For a frame received on the bus this is said of states whose receive FIFO is empty, so that the frame the command parses is the one received. -/
def Obligations.FramePorts : Prop :=
  Leaves .reqa (fun s => s.onTag fun x => { x with answer := [], level := 1, uid := [] }) [0x5202, 0x5203, 0x5205, 0x5207] ∧
    Leaves .wupa (fun s => s.onTag fun x => { x with answer := [], level := 1, uid := [] }) [0x5202, 0x5203, 0x5205, 0x5207] ∧
    (∀ (level : Nat) (known : Bytes), Leaves (.anticollision level known) (fun s => s.onTag fun x => { x with answer := [] }) [0x5202]) ∧
    (∀ (level : Nat) (uid : Bytes), Leaves (.selectCascade level uid) (fun s => s.onTag fun x => { x with answer := [], level := 1 }) [0x5202]) ∧
    (∀ (fsdi : Nat), Leaves (.rats fsdi) (fun s => s.onTag fun x => { x with answer := [], block := false, chain := [], fsd := 256, lastBlock := [], out := [], pendingApdu := none }) [0x5202]) ∧
    (∀ (rate106 : Bool), Leaves (.pps rate106) (fun s => s.onTag fun x => { x with answer := [] }) [0x5202]) ∧
    (∀ (number : Bool) (chain : Bool) (inf : Bytes), Leaves (.iBlock number chain inf) (fun s => s.onTag fun x => { x with answer := [], block := false, chain := [], lastBlock := [], out := [], pendingApdu := none, ready := none, step1 := false, wtx := false }) [0x120D, 0x120E, 0x5202, 0x5208, 0x520B]) ∧
    (∀ (nak : Bool) (number : Bool), Leaves (.rBlock nak number) (fun s => s.onTag fun x => { x with answer := [], block := false, lastBlock := [], out := [] }) [0x5202]) ∧
    Leaves .sWtxResponse (fun s => s.onTag fun x => { x with answer := [], lastBlock := [], out := [], ready := none, wtx := false }) [0x5202] ∧
    Leaves .tagWtxTimer (fun s => s.onTag fun x => { x with answer := [], lastBlock := [], wtx := false }) [] ∧
    (∀ (bad : Bool), Leaves (.tagOtherFrame bad) id [0x5202]) ∧
    Leaves .canTxStart (fun s => s.onCan fun x => { x with count := 0, lastPos := 0, sending := none, tx := [] }) [] ∧
    (∀ (loopDelay : Nat), Leaves (.canTxSuccess loopDelay) (fun s => s.onCan fun x => { x with count := 0, sending := none, sinceOk := 0 }) [0x250D, 0x5005, 0x5012, 0x5015]) ∧
    Leaves .canBackoffExpiry (fun s => s.onCan fun x => { x with backoff := none }) [] ∧
    Leaves .canBusOffRecovered (fun s => s.onCan fun x => { x with busOff := false }) [0x5005] ∧
    Leaves .canSegmentTimeout (fun s => s.onCan fun x => { x with seg := none }) [0x5019] ∧
    Leaves .canFrameIgnored (fun s => { s with free := State.reset.free }) [0x5005, 0x5012] ∧
    (LeavesWhen (fun s => s.spindle.can.rx = []) .canResponseNoticeRx (fun s => ({ forgetCore s with free := State.reset.free }).onCan fun x => { x with rx := [] }) [0x1101, 0x120D, 0x120E, 0x5005, 0x5012]) ∧
    (∀ (node : Nat) (time : Nat), LeavesWhen (fun s => s.spindle.can.rx = []) (.canTimeRx node time) (fun s => (({ forgetCore s with free := State.reset.free }).onDict fun x => { x with reqs := State.reset.spindle.dict.reqs }).onCan fun x => { x with rx := [] }) [0x1010, 0x1101, 0x120D, 0x120E, 0x5005, 0x5012]) ∧
    (∀ (node : Nat), LeavesWhen (fun s => s.spindle.can.rx = []) (.canSourceRx node) (fun s => ({ forgetNotices (forgetCore s) with free := State.reset.free }).onCan fun x => { x with rx := [] }) [0x100E, 0x1101, 0x120D, 0x120E, 0x5005, 0x500D, 0x500E, 0x500F, 0x5010, 0x5012]) ∧
    (∀ (target : Nat) (payload : Bytes), LeavesWhen (fun s => s.spindle.can.rx = []) (.canRequestRead target payload) (fun s => ((({ forgetNotices (forgetCore s) with free := State.reset.free }).onSpindle fun x => { x with xoFail := false }).onDict fun x => { x with reqs := State.reset.spindle.dict.reqs }).onCan fun x => { x with held := false, joined := false, rx := [], seg := none, tx := [] }) [0x100E, 0x1010, 0x1101, 0x1102, 0x1103, 0x1107, 0x120D, 0x120E, 0x5005, 0x5012, 0x5018, 0x5019]) ∧
    (∀ (target : Nat) (payload : Bytes), LeavesWhen (fun s => s.spindle.can.rx = []) (.canRequestWrite target payload) (fun s => ((({ forgetNotices (forgetCore s) with free := State.reset.free }).onSpindle fun x => { x with xoFail := false }).onDict fun x => { x with reqs := State.reset.spindle.dict.reqs }).onCan fun x => { x with held := false, joined := false, rx := [], seg := none, tx := [] }) [0x100E, 0x1010, 0x1101, 0x1102, 0x1103, 0x1107, 0x120D, 0x120E, 0x5005, 0x5012, 0x5018, 0x5019]) ∧
    (∀ (target : Nat) (payload : Bytes), LeavesWhen (fun s => s.spindle.can.rx = []) (.canRequestStage target payload) (fun s => ((({ forgetNotices (forgetCore s) with free := State.reset.free }).onSpindle fun x => { x with xoFail := false }).onDict fun x => { x with reqs := State.reset.spindle.dict.reqs }).onCan fun x => { x with held := false, joined := false, rx := [], seg := none, tx := [] }) [0x100E, 0x1010, 0x1101, 0x1102, 0x1103, 0x1107, 0x120D, 0x120E, 0x5005, 0x5012, 0x5018, 0x5019]) ∧
    (∀ (p : Port) (frame : Bytes), Leaves (.hostRead p frame) (fun s => (((forgetCore s).onPads fun x => { x with rxdLow := false }).onSpindle fun x => { x with ports := State.reset.spindle.ports }).onDict fun x => { x with reqs := State.reset.spindle.dict.reqs }) [0x1010, 0x1101, 0x120D, 0x120E, 0x5105, 0x5107, 0x5108, 0x5109, 0x510A, 0x510B, 0x510C, 0x510E, 0x5110]) ∧
    (∀ (p : Port) (frame : Bytes), Leaves (.hostWrite p frame) (fun s => (((forgetCore s).onPads fun x => { x with rxdLow := false }).onSpindle fun x => { x with ports := State.reset.spindle.ports }).onDict fun x => { x with reqs := State.reset.spindle.dict.reqs }) [0x1010, 0x1101, 0x120D, 0x120E, 0x5105, 0x5107, 0x5108, 0x5109, 0x510A, 0x510B, 0x510C, 0x510E, 0x5110]) ∧
    (∀ (p : Port) (frame : Bytes), Leaves (.hostStage p frame) (fun s => (((forgetCore s).onPads fun x => { x with rxdLow := false }).onSpindle fun x => { x with ports := State.reset.spindle.ports }).onDict fun x => { x with reqs := State.reset.spindle.dict.reqs }) [0x1010, 0x1101, 0x120D, 0x120E, 0x5105, 0x5107, 0x5108, 0x5109, 0x510A, 0x510B, 0x510C, 0x510E, 0x5110]) ∧
    (∀ (p : Port) (frame : Bytes) (framing : Bool), Leaves (.hostFrameError p frame framing) (fun s => (((forgetCore s).onPads fun x => { x with rxdLow := false }).onSpindle fun x => { x with ports := State.reset.spindle.ports }).onDict fun x => { x with reqs := State.reset.spindle.dict.reqs }) [0x1010, 0x1101, 0x120D, 0x120E, 0x5105, 0x5107, 0x5108, 0x5109, 0x510A, 0x510B, 0x510C, 0x510E, 0x5110]) ∧
    (∀ (p : Port) (mode3 : Bool), Leaves (.hostCsFall p mode3) (fun s => s.onSpindle fun x => { x with ports := State.reset.spindle.ports }) []) ∧
    (∀ (p : Port) (clocked : Nat) (cutRequest : Bool), Leaves (.hostCsRise p clocked cutRequest) (fun s => (s.onSpindle fun x => { x with ports := State.reset.spindle.ports }).onDict fun x => { x with resps := State.reset.spindle.dict.resps }) [0x5106, 0x5108, 0x510D, 0x510E]) ∧
    Leaves .hostUartResponseSend (fun s => (s.onSpindle fun x => { x with ports := State.reset.spindle.ports }).onDict fun x => { x with resps := State.reset.spindle.dict.resps }) [0x5106] ∧
    (∀ (p : Port), Leaves (.keptResponseExpiry p) (fun s => s.onSpindle fun x => { x with ports := State.reset.spindle.ports }) [])

/-- Whatever state they answer, the commands that a user gives its cipher page, its hash context, the big-number engine and the random source leave unchanged everything that is not named for the command: all the rest of the state (the log, the keeper but its notices, the flyer, the tag, every memory, the other units), and every entry outside the listed indices. -/
def Obligations.FramePages : Prop :=
  (∀ (u : User) (v : Nat), Leaves (.kdfDerive u v) (fun s => (((forgetNotices (forgetCore (forgetRequests s))).onSpindle fun x => { x with pages := State.reset.spindle.pages }).onBn fun x => { x with blind := State.reset.spindle.bn.blind, rngLeft := 0, words := [] }).onRng fun x => { x with fifo := [], waiting := [] }) [0x100B, 0x100E, 0x1010, 0x1012, 0x1013, 0x1101, 0x1102, 0x1103, 0x1107, 0x120D, 0x120E, 0x3000]) ∧
    (∀ (u : User) (v : Nat), Leaves (.aesStart u v) (fun s => (((forgetNotices (forgetCore (forgetRequests s))).onSpindle fun x => { x with pages := State.reset.spindle.pages }).onBn fun x => { x with blind := State.reset.spindle.bn.blind, rngLeft := 0, words := [] }).onRng fun x => { x with fifo := [], waiting := [] }) [0x100B, 0x100E, 0x1010, 0x1012, 0x1013, 0x1101, 0x1102, 0x1103, 0x1107, 0x120D, 0x120E, 0x3008]) ∧
    (∀ (u : User) (v : Bytes), Leaves (.aesIn u v) (fun s => (((forgetNotices (forgetCore (forgetRequests s))).onSpindle fun x => { x with pages := State.reset.spindle.pages }).onBn fun x => { x with blind := State.reset.spindle.bn.blind, rngLeft := 0, words := [] }).onRng fun x => { x with fifo := [], waiting := [] }) [0x100B, 0x100E, 0x1010, 0x1012, 0x1013, 0x1101, 0x1102, 0x1103, 0x1107, 0x120D, 0x120E, 0x3007, 0x3008]) ∧
    (∀ (u : User) (v : Nat), Leaves (.aesClear u v) (fun s => (forgetCore (forgetRequests s)).onSpindle fun x => { x with bnUser := State.reset.spindle.bnUser, pages := State.reset.spindle.pages }) [0x100B, 0x1010, 0x1012, 0x1013, 0x1101, 0x120D, 0x120E, 0x3000, 0x3003, 0x3007, 0x3008]) ∧
    (∀ (u : User) (v : Nat), Leaves (.shaInit u v) (fun s => (forgetNotices (forgetCore (forgetRequests s))).onSpindle fun x => { x with sha := State.reset.spindle.sha, shaJobs := [] }) [0x100B, 0x100E, 0x1010, 0x1012, 0x1013, 0x1101, 0x1102, 0x1103, 0x1107, 0x120D, 0x120E]) ∧
    (∀ (u : User) (v : Bytes), Leaves (.shaData u v) (fun s => (forgetNotices (forgetCore (forgetRequests s))).onSpindle fun x => { x with sha := State.reset.spindle.sha, shaJobs := [] }) [0x100B, 0x100E, 0x1010, 0x1012, 0x1013, 0x1101, 0x1102, 0x1103, 0x1107, 0x120D, 0x120E]) ∧
    (∀ (u : User) (v : Bytes), Leaves (.shaLast u v) (fun s => (forgetNotices (forgetCore (forgetRequests s))).onSpindle fun x => { x with sha := State.reset.spindle.sha, shaJobs := [] }) [0x100B, 0x100E, 0x1010, 0x1012, 0x1013, 0x1101, 0x1102, 0x1103, 0x1107, 0x120D, 0x120E, 0x3013]) ∧
    (∀ (u : User) (v : Bytes), Leaves (.bnMsg u v) (fun s => (forgetCore (forgetRequests s)).onSpindle fun x => { x with bnUser := State.reset.spindle.bnUser }) [0x100B, 0x1010, 0x1012, 0x1013, 0x1101, 0x120D, 0x120E]) ∧
    (∀ (u : User) (v : Nat), Leaves (.bnClear u v) (fun s => ((forgetCore (forgetRequests s)).onSpindle fun x => { x with bnUser := State.reset.spindle.bnUser }).onBn fun x => { x with users := [] }) [0x100B, 0x1010, 0x1012, 0x1013, 0x1101, 0x120D, 0x120E]) ∧
    (∀ (u : User) (block : Bool), Leaves (.rngRead u block) (fun s => (forgetNotices (forgetCore (forgetRequests s))).onRng fun x => { x with fifo := [] }) [0x100B, 0x100E, 0x1010, 0x1012, 0x1013, 0x1101, 0x1102, 0x1103, 0x1107, 0x120D, 0x120E, 0x3202, 0x3208]) ∧
    (∀ (u : User), Leaves (.aesOutRead u) (fun s => (forgetCore (forgetRequests s)).onSpindle fun x => { x with pages := State.reset.spindle.pages }) [0x100B, 0x1010, 0x1012, 0x1013, 0x1101, 0x120D, 0x120E]) ∧
    (∀ (u : User), Leaves (.bnPublicKey u) (fun s => ((forgetNotices (forgetCore (forgetRequests s))).onSpindle fun x => { x with bnUser := State.reset.spindle.bnUser }).onBn fun x => { x with users := [] }) [0x100B, 0x100E, 0x1010, 0x1012, 0x1013, 0x1101, 0x1102, 0x1103, 0x1107, 0x120D, 0x120E]) ∧
    (∀ (u : User), Leaves (.bnEcdsaSign u) (fun s => ((forgetNotices (forgetCore (forgetRequests s))).onSpindle fun x => { x with bnUser := State.reset.spindle.bnUser }).onBn fun x => { x with users := [] }) [0x100B, 0x100E, 0x1010, 0x1012, 0x1013, 0x1101, 0x1102, 0x1103, 0x1107, 0x120D, 0x120E]) ∧
    (∀ (u : User), Leaves (.bnEcdsaVerify u) (fun s => ((forgetNotices (forgetCore (forgetRequests s))).onSpindle fun x => { x with bnUser := State.reset.spindle.bnUser }).onBn fun x => { x with users := [] }) [0x100B, 0x100E, 0x1010, 0x1012, 0x1013, 0x1101, 0x1102, 0x1103, 0x1107, 0x120D, 0x120E]) ∧
    (∀ (u : User), Leaves (.bnEcdh u) (fun s => ((forgetNotices (forgetCore (forgetRequests s))).onSpindle fun x => { x with bnUser := State.reset.spindle.bnUser }).onBn fun x => { x with users := [] }) [0x100B, 0x100E, 0x1010, 0x1012, 0x1013, 0x1101, 0x1102, 0x1103, 0x1107, 0x120D, 0x120E]) ∧
    (∀ (u : User), Leaves (.bnX25519Public u) (fun s => ((forgetNotices (forgetCore (forgetRequests s))).onSpindle fun x => { x with bnUser := State.reset.spindle.bnUser }).onBn fun x => { x with users := [] }) [0x100B, 0x100E, 0x1010, 0x1012, 0x1013, 0x1101, 0x1102, 0x1103, 0x1107, 0x120D, 0x120E]) ∧
    (∀ (u : User), Leaves (.bnX25519Shared u) (fun s => ((forgetNotices (forgetCore (forgetRequests s))).onSpindle fun x => { x with bnUser := State.reset.spindle.bnUser }).onBn fun x => { x with users := [] }) [0x100B, 0x100E, 0x1010, 0x1012, 0x1013, 0x1101, 0x1102, 0x1103, 0x1107, 0x120D, 0x120E]) ∧
    (∀ (u : User), Leaves (.bnEd25519Verify u) (fun s => ((forgetNotices (forgetCore (forgetRequests s))).onSpindle fun x => { x with bnUser := State.reset.spindle.bnUser }).onBn fun x => { x with users := [] }) [0x100B, 0x100E, 0x1010, 0x1012, 0x1013, 0x1101, 0x1102, 0x1103, 0x1107, 0x120D, 0x120E]) ∧
    (∀ (u : User), Leaves (.bnNewEphemeralP256 u) (fun s => ((forgetNotices (forgetCore (forgetRequests s))).onSpindle fun x => { x with bnUser := State.reset.spindle.bnUser }).onBn fun x => { x with users := [] }) [0x100B, 0x100E, 0x1010, 0x1012, 0x1013, 0x1101, 0x1102, 0x1103, 0x1107, 0x120D, 0x120E]) ∧
    (∀ (u : User), Leaves (.bnNewEphemeralX25519 u) (fun s => ((forgetNotices (forgetCore (forgetRequests s))).onSpindle fun x => { x with bnUser := State.reset.spindle.bnUser }).onBn fun x => { x with users := [] }) [0x100B, 0x100E, 0x1010, 0x1012, 0x1013, 0x1101, 0x1102, 0x1103, 0x1107, 0x120D, 0x120E])

/-- Whatever state they answer, an alert of a monitor, a LOG_WRITE and the keeper's work on the log leave unchanged everything that is not named for the command: all the rest of the state, and every entry outside the listed indices. -/
def Obligations.FrameLog : Prop :=
  (∀ (inst : Nat) (kind : Nat) (value : Int) (threshold : Int), Leaves (.supplyAlert inst kind value threshold) (fun s => ((forgetNotices s).onSb fun _ => {}).onLog fun x => { x with active := [], lastAt := [], queue := [], since := [] }) [0x100E, 0x120D, 0x120E, 0x2602, 0x4000, 0x4001, 0x4002, 0x4003, 0x4004, 0x4106, 0x5309]) ∧
    (∀ (deviation : Int), Leaves (.clkCoreDeviation deviation) (fun s => ((forgetNotices s).onSb fun _ => {}).onLog fun x => { x with active := [], lastAt := [], queue := [], since := [] }) [0x100E, 0x120D, 0x120E, 0x2602, 0x4000, 0x4001, 0x4002, 0x4003, 0x4004, 0x4106, 0x5309]) ∧
    (∀ (inst : Nat) (level : Nat), Leaves (.enclosureAlert inst level) (fun s => (((({ forgetNotices (forgetCore s) with free := State.reset.free }).onKeeper fun x => { x with attempt := false, seq := .held }).onLog fun x => { x with lastAt := [], queue := [], since := [] }).onPads fun x => { x with baseLatch := false, baseSw := true, caseLatch := false, caseSw := true }).onSpindle fun x => { x with alive := false, loader := {}, mode := none }) [0x100E, 0x1101, 0x1102, 0x1103, 0x1106, 0x1107, 0x120D, 0x120E, 0x1501, 0x1502, 0x2602, 0x4000, 0x4001, 0x4002, 0x4003, 0x4004, 0x4106, 0x5309]) ∧
    Leaves .aonCrystalReturn (fun s => s.onLog fun x => { x with active := [] }) [0x1203] ∧
    (∀ (ty : Nat) (inst : Nat), Leaves (.tamperConditionEnd ty inst) (fun s => s.onLog fun x => { x with active := [] }) []) ∧
    Leaves .logWrite (fun s => (s.onSb fun _ => {}).onLog fun x => { x with linkAt := none, queue := [] }) [0x120D, 0x120E, 0x4107] ∧
    (∀ (die : Die), Leaves (.logWriteRetry die) (fun s => s.onSb fun _ => {}) []) ∧
    Leaves .logAppend (fun s => (s.onSb fun _ => {}).onLog fun _ => {}) [0x120D, 0x120E, 0x2602, 0x4106] ∧
    Leaves .logAppendComplete (fun s => ((forgetNotices s).onSb fun _ => {}).onLog fun x => { x with await := none, last := none, slots := [], writing := none }) [0x100E, 0x120D, 0x120E, 0x2602, 0x2603, 0x2604, 0x2605, 0x2609, 0x310D, 0x4100, 0x4102, 0x4103, 0x4105] ∧
    Leaves .ckptSignature (fun s => (s.onSb fun _ => {}).onLog fun x => { x with await := none, failAt := none, writing := none }) [0x4105] ∧
    Leaves .ckptSignTimeout (fun s => s.onLog fun x => { x with await := none, failAt := none, writing := none }) [0x4105] ∧
    Leaves .logFullRetry (fun s => (s.onSb fun _ => {}).onLog fun x => { x with await := none }) [0x120D, 0x120E] ∧
    Leaves .ack (fun s => forgetCore s) [0x1101, 0x120E] ∧
    Leaves .modeRepeatTimer (fun s => s.onSb fun _ => {}) [0x120D, 0x120E] ∧
    Leaves .lockupRepeatTimer (fun s => s.onSb fun _ => {}) [0x120D, 0x120E]
end

