-- ==== Sys2Proof/Laws/State.lean ====
section
/-! SUPPORT. What each update of the state leaves in each field, and what it leaves of the entries: true by definition. -/
namespace Sys2Proof.Machine
variable (s : State)


/-! ### onKeeper -/

@[simp] theorem State.onKeeper_pending (f : Keeper → Keeper) : (s.onKeeper f).pending = s.pending := rfl
@[simp] theorem State.onKeeper_free (f : Keeper → Keeper) : (s.onKeeper f).free = s.free := rfl
@[simp] theorem State.onKeeper_ent (f : Keeper → Keeper) : (s.onKeeper f).ent = s.ent := rfl
@[simp] theorem State.onKeeper_sb (f : Keeper → Keeper) : (s.onKeeper f).sb = s.sb := rfl
@[simp] theorem State.onKeeper_ply (f : Keeper → Keeper) : (s.onKeeper f).ply = s.ply := rfl
@[simp] theorem State.onKeeper_flyer (f : Keeper → Keeper) : (s.onKeeper f).flyer = s.flyer := rfl
@[simp] theorem State.onKeeper_keeper (f : Keeper → Keeper) : (s.onKeeper f).keeper = f s.keeper := rfl
@[simp] theorem State.onKeeper_log (f : Keeper → Keeper) : (s.onKeeper f).log = s.log := rfl
@[simp] theorem State.onKeeper_tag (f : Keeper → Keeper) : (s.onKeeper f).tag = s.tag := rfl
@[simp] theorem State.onKeeper_doms (f : Keeper → Keeper) : (s.onKeeper f).doms = s.doms := rfl
@[simp] theorem State.onKeeper_spindle (f : Keeper → Keeper) : (s.onKeeper f).spindle = s.spindle := rfl
@[simp] theorem State.onKeeper_pads (f : Keeper → Keeper) : (s.onKeeper f).pads = s.pads := rfl
@[simp] theorem State.onKeeper_get (f : Keeper → Keeper) (e : Nat) : (s.onKeeper f).get e = s.get e := rfl
@[simp] theorem State.onKeeper_getU (f : Keeper → Keeper) (e : Nat) (w : User) : (s.onKeeper f).getU e w = s.getU e w := rfl

/-! ### onFlyer -/

@[simp] theorem State.onFlyer_pending (f : Flyer → Flyer) : (s.onFlyer f).pending = s.pending := rfl
@[simp] theorem State.onFlyer_free (f : Flyer → Flyer) : (s.onFlyer f).free = s.free := rfl
@[simp] theorem State.onFlyer_ent (f : Flyer → Flyer) : (s.onFlyer f).ent = s.ent := rfl
@[simp] theorem State.onFlyer_sb (f : Flyer → Flyer) : (s.onFlyer f).sb = s.sb := rfl
@[simp] theorem State.onFlyer_ply (f : Flyer → Flyer) : (s.onFlyer f).ply = s.ply := rfl
@[simp] theorem State.onFlyer_flyer (f : Flyer → Flyer) : (s.onFlyer f).flyer = f s.flyer := rfl
@[simp] theorem State.onFlyer_keeper (f : Flyer → Flyer) : (s.onFlyer f).keeper = s.keeper := rfl
@[simp] theorem State.onFlyer_log (f : Flyer → Flyer) : (s.onFlyer f).log = s.log := rfl
@[simp] theorem State.onFlyer_tag (f : Flyer → Flyer) : (s.onFlyer f).tag = s.tag := rfl
@[simp] theorem State.onFlyer_doms (f : Flyer → Flyer) : (s.onFlyer f).doms = s.doms := rfl
@[simp] theorem State.onFlyer_spindle (f : Flyer → Flyer) : (s.onFlyer f).spindle = s.spindle := rfl
@[simp] theorem State.onFlyer_pads (f : Flyer → Flyer) : (s.onFlyer f).pads = s.pads := rfl
@[simp] theorem State.onFlyer_get (f : Flyer → Flyer) (e : Nat) : (s.onFlyer f).get e = s.get e := rfl
@[simp] theorem State.onFlyer_getU (f : Flyer → Flyer) (e : Nat) (w : User) : (s.onFlyer f).getU e w = s.getU e w := rfl

/-! ### onSpindle -/

@[simp] theorem State.onSpindle_pending (f : Spindle → Spindle) : (s.onSpindle f).pending = s.pending := rfl
@[simp] theorem State.onSpindle_free (f : Spindle → Spindle) : (s.onSpindle f).free = s.free := rfl
@[simp] theorem State.onSpindle_ent (f : Spindle → Spindle) : (s.onSpindle f).ent = s.ent := rfl
@[simp] theorem State.onSpindle_sb (f : Spindle → Spindle) : (s.onSpindle f).sb = s.sb := rfl
@[simp] theorem State.onSpindle_ply (f : Spindle → Spindle) : (s.onSpindle f).ply = s.ply := rfl
@[simp] theorem State.onSpindle_flyer (f : Spindle → Spindle) : (s.onSpindle f).flyer = s.flyer := rfl
@[simp] theorem State.onSpindle_keeper (f : Spindle → Spindle) : (s.onSpindle f).keeper = s.keeper := rfl
@[simp] theorem State.onSpindle_log (f : Spindle → Spindle) : (s.onSpindle f).log = s.log := rfl
@[simp] theorem State.onSpindle_tag (f : Spindle → Spindle) : (s.onSpindle f).tag = s.tag := rfl
@[simp] theorem State.onSpindle_doms (f : Spindle → Spindle) : (s.onSpindle f).doms = s.doms := rfl
@[simp] theorem State.onSpindle_spindle (f : Spindle → Spindle) : (s.onSpindle f).spindle = f s.spindle := rfl
@[simp] theorem State.onSpindle_pads (f : Spindle → Spindle) : (s.onSpindle f).pads = s.pads := rfl
@[simp] theorem State.onSpindle_get (f : Spindle → Spindle) (e : Nat) : (s.onSpindle f).get e = s.get e := rfl
@[simp] theorem State.onSpindle_getU (f : Spindle → Spindle) (e : Nat) (w : User) : (s.onSpindle f).getU e w = s.getU e w := rfl

/-! ### onLog -/

@[simp] theorem State.onLog_pending (f : LogUnit → LogUnit) : (s.onLog f).pending = s.pending := rfl
@[simp] theorem State.onLog_free (f : LogUnit → LogUnit) : (s.onLog f).free = s.free := rfl
@[simp] theorem State.onLog_ent (f : LogUnit → LogUnit) : (s.onLog f).ent = s.ent := rfl
@[simp] theorem State.onLog_sb (f : LogUnit → LogUnit) : (s.onLog f).sb = s.sb := rfl
@[simp] theorem State.onLog_ply (f : LogUnit → LogUnit) : (s.onLog f).ply = s.ply := rfl
@[simp] theorem State.onLog_flyer (f : LogUnit → LogUnit) : (s.onLog f).flyer = s.flyer := rfl
@[simp] theorem State.onLog_keeper (f : LogUnit → LogUnit) : (s.onLog f).keeper = s.keeper := rfl
@[simp] theorem State.onLog_log (f : LogUnit → LogUnit) : (s.onLog f).log = f s.log := rfl
@[simp] theorem State.onLog_tag (f : LogUnit → LogUnit) : (s.onLog f).tag = s.tag := rfl
@[simp] theorem State.onLog_doms (f : LogUnit → LogUnit) : (s.onLog f).doms = s.doms := rfl
@[simp] theorem State.onLog_spindle (f : LogUnit → LogUnit) : (s.onLog f).spindle = s.spindle := rfl
@[simp] theorem State.onLog_pads (f : LogUnit → LogUnit) : (s.onLog f).pads = s.pads := rfl
@[simp] theorem State.onLog_get (f : LogUnit → LogUnit) (e : Nat) : (s.onLog f).get e = s.get e := rfl
@[simp] theorem State.onLog_getU (f : LogUnit → LogUnit) (e : Nat) (w : User) : (s.onLog f).getU e w = s.getU e w := rfl

/-! ### onTag -/

@[simp] theorem State.onTag_pending (f : Tag → Tag) : (s.onTag f).pending = s.pending := rfl
@[simp] theorem State.onTag_free (f : Tag → Tag) : (s.onTag f).free = s.free := rfl
@[simp] theorem State.onTag_ent (f : Tag → Tag) : (s.onTag f).ent = s.ent := rfl
@[simp] theorem State.onTag_sb (f : Tag → Tag) : (s.onTag f).sb = s.sb := rfl
@[simp] theorem State.onTag_ply (f : Tag → Tag) : (s.onTag f).ply = s.ply := rfl
@[simp] theorem State.onTag_flyer (f : Tag → Tag) : (s.onTag f).flyer = s.flyer := rfl
@[simp] theorem State.onTag_keeper (f : Tag → Tag) : (s.onTag f).keeper = s.keeper := rfl
@[simp] theorem State.onTag_log (f : Tag → Tag) : (s.onTag f).log = s.log := rfl
@[simp] theorem State.onTag_tag (f : Tag → Tag) : (s.onTag f).tag = f s.tag := rfl
@[simp] theorem State.onTag_doms (f : Tag → Tag) : (s.onTag f).doms = s.doms := rfl
@[simp] theorem State.onTag_spindle (f : Tag → Tag) : (s.onTag f).spindle = s.spindle := rfl
@[simp] theorem State.onTag_pads (f : Tag → Tag) : (s.onTag f).pads = s.pads := rfl
@[simp] theorem State.onTag_get (f : Tag → Tag) (e : Nat) : (s.onTag f).get e = s.get e := rfl
@[simp] theorem State.onTag_getU (f : Tag → Tag) (e : Nat) (w : User) : (s.onTag f).getU e w = s.getU e w := rfl

/-! ### onPly -/

@[simp] theorem State.onPly_pending (f : Ply → Ply) : (s.onPly f).pending = s.pending := rfl
@[simp] theorem State.onPly_free (f : Ply → Ply) : (s.onPly f).free = s.free := rfl
@[simp] theorem State.onPly_ent (f : Ply → Ply) : (s.onPly f).ent = s.ent := rfl
@[simp] theorem State.onPly_sb (f : Ply → Ply) : (s.onPly f).sb = s.sb := rfl
@[simp] theorem State.onPly_ply (f : Ply → Ply) : (s.onPly f).ply = f s.ply := rfl
@[simp] theorem State.onPly_flyer (f : Ply → Ply) : (s.onPly f).flyer = s.flyer := rfl
@[simp] theorem State.onPly_keeper (f : Ply → Ply) : (s.onPly f).keeper = s.keeper := rfl
@[simp] theorem State.onPly_log (f : Ply → Ply) : (s.onPly f).log = s.log := rfl
@[simp] theorem State.onPly_tag (f : Ply → Ply) : (s.onPly f).tag = s.tag := rfl
@[simp] theorem State.onPly_doms (f : Ply → Ply) : (s.onPly f).doms = s.doms := rfl
@[simp] theorem State.onPly_spindle (f : Ply → Ply) : (s.onPly f).spindle = s.spindle := rfl
@[simp] theorem State.onPly_pads (f : Ply → Ply) : (s.onPly f).pads = s.pads := rfl
@[simp] theorem State.onPly_get (f : Ply → Ply) (e : Nat) : (s.onPly f).get e = s.get e := rfl
@[simp] theorem State.onPly_getU (f : Ply → Ply) (e : Nat) (w : User) : (s.onPly f).getU e w = s.getU e w := rfl

/-! ### onPads -/

@[simp] theorem State.onPads_pending (f : Pads → Pads) : (s.onPads f).pending = s.pending := rfl
@[simp] theorem State.onPads_free (f : Pads → Pads) : (s.onPads f).free = s.free := rfl
@[simp] theorem State.onPads_ent (f : Pads → Pads) : (s.onPads f).ent = s.ent := rfl
@[simp] theorem State.onPads_sb (f : Pads → Pads) : (s.onPads f).sb = s.sb := rfl
@[simp] theorem State.onPads_ply (f : Pads → Pads) : (s.onPads f).ply = s.ply := rfl
@[simp] theorem State.onPads_flyer (f : Pads → Pads) : (s.onPads f).flyer = s.flyer := rfl
@[simp] theorem State.onPads_keeper (f : Pads → Pads) : (s.onPads f).keeper = s.keeper := rfl
@[simp] theorem State.onPads_log (f : Pads → Pads) : (s.onPads f).log = s.log := rfl
@[simp] theorem State.onPads_tag (f : Pads → Pads) : (s.onPads f).tag = s.tag := rfl
@[simp] theorem State.onPads_doms (f : Pads → Pads) : (s.onPads f).doms = s.doms := rfl
@[simp] theorem State.onPads_spindle (f : Pads → Pads) : (s.onPads f).spindle = s.spindle := rfl
@[simp] theorem State.onPads_pads (f : Pads → Pads) : (s.onPads f).pads = f s.pads := rfl
@[simp] theorem State.onPads_get (f : Pads → Pads) (e : Nat) : (s.onPads f).get e = s.get e := rfl
@[simp] theorem State.onPads_getU (f : Pads → Pads) (e : Nat) (w : User) : (s.onPads f).getU e w = s.getU e w := rfl

/-! ### onSb -/

@[simp] theorem State.onSb_pending (f : Sideband → Sideband) : (s.onSb f).pending = s.pending := rfl
@[simp] theorem State.onSb_free (f : Sideband → Sideband) : (s.onSb f).free = s.free := rfl
@[simp] theorem State.onSb_ent (f : Sideband → Sideband) : (s.onSb f).ent = s.ent := rfl
@[simp] theorem State.onSb_sb (f : Sideband → Sideband) : (s.onSb f).sb = f s.sb := rfl
@[simp] theorem State.onSb_ply (f : Sideband → Sideband) : (s.onSb f).ply = s.ply := rfl
@[simp] theorem State.onSb_flyer (f : Sideband → Sideband) : (s.onSb f).flyer = s.flyer := rfl
@[simp] theorem State.onSb_keeper (f : Sideband → Sideband) : (s.onSb f).keeper = s.keeper := rfl
@[simp] theorem State.onSb_log (f : Sideband → Sideband) : (s.onSb f).log = s.log := rfl
@[simp] theorem State.onSb_tag (f : Sideband → Sideband) : (s.onSb f).tag = s.tag := rfl
@[simp] theorem State.onSb_doms (f : Sideband → Sideband) : (s.onSb f).doms = s.doms := rfl
@[simp] theorem State.onSb_spindle (f : Sideband → Sideband) : (s.onSb f).spindle = s.spindle := rfl
@[simp] theorem State.onSb_pads (f : Sideband → Sideband) : (s.onSb f).pads = s.pads := rfl
@[simp] theorem State.onSb_get (f : Sideband → Sideband) (e : Nat) : (s.onSb f).get e = s.get e := rfl
@[simp] theorem State.onSb_getU (f : Sideband → Sideband) (e : Nat) (w : User) : (s.onSb f).getU e w = s.getU e w := rfl

/-! ### onSelfTest -/

@[simp] theorem State.onSelfTest_pending (f : SelfTest → SelfTest) : (s.onSelfTest f).pending = s.pending := rfl
@[simp] theorem State.onSelfTest_free (f : SelfTest → SelfTest) : (s.onSelfTest f).free = s.free := rfl
@[simp] theorem State.onSelfTest_ent (f : SelfTest → SelfTest) : (s.onSelfTest f).ent = s.ent := rfl
@[simp] theorem State.onSelfTest_sb (f : SelfTest → SelfTest) : (s.onSelfTest f).sb = s.sb := rfl
@[simp] theorem State.onSelfTest_ply (f : SelfTest → SelfTest) : (s.onSelfTest f).ply = s.ply := rfl
@[simp] theorem State.onSelfTest_flyer (f : SelfTest → SelfTest) : (s.onSelfTest f).flyer = s.flyer := rfl
@[simp] theorem State.onSelfTest_keeper (f : SelfTest → SelfTest) : (s.onSelfTest f).keeper = { s.keeper with st := f s.keeper.st } := rfl
@[simp] theorem State.onSelfTest_log (f : SelfTest → SelfTest) : (s.onSelfTest f).log = s.log := rfl
@[simp] theorem State.onSelfTest_tag (f : SelfTest → SelfTest) : (s.onSelfTest f).tag = s.tag := rfl
@[simp] theorem State.onSelfTest_doms (f : SelfTest → SelfTest) : (s.onSelfTest f).doms = s.doms := rfl
@[simp] theorem State.onSelfTest_spindle (f : SelfTest → SelfTest) : (s.onSelfTest f).spindle = s.spindle := rfl
@[simp] theorem State.onSelfTest_pads (f : SelfTest → SelfTest) : (s.onSelfTest f).pads = s.pads := rfl
@[simp] theorem State.onSelfTest_get (f : SelfTest → SelfTest) (e : Nat) : (s.onSelfTest f).get e = s.get e := rfl
@[simp] theorem State.onSelfTest_getU (f : SelfTest → SelfTest) (e : Nat) (w : User) : (s.onSelfTest f).getU e w = s.getU e w := rfl

/-! ### onHorn -/

@[simp] theorem State.onHorn_pending (f : Horn → Horn) : (s.onHorn f).pending = s.pending := rfl
@[simp] theorem State.onHorn_free (f : Horn → Horn) : (s.onHorn f).free = s.free := rfl
@[simp] theorem State.onHorn_ent (f : Horn → Horn) : (s.onHorn f).ent = s.ent := rfl
@[simp] theorem State.onHorn_sb (f : Horn → Horn) : (s.onHorn f).sb = s.sb := rfl
@[simp] theorem State.onHorn_ply (f : Horn → Horn) : (s.onHorn f).ply = s.ply := rfl
@[simp] theorem State.onHorn_flyer (f : Horn → Horn) : (s.onHorn f).flyer = { s.flyer with horn := f s.flyer.horn } := rfl
@[simp] theorem State.onHorn_keeper (f : Horn → Horn) : (s.onHorn f).keeper = s.keeper := rfl
@[simp] theorem State.onHorn_log (f : Horn → Horn) : (s.onHorn f).log = s.log := rfl
@[simp] theorem State.onHorn_tag (f : Horn → Horn) : (s.onHorn f).tag = s.tag := rfl
@[simp] theorem State.onHorn_doms (f : Horn → Horn) : (s.onHorn f).doms = s.doms := rfl
@[simp] theorem State.onHorn_spindle (f : Horn → Horn) : (s.onHorn f).spindle = s.spindle := rfl
@[simp] theorem State.onHorn_pads (f : Horn → Horn) : (s.onHorn f).pads = s.pads := rfl
@[simp] theorem State.onHorn_get (f : Horn → Horn) (e : Nat) : (s.onHorn f).get e = s.get e := rfl
@[simp] theorem State.onHorn_getU (f : Horn → Horn) (e : Nat) (w : User) : (s.onHorn f).getU e w = s.getU e w := rfl

/-! ### onSense -/

@[simp] theorem State.onSense_pending (f : Sensing → Sensing) : (s.onSense f).pending = s.pending := rfl
@[simp] theorem State.onSense_free (f : Sensing → Sensing) : (s.onSense f).free = s.free := rfl
@[simp] theorem State.onSense_ent (f : Sensing → Sensing) : (s.onSense f).ent = s.ent := rfl
@[simp] theorem State.onSense_sb (f : Sensing → Sensing) : (s.onSense f).sb = s.sb := rfl
@[simp] theorem State.onSense_ply (f : Sensing → Sensing) : (s.onSense f).ply = s.ply := rfl
@[simp] theorem State.onSense_flyer (f : Sensing → Sensing) : (s.onSense f).flyer = { s.flyer with sense := f s.flyer.sense } := rfl
@[simp] theorem State.onSense_keeper (f : Sensing → Sensing) : (s.onSense f).keeper = s.keeper := rfl
@[simp] theorem State.onSense_log (f : Sensing → Sensing) : (s.onSense f).log = s.log := rfl
@[simp] theorem State.onSense_tag (f : Sensing → Sensing) : (s.onSense f).tag = s.tag := rfl
@[simp] theorem State.onSense_doms (f : Sensing → Sensing) : (s.onSense f).doms = s.doms := rfl
@[simp] theorem State.onSense_spindle (f : Sensing → Sensing) : (s.onSense f).spindle = s.spindle := rfl
@[simp] theorem State.onSense_pads (f : Sensing → Sensing) : (s.onSense f).pads = s.pads := rfl
@[simp] theorem State.onSense_get (f : Sensing → Sensing) (e : Nat) : (s.onSense f).get e = s.get e := rfl
@[simp] theorem State.onSense_getU (f : Sensing → Sensing) (e : Nat) (w : User) : (s.onSense f).getU e w = s.getU e w := rfl

/-! ### onRes -/

@[simp] theorem State.onRes_pending (f : Results → Results) : (s.onRes f).pending = s.pending := rfl
@[simp] theorem State.onRes_free (f : Results → Results) : (s.onRes f).free = s.free := rfl
@[simp] theorem State.onRes_ent (f : Results → Results) : (s.onRes f).ent = s.ent := rfl
@[simp] theorem State.onRes_sb (f : Results → Results) : (s.onRes f).sb = s.sb := rfl
@[simp] theorem State.onRes_ply (f : Results → Results) : (s.onRes f).ply = s.ply := rfl
@[simp] theorem State.onRes_flyer (f : Results → Results) : (s.onRes f).flyer = { s.flyer with res := f s.flyer.res } := rfl
@[simp] theorem State.onRes_keeper (f : Results → Results) : (s.onRes f).keeper = s.keeper := rfl
@[simp] theorem State.onRes_log (f : Results → Results) : (s.onRes f).log = s.log := rfl
@[simp] theorem State.onRes_tag (f : Results → Results) : (s.onRes f).tag = s.tag := rfl
@[simp] theorem State.onRes_doms (f : Results → Results) : (s.onRes f).doms = s.doms := rfl
@[simp] theorem State.onRes_spindle (f : Results → Results) : (s.onRes f).spindle = s.spindle := rfl
@[simp] theorem State.onRes_pads (f : Results → Results) : (s.onRes f).pads = s.pads := rfl
@[simp] theorem State.onRes_get (f : Results → Results) (e : Nat) : (s.onRes f).get e = s.get e := rfl
@[simp] theorem State.onRes_getU (f : Results → Results) (e : Nat) (w : User) : (s.onRes f).getU e w = s.getU e w := rfl

/-! ### onBs -/

@[simp] theorem State.onBs_pending (f : Backstop → Backstop) : (s.onBs f).pending = s.pending := rfl
@[simp] theorem State.onBs_free (f : Backstop → Backstop) : (s.onBs f).free = s.free := rfl
@[simp] theorem State.onBs_ent (f : Backstop → Backstop) : (s.onBs f).ent = s.ent := rfl
@[simp] theorem State.onBs_sb (f : Backstop → Backstop) : (s.onBs f).sb = s.sb := rfl
@[simp] theorem State.onBs_ply (f : Backstop → Backstop) : (s.onBs f).ply = s.ply := rfl
@[simp] theorem State.onBs_flyer (f : Backstop → Backstop) : (s.onBs f).flyer = { s.flyer with bs := f s.flyer.bs } := rfl
@[simp] theorem State.onBs_keeper (f : Backstop → Backstop) : (s.onBs f).keeper = s.keeper := rfl
@[simp] theorem State.onBs_log (f : Backstop → Backstop) : (s.onBs f).log = s.log := rfl
@[simp] theorem State.onBs_tag (f : Backstop → Backstop) : (s.onBs f).tag = s.tag := rfl
@[simp] theorem State.onBs_doms (f : Backstop → Backstop) : (s.onBs f).doms = s.doms := rfl
@[simp] theorem State.onBs_spindle (f : Backstop → Backstop) : (s.onBs f).spindle = s.spindle := rfl
@[simp] theorem State.onBs_pads (f : Backstop → Backstop) : (s.onBs f).pads = s.pads := rfl
@[simp] theorem State.onBs_get (f : Backstop → Backstop) (e : Nat) : (s.onBs f).get e = s.get e := rfl
@[simp] theorem State.onBs_getU (f : Backstop → Backstop) (e : Nat) (w : User) : (s.onBs f).getU e w = s.getU e w := rfl

/-! ### onDict -/

@[simp] theorem State.onDict_pending (f : Dict → Dict) : (s.onDict f).pending = s.pending := rfl
@[simp] theorem State.onDict_free (f : Dict → Dict) : (s.onDict f).free = s.free := rfl
@[simp] theorem State.onDict_ent (f : Dict → Dict) : (s.onDict f).ent = s.ent := rfl
@[simp] theorem State.onDict_sb (f : Dict → Dict) : (s.onDict f).sb = s.sb := rfl
@[simp] theorem State.onDict_ply (f : Dict → Dict) : (s.onDict f).ply = s.ply := rfl
@[simp] theorem State.onDict_flyer (f : Dict → Dict) : (s.onDict f).flyer = s.flyer := rfl
@[simp] theorem State.onDict_keeper (f : Dict → Dict) : (s.onDict f).keeper = s.keeper := rfl
@[simp] theorem State.onDict_log (f : Dict → Dict) : (s.onDict f).log = s.log := rfl
@[simp] theorem State.onDict_tag (f : Dict → Dict) : (s.onDict f).tag = s.tag := rfl
@[simp] theorem State.onDict_doms (f : Dict → Dict) : (s.onDict f).doms = s.doms := rfl
@[simp] theorem State.onDict_spindle (f : Dict → Dict) : (s.onDict f).spindle = { s.spindle with dict := f s.spindle.dict } := rfl
@[simp] theorem State.onDict_pads (f : Dict → Dict) : (s.onDict f).pads = s.pads := rfl
@[simp] theorem State.onDict_get (f : Dict → Dict) (e : Nat) : (s.onDict f).get e = s.get e := rfl
@[simp] theorem State.onDict_getU (f : Dict → Dict) (e : Nat) (w : User) : (s.onDict f).getU e w = s.getU e w := rfl

/-! ### onCore -/

@[simp] theorem State.onCore_pending (f : Core → Core) : (s.onCore f).pending = s.pending := rfl
@[simp] theorem State.onCore_free (f : Core → Core) : (s.onCore f).free = s.free := rfl
@[simp] theorem State.onCore_ent (f : Core → Core) : (s.onCore f).ent = s.ent := rfl
@[simp] theorem State.onCore_sb (f : Core → Core) : (s.onCore f).sb = s.sb := rfl
@[simp] theorem State.onCore_ply (f : Core → Core) : (s.onCore f).ply = s.ply := rfl
@[simp] theorem State.onCore_flyer (f : Core → Core) : (s.onCore f).flyer = s.flyer := rfl
@[simp] theorem State.onCore_keeper (f : Core → Core) : (s.onCore f).keeper = s.keeper := rfl
@[simp] theorem State.onCore_log (f : Core → Core) : (s.onCore f).log = s.log := rfl
@[simp] theorem State.onCore_tag (f : Core → Core) : (s.onCore f).tag = s.tag := rfl
@[simp] theorem State.onCore_doms (f : Core → Core) : (s.onCore f).doms = s.doms := rfl
@[simp] theorem State.onCore_spindle (f : Core → Core) : (s.onCore f).spindle = { s.spindle with core := f s.spindle.core } := rfl
@[simp] theorem State.onCore_pads (f : Core → Core) : (s.onCore f).pads = s.pads := rfl
@[simp] theorem State.onCore_get (f : Core → Core) (e : Nat) : (s.onCore f).get e = s.get e := rfl
@[simp] theorem State.onCore_getU (f : Core → Core) (e : Nat) (w : User) : (s.onCore f).getU e w = s.getU e w := rfl

/-! ### onMem -/

@[simp] theorem State.onMem_pending (f : Mem → Mem) : (s.onMem f).pending = s.pending := rfl
@[simp] theorem State.onMem_free (f : Mem → Mem) : (s.onMem f).free = s.free := rfl
@[simp] theorem State.onMem_ent (f : Mem → Mem) : (s.onMem f).ent = s.ent := rfl
@[simp] theorem State.onMem_sb (f : Mem → Mem) : (s.onMem f).sb = s.sb := rfl
@[simp] theorem State.onMem_ply (f : Mem → Mem) : (s.onMem f).ply = s.ply := rfl
@[simp] theorem State.onMem_flyer (f : Mem → Mem) : (s.onMem f).flyer = s.flyer := rfl
@[simp] theorem State.onMem_keeper (f : Mem → Mem) : (s.onMem f).keeper = s.keeper := rfl
@[simp] theorem State.onMem_log (f : Mem → Mem) : (s.onMem f).log = s.log := rfl
@[simp] theorem State.onMem_tag (f : Mem → Mem) : (s.onMem f).tag = s.tag := rfl
@[simp] theorem State.onMem_doms (f : Mem → Mem) : (s.onMem f).doms = s.doms := rfl
@[simp] theorem State.onMem_spindle (f : Mem → Mem) : (s.onMem f).spindle = { s.spindle with mem := f s.spindle.mem } := rfl
@[simp] theorem State.onMem_pads (f : Mem → Mem) : (s.onMem f).pads = s.pads := rfl
@[simp] theorem State.onMem_get (f : Mem → Mem) (e : Nat) : (s.onMem f).get e = s.get e := rfl
@[simp] theorem State.onMem_getU (f : Mem → Mem) (e : Nat) (w : User) : (s.onMem f).getU e w = s.getU e w := rfl

/-! ### onLoader -/

@[simp] theorem State.onLoader_pending (f : Loader → Loader) : (s.onLoader f).pending = s.pending := rfl
@[simp] theorem State.onLoader_free (f : Loader → Loader) : (s.onLoader f).free = s.free := rfl
@[simp] theorem State.onLoader_ent (f : Loader → Loader) : (s.onLoader f).ent = s.ent := rfl
@[simp] theorem State.onLoader_sb (f : Loader → Loader) : (s.onLoader f).sb = s.sb := rfl
@[simp] theorem State.onLoader_ply (f : Loader → Loader) : (s.onLoader f).ply = s.ply := rfl
@[simp] theorem State.onLoader_flyer (f : Loader → Loader) : (s.onLoader f).flyer = s.flyer := rfl
@[simp] theorem State.onLoader_keeper (f : Loader → Loader) : (s.onLoader f).keeper = s.keeper := rfl
@[simp] theorem State.onLoader_log (f : Loader → Loader) : (s.onLoader f).log = s.log := rfl
@[simp] theorem State.onLoader_tag (f : Loader → Loader) : (s.onLoader f).tag = s.tag := rfl
@[simp] theorem State.onLoader_doms (f : Loader → Loader) : (s.onLoader f).doms = s.doms := rfl
@[simp] theorem State.onLoader_spindle (f : Loader → Loader) : (s.onLoader f).spindle = { s.spindle with loader := f s.spindle.loader } := rfl
@[simp] theorem State.onLoader_pads (f : Loader → Loader) : (s.onLoader f).pads = s.pads := rfl
@[simp] theorem State.onLoader_get (f : Loader → Loader) (e : Nat) : (s.onLoader f).get e = s.get e := rfl
@[simp] theorem State.onLoader_getU (f : Loader → Loader) (e : Nat) (w : User) : (s.onLoader f).getU e w = s.getU e w := rfl

/-! ### onBn -/

@[simp] theorem State.onBn_pending (f : Bn → Bn) : (s.onBn f).pending = s.pending := rfl
@[simp] theorem State.onBn_free (f : Bn → Bn) : (s.onBn f).free = s.free := rfl
@[simp] theorem State.onBn_ent (f : Bn → Bn) : (s.onBn f).ent = s.ent := rfl
@[simp] theorem State.onBn_sb (f : Bn → Bn) : (s.onBn f).sb = s.sb := rfl
@[simp] theorem State.onBn_ply (f : Bn → Bn) : (s.onBn f).ply = s.ply := rfl
@[simp] theorem State.onBn_flyer (f : Bn → Bn) : (s.onBn f).flyer = s.flyer := rfl
@[simp] theorem State.onBn_keeper (f : Bn → Bn) : (s.onBn f).keeper = s.keeper := rfl
@[simp] theorem State.onBn_log (f : Bn → Bn) : (s.onBn f).log = s.log := rfl
@[simp] theorem State.onBn_tag (f : Bn → Bn) : (s.onBn f).tag = s.tag := rfl
@[simp] theorem State.onBn_doms (f : Bn → Bn) : (s.onBn f).doms = s.doms := rfl
@[simp] theorem State.onBn_spindle (f : Bn → Bn) : (s.onBn f).spindle = { s.spindle with bn := f s.spindle.bn } := rfl
@[simp] theorem State.onBn_pads (f : Bn → Bn) : (s.onBn f).pads = s.pads := rfl
@[simp] theorem State.onBn_get (f : Bn → Bn) (e : Nat) : (s.onBn f).get e = s.get e := rfl
@[simp] theorem State.onBn_getU (f : Bn → Bn) (e : Nat) (w : User) : (s.onBn f).getU e w = s.getU e w := rfl

/-! ### onRng -/

@[simp] theorem State.onRng_pending (f : Rng → Rng) : (s.onRng f).pending = s.pending := rfl
@[simp] theorem State.onRng_free (f : Rng → Rng) : (s.onRng f).free = s.free := rfl
@[simp] theorem State.onRng_ent (f : Rng → Rng) : (s.onRng f).ent = s.ent := rfl
@[simp] theorem State.onRng_sb (f : Rng → Rng) : (s.onRng f).sb = s.sb := rfl
@[simp] theorem State.onRng_ply (f : Rng → Rng) : (s.onRng f).ply = s.ply := rfl
@[simp] theorem State.onRng_flyer (f : Rng → Rng) : (s.onRng f).flyer = s.flyer := rfl
@[simp] theorem State.onRng_keeper (f : Rng → Rng) : (s.onRng f).keeper = s.keeper := rfl
@[simp] theorem State.onRng_log (f : Rng → Rng) : (s.onRng f).log = s.log := rfl
@[simp] theorem State.onRng_tag (f : Rng → Rng) : (s.onRng f).tag = s.tag := rfl
@[simp] theorem State.onRng_doms (f : Rng → Rng) : (s.onRng f).doms = s.doms := rfl
@[simp] theorem State.onRng_spindle (f : Rng → Rng) : (s.onRng f).spindle = { s.spindle with rng := f s.spindle.rng } := rfl
@[simp] theorem State.onRng_pads (f : Rng → Rng) : (s.onRng f).pads = s.pads := rfl
@[simp] theorem State.onRng_get (f : Rng → Rng) (e : Nat) : (s.onRng f).get e = s.get e := rfl
@[simp] theorem State.onRng_getU (f : Rng → Rng) (e : Nat) (w : User) : (s.onRng f).getU e w = s.getU e w := rfl

/-! ### onCan -/

@[simp] theorem State.onCan_pending (f : Can → Can) : (s.onCan f).pending = s.pending := rfl
@[simp] theorem State.onCan_free (f : Can → Can) : (s.onCan f).free = s.free := rfl
@[simp] theorem State.onCan_ent (f : Can → Can) : (s.onCan f).ent = s.ent := rfl
@[simp] theorem State.onCan_sb (f : Can → Can) : (s.onCan f).sb = s.sb := rfl
@[simp] theorem State.onCan_ply (f : Can → Can) : (s.onCan f).ply = s.ply := rfl
@[simp] theorem State.onCan_flyer (f : Can → Can) : (s.onCan f).flyer = s.flyer := rfl
@[simp] theorem State.onCan_keeper (f : Can → Can) : (s.onCan f).keeper = s.keeper := rfl
@[simp] theorem State.onCan_log (f : Can → Can) : (s.onCan f).log = s.log := rfl
@[simp] theorem State.onCan_tag (f : Can → Can) : (s.onCan f).tag = s.tag := rfl
@[simp] theorem State.onCan_doms (f : Can → Can) : (s.onCan f).doms = s.doms := rfl
@[simp] theorem State.onCan_spindle (f : Can → Can) : (s.onCan f).spindle = { s.spindle with can := f s.spindle.can } := rfl
@[simp] theorem State.onCan_pads (f : Can → Can) : (s.onCan f).pads = s.pads := rfl
@[simp] theorem State.onCan_get (f : Can → Can) (e : Nat) : (s.onCan f).get e = s.get e := rfl
@[simp] theorem State.onCan_getU (f : Can → Can) (e : Nat) (w : User) : (s.onCan f).getU e w = s.getU e w := rfl

/-! ### onPage -/

@[simp] theorem State.onPage_pending (u : User) (f : Page → Page) : (s.onPage u f).pending = s.pending := rfl
@[simp] theorem State.onPage_free (u : User) (f : Page → Page) : (s.onPage u f).free = s.free := rfl
@[simp] theorem State.onPage_ent (u : User) (f : Page → Page) : (s.onPage u f).ent = s.ent := rfl
@[simp] theorem State.onPage_sb (u : User) (f : Page → Page) : (s.onPage u f).sb = s.sb := rfl
@[simp] theorem State.onPage_ply (u : User) (f : Page → Page) : (s.onPage u f).ply = s.ply := rfl
@[simp] theorem State.onPage_flyer (u : User) (f : Page → Page) : (s.onPage u f).flyer = s.flyer := rfl
@[simp] theorem State.onPage_keeper (u : User) (f : Page → Page) : (s.onPage u f).keeper = s.keeper := rfl
@[simp] theorem State.onPage_log (u : User) (f : Page → Page) : (s.onPage u f).log = s.log := rfl
@[simp] theorem State.onPage_tag (u : User) (f : Page → Page) : (s.onPage u f).tag = s.tag := rfl
@[simp] theorem State.onPage_doms (u : User) (f : Page → Page) : (s.onPage u f).doms = s.doms := rfl
@[simp] theorem State.onPage_spindle (u : User) (f : Page → Page) : (s.onPage u f).spindle = { s.spindle with pages := s.spindle.pages.set u (f (s.spindle.pages.get u)) } := rfl
@[simp] theorem State.onPage_pads (u : User) (f : Page → Page) : (s.onPage u f).pads = s.pads := rfl
@[simp] theorem State.onPage_get (u : User) (f : Page → Page) (e : Nat) : (s.onPage u f).get e = s.get e := rfl
@[simp] theorem State.onPage_getU (u : User) (f : Page → Page) (e : Nat) (w : User) : (s.onPage u f).getU e w = s.getU e w := rfl

/-! ### onSha -/

@[simp] theorem State.onSha_pending (u : User) (f : ShaCtx → ShaCtx) : (s.onSha u f).pending = s.pending := rfl
@[simp] theorem State.onSha_free (u : User) (f : ShaCtx → ShaCtx) : (s.onSha u f).free = s.free := rfl
@[simp] theorem State.onSha_ent (u : User) (f : ShaCtx → ShaCtx) : (s.onSha u f).ent = s.ent := rfl
@[simp] theorem State.onSha_sb (u : User) (f : ShaCtx → ShaCtx) : (s.onSha u f).sb = s.sb := rfl
@[simp] theorem State.onSha_ply (u : User) (f : ShaCtx → ShaCtx) : (s.onSha u f).ply = s.ply := rfl
@[simp] theorem State.onSha_flyer (u : User) (f : ShaCtx → ShaCtx) : (s.onSha u f).flyer = s.flyer := rfl
@[simp] theorem State.onSha_keeper (u : User) (f : ShaCtx → ShaCtx) : (s.onSha u f).keeper = s.keeper := rfl
@[simp] theorem State.onSha_log (u : User) (f : ShaCtx → ShaCtx) : (s.onSha u f).log = s.log := rfl
@[simp] theorem State.onSha_tag (u : User) (f : ShaCtx → ShaCtx) : (s.onSha u f).tag = s.tag := rfl
@[simp] theorem State.onSha_doms (u : User) (f : ShaCtx → ShaCtx) : (s.onSha u f).doms = s.doms := rfl
@[simp] theorem State.onSha_spindle (u : User) (f : ShaCtx → ShaCtx) : (s.onSha u f).spindle = { s.spindle with sha := s.spindle.sha.set u (f (s.spindle.sha.get u)) } := rfl
@[simp] theorem State.onSha_pads (u : User) (f : ShaCtx → ShaCtx) : (s.onSha u f).pads = s.pads := rfl
@[simp] theorem State.onSha_get (u : User) (f : ShaCtx → ShaCtx) (e : Nat) : (s.onSha u f).get e = s.get e := rfl
@[simp] theorem State.onSha_getU (u : User) (f : ShaCtx → ShaCtx) (e : Nat) (w : User) : (s.onSha u f).getU e w = s.getU e w := rfl

/-! ### onBnUser -/

@[simp] theorem State.onBnUser_pending (u : User) (f : BnUser → BnUser) : (s.onBnUser u f).pending = s.pending := rfl
@[simp] theorem State.onBnUser_free (u : User) (f : BnUser → BnUser) : (s.onBnUser u f).free = s.free := rfl
@[simp] theorem State.onBnUser_ent (u : User) (f : BnUser → BnUser) : (s.onBnUser u f).ent = s.ent := rfl
@[simp] theorem State.onBnUser_sb (u : User) (f : BnUser → BnUser) : (s.onBnUser u f).sb = s.sb := rfl
@[simp] theorem State.onBnUser_ply (u : User) (f : BnUser → BnUser) : (s.onBnUser u f).ply = s.ply := rfl
@[simp] theorem State.onBnUser_flyer (u : User) (f : BnUser → BnUser) : (s.onBnUser u f).flyer = s.flyer := rfl
@[simp] theorem State.onBnUser_keeper (u : User) (f : BnUser → BnUser) : (s.onBnUser u f).keeper = s.keeper := rfl
@[simp] theorem State.onBnUser_log (u : User) (f : BnUser → BnUser) : (s.onBnUser u f).log = s.log := rfl
@[simp] theorem State.onBnUser_tag (u : User) (f : BnUser → BnUser) : (s.onBnUser u f).tag = s.tag := rfl
@[simp] theorem State.onBnUser_doms (u : User) (f : BnUser → BnUser) : (s.onBnUser u f).doms = s.doms := rfl
@[simp] theorem State.onBnUser_spindle (u : User) (f : BnUser → BnUser) : (s.onBnUser u f).spindle = { s.spindle with bnUser := s.spindle.bnUser.set u (f (s.spindle.bnUser.get u)) } := rfl
@[simp] theorem State.onBnUser_pads (u : User) (f : BnUser → BnUser) : (s.onBnUser u f).pads = s.pads := rfl
@[simp] theorem State.onBnUser_get (u : User) (f : BnUser → BnUser) (e : Nat) : (s.onBnUser u f).get e = s.get e := rfl
@[simp] theorem State.onBnUser_getU (u : User) (f : BnUser → BnUser) (e : Nat) (w : User) : (s.onBnUser u f).getU e w = s.getU e w := rfl

/-! ### onPort -/

@[simp] theorem State.onPort_pending (u : Port) (f : HostPort → HostPort) : (s.onPort u f).pending = s.pending := rfl
@[simp] theorem State.onPort_free (u : Port) (f : HostPort → HostPort) : (s.onPort u f).free = s.free := rfl
@[simp] theorem State.onPort_ent (u : Port) (f : HostPort → HostPort) : (s.onPort u f).ent = s.ent := rfl
@[simp] theorem State.onPort_sb (u : Port) (f : HostPort → HostPort) : (s.onPort u f).sb = s.sb := rfl
@[simp] theorem State.onPort_ply (u : Port) (f : HostPort → HostPort) : (s.onPort u f).ply = s.ply := rfl
@[simp] theorem State.onPort_flyer (u : Port) (f : HostPort → HostPort) : (s.onPort u f).flyer = s.flyer := rfl
@[simp] theorem State.onPort_keeper (u : Port) (f : HostPort → HostPort) : (s.onPort u f).keeper = s.keeper := rfl
@[simp] theorem State.onPort_log (u : Port) (f : HostPort → HostPort) : (s.onPort u f).log = s.log := rfl
@[simp] theorem State.onPort_tag (u : Port) (f : HostPort → HostPort) : (s.onPort u f).tag = s.tag := rfl
@[simp] theorem State.onPort_doms (u : Port) (f : HostPort → HostPort) : (s.onPort u f).doms = s.doms := rfl
@[simp] theorem State.onPort_spindle (u : Port) (f : HostPort → HostPort) : (s.onPort u f).spindle = { s.spindle with ports := s.spindle.ports.set u (f (s.spindle.ports.get u)) } := rfl
@[simp] theorem State.onPort_pads (u : Port) (f : HostPort → HostPort) : (s.onPort u f).pads = s.pads := rfl
@[simp] theorem State.onPort_get (u : Port) (f : HostPort → HostPort) (e : Nat) : (s.onPort u f).get e = s.get e := rfl
@[simp] theorem State.onPort_getU (u : Port) (f : HostPort → HostPort) (e : Nat) (w : User) : (s.onPort u f).getU e w = s.getU e w := rfl

/-! ### used -/

@[simp] theorem State.used_pending : (s.used).pending = s.pending := rfl
@[simp] theorem State.used_free : (s.used).free = s.free + 1 := rfl
@[simp] theorem State.used_ent : (s.used).ent = s.ent := rfl
@[simp] theorem State.used_sb : (s.used).sb = s.sb := rfl
@[simp] theorem State.used_ply : (s.used).ply = s.ply := rfl
@[simp] theorem State.used_flyer : (s.used).flyer = s.flyer := rfl
@[simp] theorem State.used_keeper : (s.used).keeper = s.keeper := rfl
@[simp] theorem State.used_log : (s.used).log = s.log := rfl
@[simp] theorem State.used_tag : (s.used).tag = s.tag := rfl
@[simp] theorem State.used_doms : (s.used).doms = s.doms := rfl
@[simp] theorem State.used_spindle : (s.used).spindle = s.spindle := rfl
@[simp] theorem State.used_pads : (s.used).pads = s.pads := rfl
@[simp] theorem State.used_get (e : Nat) : (s.used).get e = s.get e := rfl
@[simp] theorem State.used_getU (e : Nat) (w : User) : (s.used).getU e w = s.getU e w := rfl

/-! ### put -/

@[simp] theorem State.put_pending (e v : Nat) : (s.put e v).pending = s.pending := rfl
@[simp] theorem State.put_free (e v : Nat) : (s.put e v).free = s.free := rfl
@[simp] theorem State.put_ent (e v : Nat) : (s.put e v).ent = sparseSet (entryDefault e) (e * 8) v s.ent := rfl
@[simp] theorem State.put_sb (e v : Nat) : (s.put e v).sb = s.sb := rfl
@[simp] theorem State.put_ply (e v : Nat) : (s.put e v).ply = s.ply := rfl
@[simp] theorem State.put_flyer (e v : Nat) : (s.put e v).flyer = s.flyer := rfl
@[simp] theorem State.put_keeper (e v : Nat) : (s.put e v).keeper = s.keeper := rfl
@[simp] theorem State.put_log (e v : Nat) : (s.put e v).log = s.log := rfl
@[simp] theorem State.put_tag (e v : Nat) : (s.put e v).tag = s.tag := rfl
@[simp] theorem State.put_doms (e v : Nat) : (s.put e v).doms = s.doms := rfl
@[simp] theorem State.put_spindle (e v : Nat) : (s.put e v).spindle = s.spindle := rfl
@[simp] theorem State.put_pads (e v : Nat) : (s.put e v).pads = s.pads := rfl

/-! ### putU -/

@[simp] theorem State.putU_pending (e : Nat) (u : User) (v : Nat) : (s.putU e u v).pending = s.pending := rfl
@[simp] theorem State.putU_free (e : Nat) (u : User) (v : Nat) : (s.putU e u v).free = s.free := rfl
@[simp] theorem State.putU_ent (e : Nat) (u : User) (v : Nat) : (s.putU e u v).ent = sparseSet (entryDefault e) (e * 8 + userNum u) v s.ent := rfl
@[simp] theorem State.putU_sb (e : Nat) (u : User) (v : Nat) : (s.putU e u v).sb = s.sb := rfl
@[simp] theorem State.putU_ply (e : Nat) (u : User) (v : Nat) : (s.putU e u v).ply = s.ply := rfl
@[simp] theorem State.putU_flyer (e : Nat) (u : User) (v : Nat) : (s.putU e u v).flyer = s.flyer := rfl
@[simp] theorem State.putU_keeper (e : Nat) (u : User) (v : Nat) : (s.putU e u v).keeper = s.keeper := rfl
@[simp] theorem State.putU_log (e : Nat) (u : User) (v : Nat) : (s.putU e u v).log = s.log := rfl
@[simp] theorem State.putU_tag (e : Nat) (u : User) (v : Nat) : (s.putU e u v).tag = s.tag := rfl
@[simp] theorem State.putU_doms (e : Nat) (u : User) (v : Nat) : (s.putU e u v).doms = s.doms := rfl
@[simp] theorem State.putU_spindle (e : Nat) (u : User) (v : Nat) : (s.putU e u v).spindle = s.spindle := rfl
@[simp] theorem State.putU_pads (e : Nat) (u : User) (v : Nat) : (s.putU e u v).pads = s.pads := rfl

/-! ### dropEntries -/

@[simp] theorem State.dropEntries_pending (p : EntryRow → Bool) : (s.dropEntries p).pending = s.pending := rfl
@[simp] theorem State.dropEntries_free (p : EntryRow → Bool) : (s.dropEntries p).free = s.free := rfl
@[simp] theorem State.dropEntries_ent (p : EntryRow → Bool) : (s.dropEntries p).ent = s.ent.filter fun c => !(((findRow (c.1 / 8)).map p).getD false) := rfl
@[simp] theorem State.dropEntries_sb (p : EntryRow → Bool) : (s.dropEntries p).sb = s.sb := rfl
@[simp] theorem State.dropEntries_ply (p : EntryRow → Bool) : (s.dropEntries p).ply = s.ply := rfl
@[simp] theorem State.dropEntries_flyer (p : EntryRow → Bool) : (s.dropEntries p).flyer = s.flyer := rfl
@[simp] theorem State.dropEntries_keeper (p : EntryRow → Bool) : (s.dropEntries p).keeper = s.keeper := rfl
@[simp] theorem State.dropEntries_log (p : EntryRow → Bool) : (s.dropEntries p).log = s.log := rfl
@[simp] theorem State.dropEntries_tag (p : EntryRow → Bool) : (s.dropEntries p).tag = s.tag := rfl
@[simp] theorem State.dropEntries_doms (p : EntryRow → Bool) : (s.dropEntries p).doms = s.doms := rfl
@[simp] theorem State.dropEntries_spindle (p : EntryRow → Bool) : (s.dropEntries p).spindle = s.spindle := rfl
@[simp] theorem State.dropEntries_pads (p : EntryRow → Bool) : (s.dropEntries p).pads = s.pads := rfl

/-! ### onDom -/

@[simp] theorem State.onDom_pending (d : Domain) (f : DomSeq → DomSeq) : (onDom s d f).pending = s.pending := rfl
@[simp] theorem State.onDom_free (d : Domain) (f : DomSeq → DomSeq) : (onDom s d f).free = s.free := rfl
@[simp] theorem State.onDom_ent (d : Domain) (f : DomSeq → DomSeq) : (onDom s d f).ent = s.ent := rfl
@[simp] theorem State.onDom_sb (d : Domain) (f : DomSeq → DomSeq) : (onDom s d f).sb = s.sb := rfl
@[simp] theorem State.onDom_ply (d : Domain) (f : DomSeq → DomSeq) : (onDom s d f).ply = s.ply := rfl
@[simp] theorem State.onDom_flyer (d : Domain) (f : DomSeq → DomSeq) : (onDom s d f).flyer = s.flyer := rfl
@[simp] theorem State.onDom_keeper (d : Domain) (f : DomSeq → DomSeq) : (onDom s d f).keeper = s.keeper := rfl
@[simp] theorem State.onDom_log (d : Domain) (f : DomSeq → DomSeq) : (onDom s d f).log = s.log := rfl
@[simp] theorem State.onDom_tag (d : Domain) (f : DomSeq → DomSeq) : (onDom s d f).tag = s.tag := rfl
@[simp] theorem State.onDom_doms (d : Domain) (f : DomSeq → DomSeq) : (onDom s d f).doms = s.doms.set (domNum d) (f (domSeq s d)) := rfl
@[simp] theorem State.onDom_spindle (d : Domain) (f : DomSeq → DomSeq) : (onDom s d f).spindle = s.spindle := rfl
@[simp] theorem State.onDom_pads (d : Domain) (f : DomSeq → DomSeq) : (onDom s d f).pads = s.pads := rfl
@[simp] theorem State.onDom_get (d : Domain) (f : DomSeq → DomSeq) (e : Nat) : (onDom s d f).get e = s.get e := rfl
@[simp] theorem State.onDom_getU (d : Domain) (f : DomSeq → DomSeq) (e : Nat) (w : User) : (onDom s d f).getU e w = s.getU e w := rfl

/-! ### onArb -/

@[simp] theorem onArb_pending (k : Nat) (f : ArbRes → ArbRes) : (onArb s k f).pending = s.pending := rfl
@[simp] theorem onArb_free (k : Nat) (f : ArbRes → ArbRes) : (onArb s k f).free = s.free := rfl
@[simp] theorem onArb_ent (k : Nat) (f : ArbRes → ArbRes) : (onArb s k f).ent = s.ent := rfl
@[simp] theorem onArb_sb (k : Nat) (f : ArbRes → ArbRes) : (onArb s k f).sb = s.sb := rfl
@[simp] theorem onArb_ply (k : Nat) (f : ArbRes → ArbRes) : (onArb s k f).ply = s.ply := rfl
@[simp] theorem onArb_flyer (k : Nat) (f : ArbRes → ArbRes) : (onArb s k f).flyer = s.flyer := rfl
@[simp] theorem onArb_keeper (k : Nat) (f : ArbRes → ArbRes) : (onArb s k f).keeper = s.keeper := rfl
@[simp] theorem onArb_log (k : Nat) (f : ArbRes → ArbRes) : (onArb s k f).log = s.log := rfl
@[simp] theorem onArb_tag (k : Nat) (f : ArbRes → ArbRes) : (onArb s k f).tag = s.tag := rfl
@[simp] theorem onArb_doms (k : Nat) (f : ArbRes → ArbRes) : (onArb s k f).doms = s.doms := rfl
@[simp] theorem onArb_pads (k : Nat) (f : ArbRes → ArbRes) : (onArb s k f).pads = s.pads := rfl
@[simp] theorem onArb_get (k : Nat) (f : ArbRes → ArbRes) (e : Nat) : (onArb s k f).get e = s.get e := rfl
@[simp] theorem onArb_getU (k : Nat) (f : ArbRes → ArbRes) (e : Nat) (w : User) : (onArb s k f).getU e w = s.getU e w := rfl

/-! ### onSbDie -/

@[simp] theorem State.onSbDie_pending (d : Die) (f : SbDie → SbDie) : (onSbDie s d f).pending = s.pending := by cases d <;> rfl
@[simp] theorem State.onSbDie_free (d : Die) (f : SbDie → SbDie) : (onSbDie s d f).free = s.free := by cases d <;> rfl
@[simp] theorem State.onSbDie_ent (d : Die) (f : SbDie → SbDie) : (onSbDie s d f).ent = s.ent := by cases d <;> rfl
@[simp] theorem State.onSbDie_ply (d : Die) (f : SbDie → SbDie) : (onSbDie s d f).ply = s.ply := by cases d <;> rfl
@[simp] theorem State.onSbDie_flyer (d : Die) (f : SbDie → SbDie) : (onSbDie s d f).flyer = s.flyer := by cases d <;> rfl
@[simp] theorem State.onSbDie_keeper (d : Die) (f : SbDie → SbDie) : (onSbDie s d f).keeper = s.keeper := by cases d <;> rfl
@[simp] theorem State.onSbDie_log (d : Die) (f : SbDie → SbDie) : (onSbDie s d f).log = s.log := by cases d <;> rfl
@[simp] theorem State.onSbDie_tag (d : Die) (f : SbDie → SbDie) : (onSbDie s d f).tag = s.tag := by cases d <;> rfl
@[simp] theorem State.onSbDie_doms (d : Die) (f : SbDie → SbDie) : (onSbDie s d f).doms = s.doms := by cases d <;> rfl
@[simp] theorem State.onSbDie_spindle (d : Die) (f : SbDie → SbDie) : (onSbDie s d f).spindle = s.spindle := by cases d <;> rfl
@[simp] theorem State.onSbDie_pads (d : Die) (f : SbDie → SbDie) : (onSbDie s d f).pads = s.pads := by cases d <;> rfl
@[simp] theorem State.onSbDie_get (d : Die) (f : SbDie → SbDie) (e : Nat) : (onSbDie s d f).get e = s.get e := by cases d <;> rfl
@[simp] theorem State.onSbDie_getU (d : Die) (f : SbDie → SbDie) (e : Nat) (w : User) : (onSbDie s d f).getU e w = s.getU e w := by cases d <;> rfl
@[simp] theorem State.onSbDie_sbDie (d : Die) (f : SbDie → SbDie) : sbDie (onSbDie s d f) d = f (sbDie s d) := by cases d <;> rfl

/-! ### Counters and bits are stores -/

@[simp] theorem State.bump_eq (e : Nat) : s.bump e = s.put e (min (s.get e + 1) (256 ^ entrySize e - 1)) := rfl
@[simp] theorem State.bumpBy_eq (e n : Nat) : s.bumpBy e n = s.put e (min (s.get e + n) (256 ^ entrySize e - 1)) := rfl
@[simp] theorem State.setBits_eq (e m : Nat) : s.setBits e m = s.put e (s.get e ||| m) := rfl

/-! ### One value for each user, each port -/

@[simp] theorem PerUser.get_set {α : Type} (p : PerUser α) (u : User) (x : α) : (p.set u x).get u = x := by cases u <;> rfl
theorem PerUser.get_set_ne {α : Type} (p : PerUser α) {u w : User} (h : w ≠ u) (x : α) : (p.set u x).get w = p.get w := by
  cases u <;> cases w <;> first | rfl | exact absurd rfl h
@[simp] theorem PerPort.get_set {α : Type} (p : PerPort α) (q : Port) (x : α) : (p.set q x).get q = x := by cases q <;> rfl
theorem PerPort.get_set_ne {α : Type} (p : PerPort α) {q r : Port} (h : r ≠ q) (x : α) : (p.set q x).get r = p.get r := by
  cases q <;> cases r <;> first | rfl | exact absurd rfl h

end Sys2Proof.Machine
end

