-- ==== Sys2Proof/Laws/Ops.lean ====
section
/-! SUPPORT. What the operations over sparse values, memories and entries do: read after write, and the canonical form that each keeps. -/
namespace Sys2Proof.Machine

/-! ## Sparse values -/

theorem sparseGet_del_self {α : Type} (d : α) (k : Nat) (l : Sparse α) : sparseGet d k (sparseDel k l) = d := by
  induction l with
  | nil => rfl
  | cons p l ih =>
    by_cases h : p.1 = k
    · simpa [sparseDel, h] using ih
    · simpa [sparseDel, h, sparseGet] using ih

theorem sparseGet_del_ne {α : Type} (d : α) {k k' : Nat} (h : k' ≠ k) (l : Sparse α) : sparseGet d k' (sparseDel k l) = sparseGet d k' l := by
  induction l with
  | nil => rfl
  | cons p l ih =>
    by_cases hp : p.1 = k
    · have : p.1 ≠ k' := fun e => h (e ▸ hp)
      simpa [sparseDel, hp, sparseGet, this] using (by simpa [sparseDel, hp, Ne.symm h] using ih)
    · by_cases hq : p.1 = k'
      · simp [sparseDel, hq, sparseGet, h]
      · simpa [sparseDel, hp, sparseGet, hq] using ih

theorem sparseGet_ins_self {α : Type} (d : α) (k : Nat) (v : α) (l : Sparse α) (h : ∀ p ∈ l, p.1 ≠ k) : sparseGet d k (sparseIns k v l) = v := by
  induction l with
  | nil => simp [sparseIns, sparseGet]
  | cons p l ih =>
    have hp : p.1 ≠ k := h p (by simp)
    by_cases hk : k < p.1
    · simp [sparseIns, hk, sparseGet]
    · simpa [sparseIns, hk, sparseGet, hp] using ih fun q hq => h q (by simp [hq])

theorem sparseGet_ins_ne {α : Type} (d : α) {k k' : Nat} (h : k' ≠ k) (v : α) (l : Sparse α) :
    sparseGet d k' (sparseIns k v l) = sparseGet d k' l := by
  induction l with
  | nil => simp [sparseIns, sparseGet, Ne.symm h]
  | cons p l ih =>
    by_cases hk : k < p.1
    · simp [sparseIns, hk, sparseGet, Ne.symm h]
    · simp [sparseIns, hk, sparseGet, ih]

/-- A read after a write of the same key gives the value written. -/
@[simp] theorem sparseGet_set_self {α : Type} [DecidableEq α] (d : α) (k : Nat) (v : α) (l : Sparse α) : sparseGet d k (sparseSet d k v l) = v := by
  by_cases h : v = d
  · simp [sparseSet, h, sparseGet_del_self]
  · simp only [sparseSet, h, if_false]
    exact sparseGet_ins_self d k v _ fun p hp => by simpa [sparseDel] using (List.mem_filter.1 hp).2

/-- A write leaves every other key alone. -/
theorem sparseGet_set_ne {α : Type} [DecidableEq α] (d d' : α) {k k' : Nat} (h : k' ≠ k) (v : α) (l : Sparse α) :
    sparseGet d' k' (sparseSet d k v l) = sparseGet d' k' l := by
  unfold sparseSet
  split
  · exact sparseGet_del_ne d' h l
  · rw [sparseGet_ins_ne d' h, sparseGet_del_ne d' h]

theorem sparseDel_wf {α : Type} (k : Nat) {l : Sparse α} (h : SparseWf l) : SparseWf (sparseDel k l) := h.filter _

theorem mem_sparseDel {α : Type} {k : Nat} {l : Sparse α} {c : Nat × α} (h : c ∈ sparseDel k l) : c ∈ l ∧ c.1 ≠ k := by
  simpa [sparseDel] using h

theorem mem_sparseIns {α : Type} {k : Nat} {v : α} {l : Sparse α} {c : Nat × α} (h : c ∈ sparseIns k v l) : c = (k, v) ∨ c ∈ l := by
  induction l with
  | nil => simpa [sparseIns] using h
  | cons p l ih =>
    by_cases hk : k < p.1
    · simpa [sparseIns, hk] using h
    · simp only [sparseIns, hk, if_false, List.mem_cons] at h
      rcases h with h | h
      · exact .inr (by simp [h])
      · rcases ih h with h | h
        · exact .inl h
        · exact .inr (by simp [h])

theorem sparseIns_wf {α : Type} (k : Nat) (v : α) {l : Sparse α} (h : SparseWf l) (hk : ∀ p ∈ l, p.1 ≠ k) : SparseWf (sparseIns k v l) := by
  induction l with
  | nil => simp [sparseIns, SparseWf]
  | cons p l ih =>
    have hp := List.pairwise_cons.1 h
    by_cases hlt : k < p.1
    · simp only [sparseIns, hlt, if_true]
      refine List.pairwise_cons.2 ⟨fun q hq => ?_, h⟩
      rcases List.mem_cons.1 hq with rfl | hq
      · exact hlt
      · exact Nat.lt_trans hlt (hp.1 q hq)
    · simp only [sparseIns, hlt, if_false]
      refine List.pairwise_cons.2 ⟨fun q hq => ?_, ih hp.2 fun q hq => hk q (by simp [hq])⟩
      rcases mem_sparseIns hq with rfl | hq
      · exact Nat.lt_of_le_of_ne (Nat.le_of_not_lt hlt) (hk p (by simp))
      · exact hp.1 q hq

/-- A write keeps the canonical form. -/
theorem sparseSet_canon {α : Type} [DecidableEq α] {d : Nat → α} (k : Nat) (v : α) {l : Sparse α} (h : SparseCanon d l) :
    SparseCanon d (sparseSet (d k) k v l) := by
  unfold sparseSet
  split
  · exact ⟨sparseDel_wf k h.1, fun c hc => h.2 c (mem_sparseDel hc).1⟩
  · rename_i hv
    refine ⟨sparseIns_wf k v (sparseDel_wf k h.1) fun p hp => (mem_sparseDel hp).2, fun c hc => ?_⟩
    rcases mem_sparseIns hc with rfl | hc
    · exact hv
    · exact h.2 c (mem_sparseDel hc).1

/-- Leaving pairs out keeps the canonical form. -/
theorem SparseCanon.filter {α : Type} {d : Nat → α} {l : Sparse α} (p : Nat × α → Bool) (h : SparseCanon d l) : SparseCanon d (l.filter p) :=
  ⟨h.1.filter p, fun c hc => h.2 c (List.mem_of_mem_filter hc)⟩

/-! ## Memories -/

/-- The byte read after a byte is written there. -/
@[simp] theorem Region.get_put_self (r : Region) (a : Nat) (b : Byte) : (r.put a b).get a = b := by
  unfold Region.put
  split <;> rename_i h <;> simp only [Region.get, h, Fill.value]
  · exact sparseGet_set_self _ _ _ _
  · exact sparseGet_set_self _ _ _ _
  · exact sparseGet_ins_self _ _ _ _ fun p hp => (mem_sparseDel hp).2

/-- A byte written leaves every other byte alone. -/
theorem Region.get_put_ne (r : Region) {a a' : Nat} (h : a' ≠ a) (b : Byte) : (r.put a b).get a' = r.get a' := by
  unfold Region.put
  split <;> rename_i hf <;> simp only [Region.get, hf, Fill.value]
  · exact sparseGet_set_ne _ _ h _ _
  · exact sparseGet_set_ne _ _ h _ _
  · rw [sparseGet_ins_ne _ h, sparseGet_del_ne _ h]

@[simp] theorem Region.put_fill (r : Region) (a : Nat) (b : Byte) : (r.put a b).fill = r.fill := by unfold Region.put; split <;> simp

/-- A byte written keeps the canonical form of the memory. -/
theorem Region.put_wf (r : Region) (a : Nat) (b : Byte) (h : r.wf) : (r.put a b).wf := by
  obtain ⟨hw, hc⟩ := h
  unfold Region.put
  split <;> rename_i hf
  · obtain ⟨h1, h2⟩ := sparseSet_canon (d := fun _ => (0 : Byte)) a b ⟨hw, fun c hm => (hc c hm).1 hf⟩
    exact ⟨h1, fun c hm => ⟨fun _ => h2 c hm, fun h => by simp [hf] at h⟩⟩
  · obtain ⟨h1, h2⟩ := sparseSet_canon (d := fun _ => (0xFF : Byte)) a b ⟨hw, fun c hm => (hc c hm).2 hf⟩
    exact ⟨h1, fun c hm => ⟨fun h => by simp [hf] at h, fun _ => h2 c hm⟩⟩
  · exact ⟨sparseIns_wf a b (sparseDel_wf a hw) fun p hp => (mem_sparseDel hp).2, fun c hm => ⟨fun h => by simp [hf] at h, fun h => by simp [hf] at h⟩⟩

/-- Bytes written keep it. -/
theorem Region.putAll_wf (r : Region) (a : Nat) (bs : Bytes) (h : r.wf) : (r.putAll a bs).wf := by
  induction bs generalizing r a with
  | nil => exact h
  | cons b bs ih => exact ih _ _ (r.put_wf a b h)

/-- A memory with nothing listed has the canonical form. -/
theorem Region.empty_wf (f : Fill) : ({ fill := f } : Region).wf := ⟨List.Pairwise.nil, fun _ h => by simp at h⟩

/-- Bytes written leave every byte outside them alone. -/
theorem Region.get_putAll_out (r : Region) (a : Nat) (bs : Bytes) (a' : Nat) (h : a' < a ∨ a + bs.length ≤ a') :
    (r.putAll a bs).get a' = r.get a' := by
  induction bs generalizing r a with
  | nil => rfl
  | cons b bs ih =>
    simp only [List.length_cons] at h
    rw [Region.putAll, ih _ _ (by omega), Region.get_put_ne _ (by omega)]

/-- Bytes written read back. -/
theorem Region.get_putAll_in (r : Region) (a : Nat) (bs : Bytes) (i : Nat) (h : i < bs.length) : (r.putAll a bs).get (a + i) = bs[i] := by
  induction bs generalizing r a i with
  | nil => simp at h
  | cons b bs ih =>
    cases i with
    | zero => rw [Region.putAll, Region.get_putAll_out _ _ _ _ (by omega)]; simp
    | succ i =>
      have := ih (r.put a b) (a + 1) i (by simpa using h)
      simpa [Region.putAll, Nat.add_comm, Nat.add_left_comm] using this

/-! ## Entries -/

theorem userNum_lt (u : User) : userNum u < 8 := by cases u <;> decide

@[simp] theorem State.get_put_self (s : State) (e v : Nat) : (s.put e v).get e = v := by simp [State.get, State.put]

theorem State.get_put_ne (s : State) {e e' : Nat} (h : e' ≠ e) (v : Nat) : (s.put e v).get e' = s.get e' :=
  sparseGet_set_ne _ _ (by omega) _ _

@[simp] theorem State.getU_putU_self (s : State) (e : Nat) (u : User) (v : Nat) : (s.putU e u v).getU e u = v := by simp [State.getU, State.putU]

theorem State.getU_putU_ne (s : State) {e e' : Nat} {u u' : User} (h : e' ≠ e ∨ u' ≠ u) (v : Nat) : (s.putU e u v).getU e' u' = s.getU e' u' := by
  refine sparseGet_set_ne _ _ (fun hk => ?_) _ _
  have h1 := userNum_lt u
  have h2 := userNum_lt u'
  have he : e' = e := by omega
  have hn : userNum u' = userNum u := by omega
  rcases h with h | h
  · exact h he
  · exact h (by cases u <;> cases u' <;> first | rfl | simp [userNum] at hn)

theorem State.getU_put_ne (s : State) {e e' : Nat} (h : e' ≠ e) (u : User) (v : Nat) : (s.put e v).getU e' u = s.getU e' u :=
  sparseGet_set_ne _ _ (by have := userNum_lt u; omega) _ _

theorem State.get_putU_ne (s : State) {e e' : Nat} (h : e' ≠ e) (u : User) (v : Nat) : (s.putU e u v).get e' = s.get e' :=
  sparseGet_set_ne _ _ (by have := userNum_lt u; omega) _ _

theorem keyDefault_entry (e k : Nat) (h : k < 8) : keyDefault (e * 8 + k) = entryDefault e := by
  unfold keyDefault; congr 1; omega

/-- A stored value keeps the canonical form of the entry store. -/
theorem put_canon (s : State) (e v : Nat) (h : EntCanon s.ent) : EntCanon (s.put e v).ent := by
  have := sparseSet_canon (d := keyDefault) (e * 8) v h
  rwa [show keyDefault (e * 8) = entryDefault e from keyDefault_entry e 0 (by omega)] at this

theorem putU_canon (s : State) (e : Nat) (u : User) (v : Nat) (h : EntCanon s.ent) : EntCanon (s.putU e u v).ent := by
  have := sparseSet_canon (d := keyDefault) (e * 8 + userNum u) v h
  rwa [show keyDefault (e * 8 + userNum u) = entryDefault e from keyDefault_entry e _ (userNum_lt u)] at this

end Sys2Proof.Machine
end

