-- ==== Sys2Proof/Laws/Serve.lean ====
section
/-! SUPPORT. What a dictionary access comes to once its checks pass: its action, its store, its value. -/
namespace Sys2Proof.Machine

theorem entAt_div_mod (e : Nat) : entAt (e / 256) (e % 256) = e := by unfold entAt; omega

/-- An accepted write, in parts. -/
theorem accepts_parts {s : State} {q : Request} (h : accepts s q = true) :
    q.op = 2 ∧ unserved s q.user = false ∧ coreBlocked s q.user = false ∧ servedAtOnce s q = true ∧ ∃ r, rowAt q.idx q.sub = some r ∧
      writeStatus s q.user r (entAt q.idx q.sub) q.value = Sc.ok ∧ writeInRange s r (entAt q.idx q.sub) (leNat q.value) = true := by
  unfold accepts at h
  split at h
  · rename_i r hr
    simp only [Bool.and_eq_true, beq_iff_eq, Bool.not_eq_true', decide_eq_true_eq] at h
    exact ⟨h.1.1.1.1, h.1.1.1.2, h.1.1.2, h.1.2, r, hr, h.2.1, h.2.2⟩
  · simp at h

/-- A readable entry, in parts. -/
theorem readable_parts {s : State} {q : Request} (h : readable s q = true) :
    q.op = 1 ∧ unserved s q.user = false ∧ coreBlocked s q.user = false ∧ servedAtOnce s q = true ∧ ∃ r, rowAt q.idx q.sub = some r ∧
      readStatus s q.user r (entAt q.idx q.sub) = Sc.ok := by
  unfold readable at h
  split at h
  · rename_i r hr
    simp only [Bool.and_eq_true, beq_iff_eq, Bool.not_eq_true', decide_eq_true_eq] at h
    exact ⟨h.1.1.1.1, h.1.1.1.2, h.1.1.2, h.1.2, r, hr, h.2⟩
  · simp at h

/-- An access that can be served as it arrives is served (R56, R57). -/
theorem access_served {s : State} {q : Request} (hu : unserved s q.user = false) (hc : coreBlocked s q.user = false)
    (hs : servedAtOnce s q = true) : access s q = serve s q := by
  simp only [access, hu, hc, hs, Bool.false_or, Bool.false_eq_true, if_false, if_true]

/-- A request that no crypto engine works on is answered as it is served. -/
theorem perform_plain {s : State} {q : Request} (r : State × Nat × Bytes) (h : engineOf q = none) :
    perform s q r = respond r.1 q r.2.1 r.2.2 := by simp only [perform, h]

/-- A request whose crypto engine takes its work at once is answered as it is served (R278). -/
theorem perform_now {s : State} {q : Request} {g : Engine} (r : State × Nat × Bytes) (h : engineOf q = some g)
    (hw : waitsEngine s q g r.2.1 = false) : perform s q r = respond r.1 q r.2.1 r.2.2 := by
  simp only [perform, h, hw, Bool.false_eq_true, if_false]

/-- An accepted write of an action entry, increments of counters apart, runs its action. -/
theorem access_action {s : State} {q : Request} (hx : q.ext = true) (h : accepts s q = true) (hm : isMono (entAt q.idx q.sub) = false)
    (ha : ∀ r, rowAt q.idx q.sub = some r → r.action = true) (hc : entAt q.idx q.sub ≠ Ent.COMMIT) :
    access s q = perform s q
      ((action s q.user (entAt q.idx q.sub) q.value).1, (action s q.user (entAt q.idx q.sub) q.value).2, []) := by
  obtain ⟨ho, hu, hb, hn, r, hr, hs, hg⟩ := accepts_parts h
  have h1 : ¬q.op = 1 := by omega
  have h3 : ¬q.op = 3 := by omega
  rw [access_served hu hb hn]
  simp only [serve, hx, h1, h3, writeAccess, hr, hs, hc, ha r hr, actionAccess, hg, hm, Bool.false_and, if_true, if_false, ne_eq,
    not_true_eq_false, Bool.false_eq_true, Bool.not_true]

/-- An accepted write of a stored entry that the keeper does not commit is applied and answered OK. -/
theorem access_store {s : State} {q : Request} (hx : q.ext = true) (h : accepts s q = true)
    (ha : ∀ r, rowAt q.idx q.sub = some r → r.action = false) (hc : entAt q.idx q.sub ≠ Ent.COMMIT) (hk : isN (entAt q.idx q.sub) = false) :
    access s q = respond (applyWrites s q.user [(entAt q.idx q.sub, leNat q.value)]) q Sc.ok [] := by
  obtain ⟨ho, hu, hb, hn, r, hr, hs, hg⟩ := accepts_parts h
  have h1 : ¬q.op = 1 := by omega
  have h3 : ¬q.op = 3 := by omega
  rw [access_served hu hb hn]
  simp only [serve, hx, h1, h3, writeAccess, hr, hs, hc, ha r hr, hk, applied, List.any_cons, List.any_nil, Bool.or_false, if_false, ne_eq,
    not_true_eq_false, Bool.false_eq_true, Bool.not_true]

/-- An accepted write of a stored entry that the keeper commits is in progress, its place in the response queue claimed (R59, R191). -/
theorem access_commits {s : State} {q : Request} (hx : q.ext = true) (h : accepts s q = true)
    (ha : ∀ r, rowAt q.idx q.sub = some r → r.action = false) (hc : entAt q.idx q.sub ≠ Ent.COMMIT) (hk : isN (entAt q.idx q.sub) = true) :
    access s q =
      claimPlace (s.onKeeper fun k => { k with jobs := k.jobs ++ [nvmJob q (entAt q.idx q.sub) (leNat q.value)] }) q := by
  obtain ⟨ho, hu, hb, hn, r, hr, hs, hg⟩ := accepts_parts h
  have h1 : ¬q.op = 1 := by omega
  have h3 : ¬q.op = 3 := by omega
  rw [access_served hu hb hn]
  simp only [serve, hx, h1, h3, writeAccess, hr, hs, hc, ha r hr, hk, nvmJob, List.any_cons, Bool.true_or, if_true, if_false, ne_eq,
    not_true_eq_false, Bool.false_eq_true, Bool.not_true]

/-- A readable entry is read. -/
theorem access_read {s : State} {q : Request} (hx : q.ext = true) (h : readable s q = true) :
    access s q = perform s q (readAccess s q.user q.idx q.sub) := by
  obtain ⟨ho, hu, hb, hn, r, hr, hs⟩ := readable_parts h
  rw [access_served hu hb hn]
  simp only [serve, hx, ho, if_true, if_false, Bool.false_eq_true, Bool.not_true]

/-- The keeper commits the oldest N write: its value is applied, and its request answered (R58, R59). -/
theorem jobComplete_front {s : State} {j : NvmJob} {rest : List NvmJob} (h : s.keeper.jobs = j :: rest) :
    jobComplete s = respondJob (applied (s.onKeeper fun k => { k with jobs := rest }) j.req.user j.writes j.batch) j.req Sc.ok [] := by
  simp only [jobComplete, h]

/-- One stored write that is no delta of a calibration row. -/
theorem applyWrites_one (s : State) (u : User) (e v : Nat) (h : isDelta e = false) : applyWrites s u [(e, v)] = applyWrite s u e v := by
  simp [applyWrites, writeRows, h]

/-- The number that a request's value spells is the number written, where it fits the entry. -/
theorem leNat_leBytes (n v : Nat) : leNat (leBytes n v) = v % 256 ^ n := by
  induction n generalizing v with
  | zero => simp [leBytes, leNat, Nat.mod_one]
  | succ n ih =>
    simp only [leBytes, leNat, ih, byte, BitVec.toNat_ofNat, Nat.pow_succ']
    have h : v % (256 * 256 ^ n) = v % 256 + 256 * (v / 256 % 256 ^ n) := Nat.mod_mul
    omega

/-! ## The action of each action entry -/

section
variable (s : State) (u : User) (v : Bytes)

theorem action_MODE_REQUEST : action s u Ent.MODE_REQUEST v = modeRequest s u (leNat v) := rfl
theorem action_FAULT_REQUEST : action s u Ent.FAULT_REQUEST v = (setFault s 6 (userId u), Sc.ok) := rfl
theorem action_LC_REQUEST : action s u Ent.LC_REQUEST v = lcRequest s u (leNat v) := rfl
theorem action_DBG_NEW : action s u Ent.DBG_NEW v = dbgNew s (leNat v) := rfl
theorem action_DBG_SIG : action s u Ent.DBG_SIG v = dbgSig s u v := rfl
theorem action_OPT_REQUEST : action s u Ent.OPT_REQUEST v = optRequest s := rfl
theorem action_CO_PULSE : action s u Ent.CO_PULSE v = coPulse s := rfl
theorem action_HORN_CMD : action s u Ent.HORN_CMD v = hornCmd s v := rfl
theorem action_TIME_SET : action s u Ent.TIME_SET v = timeSet s u (leNat v) := rfl
theorem action_WDT_KICK : action s u Ent.WDT_KICK v = (wdtKick s, Sc.ok) := rfl
theorem action_ROLLBACK_COMMIT : action s u Ent.ROLLBACK_COMMIT v = rollbackCommit s u (leNat v) := rfl
theorem action_ROT_SIG : action s u Ent.ROT_SIG v = rotSig s u v := rfl
theorem action_KEY_REVOKE0 : action s u Ent.KEY_REVOKE0 v = keyRevoke0 s u (leNat v) := rfl
theorem action_FL_OP : action s u Ent.FL_OP v = flOp s (leNat v) := rfl
theorem action_CAN_RESTART : action s u Ent.CAN_RESTART v = (canRestart s, Sc.ok) := rfl
theorem action_KDF_DERIVE : action s u Ent.KDF_DERIVE v = kdfDerive s u := rfl
theorem action_AES_START : action s u Ent.AES_START v = aesStart s u := rfl
theorem action_AES_IN : action s u Ent.AES_IN v = aesIn s u v := rfl
theorem action_AES_CLEAR : action s u Ent.AES_CLEAR v = aesClear s u := rfl
theorem action_AES_MEM_GO : action s u Ent.AES_MEM_GO v = aesMemGo s := rfl
theorem action_SHA_INIT : action s u Ent.SHA_INIT v = shaInit s u := rfl
theorem action_SHA_DATA : action s u Ent.SHA_DATA v = shaData s u v := rfl
theorem action_SHA_LAST : action s u Ent.SHA_LAST v = shaLast s u v := rfl
theorem action_SHA_MEM_GO : action s u Ent.SHA_MEM_GO v = shaMemGo s := rfl
theorem action_BN_GO : action s u Ent.BN_GO v = bnGo s u := rfl
theorem action_BN_MSG : action s u Ent.BN_MSG v = bnMsg s u v := rfl
theorem action_BN_MEM_GO : action s u Ent.BN_MEM_GO v = bnMemGo s := rfl
theorem action_BN_CLEAR : action s u Ent.BN_CLEAR v = bnClear s u := rfl
end

end Sys2Proof.Machine
end

