-- ==== Sys2Proof/Laws/Codes.lean ====
section
/-! SUPPORT. What is encoded is decoded: COBS (R359), the flit (R25) and its samples (R26). -/
namespace Sys2Proof.Machine

/-! ## COBS -/

theorem zero_not_mem_snoc {run : Bytes} {b : Byte} (h : (0 : Byte) ∉ run) (hb : b ≠ 0) : (0 : Byte) ∉ run ++ [b] := fun hm => by
  rcases List.mem_append.1 hm with hm | hm
  · exact h hm
  · exact hb (List.mem_singleton.1 hm).symm

theorem cobsBlock_run (run rest : Bytes) (gap : Bool) (h : (0 : Byte) ∉ run) :
    cobsBlock run.length gap (run ++ rest) = (cobsBlock 0 gap rest).map (run ++ ·) := by
  induction run with
  | nil => simp
  | cons b run ih =>
    simp only [List.mem_cons, not_or] at h
    simp only [List.length_cons, List.cons_append, cobsBlock, if_neg (Ne.symm h.1), ih h.2, Option.map_map]
    rfl

/-- One block, and what follows it. -/
theorem cobsBlock_code (run rest : Bytes) (gap : Bool) (h : (0 : Byte) ∉ run) (hl : run.length < 254) :
    cobsBlock 0 gap (byte (run.length + 1) :: (run ++ rest)) =
      (cobsBlock 0 true rest).map fun r => (if gap then [0] else []) ++ run ++ r := by
  have hn : (byte (run.length + 1)).toNat = run.length + 1 := by simp only [byte, BitVec.toNat_ofNat]; omega
  have h0 : byte (run.length + 1) ≠ 0 := fun e => by rw [e] at hn; simp at hn
  have hf : (byte (run.length + 1) != 0xFF) = true := by
    simp only [bne_iff_ne, ne_eq]
    intro e; rw [e] at hn; simp at hn; omega
  simp only [cobsBlock, if_neg h0, hn, hf, Nat.add_sub_cancel, cobsBlock_run run rest true h, Option.map_map]
  congr 1
  funext r
  cases gap <;> simp

theorem cobsBlock_cobsRun (bs run : Bytes) (gap : Bool) (h : (0 : Byte) ∉ run) (hl : run.length + bs.length < 254) :
    cobsBlock 0 gap (cobsRun run bs) = some ((if gap then [0] else []) ++ run ++ bs) := by
  induction bs generalizing run gap with
  | nil =>
    have := cobsBlock_code run [] gap h (by simpa using hl)
    simpa [cobsRun, cobsBlock] using this
  | cons b bs ih =>
    simp only [List.length_cons] at hl
    by_cases hb : b = 0
    · subst hb
      rw [cobsRun, if_pos rfl, cobsBlock_code run _ gap h (by omega), ih [] true (by simp) (by simp; omega)]
      simp
    · rw [cobsRun, if_neg hb, ih (run ++ [b]) gap (zero_not_mem_snoc h hb) (by simp; omega)]
      simp

/-- What COBS has encoded it decodes: frames shorter than a whole block. -/
theorem cobsDecode_cobsEncode (f : Bytes) (h : f.length < 254) : cobsDecode (cobsEncode f) = some f := by
  have := cobsBlock_cobsRun f [] false (by simp) (by simpa using h)
  simpa [cobsDecode, cobsEncode] using this

theorem mem_cobsRun {bs run : Bytes} (h : (0 : Byte) ∉ run) (hl : run.length + bs.length < 254) : (0 : Byte) ∉ cobsRun run bs := by
  have hc : ∀ n < 254, (0 : Byte) ≠ byte (n + 1) := fun n hn e => by
    have := congrArg BitVec.toNat e; simp [byte] at this; omega
  induction bs generalizing run with
  | nil => simp only [cobsRun, List.mem_cons, not_or]; exact ⟨hc _ (by simpa using hl), h⟩
  | cons b bs ih =>
    simp only [List.length_cons] at hl
    rw [cobsRun]; split
    · simp only [List.mem_cons, List.mem_append, not_or]
      exact ⟨hc _ (by omega), h, ih (by simp) (by simp; omega)⟩
    · rename_i hb
      exact ih (zero_not_mem_snoc h hb) (by simp; omega)

/-- An encoded frame holds no zero byte, so the delimiter ends it. -/
theorem zero_not_mem_cobsEncode (f : Bytes) (h : f.length < 254) : (0 : Byte) ∉ cobsEncode f := mem_cobsRun (by simp) (by simpa using h)

/-! ## Samples -/

theorem unpack_pack (xs : List Nat) : unpackSamples xs.length (packSamples xs) = xs.map (· % 4096) := by
  induction xs with
  | nil => rfl
  | cons x xs ih =>
    have h1 : (x % 4096 + 4096 * packSamples xs) % 4096 = x % 4096 := by omega
    have h2 : (x % 4096 + 4096 * packSamples xs) / 4096 = packSamples xs := by omega
    simp only [packSamples, List.length_cons, unpackSamples, h1, h2, ih, List.map_cons]

theorem packSamples_lt (xs : List Nat) : packSamples xs < 4096 ^ xs.length := by
  induction xs with
  | nil => simp [packSamples]
  | cons x xs ih =>
    simp only [packSamples, List.length_cons, Nat.pow_succ']
    have : x % 4096 < 4096 := Nat.mod_lt _ (by decide)
    omega

/-- A CAPTURE flit's payload gives back its 16 samples, as halfwords. -/
theorem captureWords_payload (xs : List Nat) (index : Nat) :
    captureWords (capturePayload xs index) = ((captureSamples xs index).map (· % 4096)).flatMap (leBytes 2) := by
  have hl : (captureSamples xs index).length = 16 := by simp [captureSamples]
  have hp := packSamples_lt (captureSamples xs index)
  rw [hl] at hp
  have hu := unpack_pack (captureSamples xs index)
  rw [hl] at hu
  rw [captureWords, capturePayload, leNat_leBytes, Nat.mod_eq_of_lt (by simpa using hp), hu]

/-! ## The flit -/

theorem leBytes_length (n v : Nat) : (leBytes n v).length = n := by
  induction n generalizing v with
  | zero => rfl
  | succ n ih => simp [leBytes, ih]

theorem fitBytes_length (n : Nat) (bs : Bytes) : (fitBytes n bs).length = n := by simp [fitBytes, zeros]; omega

theorem flitBytes_length (seq ack0 ack1 : Nat) (f : SentFlit) : (flitBytes seq ack0 ack1 f).length = 32 := by
  simp [flitBytes, leBytes_length, fitBytes_length]

theorem crc32Shift_lt (n c : Nat) (h : c < 2 ^ 32) : crc32Shift n c < 2 ^ 32 := by
  induction n generalizing c with
  | zero => exact h
  | succ n ih =>
    unfold crc32Shift
    apply ih
    split
    · exact Nat.xor_lt_two_pow (by omega) (by decide)
    · omega

theorem crc32_lt (bs : Bytes) : crc32 bs < 2 ^ 32 := by
  have h : ∀ (l : Bytes) (c : Nat), c < 2 ^ 32 → l.foldl (fun c b => crc32Shift 8 (c ^^^ b.toNat)) c < 2 ^ 32 := by
    intro l
    induction l with
    | nil => exact fun _ h => h
    | cons b l ih => exact fun c hc => ih _ (crc32Shift_lt _ _ (Nat.xor_lt_two_pow hc (by have := b.isLt; omega)))
  exact Nat.xor_lt_two_pow (h _ _ (by decide)) (by decide)

/-- A flit that arrives as it was sent is found good (R28). -/
theorem flitCrcOk_flitBytes (seq ack0 ack1 : Nat) (f : SentFlit) : flitCrcOk (flitBytes seq ack0 ack1 f) = true := by
  have hb : ∀ b : Bytes, b.length = 28 → ∀ c : Nat, leNat ((b ++ leBytes 4 c).drop 28) = c % 2 ^ 32 ∧ (b ++ leBytes 4 c).take 28 = b := by
    intro b hb c
    rw [List.drop_append_of_le_length (by omega), List.take_append_of_le_length (by omega), ← hb]
    simp [leNat_leBytes]
  unfold flitCrcOk flitBytes
  obtain ⟨h1, h2⟩ := hb (leBytes 4 (f.ty % 16 * 2 ^ 28 + seq % 16 * 2 ^ 24 + ack0 % 16 * 2 ^ 20 + ack1 % 16 * 2 ^ 16 + f.tag % 65536) ++ fitBytes 24 f.payload)
    (by simp [leBytes_length, fitBytes_length]) (crc32 (leBytes 4 (f.ty % 16 * 2 ^ 28 + seq % 16 * 2 ^ 24 + ack0 % 16 * 2 ^ 20 + ack1 % 16 * 2 ^ 16 + f.tag % 65536) ++ fitBytes 24 f.payload))
  dsimp only
  rw [h1, h2, beq_iff_eq]
  exact Nat.mod_eq_of_lt (crc32_lt _)

/-- The fields of a flit's header word are those it was formed with. -/
theorem flitHeader_flitBytes (seq ack0 ack1 : Nat) (f : SentFlit) :
    flitHeader (flitBytes seq ack0 ack1 f) = (f.ty % 16, seq % 16, ack0 % 16, ack1 % 16, f.tag % 65536) := by
  have : (flitBytes seq ack0 ack1 f).take 4 = leBytes 4 (f.ty % 16 * 2 ^ 28 + seq % 16 * 2 ^ 24 + ack0 % 16 * 2 ^ 20 + ack1 % 16 * 2 ^ 16 + f.tag % 65536) := by
    simp only [flitBytes, List.append_assoc]
    rw [List.take_append_of_le_length (by simp [leBytes_length])]
    simp [List.take_of_length_le, leBytes_length]
  unfold flitHeader
  dsimp only
  rw [this, leNat_leBytes]
  simp only [Prod.mk.injEq]
  omega

/-! ## STATUS -/

/-- Bytes of a number, read back from the middle of a payload. -/
theorem fieldNat_at (a b : Bytes) (n v off : Nat) (h : a.length = off) : fieldNat (a ++ leBytes n v ++ b) off n = v % 256 ^ n := by
  unfold fieldNat
  rw [List.append_assoc, ← h, List.drop_left, List.take_append_of_le_length (by rw [leBytes_length]),
    List.take_of_length_le (by rw [leBytes_length]), leNat_leBytes]

theorem ofSigned_lt (w : Nat) (i : Int) : ofSigned w i < 2 ^ w := by
  have h1 := Int.emod_nonneg i (b := 2 ^ w) (by positivity)
  have h2 := Int.emod_lt_of_pos i (b := 2 ^ w) (by positivity)
  unfold ofSigned
  zify
  rw [Int.toNat_of_nonneg h1]
  exact h2

/-- What the result unit reads in a STATUS flit is the result that was sent, each field within its width (R110). -/
theorem statusOf_opt (r : OptResult) : statusOf 1 (statusPayload (.opt r)) = some (Flight.opt r).fit := by
  simp only [statusOf, statusPayload, Flight.fit, Option.some.injEq, Flight.opt.injEq, OptResult.mk.injEq]
  simp [fieldNat, fieldInt, leInt, leBytes, leNat, byte]
  have h1 := ofSigned_lt 24 r.sIr
  have h2 := ofSigned_lt 24 r.sBl
  and_intros <;> first | omega | exact congrArg _ (by omega)

theorem statusOf_heat (r : CodeResult) : statusOf 2 (statusPayload (.heat r)) = some (Flight.heat r).fit := by
  simp only [statusOf, statusPayload, Flight.fit, Option.some.injEq, Flight.heat.injEq, CodeResult.mk.injEq]
  simp [fieldNat, leInt, leBytes, leNat, zeros, byte, List.replicate]
  have h1 := ofSigned_lt 16 r.code
  and_intros <;> omega

theorem statusOf_co (r : CoResult) : statusOf 3 (statusPayload (.co r)) = some (Flight.co r).fit := by
  simp only [statusOf, statusPayload, Flight.fit, Option.some.injEq, Flight.co.injEq, CoResult.mk.injEq]
  simp [fieldNat, fieldInt, leInt, leBytes, leNat, zeros, byte, List.replicate]
  have h1 := ofSigned_lt 32 r.code
  and_intros <;> first | omega | exact congrArg _ (by omega)

theorem statusOf_aux (r : CodeResult) : statusOf 4 (statusPayload (.aux r)) = some (Flight.aux r).fit := by
  simp only [statusOf, statusPayload, Flight.fit, Option.some.injEq, Flight.aux.injEq, CodeResult.mk.injEq]
  simp [fieldNat, fieldInt, leInt, leBytes, leNat, zeros, byte, List.replicate]
  have h1 := ofSigned_lt 32 r.code
  and_intros <;> first | omega | exact congrArg _ (by omega)

theorem statusOf_supply (r : SupplyResult) : statusOf 5 (statusPayload (.supply r)) = some (Flight.supply r).fit := by
  simp only [statusOf, statusPayload, Flight.fit, Option.some.injEq, Flight.supply.injEq, SupplyResult.mk.injEq]
  simp [fieldNat, fieldInt, leInt, leBytes, leNat, zeros, byte, List.replicate]
  have h1 := ofSigned_lt 16 r.flyerT
  have h2 := ofSigned_lt 16 r.keeperT
  and_intros <;> first | omega | exact congrArg _ (by omega)

theorem statusOf_queues (r : QueueReport) : statusOf 6 (statusPayload (.queues r)) = some (Flight.queues r).fit := by
  simp only [statusOf, statusPayload, Flight.fit, Option.some.injEq, Flight.queues.injEq, QueueReport.mk.injEq]
  simp [fieldNat, leBytes, leNat, zeros, byte, List.replicate]
  and_intros <;> first | omega | (cases r.mark <;> simp)

end Sys2Proof.Machine
end

