-- ==== Sys2Proof/Laws/Frames.lean ====
section
/-! SUPPORT. The parts of the state that each shared operation leaves alone. -/
namespace Sys2Proof.Machine
variable (s : State)

/-! ### notePeak -/

@[simp] theorem notePeak_pending (q n : Nat) : (notePeak s q n).pending = s.pending := by unfold notePeak; split <;> simp
@[simp] theorem notePeak_free (q n : Nat) : (notePeak s q n).free = s.free := by unfold notePeak; split <;> simp
@[simp] theorem notePeak_sb (q n : Nat) : (notePeak s q n).sb = s.sb := by unfold notePeak; split <;> simp
@[simp] theorem notePeak_ply (q n : Nat) : (notePeak s q n).ply = s.ply := by unfold notePeak; split <;> simp
@[simp] theorem notePeak_flyer (q n : Nat) : (notePeak s q n).flyer = s.flyer := by unfold notePeak; split <;> simp
@[simp] theorem notePeak_keeper (q n : Nat) : (notePeak s q n).keeper = s.keeper := by unfold notePeak; split <;> simp
@[simp] theorem notePeak_log (q n : Nat) : (notePeak s q n).log = s.log := by unfold notePeak; split <;> simp
@[simp] theorem notePeak_tag (q n : Nat) : (notePeak s q n).tag = s.tag := by unfold notePeak; split <;> simp
@[simp] theorem notePeak_doms (q n : Nat) : (notePeak s q n).doms = s.doms := by unfold notePeak; split <;> simp
@[simp] theorem notePeak_spindle (q n : Nat) : (notePeak s q n).spindle = s.spindle := by unfold notePeak; split <;> simp
@[simp] theorem notePeak_pads (q n : Nat) : (notePeak s q n).pads = s.pads := by unfold notePeak; split <;> simp

/-! ### noteFull -/

@[simp] theorem noteFull_pending (q : Nat) : (noteFull s q).pending = s.pending := by unfold noteFull; split <;> simp
@[simp] theorem noteFull_free (q : Nat) : (noteFull s q).free = s.free := by unfold noteFull; split <;> simp
@[simp] theorem noteFull_sb (q : Nat) : (noteFull s q).sb = s.sb := by unfold noteFull; split <;> simp
@[simp] theorem noteFull_ply (q : Nat) : (noteFull s q).ply = s.ply := by unfold noteFull; split <;> simp
@[simp] theorem noteFull_flyer (q : Nat) : (noteFull s q).flyer = s.flyer := by unfold noteFull; split <;> simp
@[simp] theorem noteFull_keeper (q : Nat) : (noteFull s q).keeper = s.keeper := by unfold noteFull; split <;> simp
@[simp] theorem noteFull_log (q : Nat) : (noteFull s q).log = s.log := by unfold noteFull; split <;> simp
@[simp] theorem noteFull_tag (q : Nat) : (noteFull s q).tag = s.tag := by unfold noteFull; split <;> simp
@[simp] theorem noteFull_doms (q : Nat) : (noteFull s q).doms = s.doms := by unfold noteFull; split <;> simp
@[simp] theorem noteFull_spindle (q : Nat) : (noteFull s q).spindle = s.spindle := by unfold noteFull; split <;> simp
@[simp] theorem noteFull_pads (q : Nat) : (noteFull s q).pads = s.pads := by unfold noteFull; split <;> simp

/-! ### notePeakOf -/

@[simp] theorem notePeakOf_pending (d : Die) (q n : Nat) : (notePeakOf s d q n).pending = s.pending := by unfold notePeakOf; split <;> simp
@[simp] theorem notePeakOf_free (d : Die) (q n : Nat) : (notePeakOf s d q n).free = s.free := by unfold notePeakOf; split <;> simp
@[simp] theorem notePeakOf_sb (d : Die) (q n : Nat) : (notePeakOf s d q n).sb = s.sb := by unfold notePeakOf; split <;> simp
@[simp] theorem notePeakOf_ply (d : Die) (q n : Nat) : (notePeakOf s d q n).ply = s.ply := by unfold notePeakOf; split <;> simp
@[simp] theorem notePeakOf_flyer (d : Die) (q n : Nat) : (notePeakOf s d q n).flyer = s.flyer := by unfold notePeakOf; split <;> simp
@[simp] theorem notePeakOf_keeper (d : Die) (q n : Nat) : (notePeakOf s d q n).keeper = s.keeper := by unfold notePeakOf; split <;> simp
@[simp] theorem notePeakOf_log (d : Die) (q n : Nat) : (notePeakOf s d q n).log = s.log := by unfold notePeakOf; split <;> simp
@[simp] theorem notePeakOf_tag (d : Die) (q n : Nat) : (notePeakOf s d q n).tag = s.tag := by unfold notePeakOf; split <;> simp
@[simp] theorem notePeakOf_doms (d : Die) (q n : Nat) : (notePeakOf s d q n).doms = s.doms := by unfold notePeakOf; split <;> simp
@[simp] theorem notePeakOf_spindle (d : Die) (q n : Nat) : (notePeakOf s d q n).spindle = s.spindle := by unfold notePeakOf; split <;> simp
@[simp] theorem notePeakOf_pads (d : Die) (q n : Nat) : (notePeakOf s d q n).pads = s.pads := by unfold notePeakOf; split <;> simp

/-! ### State.bump -/

@[simp] theorem State.bump_pending (e : Nat) : (s.bump e).pending = s.pending := rfl
@[simp] theorem State.bump_free (e : Nat) : (s.bump e).free = s.free := rfl
@[simp] theorem State.bump_sb (e : Nat) : (s.bump e).sb = s.sb := rfl
@[simp] theorem State.bump_ply (e : Nat) : (s.bump e).ply = s.ply := rfl
@[simp] theorem State.bump_flyer (e : Nat) : (s.bump e).flyer = s.flyer := rfl
@[simp] theorem State.bump_keeper (e : Nat) : (s.bump e).keeper = s.keeper := rfl
@[simp] theorem State.bump_log (e : Nat) : (s.bump e).log = s.log := rfl
@[simp] theorem State.bump_tag (e : Nat) : (s.bump e).tag = s.tag := rfl
@[simp] theorem State.bump_doms (e : Nat) : (s.bump e).doms = s.doms := rfl
@[simp] theorem State.bump_spindle (e : Nat) : (s.bump e).spindle = s.spindle := rfl
@[simp] theorem State.bump_pads (e : Nat) : (s.bump e).pads = s.pads := rfl

/-! ### State.bumpBy -/

@[simp] theorem State.bumpBy_pending (e n : Nat) : (s.bumpBy e n).pending = s.pending := rfl
@[simp] theorem State.bumpBy_free (e n : Nat) : (s.bumpBy e n).free = s.free := rfl
@[simp] theorem State.bumpBy_sb (e n : Nat) : (s.bumpBy e n).sb = s.sb := rfl
@[simp] theorem State.bumpBy_ply (e n : Nat) : (s.bumpBy e n).ply = s.ply := rfl
@[simp] theorem State.bumpBy_flyer (e n : Nat) : (s.bumpBy e n).flyer = s.flyer := rfl
@[simp] theorem State.bumpBy_keeper (e n : Nat) : (s.bumpBy e n).keeper = s.keeper := rfl
@[simp] theorem State.bumpBy_log (e n : Nat) : (s.bumpBy e n).log = s.log := rfl
@[simp] theorem State.bumpBy_tag (e n : Nat) : (s.bumpBy e n).tag = s.tag := rfl
@[simp] theorem State.bumpBy_doms (e n : Nat) : (s.bumpBy e n).doms = s.doms := rfl
@[simp] theorem State.bumpBy_spindle (e n : Nat) : (s.bumpBy e n).spindle = s.spindle := rfl
@[simp] theorem State.bumpBy_pads (e n : Nat) : (s.bumpBy e n).pads = s.pads := rfl

/-! ### State.bumpU -/

@[simp] theorem State.bumpU_pending (e : Nat) (u : User) : (s.bumpU e u).pending = s.pending := rfl
@[simp] theorem State.bumpU_free (e : Nat) (u : User) : (s.bumpU e u).free = s.free := rfl
@[simp] theorem State.bumpU_sb (e : Nat) (u : User) : (s.bumpU e u).sb = s.sb := rfl
@[simp] theorem State.bumpU_ply (e : Nat) (u : User) : (s.bumpU e u).ply = s.ply := rfl
@[simp] theorem State.bumpU_flyer (e : Nat) (u : User) : (s.bumpU e u).flyer = s.flyer := rfl
@[simp] theorem State.bumpU_keeper (e : Nat) (u : User) : (s.bumpU e u).keeper = s.keeper := rfl
@[simp] theorem State.bumpU_log (e : Nat) (u : User) : (s.bumpU e u).log = s.log := rfl
@[simp] theorem State.bumpU_tag (e : Nat) (u : User) : (s.bumpU e u).tag = s.tag := rfl
@[simp] theorem State.bumpU_doms (e : Nat) (u : User) : (s.bumpU e u).doms = s.doms := rfl
@[simp] theorem State.bumpU_spindle (e : Nat) (u : User) : (s.bumpU e u).spindle = s.spindle := rfl
@[simp] theorem State.bumpU_pads (e : Nat) (u : User) : (s.bumpU e u).pads = s.pads := rfl

/-! ### State.setBits -/

@[simp] theorem State.setBits_pending (e n : Nat) : (s.setBits e n).pending = s.pending := rfl
@[simp] theorem State.setBits_free (e n : Nat) : (s.setBits e n).free = s.free := rfl
@[simp] theorem State.setBits_sb (e n : Nat) : (s.setBits e n).sb = s.sb := rfl
@[simp] theorem State.setBits_ply (e n : Nat) : (s.setBits e n).ply = s.ply := rfl
@[simp] theorem State.setBits_flyer (e n : Nat) : (s.setBits e n).flyer = s.flyer := rfl
@[simp] theorem State.setBits_keeper (e n : Nat) : (s.setBits e n).keeper = s.keeper := rfl
@[simp] theorem State.setBits_log (e n : Nat) : (s.setBits e n).log = s.log := rfl
@[simp] theorem State.setBits_tag (e n : Nat) : (s.setBits e n).tag = s.tag := rfl
@[simp] theorem State.setBits_doms (e n : Nat) : (s.setBits e n).doms = s.doms := rfl
@[simp] theorem State.setBits_spindle (e n : Nat) : (s.setBits e n).spindle = s.spindle := rfl
@[simp] theorem State.setBits_pads (e n : Nat) : (s.setBits e n).pads = s.pads := rfl

/-! ### State.putS -/

@[simp] theorem State.putS_pending (e : Nat) (i : Int) : (s.putS e i).pending = s.pending := by simp [State.putS]
@[simp] theorem State.putS_free (e : Nat) (i : Int) : (s.putS e i).free = s.free := by simp [State.putS]
@[simp] theorem State.putS_sb (e : Nat) (i : Int) : (s.putS e i).sb = s.sb := by simp [State.putS]
@[simp] theorem State.putS_ply (e : Nat) (i : Int) : (s.putS e i).ply = s.ply := by simp [State.putS]
@[simp] theorem State.putS_flyer (e : Nat) (i : Int) : (s.putS e i).flyer = s.flyer := by simp [State.putS]
@[simp] theorem State.putS_keeper (e : Nat) (i : Int) : (s.putS e i).keeper = s.keeper := by simp [State.putS]
@[simp] theorem State.putS_log (e : Nat) (i : Int) : (s.putS e i).log = s.log := by simp [State.putS]
@[simp] theorem State.putS_tag (e : Nat) (i : Int) : (s.putS e i).tag = s.tag := by simp [State.putS]
@[simp] theorem State.putS_doms (e : Nat) (i : Int) : (s.putS e i).doms = s.doms := by simp [State.putS]
@[simp] theorem State.putS_spindle (e : Nat) (i : Int) : (s.putS e i).spindle = s.spindle := by simp [State.putS]
@[simp] theorem State.putS_pads (e : Nat) (i : Int) : (s.putS e i).pads = s.pads := by simp [State.putS]

/-! ### sbQueue -/

@[simp] theorem sbQueue_pending (d : Die) (ty dst : Nat) (p : Bytes) : (sbQueue s d ty dst p).pending = s.pending := by unfold sbQueue; split <;> simp
@[simp] theorem sbQueue_free (d : Die) (ty dst : Nat) (p : Bytes) : (sbQueue s d ty dst p).free = s.free := by unfold sbQueue; split <;> simp
@[simp] theorem sbQueue_ply (d : Die) (ty dst : Nat) (p : Bytes) : (sbQueue s d ty dst p).ply = s.ply := by unfold sbQueue; split <;> simp
@[simp] theorem sbQueue_flyer (d : Die) (ty dst : Nat) (p : Bytes) : (sbQueue s d ty dst p).flyer = s.flyer := by unfold sbQueue; split <;> simp
@[simp] theorem sbQueue_keeper (d : Die) (ty dst : Nat) (p : Bytes) : (sbQueue s d ty dst p).keeper = s.keeper := by unfold sbQueue; split <;> simp
@[simp] theorem sbQueue_log (d : Die) (ty dst : Nat) (p : Bytes) : (sbQueue s d ty dst p).log = s.log := by unfold sbQueue; split <;> simp
@[simp] theorem sbQueue_tag (d : Die) (ty dst : Nat) (p : Bytes) : (sbQueue s d ty dst p).tag = s.tag := by unfold sbQueue; split <;> simp
@[simp] theorem sbQueue_doms (d : Die) (ty dst : Nat) (p : Bytes) : (sbQueue s d ty dst p).doms = s.doms := by unfold sbQueue; split <;> simp
@[simp] theorem sbQueue_spindle (d : Die) (ty dst : Nat) (p : Bytes) : (sbQueue s d ty dst p).spindle = s.spindle := by unfold sbQueue; split <;> simp
@[simp] theorem sbQueue_pads (d : Die) (ty dst : Nat) (p : Bytes) : (sbQueue s d ty dst p).pads = s.pads := by unfold sbQueue; split <;> simp

/-! ### noticed -/

@[simp] theorem noticed_pending (t : State) : (noticed s t).pending = t.pending := by unfold noticed; split <;> rfl
@[simp] theorem noticed_free (t : State) : (noticed s t).free = t.free := by unfold noticed; split <;> rfl
@[simp] theorem noticed_ent (t : State) : (noticed s t).ent = t.ent := by unfold noticed; split <;> rfl
@[simp] theorem noticed_sb (t : State) : (noticed s t).sb = t.sb := by unfold noticed; split <;> rfl
@[simp] theorem noticed_ply (t : State) : (noticed s t).ply = t.ply := by unfold noticed; split <;> rfl
@[simp] theorem noticed_flyer (t : State) : (noticed s t).flyer = t.flyer := by unfold noticed; split <;> rfl
@[simp] theorem noticed_keeper (t : State) : (noticed s t).keeper = t.keeper := by unfold noticed; split <;> rfl
@[simp] theorem noticed_log (t : State) : (noticed s t).log = t.log := by unfold noticed; split <;> rfl
@[simp] theorem noticed_tag (t : State) : (noticed s t).tag = t.tag := by unfold noticed; split <;> rfl
@[simp] theorem noticed_doms (t : State) : (noticed s t).doms = t.doms := by unfold noticed; split <;> rfl
@[simp] theorem noticed_pads (t : State) : (noticed s t).pads = t.pads := by unfold noticed; split <;> rfl

/-! ### setNotices -/

@[simp] theorem setNotices_pending (m : Nat) : (setNotices s m).pending = s.pending := by simp [setNotices, users]
@[simp] theorem setNotices_free (m : Nat) : (setNotices s m).free = s.free := by simp [setNotices, users]
@[simp] theorem setNotices_sb (m : Nat) : (setNotices s m).sb = s.sb := by simp [setNotices, users]
@[simp] theorem setNotices_ply (m : Nat) : (setNotices s m).ply = s.ply := by simp [setNotices, users]
@[simp] theorem setNotices_flyer (m : Nat) : (setNotices s m).flyer = s.flyer := by simp [setNotices, users]
@[simp] theorem setNotices_keeper (m : Nat) : (setNotices s m).keeper = s.keeper := by simp [setNotices, users]
@[simp] theorem setNotices_log (m : Nat) : (setNotices s m).log = s.log := by simp [setNotices, users]
@[simp] theorem setNotices_tag (m : Nat) : (setNotices s m).tag = s.tag := by simp [setNotices, users]
@[simp] theorem setNotices_doms (m : Nat) : (setNotices s m).doms = s.doms := by simp [setNotices, users]
@[simp] theorem setNotices_pads (m : Nat) : (setNotices s m).pads = s.pads := by simp [setNotices, users]

/-- Beside NOTICE_PENDING, setting notices may owe user N a NOTICE frame. -/
theorem setNotices_spindle (m : Nat) :
    (setNotices s m).spindle = { s.spindle with can := { s.spindle.can with notices := (setNotices s m).spindle.can.notices } } := by
  unfold setNotices noticed; split <;> rfl

/-! ### raise -/

@[simp] theorem raise_pending (k : Nat) : (raise s k).pending = s.pending := by unfold raise; split_ifs <;> simp
@[simp] theorem raise_free (k : Nat) : (raise s k).free = s.free := by unfold raise; split_ifs <;> simp
@[simp] theorem raise_sb (k : Nat) : (raise s k).sb = s.sb := by unfold raise; split_ifs <;> simp
@[simp] theorem raise_ply (k : Nat) : (raise s k).ply = s.ply := by unfold raise; split_ifs <;> simp
@[simp] theorem raise_flyer (k : Nat) : (raise s k).flyer = s.flyer := by unfold raise; split_ifs <;> simp
@[simp] theorem raise_log (k : Nat) : (raise s k).log = s.log := by unfold raise; split_ifs <;> simp
@[simp] theorem raise_tag (k : Nat) : (raise s k).tag = s.tag := by unfold raise; split_ifs <;> simp
@[simp] theorem raise_doms (k : Nat) : (raise s k).doms = s.doms := by unfold raise; split_ifs <;> simp
@[simp] theorem raise_pads (k : Nat) : (raise s k).pads = s.pads := by unfold raise; split_ifs <;> simp

theorem raise_spindle (k : Nat) : (raise s k).spindle = { s.spindle with can := { s.spindle.can with notices := (raise s k).spindle.can.notices } } := by
  unfold raise; split_ifs
  · exact setNotices_spindle s _
  · rfl
  · rfl

theorem raise_keeper' (k : Nat) : (raise s k).keeper = { s.keeper with notices := (raise s k).keeper.notices } := by
  unfold raise; split_ifs <;> simp

/-! ### stSigned -/

@[simp] theorem stSigned_pending (ty : Nat) : (stSigned s ty).pending = s.pending := by unfold stSigned; split <;> simp
@[simp] theorem stSigned_free (ty : Nat) : (stSigned s ty).free = s.free := by unfold stSigned; split <;> simp
@[simp] theorem stSigned_sb (ty : Nat) : (stSigned s ty).sb = s.sb := by unfold stSigned; split <;> simp
@[simp] theorem stSigned_ply (ty : Nat) : (stSigned s ty).ply = s.ply := by unfold stSigned; split <;> simp
@[simp] theorem stSigned_flyer (ty : Nat) : (stSigned s ty).flyer = s.flyer := by unfold stSigned; split <;> simp
@[simp] theorem stSigned_keeper (ty : Nat) : (stSigned s ty).keeper = s.keeper := by unfold stSigned; split <;> simp
@[simp] theorem stSigned_log (ty : Nat) : (stSigned s ty).log = s.log := by unfold stSigned; split <;> simp
@[simp] theorem stSigned_tag (ty : Nat) : (stSigned s ty).tag = s.tag := by unfold stSigned; split <;> simp
@[simp] theorem stSigned_doms (ty : Nat) : (stSigned s ty).doms = s.doms := by unfold stSigned; split <;> simp
@[simp] theorem stSigned_spindle (ty : Nat) : (stSigned s ty).spindle = s.spindle := by unfold stSigned; split <;> simp
@[simp] theorem stSigned_pads (ty : Nat) : (stSigned s ty).pads = s.pads := by unfold stSigned; split <;> simp

/-! ### countSummary -/

@[simp] theorem countSummary_pending (ty : Nat) (b : Bytes) : (countSummary s ty b).pending = s.pending := by unfold countSummary; split <;> simp
@[simp] theorem countSummary_free (ty : Nat) (b : Bytes) : (countSummary s ty b).free = s.free := by unfold countSummary; split <;> simp
@[simp] theorem countSummary_sb (ty : Nat) (b : Bytes) : (countSummary s ty b).sb = s.sb := by unfold countSummary; split <;> simp
@[simp] theorem countSummary_ply (ty : Nat) (b : Bytes) : (countSummary s ty b).ply = s.ply := by unfold countSummary; split <;> simp
@[simp] theorem countSummary_flyer (ty : Nat) (b : Bytes) : (countSummary s ty b).flyer = s.flyer := by unfold countSummary; split <;> simp
@[simp] theorem countSummary_keeper (ty : Nat) (b : Bytes) : (countSummary s ty b).keeper = s.keeper := by unfold countSummary; split <;> simp
@[simp] theorem countSummary_log (ty : Nat) (b : Bytes) : (countSummary s ty b).log = s.log := by unfold countSummary; split <;> simp
@[simp] theorem countSummary_tag (ty : Nat) (b : Bytes) : (countSummary s ty b).tag = s.tag := by unfold countSummary; split <;> simp
@[simp] theorem countSummary_doms (ty : Nat) (b : Bytes) : (countSummary s ty b).doms = s.doms := by unfold countSummary; split <;> simp
@[simp] theorem countSummary_spindle (ty : Nat) (b : Bytes) : (countSummary s ty b).spindle = s.spindle := by unfold countSummary; split <;> simp
@[simp] theorem countSummary_pads (ty : Nat) (b : Bytes) : (countSummary s ty b).pads = s.pads := by unfold countSummary; split <;> simp

/-! ### logKeeper -/

@[simp] theorem logKeeper_pending (ty src : Nat) (b : Bytes) : (logKeeper s ty src b).pending = s.pending := by unfold logKeeper; split <;> simp
@[simp] theorem logKeeper_free (ty src : Nat) (b : Bytes) : (logKeeper s ty src b).free = s.free := by unfold logKeeper; split <;> simp
@[simp] theorem logKeeper_sb (ty src : Nat) (b : Bytes) : (logKeeper s ty src b).sb = s.sb := by unfold logKeeper; split <;> simp
@[simp] theorem logKeeper_ply (ty src : Nat) (b : Bytes) : (logKeeper s ty src b).ply = s.ply := by unfold logKeeper; split <;> simp
@[simp] theorem logKeeper_flyer (ty src : Nat) (b : Bytes) : (logKeeper s ty src b).flyer = s.flyer := by unfold logKeeper; split <;> simp
@[simp] theorem logKeeper_keeper (ty src : Nat) (b : Bytes) : (logKeeper s ty src b).keeper = s.keeper := by unfold logKeeper; split <;> simp
@[simp] theorem logKeeper_tag (ty src : Nat) (b : Bytes) : (logKeeper s ty src b).tag = s.tag := by unfold logKeeper; split <;> simp
@[simp] theorem logKeeper_doms (ty src : Nat) (b : Bytes) : (logKeeper s ty src b).doms = s.doms := by unfold logKeeper; split <;> simp
@[simp] theorem logKeeper_spindle (ty src : Nat) (b : Bytes) : (logKeeper s ty src b).spindle = s.spindle := by unfold logKeeper; split <;> simp
@[simp] theorem logKeeper_pads (ty src : Nat) (b : Bytes) : (logKeeper s ty src b).pads = s.pads := by unfold logKeeper; split <;> simp

/-! ### logDie -/

@[simp] theorem logDie_pending (d : Die) (ty src : Nat) (b : Bytes) : (logDie s d ty src b).pending = s.pending := by unfold logDie; split <;> simp
@[simp] theorem logDie_free (d : Die) (ty src : Nat) (b : Bytes) : (logDie s d ty src b).free = s.free := by unfold logDie; split <;> simp
@[simp] theorem logDie_ply (d : Die) (ty src : Nat) (b : Bytes) : (logDie s d ty src b).ply = s.ply := by unfold logDie; split <;> simp
@[simp] theorem logDie_flyer (d : Die) (ty src : Nat) (b : Bytes) : (logDie s d ty src b).flyer = s.flyer := by unfold logDie; split <;> simp
@[simp] theorem logDie_keeper (d : Die) (ty src : Nat) (b : Bytes) : (logDie s d ty src b).keeper = s.keeper := by unfold logDie; split <;> simp
@[simp] theorem logDie_log (d : Die) (ty src : Nat) (b : Bytes) : (logDie s d ty src b).log = s.log := by unfold logDie; split <;> simp
@[simp] theorem logDie_tag (d : Die) (ty src : Nat) (b : Bytes) : (logDie s d ty src b).tag = s.tag := by unfold logDie; split <;> simp
@[simp] theorem logDie_doms (d : Die) (ty src : Nat) (b : Bytes) : (logDie s d ty src b).doms = s.doms := by unfold logDie; split <;> simp
@[simp] theorem logDie_spindle (d : Die) (ty src : Nat) (b : Bytes) : (logDie s d ty src b).spindle = s.spindle := by unfold logDie; split <;> simp
@[simp] theorem logDie_pads (d : Die) (ty src : Nat) (b : Bytes) : (logDie s d ty src b).pads = s.pads := by unfold logDie; split <;> simp

/-! ### record -/

@[simp] theorem record_pending (d : Die) (ty src : Nat) (b : Bytes) : (record s d ty src b).pending = s.pending := by unfold record; split <;> simp
@[simp] theorem record_free (d : Die) (ty src : Nat) (b : Bytes) : (record s d ty src b).free = s.free := by unfold record; split <;> simp
@[simp] theorem record_ply (d : Die) (ty src : Nat) (b : Bytes) : (record s d ty src b).ply = s.ply := by unfold record; split <;> simp
@[simp] theorem record_flyer (d : Die) (ty src : Nat) (b : Bytes) : (record s d ty src b).flyer = s.flyer := by unfold record; split <;> simp
@[simp] theorem record_keeper (d : Die) (ty src : Nat) (b : Bytes) : (record s d ty src b).keeper = s.keeper := by unfold record; split <;> simp
@[simp] theorem record_tag (d : Die) (ty src : Nat) (b : Bytes) : (record s d ty src b).tag = s.tag := by unfold record; split <;> simp
@[simp] theorem record_doms (d : Die) (ty src : Nat) (b : Bytes) : (record s d ty src b).doms = s.doms := by unfold record; split <;> simp
@[simp] theorem record_spindle (d : Die) (ty src : Nat) (b : Bytes) : (record s d ty src b).spindle = s.spindle := by unfold record; split <;> simp
@[simp] theorem record_pads (d : Die) (ty src : Nat) (b : Bytes) : (record s d ty src b).pads = s.pads := by unfold record; split <;> simp

/-! ### setDomState -/

@[simp] theorem setDomState_pending (d : Domain) (c : Nat) : (setDomState s d c).pending = s.pending := rfl
@[simp] theorem setDomState_free (d : Domain) (c : Nat) : (setDomState s d c).free = s.free := rfl
@[simp] theorem setDomState_sb (d : Domain) (c : Nat) : (setDomState s d c).sb = s.sb := rfl
@[simp] theorem setDomState_ply (d : Domain) (c : Nat) : (setDomState s d c).ply = s.ply := rfl
@[simp] theorem setDomState_flyer (d : Domain) (c : Nat) : (setDomState s d c).flyer = s.flyer := rfl
@[simp] theorem setDomState_keeper (d : Domain) (c : Nat) : (setDomState s d c).keeper = s.keeper := rfl
@[simp] theorem setDomState_log (d : Domain) (c : Nat) : (setDomState s d c).log = s.log := rfl
@[simp] theorem setDomState_tag (d : Domain) (c : Nat) : (setDomState s d c).tag = s.tag := rfl
@[simp] theorem setDomState_doms (d : Domain) (c : Nat) : (setDomState s d c).doms = s.doms := rfl
@[simp] theorem setDomState_spindle (d : Domain) (c : Nat) : (setDomState s d c).spindle = s.spindle := rfl
@[simp] theorem setDomState_pads (d : Domain) (c : Nat) : (setDomState s d c).pads = s.pads := rfl

/-! ### onFlyDom -/

@[simp] theorem onFlyDom_pending (d : Domain) (f : FlyDom → FlyDom) : (onFlyDom s d f).pending = s.pending := rfl
@[simp] theorem onFlyDom_free (d : Domain) (f : FlyDom → FlyDom) : (onFlyDom s d f).free = s.free := rfl
@[simp] theorem onFlyDom_ent (d : Domain) (f : FlyDom → FlyDom) : (onFlyDom s d f).ent = s.ent := rfl
@[simp] theorem onFlyDom_sb (d : Domain) (f : FlyDom → FlyDom) : (onFlyDom s d f).sb = s.sb := rfl
@[simp] theorem onFlyDom_ply (d : Domain) (f : FlyDom → FlyDom) : (onFlyDom s d f).ply = s.ply := rfl
@[simp] theorem onFlyDom_keeper (d : Domain) (f : FlyDom → FlyDom) : (onFlyDom s d f).keeper = s.keeper := rfl
@[simp] theorem onFlyDom_log (d : Domain) (f : FlyDom → FlyDom) : (onFlyDom s d f).log = s.log := rfl
@[simp] theorem onFlyDom_tag (d : Domain) (f : FlyDom → FlyDom) : (onFlyDom s d f).tag = s.tag := rfl
@[simp] theorem onFlyDom_doms (d : Domain) (f : FlyDom → FlyDom) : (onFlyDom s d f).doms = s.doms := rfl
@[simp] theorem onFlyDom_spindle (d : Domain) (f : FlyDom → FlyDom) : (onFlyDom s d f).spindle = s.spindle := rfl
@[simp] theorem onFlyDom_pads (d : Domain) (f : FlyDom → FlyDom) : (onFlyDom s d f).pads = s.pads := rfl

/-! ### setDomNow -/

@[simp] theorem setDomNow_pending (d : Domain) (c : Nat) : (setDomNow s d c).pending = s.pending := by unfold setDomNow; split <;> simp
@[simp] theorem setDomNow_free (d : Domain) (c : Nat) : (setDomNow s d c).free = s.free := by unfold setDomNow; split <;> simp
@[simp] theorem setDomNow_sb (d : Domain) (c : Nat) : (setDomNow s d c).sb = s.sb := by unfold setDomNow; split <;> simp
@[simp] theorem setDomNow_ply (d : Domain) (c : Nat) : (setDomNow s d c).ply = s.ply := by unfold setDomNow; split <;> simp
@[simp] theorem setDomNow_keeper (d : Domain) (c : Nat) : (setDomNow s d c).keeper = s.keeper := by unfold setDomNow; split <;> simp
@[simp] theorem setDomNow_log (d : Domain) (c : Nat) : (setDomNow s d c).log = s.log := by unfold setDomNow; split <;> simp
@[simp] theorem setDomNow_tag (d : Domain) (c : Nat) : (setDomNow s d c).tag = s.tag := by unfold setDomNow; split <;> simp
@[simp] theorem setDomNow_doms (d : Domain) (c : Nat) : (setDomNow s d c).doms = s.doms := by unfold setDomNow; split <;> simp
@[simp] theorem setDomNow_spindle (d : Domain) (c : Nat) : (setDomNow s d c).spindle = s.spindle := by unfold setDomNow; split <;> simp
@[simp] theorem setDomNow_pads (d : Domain) (c : Nat) : (setDomNow s d c).pads = s.pads := by unfold setDomNow; split <;> simp

/-! ### refuse -/

@[simp] theorem refuse_pending (d : Domain) (w t : Nat) : (refuse s d w t).pending = s.pending := by simp [refuse]
@[simp] theorem refuse_free (d : Domain) (w t : Nat) : (refuse s d w t).free = s.free := by simp [refuse]
@[simp] theorem refuse_sb (d : Domain) (w t : Nat) : (refuse s d w t).sb = s.sb := by simp [refuse]
@[simp] theorem refuse_ply (d : Domain) (w t : Nat) : (refuse s d w t).ply = s.ply := by simp [refuse]
@[simp] theorem refuse_flyer (d : Domain) (w t : Nat) : (refuse s d w t).flyer = s.flyer := by simp [refuse]
@[simp] theorem refuse_log (d : Domain) (w t : Nat) : (refuse s d w t).log = s.log := by simp [refuse]
@[simp] theorem refuse_tag (d : Domain) (w t : Nat) : (refuse s d w t).tag = s.tag := by simp [refuse]
@[simp] theorem refuse_doms (d : Domain) (w t : Nat) : (refuse s d w t).doms = s.doms := by simp [refuse]
@[simp] theorem refuse_pads (d : Domain) (w t : Nat) : (refuse s d w t).pads = s.pads := by simp [refuse]

/-! ### sendTime -/

@[simp] theorem sendTime_pending : (sendTime s).pending = s.pending := by simp [sendTime]
@[simp] theorem sendTime_free : (sendTime s).free = s.free := by simp [sendTime]
@[simp] theorem sendTime_ply : (sendTime s).ply = s.ply := by simp [sendTime]
@[simp] theorem sendTime_flyer : (sendTime s).flyer = s.flyer := by simp [sendTime]
@[simp] theorem sendTime_keeper : (sendTime s).keeper = s.keeper := by simp [sendTime]
@[simp] theorem sendTime_log : (sendTime s).log = s.log := by simp [sendTime]
@[simp] theorem sendTime_tag : (sendTime s).tag = s.tag := by simp [sendTime]
@[simp] theorem sendTime_doms : (sendTime s).doms = s.doms := by simp [sendTime]
@[simp] theorem sendTime_spindle : (sendTime s).spindle = s.spindle := by simp [sendTime]
@[simp] theorem sendTime_pads : (sendTime s).pads = s.pads := by simp [sendTime]

/-! ### sendDomain -/

@[simp] theorem sendDomain_pending (d : Domain) (r : Nat) : (sendDomain s d r).pending = s.pending := by simp [sendDomain]
@[simp] theorem sendDomain_free (d : Domain) (r : Nat) : (sendDomain s d r).free = s.free := by simp [sendDomain]
@[simp] theorem sendDomain_ply (d : Domain) (r : Nat) : (sendDomain s d r).ply = s.ply := by simp [sendDomain]
@[simp] theorem sendDomain_flyer (d : Domain) (r : Nat) : (sendDomain s d r).flyer = s.flyer := by simp [sendDomain]
@[simp] theorem sendDomain_keeper (d : Domain) (r : Nat) : (sendDomain s d r).keeper = s.keeper := by simp [sendDomain]
@[simp] theorem sendDomain_log (d : Domain) (r : Nat) : (sendDomain s d r).log = s.log := by simp [sendDomain]
@[simp] theorem sendDomain_tag (d : Domain) (r : Nat) : (sendDomain s d r).tag = s.tag := by simp [sendDomain]
@[simp] theorem sendDomain_spindle (d : Domain) (r : Nat) : (sendDomain s d r).spindle = s.spindle := by simp [sendDomain]
@[simp] theorem sendDomain_pads (d : Domain) (r : Nat) : (sendDomain s d r).pads = s.pads := by simp [sendDomain]

/-! ### turnOn -/

@[simp] theorem turnOn_pending (d : Domain) : (turnOn s d).pending = s.pending := by unfold turnOn; split <;> simp
@[simp] theorem turnOn_free (d : Domain) : (turnOn s d).free = s.free := by unfold turnOn; split <;> simp
@[simp] theorem turnOn_sb (d : Domain) : (turnOn s d).sb = s.sb := by unfold turnOn; split <;> simp
@[simp] theorem turnOn_ply (d : Domain) : (turnOn s d).ply = s.ply := by unfold turnOn; split <;> simp
@[simp] theorem turnOn_keeper (d : Domain) : (turnOn s d).keeper = s.keeper := by unfold turnOn; split <;> simp
@[simp] theorem turnOn_log (d : Domain) : (turnOn s d).log = s.log := by unfold turnOn; split <;> simp
@[simp] theorem turnOn_tag (d : Domain) : (turnOn s d).tag = s.tag := by unfold turnOn; split <;> simp
@[simp] theorem turnOn_doms (d : Domain) : (turnOn s d).doms = s.doms := by unfold turnOn; split <;> simp
@[simp] theorem turnOn_spindle (d : Domain) : (turnOn s d).spindle = s.spindle := by unfold turnOn; split <;> simp
@[simp] theorem turnOn_pads (d : Domain) : (turnOn s d).pads = s.pads := by unfold turnOn; split <;> simp

/-! ### beginExit -/

@[simp] theorem beginExit_pending (d : Domain) (src : Option Nat) : (beginExit s d src).pending = s.pending := by unfold beginExit; (repeat' split) <;> simp
@[simp] theorem beginExit_free (d : Domain) (src : Option Nat) : (beginExit s d src).free = s.free := by unfold beginExit; (repeat' split) <;> simp
@[simp] theorem beginExit_ply (d : Domain) (src : Option Nat) : (beginExit s d src).ply = s.ply := by unfold beginExit; (repeat' split) <;> simp
@[simp] theorem beginExit_keeper (d : Domain) (src : Option Nat) : (beginExit s d src).keeper = s.keeper := by unfold beginExit; (repeat' split) <;> simp
@[simp] theorem beginExit_log (d : Domain) (src : Option Nat) : (beginExit s d src).log = s.log := by unfold beginExit; (repeat' split) <;> simp
@[simp] theorem beginExit_tag (d : Domain) (src : Option Nat) : (beginExit s d src).tag = s.tag := by unfold beginExit; (repeat' split) <;> simp
@[simp] theorem beginExit_doms (d : Domain) (src : Option Nat) : (beginExit s d src).doms = s.doms := by unfold beginExit; (repeat' split) <;> simp
@[simp] theorem beginExit_pads (d : Domain) (src : Option Nat) : (beginExit s d src).pads = s.pads := by unfold beginExit; (repeat' split) <;> simp

/-! ### raiseDomain -/

@[simp] theorem raiseDomain_pending (src : Option Nat) (o d : Domain) : (raiseDomain s src o d).pending = s.pending := by unfold raiseDomain; cases d <;> split <;> simp
@[simp] theorem raiseDomain_free (src : Option Nat) (o d : Domain) : (raiseDomain s src o d).free = s.free := by unfold raiseDomain; cases d <;> split <;> simp
@[simp] theorem raiseDomain_ply (src : Option Nat) (o d : Domain) : (raiseDomain s src o d).ply = s.ply := by unfold raiseDomain; cases d <;> split <;> simp
@[simp] theorem raiseDomain_log (src : Option Nat) (o d : Domain) : (raiseDomain s src o d).log = s.log := by unfold raiseDomain; cases d <;> split <;> simp
@[simp] theorem raiseDomain_tag (src : Option Nat) (o d : Domain) : (raiseDomain s src o d).tag = s.tag := by unfold raiseDomain; cases d <;> split <;> simp
@[simp] theorem raiseDomain_pads (src : Option Nat) (o d : Domain) : (raiseDomain s src o d).pads = s.pads := by unfold raiseDomain; cases d <;> split <;> simp

/-! ### demand -/

@[simp] theorem demand_pending (d : Domain) : (demand s d).pending = s.pending := by simp [demand]
@[simp] theorem demand_free (d : Domain) : (demand s d).free = s.free := by simp [demand]
@[simp] theorem demand_ply (d : Domain) : (demand s d).ply = s.ply := by simp [demand]
@[simp] theorem demand_log (d : Domain) : (demand s d).log = s.log := by simp [demand]
@[simp] theorem demand_tag (d : Domain) : (demand s d).tag = s.tag := by simp [demand]
@[simp] theorem demand_pads (d : Domain) : (demand s d).pads = s.pads := by simp [demand]

/-! ### rise -/

@[simp] theorem rise_pending (d : Domain) : (rise s d).pending = s.pending := by simp [rise]
@[simp] theorem rise_free (d : Domain) : (rise s d).free = s.free := by simp [rise]
@[simp] theorem rise_ply (d : Domain) : (rise s d).ply = s.ply := by simp [rise]
@[simp] theorem rise_log (d : Domain) : (rise s d).log = s.log := by simp [rise]
@[simp] theorem rise_tag (d : Domain) : (rise s d).tag = s.tag := by simp [rise]
@[simp] theorem rise_pads (d : Domain) : (rise s d).pads = s.pads := by simp [rise]

/-! ### unlogged -/

@[simp] theorem unlogged_pending (r : LogRec) : (unlogged s r).pending = s.pending := by unfold unlogged; split <;> simp
@[simp] theorem unlogged_free (r : LogRec) : (unlogged s r).free = s.free := by unfold unlogged; split <;> simp
@[simp] theorem unlogged_ent (r : LogRec) : (unlogged s r).ent = s.ent := by unfold unlogged; split <;> simp
@[simp] theorem unlogged_sb (r : LogRec) : (unlogged s r).sb = s.sb := by unfold unlogged; split <;> simp
@[simp] theorem unlogged_ply (r : LogRec) : (unlogged s r).ply = s.ply := by unfold unlogged; split <;> simp
@[simp] theorem unlogged_flyer (r : LogRec) : (unlogged s r).flyer = s.flyer := by unfold unlogged; split <;> simp
@[simp] theorem unlogged_keeper (r : LogRec) : (unlogged s r).keeper = s.keeper := by unfold unlogged; split <;> simp
@[simp] theorem unlogged_tag (r : LogRec) : (unlogged s r).tag = s.tag := by unfold unlogged; split <;> simp
@[simp] theorem unlogged_doms (r : LogRec) : (unlogged s r).doms = s.doms := by unfold unlogged; split <;> simp
@[simp] theorem unlogged_spindle (r : LogRec) : (unlogged s r).spindle = s.spindle := by unfold unlogged; split <;> simp
@[simp] theorem unlogged_pads (r : LogRec) : (unlogged s r).pads = s.pads := by unfold unlogged; split <;> simp

/-! ### setResponses -/

@[simp] theorem setResponses_pending (u : User) (l : List Response) : (setResponses s u l).pending = s.pending := by simp [setResponses]
@[simp] theorem setResponses_free (u : User) (l : List Response) : (setResponses s u l).free = s.free := by simp [setResponses]
@[simp] theorem setResponses_sb (u : User) (l : List Response) : (setResponses s u l).sb = s.sb := by simp [setResponses]
@[simp] theorem setResponses_ply (u : User) (l : List Response) : (setResponses s u l).ply = s.ply := by simp [setResponses]
@[simp] theorem setResponses_flyer (u : User) (l : List Response) : (setResponses s u l).flyer = s.flyer := by simp [setResponses]
@[simp] theorem setResponses_keeper (u : User) (l : List Response) : (setResponses s u l).keeper = s.keeper := by simp [setResponses]
@[simp] theorem setResponses_log (u : User) (l : List Response) : (setResponses s u l).log = s.log := by simp [setResponses]
@[simp] theorem setResponses_tag (u : User) (l : List Response) : (setResponses s u l).tag = s.tag := by simp [setResponses]
@[simp] theorem setResponses_doms (u : User) (l : List Response) : (setResponses s u l).doms = s.doms := by simp [setResponses]
@[simp] theorem setResponses_pads (u : User) (l : List Response) : (setResponses s u l).pads = s.pads := by simp [setResponses]

/-! ### countDenied -/

@[simp] theorem countDenied_pending (q : Request) : (countDenied s q).pending = s.pending := rfl
@[simp] theorem countDenied_free (q : Request) : (countDenied s q).free = s.free := rfl
@[simp] theorem countDenied_sb (q : Request) : (countDenied s q).sb = s.sb := rfl
@[simp] theorem countDenied_ply (q : Request) : (countDenied s q).ply = s.ply := rfl
@[simp] theorem countDenied_flyer (q : Request) : (countDenied s q).flyer = s.flyer := rfl
@[simp] theorem countDenied_keeper (q : Request) : (countDenied s q).keeper = s.keeper := rfl
@[simp] theorem countDenied_log (q : Request) : (countDenied s q).log = s.log := rfl
@[simp] theorem countDenied_tag (q : Request) : (countDenied s q).tag = s.tag := rfl
@[simp] theorem countDenied_doms (q : Request) : (countDenied s q).doms = s.doms := rfl
@[simp] theorem countDenied_spindle (q : Request) : (countDenied s q).spindle = s.spindle := rfl
@[simp] theorem countDenied_pads (q : Request) : (countDenied s q).pads = s.pads := rfl

/-! ### noteStatus -/

@[simp] theorem noteStatus_pending (q : Request) (c : Nat) : (noteStatus s q c).pending = s.pending := by unfold noteStatus; split_ifs <;> simp
@[simp] theorem noteStatus_free (q : Request) (c : Nat) : (noteStatus s q c).free = s.free := by unfold noteStatus; split_ifs <;> simp
@[simp] theorem noteStatus_sb (q : Request) (c : Nat) : (noteStatus s q c).sb = s.sb := by unfold noteStatus; split_ifs <;> simp
@[simp] theorem noteStatus_ply (q : Request) (c : Nat) : (noteStatus s q c).ply = s.ply := by unfold noteStatus; split_ifs <;> simp
@[simp] theorem noteStatus_flyer (q : Request) (c : Nat) : (noteStatus s q c).flyer = s.flyer := by unfold noteStatus; split_ifs <;> simp
@[simp] theorem noteStatus_keeper (q : Request) (c : Nat) : (noteStatus s q c).keeper = s.keeper := by unfold noteStatus; split_ifs <;> simp
@[simp] theorem noteStatus_log (q : Request) (c : Nat) : (noteStatus s q c).log = s.log := by unfold noteStatus; split_ifs <;> simp
@[simp] theorem noteStatus_tag (q : Request) (c : Nat) : (noteStatus s q c).tag = s.tag := by unfold noteStatus; split_ifs <;> simp
@[simp] theorem noteStatus_doms (q : Request) (c : Nat) : (noteStatus s q c).doms = s.doms := by unfold noteStatus; split_ifs <;> simp
@[simp] theorem noteStatus_spindle (q : Request) (c : Nat) : (noteStatus s q c).spindle = s.spindle := by unfold noteStatus; split_ifs <;> simp
@[simp] theorem noteStatus_pads (q : Request) (c : Nat) : (noteStatus s q c).pads = s.pads := by unfold noteStatus; split_ifs <;> simp

/-! ### servedLast -/

@[simp] theorem servedLast_pending (u : User) : (servedLast s u).pending = s.pending := rfl
@[simp] theorem servedLast_free (u : User) : (servedLast s u).free = s.free := rfl
@[simp] theorem servedLast_ent (u : User) : (servedLast s u).ent = s.ent := rfl
@[simp] theorem servedLast_sb (u : User) : (servedLast s u).sb = s.sb := rfl
@[simp] theorem servedLast_ply (u : User) : (servedLast s u).ply = s.ply := rfl
@[simp] theorem servedLast_flyer (u : User) : (servedLast s u).flyer = s.flyer := rfl
@[simp] theorem servedLast_keeper (u : User) : (servedLast s u).keeper = s.keeper := rfl
@[simp] theorem servedLast_log (u : User) : (servedLast s u).log = s.log := rfl
@[simp] theorem servedLast_tag (u : User) : (servedLast s u).tag = s.tag := rfl
@[simp] theorem servedLast_doms (u : User) : (servedLast s u).doms = s.doms := rfl
@[simp] theorem servedLast_pads (u : User) : (servedLast s u).pads = s.pads := rfl

/-! ### answer -/

@[simp] theorem answer_pending (q : Request) (c : Nat) (v : Bytes) : (answer s q c v).pending = s.pending := by unfold answer; split_ifs <;> simp
@[simp] theorem answer_free (q : Request) (c : Nat) (v : Bytes) : (answer s q c v).free = s.free := by unfold answer; split_ifs <;> simp
@[simp] theorem answer_sb (q : Request) (c : Nat) (v : Bytes) : (answer s q c v).sb = s.sb := by unfold answer; split_ifs <;> simp
@[simp] theorem answer_ply (q : Request) (c : Nat) (v : Bytes) : (answer s q c v).ply = s.ply := by unfold answer; split_ifs <;> simp
@[simp] theorem answer_flyer (q : Request) (c : Nat) (v : Bytes) : (answer s q c v).flyer = s.flyer := by unfold answer; split_ifs <;> simp
@[simp] theorem answer_keeper (q : Request) (c : Nat) (v : Bytes) : (answer s q c v).keeper = s.keeper := by unfold answer; split_ifs <;> simp
@[simp] theorem answer_log (q : Request) (c : Nat) (v : Bytes) : (answer s q c v).log = s.log := by unfold answer; split_ifs <;> simp
@[simp] theorem answer_tag (q : Request) (c : Nat) (v : Bytes) : (answer s q c v).tag = s.tag := by unfold answer; split_ifs <;> simp
@[simp] theorem answer_doms (q : Request) (c : Nat) (v : Bytes) : (answer s q c v).doms = s.doms := by unfold answer; split_ifs <;> simp
@[simp] theorem answer_pads (q : Request) (c : Nat) (v : Bytes) : (answer s q c v).pads = s.pads := by unfold answer; split_ifs <;> simp

/-! ### respond -/

@[simp] theorem respond_pending (q : Request) (c : Nat) (v : Bytes) : (respond s q c v).pending = s.pending := by simp [respond]
@[simp] theorem respond_free (q : Request) (c : Nat) (v : Bytes) : (respond s q c v).free = s.free := by simp [respond]
@[simp] theorem respond_sb (q : Request) (c : Nat) (v : Bytes) : (respond s q c v).sb = s.sb := by simp [respond]
@[simp] theorem respond_ply (q : Request) (c : Nat) (v : Bytes) : (respond s q c v).ply = s.ply := by simp [respond]
@[simp] theorem respond_flyer (q : Request) (c : Nat) (v : Bytes) : (respond s q c v).flyer = s.flyer := by simp [respond]
@[simp] theorem respond_keeper (q : Request) (c : Nat) (v : Bytes) : (respond s q c v).keeper = s.keeper := by simp [respond]
@[simp] theorem respond_log (q : Request) (c : Nat) (v : Bytes) : (respond s q c v).log = s.log := by simp [respond]
@[simp] theorem respond_tag (q : Request) (c : Nat) (v : Bytes) : (respond s q c v).tag = s.tag := by simp [respond]
@[simp] theorem respond_doms (q : Request) (c : Nat) (v : Bytes) : (respond s q c v).doms = s.doms := by simp [respond]
@[simp] theorem respond_pads (q : Request) (c : Nat) (v : Bytes) : (respond s q c v).pads = s.pads := by simp [respond]

/-! ### claimPlace -/

@[simp] theorem claimPlace_pending (q : Request) : (claimPlace s q).pending = s.pending := by unfold claimPlace; simp only; split <;> simp
@[simp] theorem claimPlace_free (q : Request) : (claimPlace s q).free = s.free := by unfold claimPlace; simp only; split <;> simp
@[simp] theorem claimPlace_sb (q : Request) : (claimPlace s q).sb = s.sb := by unfold claimPlace; simp only; split <;> simp
@[simp] theorem claimPlace_ply (q : Request) : (claimPlace s q).ply = s.ply := by unfold claimPlace; simp only; split <;> simp
@[simp] theorem claimPlace_flyer (q : Request) : (claimPlace s q).flyer = s.flyer := by unfold claimPlace; simp only; split <;> simp
@[simp] theorem claimPlace_keeper (q : Request) : (claimPlace s q).keeper = s.keeper := by unfold claimPlace; simp only; split <;> simp
@[simp] theorem claimPlace_log (q : Request) : (claimPlace s q).log = s.log := by unfold claimPlace; simp only; split <;> simp
@[simp] theorem claimPlace_tag (q : Request) : (claimPlace s q).tag = s.tag := by unfold claimPlace; simp only; split <;> simp
@[simp] theorem claimPlace_doms (q : Request) : (claimPlace s q).doms = s.doms := by unfold claimPlace; simp only; split <;> simp
@[simp] theorem claimPlace_pads (q : Request) : (claimPlace s q).pads = s.pads := by unfold claimPlace; simp only; split <;> simp

/-! ### respondJob -/

@[simp] theorem respondJob_pending (q : Request) (c : Nat) (v : Bytes) : (respondJob s q c v).pending = s.pending := by unfold respondJob; simp only; split_ifs <;> simp
@[simp] theorem respondJob_free (q : Request) (c : Nat) (v : Bytes) : (respondJob s q c v).free = s.free := by unfold respondJob; simp only; split_ifs <;> simp
@[simp] theorem respondJob_sb (q : Request) (c : Nat) (v : Bytes) : (respondJob s q c v).sb = s.sb := by unfold respondJob; simp only; split_ifs <;> simp
@[simp] theorem respondJob_ply (q : Request) (c : Nat) (v : Bytes) : (respondJob s q c v).ply = s.ply := by unfold respondJob; simp only; split_ifs <;> simp
@[simp] theorem respondJob_flyer (q : Request) (c : Nat) (v : Bytes) : (respondJob s q c v).flyer = s.flyer := by unfold respondJob; simp only; split_ifs <;> simp
@[simp] theorem respondJob_keeper (q : Request) (c : Nat) (v : Bytes) : (respondJob s q c v).keeper = s.keeper := by unfold respondJob; simp only; split_ifs <;> simp
@[simp] theorem respondJob_log (q : Request) (c : Nat) (v : Bytes) : (respondJob s q c v).log = s.log := by unfold respondJob; simp only; split_ifs <;> simp
@[simp] theorem respondJob_tag (q : Request) (c : Nat) (v : Bytes) : (respondJob s q c v).tag = s.tag := by unfold respondJob; simp only; split_ifs <;> simp
@[simp] theorem respondJob_doms (q : Request) (c : Nat) (v : Bytes) : (respondJob s q c v).doms = s.doms := by unfold respondJob; simp only; split_ifs <;> simp
@[simp] theorem respondJob_pads (q : Request) (c : Nat) (v : Bytes) : (respondJob s q c v).pads = s.pads := by unfold respondJob; simp only; split_ifs <;> simp

/-- A fold of steps that each leave a part of the state alone leaves it alone. -/
theorem foldl_same {α β : Type} {g : State → β} {f : State → α → State} (l : List α) (h : ∀ s x, g (f s x) = g s) : g (l.foldl f s) = g s := by
  induction l generalizing s with
  | nil => rfl
  | cons x l ih => exact (ih _).trans (h s x)

/-! ### endJobs -/

@[simp] theorem endJobs_pending (u : User) (c : Nat) : (endJobs s u c).pending = s.pending := foldl_same s _ (g := State.pending) fun _ _ => by simp
@[simp] theorem endJobs_free (u : User) (c : Nat) : (endJobs s u c).free = s.free := foldl_same s _ (g := State.free) fun _ _ => by simp
@[simp] theorem endJobs_sb (u : User) (c : Nat) : (endJobs s u c).sb = s.sb := foldl_same s _ (g := State.sb) fun _ _ => by simp
@[simp] theorem endJobs_ply (u : User) (c : Nat) : (endJobs s u c).ply = s.ply := foldl_same s _ (g := State.ply) fun _ _ => by simp
@[simp] theorem endJobs_flyer (u : User) (c : Nat) : (endJobs s u c).flyer = s.flyer := foldl_same s _ (g := State.flyer) fun _ _ => by simp
@[simp] theorem endJobs_keeper (u : User) (c : Nat) : (endJobs s u c).keeper = s.keeper := foldl_same s _ (g := State.keeper) fun _ _ => by simp
@[simp] theorem endJobs_log (u : User) (c : Nat) : (endJobs s u c).log = s.log := foldl_same s _ (g := State.log) fun _ _ => by simp
@[simp] theorem endJobs_tag (u : User) (c : Nat) : (endJobs s u c).tag = s.tag := foldl_same s _ (g := State.tag) fun _ _ => by simp
@[simp] theorem endJobs_doms (u : User) (c : Nat) : (endJobs s u c).doms = s.doms := foldl_same s _ (g := State.doms) fun _ _ => by simp
@[simp] theorem endJobs_pads (u : User) (c : Nat) : (endJobs s u c).pads = s.pads := foldl_same s _ (g := State.pads) fun _ _ => by simp

/-! ### clearPage -/

@[simp] theorem clearPage_pending (u : User) : (clearPage s u).pending = s.pending := by simp [clearPage]
@[simp] theorem clearPage_free (u : User) : (clearPage s u).free = s.free := by simp [clearPage]
@[simp] theorem clearPage_sb (u : User) : (clearPage s u).sb = s.sb := by simp [clearPage]
@[simp] theorem clearPage_ply (u : User) : (clearPage s u).ply = s.ply := by simp [clearPage]
@[simp] theorem clearPage_flyer (u : User) : (clearPage s u).flyer = s.flyer := by simp [clearPage]
@[simp] theorem clearPage_keeper (u : User) : (clearPage s u).keeper = s.keeper := by simp [clearPage]
@[simp] theorem clearPage_log (u : User) : (clearPage s u).log = s.log := by simp [clearPage]
@[simp] theorem clearPage_tag (u : User) : (clearPage s u).tag = s.tag := by simp [clearPage]
@[simp] theorem clearPage_doms (u : User) : (clearPage s u).doms = s.doms := by simp [clearPage]
@[simp] theorem clearPage_pads (u : User) : (clearPage s u).pads = s.pads := by simp [clearPage]

/-! ### endAuth -/

@[simp] theorem endAuth_pending : (endAuth s).pending = s.pending := by simp [endAuth]
@[simp] theorem endAuth_free : (endAuth s).free = s.free := by simp [endAuth]
@[simp] theorem endAuth_sb : (endAuth s).sb = s.sb := by simp [endAuth]
@[simp] theorem endAuth_ply : (endAuth s).ply = s.ply := by simp [endAuth]
@[simp] theorem endAuth_flyer : (endAuth s).flyer = s.flyer := by simp [endAuth]
@[simp] theorem endAuth_keeper : (endAuth s).keeper = s.keeper := by simp [endAuth]
@[simp] theorem endAuth_log : (endAuth s).log = s.log := by simp [endAuth]
@[simp] theorem endAuth_doms : (endAuth s).doms = s.doms := by simp [endAuth]
@[simp] theorem endAuth_pads : (endAuth s).pads = s.pads := by simp [endAuth]

/-! ### alertFlags -/

@[simp] theorem alertFlags_pending (ty inst kind : Nat) : (alertFlags s ty inst kind).pending = s.pending := by simp [alertFlags]
@[simp] theorem alertFlags_free (ty inst kind : Nat) : (alertFlags s ty inst kind).free = s.free := by simp [alertFlags]
@[simp] theorem alertFlags_sb (ty inst kind : Nat) : (alertFlags s ty inst kind).sb = s.sb := by simp [alertFlags]
@[simp] theorem alertFlags_ply (ty inst kind : Nat) : (alertFlags s ty inst kind).ply = s.ply := by simp [alertFlags]
@[simp] theorem alertFlags_flyer (ty inst kind : Nat) : (alertFlags s ty inst kind).flyer = s.flyer := by simp [alertFlags]
@[simp] theorem alertFlags_log (ty inst kind : Nat) : (alertFlags s ty inst kind).log = s.log := by simp [alertFlags]
@[simp] theorem alertFlags_tag (ty inst kind : Nat) : (alertFlags s ty inst kind).tag = s.tag := by simp [alertFlags]
@[simp] theorem alertFlags_doms (ty inst kind : Nat) : (alertFlags s ty inst kind).doms = s.doms := by simp [alertFlags]
@[simp] theorem alertFlags_pads (ty inst kind : Nat) : (alertFlags s ty inst kind).pads = s.pads := by simp [alertFlags]

/-! ### alertRecord -/

@[simp] theorem alertRecord_pending (d : Die) (ty src : Nat) (f : Nat → Bytes) : (alertRecord s d ty src f).pending = s.pending := by unfold alertRecord; simp only; split_ifs <;> simp
@[simp] theorem alertRecord_free (d : Die) (ty src : Nat) (f : Nat → Bytes) : (alertRecord s d ty src f).free = s.free := by unfold alertRecord; simp only; split_ifs <;> simp
@[simp] theorem alertRecord_ply (d : Die) (ty src : Nat) (f : Nat → Bytes) : (alertRecord s d ty src f).ply = s.ply := by unfold alertRecord; simp only; split_ifs <;> simp
@[simp] theorem alertRecord_flyer (d : Die) (ty src : Nat) (f : Nat → Bytes) : (alertRecord s d ty src f).flyer = s.flyer := by unfold alertRecord; simp only; split_ifs <;> simp
@[simp] theorem alertRecord_keeper (d : Die) (ty src : Nat) (f : Nat → Bytes) : (alertRecord s d ty src f).keeper = s.keeper := by unfold alertRecord; simp only; split_ifs <;> simp
@[simp] theorem alertRecord_tag (d : Die) (ty src : Nat) (f : Nat → Bytes) : (alertRecord s d ty src f).tag = s.tag := by unfold alertRecord; simp only; split_ifs <;> simp
@[simp] theorem alertRecord_doms (d : Die) (ty src : Nat) (f : Nat → Bytes) : (alertRecord s d ty src f).doms = s.doms := by unfold alertRecord; simp only; split_ifs <;> simp
@[simp] theorem alertRecord_spindle (d : Die) (ty src : Nat) (f : Nat → Bytes) : (alertRecord s d ty src f).spindle = s.spindle := by unfold alertRecord; simp only; split_ifs <;> simp
@[simp] theorem alertRecord_pads (d : Die) (ty src : Nat) (f : Nat → Bytes) : (alertRecord s d ty src f).pads = s.pads := by unfold alertRecord; simp only; split_ifs <;> simp

/-! ### monitorEnd -/

@[simp] theorem monitorEnd_pending (ty inst : Nat) : (monitorEnd s ty inst).pending = s.pending := rfl
@[simp] theorem monitorEnd_free (ty inst : Nat) : (monitorEnd s ty inst).free = s.free := rfl
@[simp] theorem monitorEnd_ent (ty inst : Nat) : (monitorEnd s ty inst).ent = s.ent := rfl
@[simp] theorem monitorEnd_sb (ty inst : Nat) : (monitorEnd s ty inst).sb = s.sb := rfl
@[simp] theorem monitorEnd_ply (ty inst : Nat) : (monitorEnd s ty inst).ply = s.ply := rfl
@[simp] theorem monitorEnd_flyer (ty inst : Nat) : (monitorEnd s ty inst).flyer = s.flyer := rfl
@[simp] theorem monitorEnd_keeper (ty inst : Nat) : (monitorEnd s ty inst).keeper = s.keeper := rfl
@[simp] theorem monitorEnd_tag (ty inst : Nat) : (monitorEnd s ty inst).tag = s.tag := rfl
@[simp] theorem monitorEnd_doms (ty inst : Nat) : (monitorEnd s ty inst).doms = s.doms := rfl
@[simp] theorem monitorEnd_spindle (ty inst : Nat) : (monitorEnd s ty inst).spindle = s.spindle := rfl
@[simp] theorem monitorEnd_pads (ty inst : Nat) : (monitorEnd s ty inst).pads = s.pads := rfl

/-! ### monitorAlert -/

@[simp] theorem monitorAlert_pending (d : Die) (ty inst kind src : Nat) (v t : Int) (z : Bool) : (monitorAlert s d ty inst kind src v t z).pending = s.pending := by unfold monitorAlert; split <;> simp
@[simp] theorem monitorAlert_free (d : Die) (ty inst kind src : Nat) (v t : Int) (z : Bool) : (monitorAlert s d ty inst kind src v t z).free = s.free := by unfold monitorAlert; split <;> simp
@[simp] theorem monitorAlert_ply (d : Die) (ty inst kind src : Nat) (v t : Int) (z : Bool) : (monitorAlert s d ty inst kind src v t z).ply = s.ply := by unfold monitorAlert; split <;> simp
@[simp] theorem monitorAlert_flyer (d : Die) (ty inst kind src : Nat) (v t : Int) (z : Bool) : (monitorAlert s d ty inst kind src v t z).flyer = s.flyer := by unfold monitorAlert; split <;> simp
@[simp] theorem monitorAlert_tag (d : Die) (ty inst kind src : Nat) (v t : Int) (z : Bool) : (monitorAlert s d ty inst kind src v t z).tag = s.tag := by unfold monitorAlert; split <;> simp
@[simp] theorem monitorAlert_doms (d : Die) (ty inst kind src : Nat) (v t : Int) (z : Bool) : (monitorAlert s d ty inst kind src v t z).doms = s.doms := by unfold monitorAlert; split <;> simp
@[simp] theorem monitorAlert_pads (d : Die) (ty inst kind src : Nat) (v t : Int) (z : Bool) : (monitorAlert s d ty inst kind src v t z).pads = s.pads := by unfold monitorAlert; split <;> simp

/-! ### sendMode -/

@[simp] theorem sendMode_pending : (sendMode s).pending = s.pending := by simp [sendMode]
@[simp] theorem sendMode_free : (sendMode s).free = s.free := by simp [sendMode]
@[simp] theorem sendMode_ply : (sendMode s).ply = s.ply := by simp [sendMode]
@[simp] theorem sendMode_flyer : (sendMode s).flyer = s.flyer := by simp [sendMode]
@[simp] theorem sendMode_keeper : (sendMode s).keeper = s.keeper := by simp [sendMode]
@[simp] theorem sendMode_log : (sendMode s).log = s.log := by simp [sendMode]
@[simp] theorem sendMode_tag : (sendMode s).tag = s.tag := by simp [sendMode]
@[simp] theorem sendMode_doms : (sendMode s).doms = s.doms := by simp [sendMode]
@[simp] theorem sendMode_spindle : (sendMode s).spindle = s.spindle := by simp [sendMode]
@[simp] theorem sendMode_pads : (sendMode s).pads = s.pads := by simp [sendMode]

/-! ### sendBackstop -/

@[simp] theorem sendBackstop_pending : (sendBackstop s).pending = s.pending := by simp [sendBackstop]
@[simp] theorem sendBackstop_free : (sendBackstop s).free = s.free := by simp [sendBackstop]
@[simp] theorem sendBackstop_ply : (sendBackstop s).ply = s.ply := by simp [sendBackstop]
@[simp] theorem sendBackstop_keeper : (sendBackstop s).keeper = s.keeper := by simp [sendBackstop]
@[simp] theorem sendBackstop_log : (sendBackstop s).log = s.log := by simp [sendBackstop]
@[simp] theorem sendBackstop_tag : (sendBackstop s).tag = s.tag := by simp [sendBackstop]
@[simp] theorem sendBackstop_doms : (sendBackstop s).doms = s.doms := by simp [sendBackstop]
@[simp] theorem sendBackstop_spindle : (sendBackstop s).spindle = s.spindle := by simp [sendBackstop]
@[simp] theorem sendBackstop_pads : (sendBackstop s).pads = s.pads := by simp [sendBackstop]

/-! ### backstopReport -/

@[simp] theorem backstopReport_pending : (backstopReport s).pending = s.pending := by unfold backstopReport; split <;> simp
@[simp] theorem backstopReport_free : (backstopReport s).free = s.free := by unfold backstopReport; split <;> simp
@[simp] theorem backstopReport_ply : (backstopReport s).ply = s.ply := by unfold backstopReport; split <;> simp
@[simp] theorem backstopReport_keeper : (backstopReport s).keeper = s.keeper := by unfold backstopReport; split <;> simp
@[simp] theorem backstopReport_log : (backstopReport s).log = s.log := by unfold backstopReport; split <;> simp
@[simp] theorem backstopReport_tag : (backstopReport s).tag = s.tag := by unfold backstopReport; split <;> simp
@[simp] theorem backstopReport_doms : (backstopReport s).doms = s.doms := by unfold backstopReport; split <;> simp
@[simp] theorem backstopReport_spindle : (backstopReport s).spindle = s.spindle := by unfold backstopReport; split <;> simp
@[simp] theorem backstopReport_pads : (backstopReport s).pads = s.pads := by unfold backstopReport; split <;> simp

end Sys2Proof.Machine
end

