-- ==== Sys2Proof/Laws/Entries.lean ====
section
/-! SUPPORT. The entries that each shared operation leaves alone. -/
namespace Sys2Proof.Machine
variable (s : State) {e : Nat}

theorem State.bump_get_self (e : Nat) : (s.bump e).get e = min (s.get e + 1) (256 ^ entrySize e - 1) := State.get_put_self _ _ _
theorem State.bump_get {e'} (h : e ≠ e') : (s.bump e').get e = s.get e := State.get_put_ne _ h _
theorem State.bumpBy_get {e' n} (h : e ≠ e') : (s.bumpBy e' n).get e = s.get e := State.get_put_ne _ h _
theorem State.setBits_get {e' n} (h : e ≠ e') : (s.setBits e' n).get e = s.get e := State.get_put_ne _ h _
theorem State.putS_get {e' i} (h : e ≠ e') : (s.putS e' i).get e = s.get e := State.get_put_ne _ h _

theorem notePeak_get {q n} (h : e ≠ Ent.Q_PEAK q) : (notePeak s q n).get e = s.get e := by
  unfold notePeak; split
  · exact State.get_put_ne _ h _
  · rfl

theorem noteFull_get {q} (h : e ≠ Ent.Q_FULL q) : (noteFull s q).get e = s.get e := by
  unfold noteFull; split
  · exact State.bump_get _ h
  · rfl

theorem notePeakOf_get {d q n} (h : e ≠ Ent.Q_PEAK q) : (notePeakOf s d q n).get e = s.get e := by
  unfold notePeakOf; split
  · rfl
  · exact notePeak_get _ h

theorem onSbDie_get {d f} : (onSbDie s d f).get e = s.get e := by cases d <;> rfl

theorem sbQueue_get {d ty dst p} (h1 : e ≠ Ent.Q_PEAK 4) (h2 : e ≠ Ent.Q_FULL 4) : (sbQueue s d ty dst p).get e = s.get e := by
  unfold sbQueue; split
  · rw [notePeakOf_get _ h1, onSbDie_get]
  · exact noteFull_get _ h2

theorem noticed_get (t : State) : (noticed s t).get e = t.get e := by unfold noticed; split <;> rfl

theorem setNotices_get {m} (h : e ≠ Ent.NOTICE_PENDING) : (setNotices s m).get e = s.get e := by
  have : ∀ (l : List User) (s : State),
      (l.foldl (fun s u => s.putU Ent.NOTICE_PENDING u (s.getU Ent.NOTICE_PENDING u ||| m)) s).get e = s.get e := by
    intro l
    induction l with
    | nil => intros; rfl
    | cons u l ih => intro s; exact (ih _).trans (State.get_putU_ne _ h _ _)
  unfold setNotices
  rw [noticed_get]
  exact this users s

theorem raise_get {k} (h : e ≠ Ent.NOTICE_PENDING) : (raise s k).get e = s.get e := by
  unfold raise; split_ifs
  · exact setNotices_get _ h
  · rfl
  · rfl

theorem stSigned_get {ty} (h : e ≠ Ent.ST_STATE) : (stSigned s ty).get e = s.get e := by
  unfold stSigned; split
  · exact State.get_put_ne _ h _
  · rfl

theorem countSummary_get {ty b} (h : e / 256 ≠ 0x4106) (h' : e ≠ Ent.ST_STATE) : (countSummary s ty b).get e = s.get e := by
  have hc : recClass ty b < 6 := by unfold recClass; simp only; split_ifs <;> omega
  unfold countSummary; dsimp only; split
  · exact stSigned_get _ h'
  · rw [State.bump_get _ (by unfold Ent.LOG_SUMMARY; omega), stSigned_get _ h']

theorem logKeeper_get {ty src b} (h1 : e ≠ Ent.Q_PEAK 2) (h2 : e ≠ Ent.Q_FULL 2) (h3 : e / 256 ≠ 0x4106) (h4 : e ≠ Ent.ST_STATE) :
    (logKeeper s ty src b).get e = s.get e := by
  unfold logKeeper; split
  · exact notePeak_get _ h1
  · rw [countSummary_get _ h3 h4, noteFull_get _ h2]

theorem logDie_get {d ty src b} (h1 : e ≠ Ent.Q_PEAK 5) (h2 : e ≠ Ent.Q_FULL 5) (h3 : e ≠ Ent.SB_LOST) :
    (logDie s d ty src b).get e = s.get e := by
  unfold logDie; split
  · rw [notePeakOf_get _ h1, onSbDie_get]
  · rw [State.bump_get _ h3, noteFull_get _ h2]

/-! ## Responses -/

/-- Entries that a response may write (R58, R73, R191, R196). -/
def responseEntry (e : Nat) : Bool := [Ent.LAST_STATUS, Ent.LAST_DENIED, Ent.Q_PEAK 11].contains e || e / 256 == Ent.DENIED_COUNT 0 / 256

theorem setResponses_get {u l} (h : e ≠ Ent.Q_PEAK 11) : (setResponses s u l).get e = s.get e := notePeak_get _ h

theorem noteStatus_get {q c} (h : responseEntry e = false) : (noteStatus s q c).get e = s.get e := by
  have hu := userNum_lt q.user
  simp only [responseEntry, Bool.or_eq_false_iff, List.contains_eq_mem, List.mem_cons, List.not_mem_nil, or_false, decide_eq_false_iff_not, not_or,
    beq_eq_false_iff_ne, Ent.DENIED_COUNT] at h
  have hd : (if c = Sc.denied then countDenied s q else s).get e = s.get e := by
    split
    · unfold countDenied
      rw [State.get_put_ne _ h.1.2.1, State.bump_get _ (by unfold Ent.DENIED_COUNT; omega)]
    · rfl
  unfold noteStatus; dsimp only; split
  · exact hd
  · rw [State.get_putU_ne _ h.1.1, hd]

theorem answer_get {q c v} (h : e ≠ Ent.Q_PEAK 11) : (answer s q c v).get e = s.get e := by
  unfold answer; split_ifs
  · rfl
  · exact setResponses_get _ h
  · rfl

theorem responseEntry_peak (h : responseEntry e = false) : e ≠ Ent.Q_PEAK 11 := by rintro rfl; simp [responseEntry] at h

/-- A response writes no entry but those. -/
theorem respond_get {q c v} (h : responseEntry e = false) : (respond s q c v).get e = s.get e :=
  (answer_get _ (responseEntry_peak h)).trans (noteStatus_get _ h)

theorem respondJob_get {q c v} (h : responseEntry e = false) : (respondJob s q c v).get e = s.get e := by
  unfold respondJob; dsimp only; split_ifs
  · rfl
  · exact (answer_get _ (responseEntry_peak h)).trans (noteStatus_get _ h)
  · exact noteStatus_get _ h

/-! ## Pages -/

/-- Entries that a cleared page writes (R268). -/
def clearedEntries : List Nat := [Ent.KEY_STATE, Ent.KEY_CHECK, Ent.AES_IV, Ent.AES_OUT, Ent.AES_TAG]

theorem endJobs_get {u c} (h : responseEntry e = false) : (endJobs s u c).get e = s.get e :=
  foldl_same s _ (g := fun s => s.get e) fun _ _ => respondJob_get _ h

theorem foldl_putU_get (u : User) (l : List Nat) (h : e ∉ l) : (l.foldl (fun s e' => s.putU e' u 0) s).get e = s.get e := by
  induction l generalizing s with
  | nil => rfl
  | cons x l ih =>
    rw [List.mem_cons, not_or] at h
    exact (ih _ h.2).trans (State.get_putU_ne _ h.1 _ _)

theorem clearPage_get {u} (h : e ∉ clearedEntries) (hr : responseEntry e = false) : (clearPage s u).get e = s.get e := by
  unfold clearPage; dsimp only
  exact (foldl_putU_get _ _ clearedEntries h).trans (endJobs_get _ hr)

theorem endAuth_get (h : e ∉ clearedEntries) (hr : responseEntry e = false) : (endAuth s).get e = s.get e := by
  unfold endAuth
  rw [State.onTag_get, clearPage_get _ h hr]

/-! ## Domains and alerts -/

theorem setDomState_get {d c} (h : e ≠ Ent.DOMAIN_STATE (domId d)) : (setDomState s d c).get e = s.get e := State.get_put_ne _ h _

theorem refuse_get {d w t} (h1 : e ≠ Ent.REFUSALS (domId d)) (h2 : e ≠ Ent.LAST_REFUSER (domId d)) (h3 : e ≠ Ent.LAST_REFUSAL)
    (h4 : e ≠ Ent.NOTICE_PENDING) : (refuse s d w t).get e = s.get e := by
  unfold refuse; rw [raise_get _ h4, State.get_put_ne _ h3, State.get_put_ne _ h2, State.bump_get _ h1]

theorem alertFlags_get {ty inst kind} (h1 : e ≠ Ent.TAMPER_FLAGS) (h2 : e ≠ Ent.TAMPER_COUNT (ty - 0x40 + 1)) (h3 : e ≠ Ent.LAST_TAMPER)
    (h4 : e ≠ Ent.LAST_TAMPER_TIME) (h5 : e ≠ Ent.NOTICE_PENDING) : (alertFlags s ty inst kind).get e = s.get e := by
  unfold alertFlags
  rw [raise_get _ h5, State.get_put_ne _ h4, State.get_put_ne _ h3, State.bump_get _ h2, State.setBits_get _ h1]

/-! ## A message in a transmit queue -/

theorem sbDie_onSbDie (d : Die) (f : SbDie → SbDie) : sbDie (onSbDie s d f) d = f (sbDie s d) := by cases d <;> rfl

theorem sbDie_notePeakOf (d d' : Die) (q n : Nat) : sbDie (notePeakOf s d' q n) d = sbDie s d := by unfold sbDie; rw [notePeakOf_sb]

/-- A message placed where there is room is the last of its queue; everything else of the die's transmitter is as before. -/
theorem sbQueue_room {d ty dst p} (h : (sbDie s d).txq.length < 8) :
    sbDie (sbQueue s d ty dst p) d = { sbDie s d with txq := (sbDie s d).txq ++ [⟨ty, d, dst, p⟩] } := by
  unfold sbQueue; rw [if_pos h, sbDie_notePeakOf, sbDie_onSbDie]

end Sys2Proof.Machine
end

