-- ==== Sys2Proof/Laws/Keeps.lean ====
section
/-! SUPPORT. The properties of the state that every operation keeps: those that speak of the waiting commands, the entry store, the memories and the
core's transfer buffers alone, and that a store into these keeps. -/
namespace Sys2Proof.Machine

/-- A property that the operations keep. -/
class Stable (P : State → Prop) : Prop where
  same : ∀ s t : State, t.pending = s.pending → t.ent = s.ent → t.spindle.mem = s.spindle.mem → t.spindle.dict.xferM = s.spindle.dict.xferM →
    t.spindle.dict.xferU = s.spindle.dict.xferU → P s → P t
  set : ∀ (s : State) (k v : Nat), P s → P { s with ent := sparseSet (keyDefault k) k v s.ent }
  filter : ∀ (s : State) (p : Nat × Nat → Bool), P s → P { s with ent := s.ent.filter p }
  mem : ∀ (s : State) (m : Mem), (MemOk s.spindle.mem → MemOk m) → P s → P { s with spindle := { s.spindle with mem := m } }
  xfer : ∀ (s : State) (a b : Region), (s.spindle.dict.xferM.wf → a.wf) → (s.spindle.dict.xferU.wf → b.wf) → P s →
    P { s with spindle := { s.spindle with dict := { s.spindle.dict with xferM := a, xferU := b } } }

/-- The property holds of a state. -/
def Holds (P : State → Prop) (s : State) : Prop := P s

/-- A change of the spindle die leaves its memories and the transfer buffers alone. -/
def SameMem (a b : Spindle) : Prop := b.mem = a.mem ∧ b.dict.xferM = a.dict.xferM ∧ b.dict.xferU = a.dict.xferU

/-- A change of the dictionary engine leaves the transfer buffers alone. -/
def SameXfer (a b : Dict) : Prop := b.xferM = a.xferM ∧ b.xferU = a.xferU

theorem sameMem_mk {a b : Spindle} (h1 : b.mem = a.mem) (h2 : b.dict.xferM = a.dict.xferM) (h3 : b.dict.xferU = a.dict.xferU) : SameMem a b :=
  ⟨h1, h2, h3⟩

theorem sameXfer_mk {a b : Dict} (h1 : b.xferM = a.xferM) (h2 : b.xferU = a.xferU) : SameXfer a b := ⟨h1, h2⟩

variable {P : State → Prop} [Stable P] {s t : State}

theorem Holds.same (h : Holds P s) (h1 : t.pending = s.pending) (h2 : t.ent = s.ent) (h3 : SameMem s.spindle t.spindle) : Holds P t :=
  Stable.same (P := P) s t h1 h2 h3.1 h3.2.1 h3.2.2 h

theorem mk_keeps {fr sb ply fl k l tg d sp pads} (h : Holds P s) (h3 : SameMem s.spindle sp) :
    Holds P ⟨s.pending, fr, s.ent, sb, ply, fl, k, l, tg, d, sp, pads⟩ := h.same rfl rfl h3

theorem sameMem_rfl (a : Spindle) : SameMem a a := ⟨rfl, rfl, rfl⟩

theorem onKeeper_keeps {f : Keeper → Keeper} (h : Holds P s) : Holds P (s.onKeeper f) := mk_keeps h (sameMem_rfl _)
theorem onFlyer_keeps {f : Flyer → Flyer} (h : Holds P s) : Holds P (s.onFlyer f) := mk_keeps h (sameMem_rfl _)
theorem onLog_keeps {f : LogUnit → LogUnit} (h : Holds P s) : Holds P (s.onLog f) := mk_keeps h (sameMem_rfl _)
theorem onTag_keeps {f : Tag → Tag} (h : Holds P s) : Holds P (s.onTag f) := mk_keeps h (sameMem_rfl _)
theorem onPly_keeps {f : Ply → Ply} (h : Holds P s) : Holds P (s.onPly f) := mk_keeps h (sameMem_rfl _)
theorem onPads_keeps {f : Pads → Pads} (h : Holds P s) : Holds P (s.onPads f) := mk_keeps h (sameMem_rfl _)
theorem onSb_keeps {f : Sideband → Sideband} (h : Holds P s) : Holds P (s.onSb f) := mk_keeps h (sameMem_rfl _)
theorem onSpindle_keeps {f : Spindle → Spindle} (h : Holds P s) (hf : ∀ x, SameMem x (f x)) : Holds P (s.onSpindle f) := mk_keeps h (hf _)
theorem onSelfTest_keeps {f : SelfTest → SelfTest} (h : Holds P s) : Holds P (s.onSelfTest f) := mk_keeps h (sameMem_rfl _)
theorem onHorn_keeps {f : Horn → Horn} (h : Holds P s) : Holds P (s.onHorn f) := mk_keeps h (sameMem_rfl _)
theorem onSense_keeps {f : Sensing → Sensing} (h : Holds P s) : Holds P (s.onSense f) := mk_keeps h (sameMem_rfl _)
theorem onRes_keeps {f : Results → Results} (h : Holds P s) : Holds P (s.onRes f) := mk_keeps h (sameMem_rfl _)
theorem onBs_keeps {f : Backstop → Backstop} (h : Holds P s) : Holds P (s.onBs f) := mk_keeps h (sameMem_rfl _)
theorem onDict_keeps {f : Dict → Dict} (h : Holds P s) (hf : ∀ d, SameXfer d (f d)) : Holds P (s.onDict f) :=
  mk_keeps h ⟨rfl, (hf _).1, (hf _).2⟩
theorem onCore_keeps {f : Core → Core} (h : Holds P s) : Holds P (s.onCore f) := mk_keeps h ⟨rfl, rfl, rfl⟩
theorem onMem_keeps {f : Mem → Mem} (h : Holds P s) (hf : ∀ m, MemOk m → MemOk (f m)) : Holds P (s.onMem f) :=
  Stable.mem (P := P) s _ (hf _) h
theorem onLoader_keeps {f : Loader → Loader} (h : Holds P s) : Holds P (s.onLoader f) := mk_keeps h ⟨rfl, rfl, rfl⟩
theorem onBn_keeps {f : Bn → Bn} (h : Holds P s) : Holds P (s.onBn f) := mk_keeps h ⟨rfl, rfl, rfl⟩
theorem onRng_keeps {f : Rng → Rng} (h : Holds P s) : Holds P (s.onRng f) := mk_keeps h ⟨rfl, rfl, rfl⟩
theorem onCan_keeps {f : Can → Can} (h : Holds P s) : Holds P (s.onCan f) := mk_keeps h ⟨rfl, rfl, rfl⟩
theorem onPage_keeps {u : User} {f : Page → Page} (h : Holds P s) : Holds P (s.onPage u f) := mk_keeps h ⟨rfl, rfl, rfl⟩
theorem onSha_keeps {u : User} {f : ShaCtx → ShaCtx} (h : Holds P s) : Holds P (s.onSha u f) := mk_keeps h ⟨rfl, rfl, rfl⟩
theorem onBnUser_keeps {u : User} {f : BnUser → BnUser} (h : Holds P s) : Holds P (s.onBnUser u f) := mk_keeps h ⟨rfl, rfl, rfl⟩
theorem onPort_keeps {p : Port} {f : HostPort → HostPort} (h : Holds P s) : Holds P (s.onPort p f) := mk_keeps h ⟨rfl, rfl, rfl⟩
theorem used_keeps (h : Holds P s) : Holds P s.used := mk_keeps h (sameMem_rfl _)
theorem onArb_keeps {k : Nat} {f : ArbRes → ArbRes} (h : Holds P s) : Holds P (onArb s k f) := mk_keeps h ⟨rfl, rfl, rfl⟩
theorem onDom_keeps {d : Domain} {f : DomSeq → DomSeq} (h : Holds P s) : Holds P (onDom s d f) := mk_keeps h (sameMem_rfl _)
theorem onSbDie_keeps {d : Die} {f : SbDie → SbDie} (h : Holds P s) : Holds P (onSbDie s d f) := h.same (by simp) (by simp) (by simp [SameMem])

theorem put_keeps {e v : Nat} (h : Holds P s) : Holds P (s.put e v) := by
  have := Stable.set (P := P) s (e * 8) v h
  rwa [show keyDefault (e * 8) = entryDefault e from keyDefault_entry e 0 (by omega)] at this
theorem putU_keeps {e : Nat} {u : User} {v : Nat} (h : Holds P s) : Holds P (s.putU e u v) := by
  have := Stable.set (P := P) s (e * 8 + userNum u) v h
  rwa [show keyDefault (e * 8 + userNum u) = entryDefault e from keyDefault_entry e _ (userNum_lt u)] at this
theorem bump_keeps {e : Nat} (h : Holds P s) : Holds P (s.bump e) := put_keeps h
theorem bumpBy_keeps {e n : Nat} (h : Holds P s) : Holds P (s.bumpBy e n) := put_keeps h
theorem bumpU_keeps {e : Nat} {u : User} (h : Holds P s) : Holds P (s.bumpU e u) := putU_keeps h
theorem putS_keeps {e : Nat} {i : Int} (h : Holds P s) : Holds P (s.putS e i) := put_keeps h
theorem setBits_keeps {e m : Nat} (h : Holds P s) : Holds P (s.setBits e m) := put_keeps h
theorem dropEntries_keeps {p : EntryRow → Bool} (h : Holds P s) : Holds P (s.dropEntries p) := Stable.filter (P := P) s _ h

omit [Stable P] in
theorem memOk_mk {a b c d e : Region} (ha : a.wf) (hb : b.wf) (hc : c.wf) (hd : d.wf) (he : e.wf) : MemOk ⟨a, b, c, d, e⟩ := ⟨ha, hb, hc, hd, he⟩

/-! ## Shapes -/

omit [Stable P] in
theorem ite_keeps {c : Prop} [Decidable c] {a b : State} (ha : Holds P a) (hb : Holds P b) : Holds P (if c then a else b) := by
  split <;> assumption

omit [Stable P] in
theorem fst_ite_keeps {α : Type} {c : Prop} [Decidable c] {a b : State × α} (ha : Holds P a.1) (hb : Holds P b.1) :
    Holds P (if c then a else b).1 := by split <;> assumption

omit [Stable P] in
theorem foldl_keeps {α : Type} {f : State → α → State} (l : List α) (hf : ∀ t x, Holds P t → Holds P (f t x)) (h : Holds P s) :
    Holds P (l.foldl f s) := by
  induction l generalizing s with
  | nil => exact h
  | cons x l ih => exact ih (hf s x h)

omit [Stable P] in
theorem foldl_pair_keeps {α β : Type} {f : State × α → β → State × α} (l : List β) {r : State × α}
    (hf : ∀ r x, Holds P r.1 → Holds P (f r x).1) (h : Holds P r.1) : Holds P (l.foldl f r).1 := by
  induction l generalizing r with
  | nil => exact h
  | cons x l ih => exact ih (hf r x h)

/-- Every state that an optional result holds has the property. -/
def HoldsOpt (P : State → Prop) {α : Type} (o : Option (State × α)) : Prop := ∀ r, o = some r → Holds P r.1

omit [Stable P] in
theorem some_keeps {α : Type} {r : State × α} (h : Holds P r.1) : HoldsOpt P (some r) := fun _ e => Option.some.inj e ▸ h
omit [Stable P] in
theorem none_keeps {α : Type} : HoldsOpt P (none : Option (State × α)) := fun _ e => nomatch e
omit [Stable P] in
theorem opt_ite_keeps {α : Type} {c : Prop} [Decidable c] {a b : Option (State × α)} (ha : HoldsOpt P a) (hb : HoldsOpt P b) :
    HoldsOpt P (if c then a else b) := by
  split <;> assumption
omit [Stable P] in
theorem opt_map_keeps {α β : Type} {o : Option β} {f : β → State × α} (h : ∀ x, Holds P (f x).1) : HoldsOpt P (o.map f) := fun _ e => by
  obtain ⟨x, _, rfl⟩ := Option.map_eq_some_iff.1 e
  exact h x
omit [Stable P] in
theorem opt_some_keeps {α : Type} {o : Option (State × α)} {x : α} (h : HoldsOpt P o) (e : o = some (t, x)) : Holds P t := h _ e
omit [Stable P] in
theorem pair_keeps {α : Type} {r : State × α} {x : α} (h : Holds P r.1) (e : r = (t, x)) : Holds P t := by rwa [e] at h

/-- A command's outcome keeps the property: a next state has it. -/
def Keeps (P : State → Prop) (o : Host.Outcome State Fault Refusal) : Prop := ∀ t, o = .next t → P t

omit [Stable P] in
theorem next_keeps (h : Holds P s) : Keeps P (.next s) := fun _ e => Host.Outcome.next.inj e ▸ h

/-! ## Two stable properties -/

omit [Stable P] in
/-- Which commands wait. -/
theorem stable_pending (q : List Instr) : Stable fun s => s.pending = q where
  same _ _ h _ _ _ _ hp := h.trans hp
  set _ _ _ h := h
  filter _ _ h := h
  mem _ _ _ h := h
  xfer _ _ _ _ _ h := h

omit [Stable P] in
/-- The canonical form. -/
theorem stable_canon : Stable Canon where
  same _ _ _ he hm hx hy h := ⟨he ▸ h.ent, hm ▸ h.mem, hx ▸ h.xferM, hy ▸ h.xferU⟩
  set _ k v h := ⟨sparseSet_canon k v h.ent, h.mem, h.xferM, h.xferU⟩
  filter _ p h := ⟨h.ent.filter p, h.mem, h.xferM, h.xferU⟩
  mem _ _ hm h := ⟨h.ent, hm h.mem, h.xferM, h.xferU⟩
  xfer _ _ _ ha hb h := ⟨h.ent, h.mem, ha h.xferM, hb h.xferU⟩

end Sys2Proof.Machine
end

