-- ==== Sys2Proof/Laws/KeepsSense.lean ====
section
/-! SUPPORT. The operations and commands of the notices and the log queues, the domains, the sensors, the ply link and its results keep every stable property of the state. -/
namespace Sys2Proof.Machine
variable {P : State → Prop} [Stable P]

/-! ## Ops -/





theorem notePeak_keeps {s : State} {q : Nat} {n : Nat} (h : Holds P s) : Holds P (notePeak s q n) := by
  unfold notePeak
  try dsimp only
  repeat' with_reducible first | assumption | intro _ | apply put_keeps | apply ite_keeps

theorem notePeakOf_keeps {s : State} {d : Die} {q : Nat} {n : Nat} (h : Holds P s) : Holds P (notePeakOf s d q n) := by
  unfold notePeakOf
  try dsimp only
  repeat' with_reducible first | assumption | intro _ | apply notePeak_keeps | apply ite_keeps

theorem noteFull_keeps {s : State} {q : Nat} (h : Holds P s) : Holds P (noteFull s q) := by
  unfold noteFull
  try dsimp only
  repeat' with_reducible first | assumption | intro _ | apply bump_keeps | apply ite_keeps

theorem sbQueue_keeps {s : State} {d : Die} {ty : Nat} {dst : Nat} {payload : Bytes} (h : Holds P s) : Holds P (sbQueue s d ty dst payload) := by
  unfold sbQueue
  try dsimp only
  repeat' with_reducible first | assumption | intro _ | apply onSbDie_keeps | apply notePeakOf_keeps | apply noteFull_keeps | apply ite_keeps

theorem stSigned_keeps {s : State} {ty : Nat} (h : Holds P s) : Holds P (stSigned s ty) := by
  unfold stSigned
  try dsimp only
  repeat' with_reducible first | assumption | intro _ | apply put_keeps | apply ite_keeps

theorem countSummary_keeps {s : State} {ty : Nat} {data : Bytes} (h : Holds P s) : Holds P (countSummary s ty data) := by
  unfold countSummary
  try dsimp only
  repeat' with_reducible first | assumption | intro _ | apply bump_keeps | apply stSigned_keeps | apply ite_keeps

theorem logKeeper_keeps {s : State} {ty : Nat} {src : Nat} {data : Bytes} (h : Holds P s) : Holds P (logKeeper s ty src data) := by
  unfold logKeeper
  try dsimp only
  repeat' with_reducible first
    | assumption | intro _ | apply onLog_keeps | apply notePeak_keeps | apply noteFull_keeps | apply countSummary_keeps | apply ite_keeps

theorem logDie_keeps {s : State} {d : Die} {ty : Nat} {src : Nat} {data : Bytes} (h : Holds P s) : Holds P (logDie s d ty src data) := by
  unfold logDie
  try dsimp only
  repeat' with_reducible first
    | assumption | intro _ | apply bump_keeps | apply onSbDie_keeps | apply notePeakOf_keeps | apply noteFull_keeps | apply ite_keeps

/-! ## Flags -/

theorem noticed_keeps {s t : State} (h : Holds P t) : Holds P (noticed s t) := ite_keeps h (onCan_keeps h)

theorem setNotices_keeps {s : State} {m : Nat} (h : Holds P s) : Holds P (setNotices s m) := by
  unfold setNotices
  try dsimp only
  repeat' with_reducible first | assumption | intro _ | apply putU_keeps | apply noticed_keeps | apply foldl_keeps

theorem raise_keeps {s : State} {k : Nat} (h : Holds P s) : Holds P (raise s k) := by
  unfold raise
  try dsimp only
  repeat' with_reducible first | assumption | intro _ | apply onKeeper_keeps | apply setNotices_keeps | apply ite_keeps

theorem alertFlags_keeps {s : State} {ty : Nat} {inst : Nat} {kind : Nat} (h : Holds P s) : Holds P (alertFlags s ty inst kind) := by
  unfold alertFlags
  try dsimp only
  repeat' with_reducible first | assumption | intro _ | apply bump_keeps | apply put_keeps | apply setBits_keeps | apply raise_keeps

theorem record_keeps {s : State} {d : Die} {ty : Nat} {src : Nat} {data : Bytes} (h : Holds P s) : Holds P (record s d ty src data) := by
  unfold record
  try dsimp only
  repeat' with_reducible first | assumption | intro _ | apply logKeeper_keeps | apply logDie_keeps | split

theorem unlogged_keeps {s : State} {r : LogRec} (h : Holds P s) : Holds P (unlogged s r) := by
  unfold unlogged
  try dsimp only
  repeat' with_reducible first | assumption | intro _ | apply onLog_keeps | apply ite_keeps

theorem lostHold_keeps {s : State} {d : Die} (h : Holds P s) : Holds P (lostHold s d) := by
  unfold lostHold
  try dsimp only
  repeat' with_reducible first | assumption | intro _ | apply unlogged_keeps | apply foldl_keeps

theorem alertRecord_keeps {s : State} {d : Die} {ty : Nat} {src : Nat} {data : Nat → Bytes}
    (h : Holds P s) : Holds P (alertRecord s d ty src data) := by
  unfold alertRecord
  try dsimp only
  repeat' with_reducible first | assumption | intro _ | apply bump_keeps | apply onLog_keeps | apply record_keeps | apply ite_keeps

theorem monitorAlert_keeps {s : State} {d : Die} {ty : Nat} {inst : Nat} {kind : Nat} {src : Nat} {value : Int} {threshold : Int} {zeroised : Bool}
    (h : Holds P s) : Holds P (monitorAlert s d ty inst kind src value threshold zeroised) := by
  unfold monitorAlert
  try dsimp only
  repeat' with_reducible first | assumption | intro _ | apply onLog_keeps | apply alertFlags_keeps | apply alertRecord_keeps | apply ite_keeps

theorem monitorEnd_keeps {s : State} {ty : Nat} {inst : Nat} (h : Holds P s) : Holds P (monitorEnd s ty inst) := by
  unfold monitorEnd
  try dsimp only
  repeat' with_reducible first | assumption | intro _ | apply onLog_keeps

/-! ## Domains -/

theorem setDomState_keeps {s : State} {d : Domain} {c : Nat} (h : Holds P s) : Holds P (setDomState s d c) := by
  unfold setDomState
  try dsimp only
  repeat' with_reducible first | assumption | intro _ | apply put_keeps

theorem refuse_keeps {s : State} {d : Domain} {refuser : Nat} {target : Nat} (h : Holds P s) : Holds P (refuse s d refuser target) := by
  unfold refuse
  try dsimp only
  repeat' with_reducible first | assumption | intro _ | apply bump_keeps | apply put_keeps | apply raise_keeps

theorem onFlyDom_keeps {s : State} {d : Domain} {f : FlyDom → FlyDom} (h : Holds P s) : Holds P (onFlyDom s d f) := by
  unfold onFlyDom
  try dsimp only
  repeat' with_reducible first | assumption | intro _ | apply onFlyer_keeps

theorem setDomNow_keeps {s : State} {d : Domain} {c : Nat} (h : Holds P s) : Holds P (setDomNow s d c) := by
  unfold setDomNow
  try dsimp only
  repeat' with_reducible first | assumption | intro _ | apply setDomState_keeps | apply onFlyDom_keeps | apply ite_keeps

theorem sendDomain_keeps {s : State} {d : Domain} {r : Nat} (h : Holds P s) : Holds P (sendDomain s d r) := by
  unfold sendDomain
  try dsimp only
  repeat' with_reducible first | assumption | intro _ | apply onDom_keeps | apply sbQueue_keeps

theorem sendTime_keeps {s : State} (h : Holds P s) : Holds P (sendTime s) := by
  unfold sendTime
  try dsimp only
  repeat' with_reducible first | assumption | intro _ | apply sbQueue_keeps

theorem turnOn_keeps {s : State} {d : Domain} (h : Holds P s) : Holds P (turnOn s d) := by
  unfold turnOn
  try dsimp only
  repeat' with_reducible first | assumption | intro _ | apply bump_keeps | apply setDomNow_keeps | apply ite_keeps

theorem beginExit_keeps {s : State} {d : Domain} {src : Option Nat} (h : Holds P s) : Holds P (beginExit s d src) := by
  unfold beginExit
  try dsimp only
  repeat' with_reducible first
    | assumption | intro _ | apply onSpindle_keeps | apply put_keeps | apply setDomNow_keeps | apply sendTime_keeps | ((apply sameMem_mk) <;> rfl)
    | apply ite_keeps | split

theorem raiseDomain_keeps {s : State} {src : Option Nat} {owner : Domain} {d : Domain} (h : Holds P s) : Holds P (raiseDomain s src owner d) := by
  unfold raiseDomain
  try dsimp only
  repeat' with_reducible first | assumption | intro _ | apply onDom_keeps | apply refuse_keeps | apply beginExit_keeps | apply ite_keeps | split

theorem demand_keeps {s : State} {d : Domain} (h : Holds P s) : Holds P (demand s d) := by
  unfold demand
  try dsimp only
  repeat' with_reducible first | assumption | intro _ | apply raiseDomain_keeps

theorem rise_keeps {s : State} {d : Domain} (h : Holds P s) : Holds P (rise s d) := by
  unfold rise
  try dsimp only
  repeat' with_reducible first | assumption | intro _ | apply raiseDomain_keeps

/-! ## Replies -/

theorem countDenied_keeps {s : State} {q : Request} (h : Holds P s) : Holds P (countDenied s q) := by
  unfold countDenied
  try dsimp only
  repeat' with_reducible first | assumption | intro _ | apply bump_keeps | apply put_keeps

theorem setResponses_keeps {s : State} {u : User} {l : List Response} (h : Holds P s) : Holds P (setResponses s u l) := by
  unfold setResponses
  try dsimp only
  repeat' with_reducible first | assumption | intro _ | apply onDict_keeps | apply notePeak_keeps | ((apply sameXfer_mk) <;> rfl)

theorem answer_keeps {s : State} {q : Request} {status : Nat} {v : Bytes} (h : Holds P s) : Holds P (answer s q status v) := by
  unfold answer
  try dsimp only
  repeat' with_reducible first
    | assumption | intro _ | apply onDict_keeps | apply setResponses_keeps | ((apply sameXfer_mk) <;> rfl) | apply ite_keeps

theorem noteStatus_keeps {s : State} {q : Request} {status : Nat} (h : Holds P s) : Holds P (noteStatus s q status) := by
  unfold noteStatus
  try dsimp only
  repeat' with_reducible first | assumption | intro _ | apply putU_keeps | apply countDenied_keeps | apply ite_keeps

theorem servedLast_keeps {s : State} {u : User} (h : Holds P s) : Holds P (servedLast s u) := by
  unfold servedLast
  try dsimp only
  repeat' with_reducible first | assumption | intro _ | apply onDict_keeps | ((apply sameXfer_mk) <;> rfl)

theorem respond_keeps {s : State} {q : Request} {status : Nat} {v : Bytes} (h : Holds P s) : Holds P (respond s q status v) := by
  unfold respond
  try dsimp only
  repeat' with_reducible first | assumption | intro _ | apply answer_keeps | apply noteStatus_keeps | apply servedLast_keeps

theorem claimPlace_keeps {s : State} {q : Request} (h : Holds P s) : Holds P (claimPlace s q) := by
  unfold claimPlace
  try dsimp only
  repeat' with_reducible first | assumption | intro _ | apply setResponses_keeps | apply servedLast_keeps | apply ite_keeps

theorem respondJob_keeps {s : State} {q : Request} {status : Nat} {v : Bytes} (h : Holds P s) : Holds P (respondJob s q status v) := by
  unfold respondJob
  try dsimp only
  repeat' with_reducible first
    | assumption | intro _ | apply onDict_keeps | apply answer_keeps | apply noteStatus_keeps | ((apply sameXfer_mk) <;> rfl) | apply ite_keeps

/-! ## Calibration -/

theorem writeRows_keeps {s : State} {ws : List (Nat × Nat)} (h : Holds P s) : Holds P (writeRows s ws) := by
  unfold writeRows
  try dsimp only
  repeat' with_reducible first | assumption | intro _ | apply onKeeper_keeps | apply ite_keeps | apply fst_ite_keeps | apply foldl_keeps

theorem burn_keeps {s : State} {e : Nat} {v : Nat} (h : Holds P s) : Holds P (burn s e v) := by
  unfold burn
  try dsimp only
  repeat' with_reducible first | assumption | intro _ | apply onKeeper_keeps | apply put_keeps

theorem sendShadow_keeps {s : State} (h : Holds P s) : Holds P (sendShadow s) := by
  unfold sendShadow
  try dsimp only
  repeat' with_reducible first | assumption | intro _ | apply sbQueue_keeps | apply foldl_keeps

/-! ## Sensing -/

theorem sendBackstop_keeps {s : State} (h : Holds P s) : Holds P (sendBackstop s) := by
  unfold sendBackstop
  try dsimp only
  repeat' with_reducible first | assumption | intro _ | apply onBs_keeps | apply sbQueue_keeps

theorem backstopReport_keeps {s : State} (h : Holds P s) : Holds P (backstopReport s) := by
  unfold backstopReport
  try dsimp only
  repeat' with_reducible first | assumption | intro _ | apply sendBackstop_keeps | apply ite_keeps

theorem backstopEvaluated_keeps {s : State} (h : Holds P s) : Holds P (backstopEvaluated s) := by
  unfold backstopEvaluated
  try dsimp only
  repeat' with_reducible first | assumption | intro _ | apply onBs_keeps | apply sendBackstop_keeps | apply backstopReport_keeps | apply ite_keeps

theorem formReport_keeps {s : State} (h : Holds P s) : Holds P (formReport s) := by
  unfold formReport
  try dsimp only
  repeat' with_reducible first | assumption | intro _ | apply onRes_keeps

theorem releaseResult_keeps {s : State} (h : Holds P s) : Holds P (releaseResult s) := by
  unfold releaseResult
  try dsimp only
  repeat' with_reducible first | assumption | intro _ | apply onRes_keeps

/-! ## Ply -/

theorem onLane_keeps {s : State} {l : Lane} {f : LaneState → LaneState} (h : Holds P s) : Holds P (onLane s l f) := by
  unfold onLane
  try dsimp only
  repeat' with_reducible first | assumption | intro _ | apply onPly_keeps

theorem ackLane_keeps {s : State} {l : Lane} {n : Nat} (h : Holds P s) : Holds P (ackLane s l n) := by
  unfold ackLane
  try dsimp only
  repeat' with_reducible first | assumption | intro _ | apply onRes_keeps | apply onLane_keeps

theorem ackReverse_keeps {s : State} {l : Lane} (h : Holds P s) : Holds P (ackReverse s l) := by
  unfold ackReverse
  try dsimp only
  repeat' with_reducible first | assumption | intro _ | apply ackLane_keeps | split

theorem releaseDelivered_keeps {s : State} (h : Holds P s) : Holds P (releaseDelivered s) := by
  unfold releaseDelivered
  try dsimp only
  repeat' with_reducible first | assumption | intro _ | apply onPly_keeps | apply onRes_keeps | apply onSense_keeps | apply ite_keeps

theorem drainCheck_keeps {s : State} (h : Holds P s) : Holds P (drainCheck s) := by
  unfold drainCheck
  try dsimp only
  repeat' with_reducible first | assumption | intro _ | apply put_keeps | apply ite_keeps

theorem sendFlit_keeps {s : State} {l : Lane} {f : SentFlit} (h : Holds P s) : Holds P (sendFlit s l f) := by
  unfold sendFlit
  try dsimp only
  repeat' with_reducible first | assumption | intro _ | apply bump_keeps | apply onLane_keeps | apply ackLane_keeps | apply ite_keeps

theorem arrive_keeps {s : State} {l : Lane} (h : Holds P s) : Holds P (arrive s l) := by
  unfold arrive
  try dsimp only
  repeat' with_reducible first
    | assumption | intro _ | apply onLane_keeps | apply ackReverse_keeps | apply releaseDelivered_keeps | apply drainCheck_keeps

theorem dropCarried_keeps {s : State} (h : Holds P s) : Holds P (dropCarried s) := by
  unfold dropCarried
  try dsimp only
  repeat' with_reducible first
    | assumption | intro _ | apply onMem_keeps | apply onRes_keeps | apply onSense_keeps | apply used_keeps | apply releaseResult_keeps
    | apply memOk_mk | apply Region.putAll_wf | apply Region.empty_wf | exact (‹MemOk _›).code | exact (‹MemOk _›).data | exact (‹MemOk _›).capt
    | exact (‹MemOk _›).scratch | exact (‹MemOk _›).flash | apply ite_keeps

theorem plyOff_keeps {s : State} (h : Holds P s) : Holds P (plyOff s) := by
  unfold plyOff
  try dsimp only
  repeat' with_reducible first
    | assumption | intro _ | apply onFlyer_keeps | apply onPly_keeps | apply onRes_keeps | apply put_keeps | apply sbQueue_keeps | apply ite_keeps

theorem plyReset_keeps {s : State} (h : Holds P s) : Holds P (plyReset s) := by
  unfold plyReset
  try dsimp only
  repeat' with_reducible first | assumption | intro _ | apply onPly_keeps | apply dropCarried_keeps | apply plyOff_keeps | apply ite_keeps

theorem linkRecord_keeps {s : State} {d : Die} {data : Bytes} (h : Holds P s) : Holds P (linkRecord s d data) := by
  unfold linkRecord
  try dsimp only
  repeat' with_reducible first | assumption | intro _ | apply logDie_keeps

theorem abandon_keeps {s : State} {data : Bytes} (h : Holds P s) : Holds P (abandon s data) := by
  unfold abandon
  try dsimp only
  repeat' with_reducible first | assumption | intro _ | apply bump_keeps | apply alertFlags_keeps | apply dropCarried_keeps | apply plyOff_keeps

theorem wakeFailed_keeps {s : State} {lanes : List Lane} (h : Holds P s) : Holds P (wakeFailed s lanes) := by
  unfold wakeFailed
  try dsimp only
  repeat' with_reducible first | assumption | intro _ | apply linkRecord_keeps | apply abandon_keeps | apply ite_keeps

theorem retryTimeout_keeps {s : State} {l : Lane} (h : Holds P s) : Holds P (retryTimeout s l) := by
  unfold retryTimeout
  try dsimp only
  repeat' with_reducible first
    | assumption | intro _ | apply bump_keeps | apply onLane_keeps | apply linkRecord_keeps | apply abandon_keeps | apply ite_keeps | split

theorem startBurst_keeps {s : State} {byFlyer : Bool} (h : Holds P s) : Holds P (startBurst s byFlyer) := by
  unfold startBurst
  try dsimp only
  repeat' with_reducible first | assumption | intro _ | apply bump_keeps | apply onPly_keeps | apply put_keeps

theorem joinBurst_keeps {s : State} {byFlyer : Bool} (h : Holds P s) : Holds P (joinBurst s byFlyer) := by
  unfold joinBurst
  try dsimp only
  repeat' with_reducible first | assumption | intro _ | apply onPly_keeps

theorem sendCaptureReady_keeps {s : State} (h : Holds P s) : Holds P (sendCaptureReady s) := by
  unfold sendCaptureReady
  try dsimp only
  repeat' with_reducible first | assumption | intro _ | apply onPly_keeps | apply sbQueue_keeps | split

theorem requestOff_keeps {s : State} {byFlyer : Bool} (h : Holds P s) : Holds P (requestOff s byFlyer) := by
  unfold requestOff
  try dsimp only
  repeat' with_reducible first
    | assumption | intro _ | apply onPly_keeps | apply demand_keeps | apply rise_keeps | apply startBurst_keeps | apply ite_keeps

theorem startWaiting_keeps {s : State} (h : Holds P s) : Holds P (startWaiting s) := by
  unfold startWaiting
  try dsimp only
  repeat' with_reducible first | assumption | intro _ | apply startBurst_keeps | apply ite_keeps

theorem burstRequest_keeps {s : State} {byFlyer : Bool} (h : Holds P s) : Holds P (burstRequest s byFlyer) := by
  unfold burstRequest
  try dsimp only
  repeat' with_reducible first
    | assumption | intro _ | apply put_keeps | apply joinBurst_keeps | apply sendCaptureReady_keeps | apply requestOff_keeps | apply ite_keeps
    | split

theorem sourceCapture_keeps {s : State} {l : Lane} (h : Holds P s) : HoldsOpt P (sourceCapture s l) := by
  unfold sourceCapture
  try dsimp only
  repeat' with_reducible first
    | apply opt_map_keeps | apply opt_ite_keeps | apply some_keeps | apply none_keeps | assumption | intro _ | apply onLane_keeps | apply ite_keeps
    | split

theorem sourceHorn_keeps {s : State} (h : Holds P s) : HoldsOpt P (sourceHorn s) := by
  unfold sourceHorn
  try dsimp only
  repeat' with_reducible first
    | apply opt_map_keeps | apply opt_ite_keeps | apply some_keeps | apply none_keeps | assumption | intro _ | apply onPly_keeps | split

theorem sourceStatus_keeps {s : State} {l : Lane} {kind : Nat} (h : Holds P s) : HoldsOpt P (sourceStatus s l kind) := by
  unfold sourceStatus
  try dsimp only
  repeat' with_reducible first
    | apply opt_map_keeps | apply opt_ite_keeps | apply some_keeps | apply none_keeps | assumption | intro _ | apply onRes_keeps

theorem sourceEnd_keeps {s : State} {l : Lane} (h : Holds P s) : HoldsOpt P (sourceEnd s l) := by
  unfold sourceEnd
  try dsimp only
  repeat' with_reducible first
    | apply opt_map_keeps | apply opt_ite_keeps | apply some_keeps | apply none_keeps | assumption | intro _ | apply used_keeps | apply onLane_keeps


theorem source_keeps {s : State} {l : Lane} {k : FlitKind} (h : Holds P s) : HoldsOpt P (source s l k) := by
  unfold source
  try dsimp only
  repeat' with_reducible first
    | apply opt_map_keeps | apply opt_ite_keeps | apply some_keeps | apply none_keeps | assumption | intro _ | apply used_keeps
    | apply sourceCapture_keeps | apply sourceHorn_keeps | apply sourceStatus_keeps | apply sourceEnd_keeps
    | exact opt_some_keeps (sourceCapture_keeps ‹_›) ‹_› | exact opt_some_keeps (sourceHorn_keeps ‹_›) ‹_›
    | exact opt_some_keeps (sourceStatus_keeps ‹_›) ‹_› | exact opt_some_keeps (sourceEnd_keeps ‹_›) ‹_› | apply ite_keeps | split

theorem nextFlit_keeps {s : State} {l : Lane} {k : FlitKind} (h : Holds P s) : HoldsOpt P (nextFlit s l k) := by
  unfold nextFlit
  try dsimp only
  repeat' with_reducible first
    | apply opt_map_keeps | apply opt_ite_keeps | apply some_keeps | apply none_keeps | assumption | intro _ | apply source_keeps
    | exact opt_some_keeps (source_keeps ‹_›) ‹_› | apply ite_keeps | split

theorem flitArrives_keeps {s : State} {l : Lane} {k : FlitKind} {f : State → SentFlit → State}
    (h : Holds P s) (hf : ∀ t x0, Holds P t → Holds P (f t x0)) : Holds P (flitArrives s l k f) := by
  unfold flitArrives
  try dsimp only
  repeat' with_reducible first
    | assumption | intro _ | apply hf | apply sendFlit_keeps | apply arrive_keeps | apply nextFlit_keeps
    | exact opt_some_keeps (nextFlit_keeps ‹_›) ‹_› | apply ite_keeps | split

theorem captureDone_keeps {s : State} (h : Holds P s) : Holds P (captureDone s) := by
  unfold captureDone
  try dsimp only
  repeat' with_reducible first | assumption | intro _ | apply onPly_keeps | apply put_keeps | apply raise_keeps | apply releaseDelivered_keeps | split

theorem takeCapture_keeps {s : State} {l : Lane} {g : SentFlit} (h : Holds P s) : Holds P (takeCapture s l g) := by
  unfold takeCapture
  try dsimp only
  repeat' with_reducible first
    | assumption | intro _ | apply onMem_keeps | apply onLane_keeps | apply captureDone_keeps | apply memOk_mk | apply Region.putAll_wf
    | apply Region.empty_wf | exact (‹MemOk _›).code | exact (‹MemOk _›).data | exact (‹MemOk _›).capt | exact (‹MemOk _›).scratch
    | exact (‹MemOk _›).flash | apply ite_keeps

theorem takeCommand_keeps {s : State} {g : SentFlit} (h : Holds P s) : Holds P (takeCommand s g) := by
  unfold takeCommand
  try dsimp only
  repeat' with_reducible first | assumption | intro _ | apply onFlyer_keeps

theorem takeHorn_keeps {s : State} {g : SentFlit} (h : Holds P s) : Holds P (takeHorn s g) := by
  unfold takeHorn
  try dsimp only
  repeat' with_reducible first | assumption | intro _ | apply onHorn_keeps

theorem drainExpiry_keeps {s : State} (h : Holds P s) : Holds P (drainExpiry s) := by
  unfold drainExpiry
  try dsimp only
  repeat' with_reducible first | assumption | intro _ | apply plyOff_keeps | apply ite_keeps

theorem idleArrives_keeps {s : State} {l : Lane} (h : Holds P s) : Holds P (idleArrives s l) := by
  unfold idleArrives
  try dsimp only
  repeat' with_reducible first
    | assumption | intro _ | apply bump_keeps | apply onLane_keeps | apply ackReverse_keeps | apply releaseDelivered_keeps | apply drainCheck_keeps
    | apply ite_keeps

theorem flitDiscarded_keeps {s : State} {l : Lane} {why : Discard} {k : FlitKind} (h : Holds P s) : Holds P (flitDiscarded s l why k) := by
  unfold flitDiscarded
  try dsimp only
  repeat' with_reducible first
    | assumption | intro _ | apply bump_keeps | apply onLane_keeps | apply sendFlit_keeps | apply nextFlit_keeps
    | exact opt_some_keeps (nextFlit_keeps ‹_›) ‹_› | apply ite_keeps | split

theorem execPlyBurstRequest_keeps {byFlyer : Bool} {s : State} (h : Holds P s) : Keeps P (execPlyBurstRequest byFlyer s) := by
  unfold execPlyBurstRequest
  apply next_keeps
  repeat' with_reducible first | assumption | intro _ | apply burstRequest_keeps

theorem execPlyStartMarkerAligned_keeps {s : State} (h : Holds P s) : Keeps P (execPlyStartMarkerAligned s) := by
  unfold execPlyStartMarkerAligned
  apply next_keeps
  repeat' with_reducible first | assumption | intro _ | apply put_keeps | apply ite_keeps

theorem execPlyWakeTimeout_keeps {lanes : List Lane} {s : State} (h : Holds P s) : Keeps P (execPlyWakeTimeout lanes s) := by
  unfold execPlyWakeTimeout
  apply next_keeps
  repeat' with_reducible first | assumption | intro _ | apply wakeFailed_keeps

theorem execPlyFlitDiscarded_keeps {lane : Lane} {why : Discard × FlitKind} {s : State}
    (h : Holds P s) : Keeps P (execPlyFlitDiscarded lane why s) := by
  unfold execPlyFlitDiscarded
  apply next_keeps
  repeat' with_reducible first | assumption | intro _ | apply flitDiscarded_keeps

theorem execPlyCaptureFlit_keeps {lane : Lane} {s : State} (h : Holds P s) : Keeps P (execPlyCaptureFlit lane s) := by
  unfold execPlyCaptureFlit
  apply next_keeps
  repeat' with_reducible first | assumption | intro _ | apply flitArrives_keeps | apply takeCapture_keeps

theorem execPlyCommandFlit_keeps {reg : Nat} {val : Nat} {s : State} (h : Holds P s) : Keeps P (execPlyCommandFlit reg val s) := by
  unfold execPlyCommandFlit
  apply next_keeps
  repeat' with_reducible first | assumption | intro _ | apply flitArrives_keeps | apply takeCommand_keeps

theorem execPlyHornFlit_keeps {s : State} (h : Holds P s) : Keeps P (execPlyHornFlit s) := by
  unfold execPlyHornFlit
  apply next_keeps
  repeat' with_reducible first | assumption | intro _ | apply flitArrives_keeps | apply takeHorn_keeps

theorem execPlyEndFlit_keeps {lane : Lane} {s : State} (h : Holds P s) : Keeps P (execPlyEndFlit lane s) := by
  unfold execPlyEndFlit
  apply next_keeps
  repeat' with_reducible first | assumption | intro _ | apply flitArrives_keeps

theorem execPlyIdleFlit_keeps {lane : Lane} {s : State} (h : Holds P s) : Keeps P (execPlyIdleFlit lane s) := by
  unfold execPlyIdleFlit
  apply next_keeps
  repeat' with_reducible first | assumption | intro _ | apply idleArrives_keeps

theorem execPlyRetryTimeout_keeps {lane : Lane} {s : State} (h : Holds P s) : Keeps P (execPlyRetryTimeout lane s) := by
  unfold execPlyRetryTimeout
  apply next_keeps
  repeat' with_reducible first | assumption | intro _ | apply retryTimeout_keeps

theorem execPlyDrainExpiry_keeps {s : State} (h : Holds P s) : Keeps P (execPlyDrainExpiry s) := by
  unfold execPlyDrainExpiry
  apply next_keeps
  repeat' with_reducible first | assumption | intro _ | apply drainExpiry_keeps

/-! ## Results -/

theorem resultNotice_keeps {s : State} (h : Holds P s) : Holds P (resultNotice s) := by
  unfold resultNotice
  try dsimp only
  repeat' with_reducible first | assumption | intro _ | apply raise_keeps

theorem chamberCheck_keeps {s : State} {r : OptResult} (h : Holds P s) : Holds P (chamberCheck s r) := by
  unfold chamberCheck
  try dsimp only
  repeat' with_reducible first | assumption | intro _ | apply monitorAlert_keeps | apply monitorEnd_keeps | apply ite_keeps

theorem optResult_keeps {s : State} {r : OptResult} (h : Holds P s) : Holds P (optResult s r) := by
  unfold optResult
  try dsimp only
  repeat' with_reducible first
    | assumption | intro _ | apply bump_keeps | apply put_keeps | apply putS_keeps | apply resultNotice_keeps | apply chamberCheck_keeps
    | apply ite_keeps

theorem heatExtremes_keeps {s : State} {t : Int} (h : Holds P s) : Holds P (heatExtremes s t) := by
  unfold heatExtremes
  try dsimp only
  repeat' with_reducible first | assumption | intro _ | apply putS_keeps | apply ite_keeps

theorem heatResult_keeps {s : State} {r : CodeResult} (h : Holds P s) : Holds P (heatResult s r) := by
  unfold heatResult
  try dsimp only
  repeat' with_reducible first
    | assumption | intro _ | apply bump_keeps | apply onSpindle_keeps | apply put_keeps | apply putS_keeps | apply resultNotice_keeps
    | apply heatExtremes_keeps | ((apply sameMem_mk) <;> rfl) | split

theorem coResult_keeps {s : State} {r : CoResult} (h : Holds P s) : Holds P (coResult s r) := by
  unfold coResult
  try dsimp only
  repeat' with_reducible first | assumption | intro _ | apply put_keeps | apply putS_keeps | apply resultNotice_keeps | apply ite_keeps

theorem auxResult_keeps {s : State} {r : CodeResult} (h : Holds P s) : Holds P (auxResult s r) := by
  unfold auxResult
  try dsimp only
  repeat' with_reducible first | assumption | intro _ | apply put_keeps | apply putS_keeps | apply resultNotice_keeps

theorem supplyResult_keeps {s : State} {r : SupplyResult} (h : Holds P s) : Holds P (supplyResult s r) := by
  unfold supplyResult
  try dsimp only
  repeat' with_reducible first | assumption | intro _ | apply put_keeps | apply putS_keeps | apply resultNotice_keeps

theorem noteLevel_keeps {s : State} {q : Nat} {n : Nat} (h : Holds P s) : Holds P (noteLevel s q n) := by
  unfold noteLevel
  try dsimp only
  repeat' with_reducible first | assumption | intro _ | apply put_keeps | apply notePeak_keeps

theorem queueResult_keeps {s : State} {r : QueueReport} (h : Holds P s) : Holds P (queueResult s r) := by
  unfold queueResult
  try dsimp only
  repeat' with_reducible first
    | assumption | intro _ | apply bumpBy_keeps | apply onSpindle_keeps | apply put_keeps | apply noteLevel_keeps | ((apply sameMem_mk) <;> rfl)


theorem resultUnit_keeps {s : State} {r : Flight} (h : Holds P s) : Holds P (resultUnit s r) :=
  match r with
  | .opt _ => optResult_keeps h
  | .heat _ => heatResult_keeps h
  | .co _ => coResult_keeps h
  | .aux _ => auxResult_keeps h
  | .supply _ => supplyResult_keeps h
  | .queues _ => queueResult_keeps h

theorem takeStatus_keeps {s : State} {g : SentFlit} (h : Holds P s) : Holds P (takeStatus s g) := by
  unfold takeStatus
  try dsimp only
  repeat' with_reducible first
    | assumption | intro _ | apply onSpindle_keeps | apply resultUnit_keeps | ((apply sameMem_mk) <;> rfl) | apply ite_keeps | split

theorem statusArrives_keeps {s : State} {lane : Lane} {kind : Nat} (h : Holds P s) : Holds P (statusArrives s lane kind) := by
  unfold statusArrives
  try dsimp only
  repeat' with_reducible first | assumption | intro _ | apply flitArrives_keeps | apply takeStatus_keeps | apply ite_keeps

theorem execStatusOptical_keeps {lane : Lane} {s : State} (h : Holds P s) : Keeps P (execStatusOptical lane s) := by
  unfold execStatusOptical
  apply next_keeps
  repeat' with_reducible first | assumption | intro _ | apply statusArrives_keeps

theorem execStatusHeat_keeps {lane : Lane} {s : State} (h : Holds P s) : Keeps P (execStatusHeat lane s) := by
  unfold execStatusHeat
  apply next_keeps
  repeat' with_reducible first | assumption | intro _ | apply statusArrives_keeps

theorem execStatusCo_keeps {lane : Lane} {s : State} (h : Holds P s) : Keeps P (execStatusCo lane s) := by
  unfold execStatusCo
  apply next_keeps
  repeat' with_reducible first | assumption | intro _ | apply statusArrives_keeps

theorem execStatusAux_keeps {lane : Lane} {s : State} (h : Holds P s) : Keeps P (execStatusAux lane s) := by
  unfold execStatusAux
  apply next_keeps
  repeat' with_reducible first | assumption | intro _ | apply statusArrives_keeps

theorem execStatusSupply_keeps {lane : Lane} {s : State} (h : Holds P s) : Keeps P (execStatusSupply lane s) := by
  unfold execStatusSupply
  apply next_keeps
  repeat' with_reducible first | assumption | intro _ | apply statusArrives_keeps

theorem execStatusQueues_keeps {lane : Lane} {s : State} (h : Holds P s) : Keeps P (execStatusQueues lane s) := by
  unfold execStatusQueues
  apply next_keeps
  repeat' with_reducible first | assumption | intro _ | apply statusArrives_keeps

/-! ## Measure -/

theorem optStart_keeps {s : State} {vdd : Nat} (h : Holds P s) : Holds P (optStart s vdd) := by
  unfold optStart
  try dsimp only
  repeat' with_reducible first | assumption | intro _ | apply onSense_keeps | apply rise_keeps

theorem optTick_keeps {s : State} {vdd : Nat} (h : Holds P s) : Holds P (optTick s vdd) := by
  unfold optTick
  try dsimp only
  repeat' with_reducible first | assumption | intro _ | apply onSense_keeps | apply optStart_keeps | apply ite_keeps

theorem bufferCaptures_keeps {s : State} {caps : Captures} (h : Holds P s) : Holds P (bufferCaptures s caps) := by
  unfold bufferCaptures
  try dsimp only
  repeat' with_reducible first | assumption | intro _ | apply bump_keeps | apply onPly_keeps | apply onSense_keeps | apply ite_keeps

theorem offerMeasurement_keeps {s : State} {caps : Captures} {r : OptResult} (h : Holds P s) : Holds P (offerMeasurement s caps r) := by
  unfold offerMeasurement
  try dsimp only
  repeat' with_reducible first
    | assumption | intro _ | apply onRes_keeps | apply sendCaptureReady_keeps | apply bufferCaptures_keeps | apply ite_keeps

theorem formSupply_keeps {s : State} {run : OptRun} (h : Holds P s) : Holds P (formSupply s run) := by
  unfold formSupply
  try dsimp only
  repeat' with_reducible first | assumption | intro _ | apply onRes_keeps

theorem backstopOpticalStep_keeps {s : State} {g : Integrals} (h : Holds P s) : Holds P (backstopOpticalStep s g) := by
  unfold backstopOpticalStep
  try dsimp only
  repeat' with_reducible first | assumption | intro _ | apply onBs_keeps | apply backstopEvaluated_keeps

theorem optFinish_keeps {s : State} {run : OptRun} {caps : Captures} {led : Bool} {loaded : Nat}
    (h : Holds P s) : Holds P (optFinish s run caps led loaded) := by
  unfold optFinish
  try dsimp only
  repeat' with_reducible first
    | assumption | intro _ | apply onRes_keeps | apply onSense_keeps | apply formReport_keeps | apply offerMeasurement_keeps
    | apply formSupply_keeps | apply backstopOpticalStep_keeps | apply ite_keeps

theorem optNext_keeps {s : State} (h : Holds P s) : Holds P (optNext s) := by
  unfold optNext
  try dsimp only
  repeat' with_reducible first | assumption | intro _ | apply onSense_keeps | apply optStart_keeps | apply ite_keeps | split

theorem optComplete_keeps {s : State} {caps : Captures} {led : Bool} {loaded : Nat} (h : Holds P s) : Holds P (optComplete s caps led loaded) := by
  unfold optComplete
  try dsimp only
  repeat' with_reducible first | assumption | intro _ | apply optFinish_keeps | apply optNext_keeps | split

theorem optRequest_keeps {s : State} (h : Holds P s) : Holds P (optRequest s).1 := by
  unfold optRequest
  try dsimp only
  repeat' with_reducible first | assumption | intro _ | apply onSense_keeps | apply ite_keeps

theorem heatStart_keeps {s : State} (h : Holds P s) : Holds P (heatStart s) := by
  unfold heatStart
  try dsimp only
  repeat' with_reducible first | assumption | intro _ | apply onSense_keeps | apply rise_keeps

theorem heatNext_keeps {s : State} (h : Holds P s) : Holds P (heatNext s) := by
  unfold heatNext
  try dsimp only
  repeat' with_reducible first | assumption | intro _ | apply heatStart_keeps | apply ite_keeps

theorem heatTick_keeps {s : State} (h : Holds P s) : Holds P (heatTick s) := by
  unfold heatTick
  try dsimp only
  repeat' with_reducible first | assumption | intro _ | apply onSense_keeps | apply heatStart_keeps | apply ite_keeps

theorem heatComplete_keeps {s : State} {code : Nat} (h : Holds P s) : Holds P (heatComplete s code) := by
  unfold heatComplete
  try dsimp only
  repeat' with_reducible first
    | assumption | intro _ | apply onBs_keeps | apply onRes_keeps | apply onSense_keeps | apply backstopEvaluated_keeps | apply heatNext_keeps
    | apply ite_keeps | split

theorem coStart_keeps {s : State} (h : Holds P s) : Holds P (coStart s) := by
  unfold coStart
  try dsimp only
  repeat' with_reducible first | assumption | intro _ | apply onSense_keeps | apply rise_keeps

theorem coNext_keeps {s : State} (h : Holds P s) : Holds P (coNext s) := by
  unfold coNext
  try dsimp only
  repeat' with_reducible first | assumption | intro _ | apply coStart_keeps | apply ite_keeps

theorem coTick_keeps {s : State} (h : Holds P s) : Holds P (coTick s) := by
  unfold coTick
  try dsimp only
  repeat' with_reducible first | assumption | intro _ | apply onSense_keeps | apply coStart_keeps | apply ite_keeps

theorem coComplete_keeps {s : State} {code : Int} (h : Holds P s) : Holds P (coComplete s code) := by
  unfold coComplete
  try dsimp only
  repeat' with_reducible first
    | assumption | intro _ | apply onBs_keeps | apply onRes_keeps | apply onSense_keeps | apply backstopEvaluated_keeps | apply coNext_keeps
    | apply ite_keeps | split

theorem pulseStep_keeps {s : State} (h : Holds P s) : Holds P (pulseStep s) := by
  unfold pulseStep
  try dsimp only
  repeat' with_reducible first | assumption | intro _ | apply onSense_keeps | apply rise_keeps

theorem coPulse_keeps {s : State} (h : Holds P s) : Holds P (coPulse s).1 := by
  unfold coPulse
  try dsimp only
  repeat' with_reducible first | assumption | intro _ | apply pulseStep_keeps | apply ite_keeps

theorem pulseRestore_keeps {s : State} {peak : Nat} (h : Holds P s) : Holds P (pulseRestore s peak) := by
  unfold pulseRestore
  try dsimp only
  repeat' with_reducible first | assumption | intro _ | apply onSense_keeps | split

theorem pulseSettled_keeps {s : State} (h : Holds P s) : Holds P (pulseSettled s) := by
  unfold pulseSettled
  try dsimp only
  repeat' with_reducible first | assumption | intro _ | apply onSense_keeps | apply ite_keeps

theorem auxStart_keeps {s : State} (h : Holds P s) : Holds P (auxStart s) := by
  unfold auxStart
  try dsimp only
  repeat' with_reducible first | assumption | intro _ | apply onSense_keeps | apply rise_keeps

theorem auxNext_keeps {s : State} (h : Holds P s) : Holds P (auxNext s) := by
  unfold auxNext
  try dsimp only
  repeat' with_reducible first | assumption | intro _ | apply auxStart_keeps | apply ite_keeps

theorem auxTick_keeps {s : State} (h : Holds P s) : Holds P (auxTick s) := by
  unfold auxTick
  try dsimp only
  repeat' with_reducible first | assumption | intro _ | apply onSense_keeps | apply auxStart_keeps | apply ite_keeps

theorem auxComplete_keeps {s : State} {code : Int} (h : Holds P s) : Holds P (auxComplete s code) := by
  unfold auxComplete
  try dsimp only
  repeat' with_reducible first | assumption | intro _ | apply onRes_keeps | apply onSense_keeps | apply auxNext_keeps | apply ite_keeps | split

theorem temperatureCheck_keeps {s : State} {d : Die} {inst : Nat} {t : Int} (h : Holds P s) : Holds P (temperatureCheck s d inst t) := by
  unfold temperatureCheck
  try dsimp only
  repeat' with_reducible first | assumption | intro _ | apply monitorAlert_keeps | apply monitorEnd_keeps | apply ite_keeps

theorem clkFlyCheck_keeps {s : State} {hz : Nat} (h : Holds P s) : Holds P (clkFlyCheck s hz) := by
  unfold clkFlyCheck
  try dsimp only
  repeat' with_reducible first | assumption | intro _ | apply monitorAlert_keeps | apply monitorEnd_keeps | apply ite_keeps

theorem dieTempTick_keeps {s : State} {spindle : Int} {flyer : Int} {keeper : Int} {hz : Nat}
    (h : Holds P s) : Holds P (dieTempTick s spindle flyer keeper hz) := by
  unfold dieTempTick
  try dsimp only
  repeat' with_reducible first
    | assumption | intro _ | apply onSense_keeps | apply put_keeps | apply putS_keeps | apply temperatureCheck_keeps | apply clkFlyCheck_keeps
    | apply ite_keeps

theorem execOptMeasurementTick_keeps {vddMv : Nat} {s : State} (h : Holds P s) : Keeps P (execOptMeasurementTick vddMv s) := by
  unfold execOptMeasurementTick
  apply next_keeps
  repeat' with_reducible first | assumption | intro _ | apply optTick_keeps

theorem execOptMeasurementComplete_keeps {caps : Captures} {ledShort : Bool} {loadedMv : Nat} {s : State}
    (h : Holds P s) : Keeps P (execOptMeasurementComplete caps ledShort loadedMv s) := by
  unfold execOptMeasurementComplete
  apply next_keeps
  repeat' with_reducible first | assumption | intro _ | apply optComplete_keeps

theorem execHeatMeasurementTick_keeps {s : State} (h : Holds P s) : Keeps P (execHeatMeasurementTick s) := by
  unfold execHeatMeasurementTick
  apply next_keeps
  repeat' with_reducible first | assumption | intro _ | apply heatTick_keeps

theorem execHeatConversionComplete_keeps {code : Nat} {s : State} (h : Holds P s) : Keeps P (execHeatConversionComplete code s) := by
  unfold execHeatConversionComplete
  apply next_keeps
  repeat' with_reducible first | assumption | intro _ | apply heatComplete_keeps

theorem execCoMeasurementTick_keeps {s : State} (h : Holds P s) : Keeps P (execCoMeasurementTick s) := by
  unfold execCoMeasurementTick
  apply next_keeps
  repeat' with_reducible first | assumption | intro _ | apply coTick_keeps

theorem execCoConversionComplete_keeps {code : Int} {s : State} (h : Holds P s) : Keeps P (execCoConversionComplete code s) := by
  unfold execCoConversionComplete
  apply next_keeps
  repeat' with_reducible first | assumption | intro _ | apply coComplete_keeps

theorem execAinMeasurementTick_keeps {s : State} (h : Holds P s) : Keeps P (execAinMeasurementTick s) := by
  unfold execAinMeasurementTick
  apply next_keeps
  repeat' with_reducible first | assumption | intro _ | apply auxTick_keeps

theorem execAinConversionComplete_keeps {code : Int} {s : State} (h : Holds P s) : Keeps P (execAinConversionComplete code s) := by
  unfold execAinConversionComplete
  apply next_keeps
  repeat' with_reducible first | assumption | intro _ | apply auxComplete_keeps

theorem execDieTempTick_keeps {spindle : Int} {flyer : Int} {keeper : Int} {clkFlyHz : Nat} {s : State}
    (h : Holds P s) : Keeps P (execDieTempTick spindle flyer keeper clkFlyHz s) := by
  unfold execDieTempTick
  apply next_keeps
  repeat' with_reducible first | assumption | intro _ | apply dieTempTick_keeps

theorem execCoPulseRestore_keeps {peak : Nat} {s : State} (h : Holds P s) : Keeps P (execCoPulseRestore peak s) := by
  unfold execCoPulseRestore
  apply next_keeps
  repeat' with_reducible first | assumption | intro _ | apply pulseRestore_keeps

theorem execCoPulseSettleEnd_keeps {s : State} (h : Holds P s) : Keeps P (execCoPulseSettleEnd s) := by
  unfold execCoPulseSettleEnd
  apply next_keeps
  repeat' with_reducible first | assumption | intro _ | apply pulseSettled_keeps

end Sys2Proof.Machine
end

