-- ==== Sys2Proof/Laws/KeepsModes.lean ====
section
/-! SUPPORT. The operations and commands of the horn, the self-test, the modes, the random words, the crypto pages and the log keep every stable property of the state. -/
namespace Sys2Proof.Machine
variable {P : State → Prop} [Stable P]

/-! ## Horn -/

theorem riseHorn_keeps {s : State} (h : Holds P s) : Holds P (riseHorn s) := by
  unfold riseHorn
  try dsimp only
  repeat' with_reducible first | assumption | intro _ | apply rise_keeps | apply ite_keeps

theorem hornSelect_keeps {s : State} (h : Holds P s) : Holds P (hornSelect s) := by
  unfold hornSelect
  try dsimp only
  repeat' with_reducible first
    | assumption | intro _ | apply onHorn_keeps | apply put_keeps | apply backstopReport_keeps | apply formReport_keeps | apply riseHorn_keeps
    | apply ite_keeps

theorem hornPhase_keeps {s : State} (h : Holds P s) : Holds P (hornPhase s) := by
  unfold hornPhase
  try dsimp only
  repeat' with_reducible first
    | assumption | intro _ | apply onHorn_keeps | apply backstopReport_keeps | apply riseHorn_keeps | apply ite_keeps | split

theorem hornReady_keeps {s : State} {mv : Nat} (h : Holds P s) : Holds P (hornReady s mv) := by
  unfold hornReady
  try dsimp only
  repeat' with_reducible first | assumption | intro _ | apply onHorn_keeps | apply ite_keeps

theorem hornFault_keeps {s : State} (h : Holds P s) : Holds P (hornFault s) := by
  unfold hornFault
  try dsimp only
  repeat' with_reducible first | assumption | intro _ | apply bump_keeps | apply onHorn_keeps

theorem hornTake_keeps {s : State} (h : Holds P s) : Holds P (hornTake s) := by
  unfold hornTake
  try dsimp only
  repeat' with_reducible first | assumption | intro _ | apply onHorn_keeps | apply backstopReport_keeps | apply formReport_keeps | apply ite_keeps

theorem hornCmd_keeps {s : State} {v : Bytes} (h : Holds P s) : Holds P (hornCmd s v).1 := by
  unfold hornCmd
  try dsimp only
  repeat' with_reducible first
    | assumption | intro _ | apply onPly_keeps | apply onSpindle_keeps | apply notePeak_keeps | ((apply sameMem_mk) <;> rfl) | apply ite_keeps
    | apply fst_ite_keeps

theorem execHornSourceSelect_keeps {s : State} (h : Holds P s) : Keeps P (execHornSourceSelect s) := by
  unfold execHornSourceSelect
  apply next_keeps
  repeat' with_reducible first | assumption | intro _ | apply hornSelect_keeps

theorem execHornPhase_keeps {s : State} (h : Holds P s) : Keeps P (execHornPhase s) := by
  unfold execHornPhase
  apply next_keeps
  repeat' with_reducible first | assumption | intro _ | apply hornPhase_keeps

theorem execHornVboostReady_keeps {mv : Nat} {s : State} (h : Holds P s) : Keeps P (execHornVboostReady mv s) := by
  unfold execHornVboostReady
  apply next_keeps
  repeat' with_reducible first | assumption | intro _ | apply hornReady_keeps

theorem execHornFbTimeout_keeps {s : State} (h : Holds P s) : Keeps P (execHornFbTimeout s) := by
  unfold execHornFbTimeout
  apply next_keeps
  repeat' with_reducible first | assumption | intro _ | apply onHorn_keeps | apply ite_keeps

theorem execHornFault_keeps {s : State} (h : Holds P s) : Keeps P (execHornFault s) := by
  unfold execHornFault
  apply next_keeps
  repeat' with_reducible first | assumption | intro _ | apply hornFault_keeps | apply ite_keeps

theorem execHornOvercurrent_keeps {s : State} (h : Holds P s) : Keeps P (execHornOvercurrent s) := by
  unfold execHornOvercurrent
  apply next_keeps
  repeat' with_reducible first | assumption | intro _ | apply hornFault_keeps | apply ite_keeps

theorem execHornQueueTake_keeps {s : State} (h : Holds P s) : Keeps P (execHornQueueTake s) := by
  unfold execHornQueueTake
  apply next_keeps
  repeat' with_reducible first | assumption | intro _ | apply hornTake_keeps

theorem execKindsCommandSend_keeps {s : State} (h : Holds P s) : Keeps P (execKindsCommandSend s) := by
  unfold execKindsCommandSend
  apply next_keeps
  repeat' with_reducible first | assumption | intro _ | apply onPly_keeps | apply ite_keeps

theorem execIcLineRelayStart_keeps {s : State} (h : Holds P s) : Keeps P (execIcLineRelayStart s) := by
  unfold execIcLineRelayStart
  apply next_keeps
  repeat' with_reducible first | assumption | intro _ | apply onHorn_keeps | apply backstopReport_keeps | apply ite_keeps

theorem execIcLineRelayEnd_keeps {s : State} (h : Holds P s) : Keeps P (execIcLineRelayEnd s) := by
  unfold execIcLineRelayEnd
  apply next_keeps
  repeat' with_reducible first | assumption | intro _ | apply onHorn_keeps | apply backstopReport_keeps | apply ite_keeps

theorem execFlyerHushTimerExpiry_keeps {s : State} (h : Holds P s) : Keeps P (execFlyerHushTimerExpiry s) := by
  unfold execFlyerHushTimerExpiry
  apply next_keeps
  repeat' with_reducible first | assumption | intro _ | apply onBs_keeps | apply ite_keeps

/-! ## SelfTest -/

theorem stBegin_keeps {s : State} {k : Nat} (h : Holds P s) : Holds P (stBegin s k) := by
  unfold stBegin
  try dsimp only
  repeat' with_reducible first | assumption | intro _ | apply onSelfTest_keeps | apply put_keeps | apply sbQueue_keeps | apply ite_keeps

theorem stStart_keeps {s : State} {trigger : Nat} {src : Nat} (h : Holds P s) : Holds P (stStart s trigger src) := by
  unfold stStart
  try dsimp only
  repeat' with_reducible first | assumption | intro _ | apply bump_keeps | apply onSelfTest_keeps | apply source_keeps | apply stBegin_keeps

theorem stSpread_keeps {s : State} {spread : Nat} (h : Holds P s) : Holds P (stSpread s spread) := by
  unfold stSpread
  try dsimp only
  repeat' with_reducible first | assumption | intro _ | apply put_keeps

theorem stSpreadFallback_keeps {s : State} (h : Holds P s) : Holds P (stSpreadFallback s) := by
  unfold stSpreadFallback
  try dsimp only
  repeat' with_reducible first | assumption | intro _ | apply stSpread_keeps

theorem sendWords_keeps {s : State} (h : Holds P s) : Holds P (sendWords s) := by
  unfold sendWords
  try dsimp only
  repeat' with_reducible first | assumption | intro _ | apply onKeeper_keeps | apply sbQueue_keeps | apply ite_keeps

theorem wordsGone_keeps {s : State} {w : WordUse} (h : Holds P s) : Holds P (wordsGone s w) := by
  unfold wordsGone
  try dsimp only
  repeat' with_reducible first | assumption | intro _ | apply onKeeper_keeps | apply stSpreadFallback_keeps | split

theorem wordsLost_keeps {s : State} {n : Nat} (h : Holds P s) : Holds P (wordsLost n s) := by
  induction n generalizing s with
  | zero => exact h
  | succ n ih =>
    unfold wordsLost
    repeat' with_reducible first
      | apply ih | assumption | intro _ | apply onKeeper_keeps | apply sendWords_keeps | apply wordsGone_keeps | apply ite_keeps | split

theorem wordsCheck_keeps {s : State} (h : Holds P s) : Holds P (wordsCheck s) := by
  unfold wordsCheck
  try dsimp only
  repeat' with_reducible first | assumption | intro _ | apply wordsLost_keeps

theorem askWords_keeps {s : State} {w : WordUse} (h : Holds P s) : Holds P (askWords s w) := by
  unfold askWords
  try dsimp only
  repeat' with_reducible first | assumption | intro _ | apply onKeeper_keeps | apply sendWords_keeps | apply wordsCheck_keeps | apply ite_keeps

theorem stDrawSpread_keeps {s : State} (h : Holds P s) : Holds P (stDrawSpread s) := by
  unfold stDrawSpread
  try dsimp only
  repeat' with_reducible first | assumption | intro _ | apply stSpreadFallback_keeps | apply askWords_keeps | apply ite_keeps

theorem stEnd_keeps {s : State} {outcome : Nat} (h : Holds P s) : Holds P (stEnd s outcome) := by
  unfold stEnd
  try dsimp only
  repeat' with_reducible first
    | assumption | intro _ | apply bump_keeps | apply onKeeper_keeps | apply onSelfTest_keeps | apply put_keeps | apply logKeeper_keeps
    | apply raise_keeps | apply source_keeps | apply stDrawSpread_keeps | apply ite_keeps

theorem stAbort_keeps {s : State} (h : Holds P s) : Holds P (stAbort s) := by
  unfold stAbort
  try dsimp only
  repeat' with_reducible first | assumption | intro _ | apply onHorn_keeps | apply stEnd_keeps | apply ite_keeps

/-! ## Modes -/

theorem sendMode_keeps {s : State} (h : Holds P s) : Holds P (sendMode s) := by
  unfold sendMode
  try dsimp only
  repeat' with_reducible first | assumption | intro _ | apply sbQueue_keeps

theorem leaveMode_keeps {s : State} {old : Option Mode} (h : Holds P s) : Holds P (leaveMode s old) := by
  unfold leaveMode
  try dsimp only
  repeat' with_reducible first | assumption | intro _ | apply put_keeps | apply raise_keeps | apply stAbort_keeps | apply ite_keeps | split

theorem retireBackstop_keeps {s : State} (h : Holds P s) : Holds P (retireBackstop s) := by
  unfold retireBackstop
  try dsimp only
  repeat' with_reducible first
    | assumption | intro _ | apply onBs_keeps | apply onSense_keeps | apply put_keeps | apply sendBackstop_keeps | apply ite_keeps

theorem arriveMode_keeps {s : State} {new : Mode} (h : Holds P s) : Holds P (arriveMode s new) := by
  unfold arriveMode
  try dsimp only
  repeat' with_reducible first
    | assumption | intro _ | apply bump_keeps | apply onCan_keeps | apply onKeeper_keeps | apply put_keeps | apply raise_keeps
    | apply retireBackstop_keeps | split

theorem alarmEndNotice_keeps {s : State} {old : Option Mode} {new : Mode} (h : Holds P s) : Holds P (alarmEndNotice s old new) := by
  unfold alarmEndNotice
  try dsimp only
  repeat' with_reducible first | assumption | intro _ | apply raise_keeps | apply ite_keeps

theorem writeMode_keeps {s : State} {new : Mode} (h : Holds P s) : Holds P (writeMode s new) := by
  unfold writeMode
  try dsimp only
  repeat' with_reducible first | assumption | intro _ | apply bump_keeps | apply put_keeps | apply raise_keeps

theorem logMode_keeps {s : State} {new : Mode} {old : Option Mode} {src : Nat} (h : Holds P s) : Holds P (logMode s new old src) := by
  unfold logMode
  try dsimp only
  repeat' with_reducible first | assumption | intro _ | apply logKeeper_keeps | apply ite_keeps

theorem enterMode_keeps {s : State} {new : Mode} {src : Nat} (h : Holds P s) : Holds P (enterMode s new src) := by
  unfold enterMode
  try dsimp only
  repeat' with_reducible first
    | assumption | intro _ | apply sendMode_keeps | apply leaveMode_keeps | apply arriveMode_keeps | apply alarmEndNotice_keeps
    | apply writeMode_keeps | apply logMode_keeps | apply ite_keeps

theorem settle_keeps {s : State} {src : Nat} (h : Holds P s) : Holds P (settle s src) := by
  unfold settle
  try dsimp only
  repeat' with_reducible first | assumption | intro _ | apply put_keeps | apply enterMode_keeps | apply ite_keeps

theorem backstopCheck_keeps {s : State} (h : Holds P s) : Holds P (backstopCheck s) := by
  unfold backstopCheck
  try dsimp only
  repeat' with_reducible first | assumption | intro _ | apply enterMode_keeps | apply ite_keeps

theorem afterEvent_keeps {s : State} {src : Nat} (h : Holds P s) : Holds P (afterEvent s src) := by
  unfold afterEvent
  try dsimp only
  repeat' with_reducible first | assumption | intro _ | apply settle_keeps | apply backstopCheck_keeps

theorem alarmEnds_keeps {s : State} (h : Holds P s) : Holds P (alarmEnds s) := by
  unfold alarmEnds
  try dsimp only
  repeat' with_reducible first | assumption | intro _ | apply enterMode_keeps | apply ite_keeps

theorem setFault_keeps {s : State} {b : Nat} {src : Nat} (h : Holds P s) : Holds P (setFault s b src) := by
  unfold setFault
  try dsimp only
  repeat' with_reducible first | assumption | intro _ | apply setBits_keeps | apply afterEvent_keeps | apply ite_keeps

theorem clearFault_keeps {s : State} {mask : Nat} (h : Holds P s) : Holds P (clearFault s mask) := by
  unfold clearFault
  try dsimp only
  repeat' with_reducible first | assumption | intro _ | apply put_keeps | apply afterEvent_keeps | apply ite_keeps

theorem takeKinds_keeps {s : State} {kinds : Nat} {noHush : Bool} (h : Holds P s) : Holds P (takeKinds s kinds noHush) := by
  unfold takeKinds
  try dsimp only
  repeat' with_reducible first
    | assumption | intro _ | apply bump_keeps | apply onKeeper_keeps | apply put_keeps | apply logKeeper_keeps | apply raise_keeps
    | apply backstopCheck_keeps | apply afterEvent_keeps | apply alarmEnds_keeps | apply ite_keeps | apply foldl_keeps

theorem refreshRelayed_keeps {s : State} (h : Holds P s) : Holds P (refreshRelayed s) := by
  unfold refreshRelayed
  try dsimp only
  repeat' with_reducible first | assumption | intro _ | apply put_keeps | apply enterMode_keeps | apply afterEvent_keeps | apply ite_keeps

theorem setAlarmFw_keeps {s : State} {kinds : Nat} (h : Holds P s) : Holds P (setAlarmFw s kinds) := by
  unfold setAlarmFw
  try dsimp only
  repeat' with_reducible first | assumption | intro _ | apply put_keeps | apply afterEvent_keeps | apply alarmEnds_keeps

theorem enterSelftest_keeps {s : State} {trigger : Nat} {src : Nat} (h : Holds P s) : Holds P (enterSelftest s trigger src) := by
  unfold enterSelftest
  try dsimp only
  repeat' with_reducible first | assumption | intro _ | apply stStart_keeps | apply enterMode_keeps

theorem selftestDue_keeps {s : State} (h : Holds P s) : Holds P (selftestDue s) := by
  unfold selftestDue
  try dsimp only
  repeat' with_reducible first | assumption | intro _ | apply onSelfTest_keeps | apply put_keeps | apply enterSelftest_keeps | apply ite_keeps

theorem selftestWaiting_keeps {s : State} (h : Holds P s) : Holds P (selftestWaiting s) := by
  unfold selftestWaiting
  try dsimp only
  repeat' with_reducible first | assumption | intro _ | apply enterSelftest_keeps | apply ite_keeps

theorem selftestDone_keeps {s : State} (h : Holds P s) : Holds P (selftestDone s) := by
  unfold selftestDone
  try dsimp only
  repeat' with_reducible first
    | assumption | intro _ | apply onHorn_keeps | apply onKeeper_keeps | apply stEnd_keeps | apply enterMode_keeps | apply afterEvent_keeps
    | apply setFault_keeps | apply clearFault_keeps | apply ite_keeps

theorem takeRequest_keeps {s : State} {u : User} {t : ModeTarget} (h : Holds P s) : Holds P (takeRequest s u t) := by
  unfold takeRequest
  try dsimp only
  repeat' with_reducible first
    | assumption | intro _ | apply bump_keeps | apply enterMode_keeps | apply afterEvent_keeps | apply enterSelftest_keeps | apply ite_keeps | split

theorem buttonPress_keeps {s : State} (h : Holds P s) : Holds P (buttonPress s) := by
  unfold buttonPress
  try dsimp only
  repeat' with_reducible first
    | assumption | intro _ | apply bump_keeps | apply onHorn_keeps | apply enterMode_keeps | apply afterEvent_keeps | apply enterSelftest_keeps
    | apply ite_keeps

theorem buttonHold_keeps {s : State} (h : Holds P s) : Holds P (buttonHold s) := by
  unfold buttonHold
  try dsimp only
  repeat' with_reducible first | assumption | intro _ | apply enterMode_keeps | apply afterEvent_keeps | apply ite_keeps

theorem verifyEnds_keeps {s : State} (h : Holds P s) : Holds P (verifyEnds s) := by
  unfold verifyEnds
  try dsimp only
  repeat' with_reducible first | assumption | intro _ | apply enterMode_keeps | apply afterEvent_keeps | apply ite_keeps

theorem commissionEnds_keeps {s : State} (h : Holds P s) : Holds P (commissionEnds s) := by
  unfold commissionEnds
  try dsimp only
  repeat' with_reducible first | assumption | intro _ | apply enterMode_keeps | apply afterEvent_keeps | apply ite_keeps

theorem hushEnds_keeps {s : State} (h : Holds P s) : Holds P (hushEnds s) := by
  unfold hushEnds
  try dsimp only
  repeat' with_reducible first | assumption | intro _ | apply enterMode_keeps | apply afterEvent_keeps | apply ite_keeps

theorem endOfLife_keeps {s : State} (h : Holds P s) : Holds P (endOfLife s) := by
  unfold endOfLife
  try dsimp only
  repeat' with_reducible first | assumption | intro _ | apply raise_keeps | apply afterEvent_keeps | apply ite_keeps

theorem lcBecameRetired_keeps {s : State} (h : Holds P s) : Holds P (lcBecameRetired s) := by
  unfold lcBecameRetired
  try dsimp only
  repeat' with_reducible first | assumption | intro _ | apply enterMode_keeps | apply afterEvent_keeps | apply ite_keeps

theorem invalidWord_keeps {s : State} {d : Die} {which : Nat} {word : Nat} {dom : Nat} (h : Holds P s) : Holds P (invalidWord s d which word dom) := by
  unfold invalidWord
  try dsimp only
  repeat' with_reducible first
    | assumption | intro _ | apply put_keeps | apply setBits_keeps | apply alertFlags_keeps | apply alertRecord_keeps | apply sendMode_keeps
    | apply enterMode_keeps | apply ite_keeps

theorem modeEvent_keeps {s : State} (e : ModeEvent) (h : Holds P s) : Holds P (modeEvent s e) := by
  cases e <;> simp only [modeEvent] <;> repeat' with_reducible first
    | assumption | intro _ | apply onKeeper_keeps | apply setFault_keeps | apply clearFault_keeps | apply takeKinds_keeps
    | apply refreshRelayed_keeps | apply setAlarmFw_keeps | apply selftestDue_keeps | apply selftestDone_keeps | apply takeRequest_keeps
    | apply buttonPress_keeps | apply buttonHold_keeps | apply verifyEnds_keeps | apply commissionEnds_keeps | apply hushEnds_keeps
    | apply endOfLife_keeps | apply lcBecameRetired_keeps | apply ite_keeps

theorem applyAt_keeps {s : State} {p : Nat} {evs : List ModeEvent} (h : Holds P s) : Holds P (applyAt p evs s).1 := by
  induction evs generalizing s with
  | nil => exact h
  | cons e evs ih =>
    unfold applyAt
    try dsimp only
    repeat' with_reducible first | apply ih | assumption | intro _ | apply modeEvent_keeps | apply fst_ite_keeps

theorem modeEvents_keeps {s : State} {evs : List ModeEvent} (h : Holds P s) : Holds P (modeEvents s evs) := by
  unfold modeEvents
  try dsimp only
  repeat' with_reducible first | assumption | intro _ | apply applyAt_keeps | apply foldl_keeps | apply foldl_pair_keeps

theorem resetFaults_keeps {s : State} (h : Holds P s) : Holds P (resetFaults s) := by
  unfold resetFaults
  try dsimp only
  repeat' with_reducible first | assumption | intro _ | apply setFault_keeps | apply foldl_keeps

theorem standing_keeps {s : State} {p : Nat} (h : Holds P s) : Holds P (standing s p) := by
  unfold standing
  try dsimp only
  repeat' with_reducible first | assumption | intro _ | apply backstopCheck_keeps | apply selftestWaiting_keeps | apply resetFaults_keeps | split

theorem modeCycle_keeps {s : State} {evs : List ModeEvent} (h : Holds P s) : Holds P (modeCycle s evs) := by
  unfold modeCycle
  try dsimp only
  repeat' with_reducible first | assumption | intro _ | apply applyAt_keeps | apply standing_keeps | apply foldl_keeps | apply foldl_pair_keeps

/-! ## Random -/

theorem rngDeliver_keeps {s : State} {who : RngUser} {ws : List Word} (h : Holds P s) : Holds P (rngDeliver s who ws) := by
  unfold rngDeliver
  try dsimp only
  repeat' with_reducible first | assumption | intro _ | apply onBn_keeps | apply onPage_keeps | apply sbQueue_keeps | split

theorem rngServe_keeps {s : State} {n : Nat} (h : Holds P s) : Holds P (rngServe n s) := by
  induction n generalizing s with
  | zero => exact h
  | succ n ih =>
    unfold rngServe
    split
    · apply ih
      repeat' with_reducible first | assumption | intro _ | apply onRng_keeps | apply rngDeliver_keeps
    · exact h

theorem rngAsk_keeps {s : State} {who : RngUser} {n : Nat} (h : Holds P s) : Holds P (rngAsk s who n) := by
  unfold rngAsk
  try dsimp only
  repeat' with_reducible first | assumption | intro _ | apply onRng_keeps | apply demand_keeps | apply rngServe_keeps

theorem rngForget_keeps {s : State} {p : RngUser → Bool} (h : Holds P s) : Holds P (rngForget s p) := by
  unfold rngForget
  try dsimp only
  repeat' with_reducible first | assumption | intro _ | apply onRng_keeps

theorem rngProduce_keeps {s : State} {raw : BitVec 64} (h : Holds P s) : Holds P (rngProduce s raw) := by
  unfold rngProduce
  try dsimp only
  repeat' with_reducible first | assumption | intro _ | apply onRng_keeps | apply rngServe_keeps | apply ite_keeps

theorem rngTake_keeps {s : State} {u : User} {n : Nat} (h : Holds P s) : Holds P (rngTake s u n).1 := by
  unfold rngTake
  try dsimp only
  repeat' with_reducible first
    | assumption | intro _ | apply bump_keeps | apply onRng_keeps | apply putU_keeps | apply demand_keeps | apply ite_keeps

theorem judgeWindow_keeps {s : State} {w : Nat} (h : Holds P s) : Holds P (judgeWindow s w) := by
  unfold judgeWindow
  try dsimp only
  repeat' with_reducible first | assumption | intro _ | apply bump_keeps | apply bumpBy_keeps | apply put_keeps | apply putS_keeps | apply ite_keeps

/-! ## Pages -/

theorem askMask_keeps {s : State} {u : User} (h : Holds P s) : Holds P (askMask s u) := by
  unfold askMask
  try dsimp only
  repeat' with_reducible first | assumption | intro _ | apply onPage_keeps | apply rngAsk_keeps | apply ite_keeps

theorem reseed_keeps {s : State} {u : User} {n : Nat} (h : Holds P s) : Holds P (reseed s u n) := by
  unfold reseed
  try dsimp only
  repeat' with_reducible first | assumption | intro _ | apply onPage_keeps | apply askMask_keeps | apply ite_keeps

theorem countBlocks_keeps {s : State} {u : User} {n : Nat} (h : Holds P s) : Holds P (countBlocks s u n) := by
  unfold countBlocks
  try dsimp only
  repeat' with_reducible first | assumption | intro _ | apply onPage_keeps | apply reseed_keeps | apply ite_keeps

theorem endJobs_keeps {s : State} {u : User} {status : Nat} (h : Holds P s) : Holds P (endJobs s u status) := by
  unfold endJobs
  try dsimp only
  repeat' with_reducible first | assumption | intro _ | apply respondJob_keeps | apply foldl_keeps

theorem clearPage_keeps {s : State} {u : User} (h : Holds P s) : Holds P (clearPage s u) := by
  unfold clearPage
  try dsimp only
  repeat' with_reducible first
    | assumption | intro _ | apply onBnUser_keeps | apply onPage_keeps | apply putU_keeps | apply endJobs_keeps | apply ite_keeps
    | apply foldl_keeps

theorem clearPages_keeps {s : State} (h : Holds P s) : Holds P (clearPages s) := by
  unfold clearPages
  try dsimp only
  repeat' with_reducible first | assumption | intro _ | apply clearPage_keeps | apply foldl_keeps

theorem endAuth_keeps {s : State} (h : Holds P s) : Holds P (endAuth s) := by
  unfold endAuth
  try dsimp only
  repeat' with_reducible first | assumption | intro _ | apply onTag_keeps | apply clearPage_keeps

theorem kdfDerive_keeps {s : State} {u : User} (h : Holds P s) : Holds P (kdfDerive s u).1 := by
  unfold kdfDerive
  try dsimp only
  repeat' with_reducible first
    | assumption | intro _ | apply onPage_keeps | apply putU_keeps | apply demand_keeps | apply reseed_keeps | apply ite_keeps | apply fst_ite_keeps

theorem expKey_keeps {s : State} {u : User} (h : Holds P s) : Holds P (expKey s u).1 := by
  unfold expKey
  try dsimp only
  repeat' with_reducible first
    | assumption | intro _ | apply bump_keeps | apply logDie_keeps | apply demand_keeps | apply reseed_keeps | apply ite_keeps | apply fst_ite_keeps

theorem aesStart_keeps {s : State} {u : User} (h : Holds P s) : Holds P (aesStart s u).1 := by
  unfold aesStart
  try dsimp only
  repeat' with_reducible first
    | assumption | intro _ | apply onPage_keeps | apply putU_keeps | apply demand_keeps | apply reseed_keeps | apply countBlocks_keeps
    | apply ite_keeps | apply fst_ite_keeps

theorem pageEnd_keeps {s : State} {u : User} (h : Holds P s) : Holds P (pageEnd s u).1 := by
  unfold pageEnd
  try dsimp only
  repeat' with_reducible first | assumption | intro _ | apply onPage_keeps | apply putU_keeps | apply ite_keeps | apply fst_ite_keeps

theorem feedChunk_keeps {s : State} {u : User} {d : Bytes} (h : Holds P s) : Holds P (feedChunk s u d).1 := by
  unfold feedChunk
  try dsimp only
  repeat' with_reducible first
    | assumption | intro _ | apply onPage_keeps | apply countBlocks_keeps | apply pageEnd_keeps | apply ite_keeps | apply fst_ite_keeps

theorem aesIn_keeps {s : State} {u : User} {d : Bytes} (h : Holds P s) : Holds P (aesIn s u d).1 := by
  unfold aesIn
  try dsimp only
  repeat' with_reducible first
    | assumption | intro _ | apply onPage_keeps | apply putU_keeps | apply demand_keeps | apply feedChunk_keeps | apply ite_keeps
    | apply fst_ite_keeps

theorem aesOut_keeps {s : State} {u : User} (h : Holds P s) : Holds P (aesOut s u).1 := by
  unfold aesOut
  try dsimp only
  repeat' with_reducible first | assumption | intro _ | apply onPage_keeps | apply ite_keeps | apply fst_ite_keeps

theorem aesClear_keeps {s : State} {u : User} (h : Holds P s) : Holds P (aesClear s u).1 := by
  unfold aesClear
  try dsimp only
  repeat' with_reducible first | assumption | intro _ | apply clearPage_keeps

theorem memWrite_keeps {s : State} {a : Nat} {d : Bytes} (h : Holds P s) : Holds P (memWrite s a d) := by
  unfold memWrite
  try dsimp only
  repeat' with_reducible first
    | assumption | intro _ | apply onMem_keeps | apply memOk_mk | apply Region.putAll_wf | apply Region.empty_wf | exact (‹MemOk _›).code
    | exact (‹MemOk _›).data | exact (‹MemOk _›).capt | exact (‹MemOk _›).scratch | exact (‹MemOk _›).flash | apply ite_keeps

theorem aesMemGo_keeps {s : State} (h : Holds P s) : Holds P (aesMemGo s).1 := by
  unfold aesMemGo
  try dsimp only
  repeat' with_reducible first
    | assumption | intro _ | apply onPage_keeps | apply notePeak_keeps | apply noteFull_keeps | apply demand_keeps | apply ite_keeps
    | apply fst_ite_keeps

theorem aesMemRun_keeps {s : State} {u : User} {k src dst n : Nat} (h : Holds P s) : Holds P (aesMemRun u k src dst n s).1 := by
  induction k generalizing s src dst n with
  | zero => exact h
  | succ k ih =>
    unfold aesMemRun
    try dsimp only
    repeat' with_reducible first
      | apply ih | assumption | intro _ | apply onPage_keeps | apply feedChunk_keeps | apply memWrite_keeps | apply fst_ite_keeps

theorem aesMemJob_keeps {s : State} {u : User} {src : Nat} {dst : Nat} {n : Nat} (h : Holds P s) : Holds P (aesMemJob s u src dst n) := by
  unfold aesMemJob
  try dsimp only
  repeat' with_reducible first
    | assumption | intro _ | apply onCore_keeps | apply onPage_keeps | apply aesMemRun_keeps | apply ite_keeps | apply fst_ite_keeps | split

theorem shaInit_keeps {s : State} {u : User} (h : Holds P s) : Holds P (shaInit s u).1 := by
  unfold shaInit
  try dsimp only
  repeat' with_reducible first | assumption | intro _ | apply onSha_keeps | apply ite_keeps | apply fst_ite_keeps

theorem shaData_keeps {s : State} {u : User} {d : Bytes} (h : Holds P s) : Holds P (shaData s u d).1 := by
  unfold shaData
  try dsimp only
  repeat' with_reducible first | assumption | intro _ | apply onSha_keeps | apply demand_keeps | apply ite_keeps | apply fst_ite_keeps

theorem shaLast_keeps {s : State} {u : User} {d : Bytes} (h : Holds P s) : Holds P (shaLast s u d).1 := by
  unfold shaLast
  try dsimp only
  repeat' with_reducible first
    | assumption | intro _ | apply onSha_keeps | apply putU_keeps | apply demand_keeps | apply ite_keeps | apply fst_ite_keeps

theorem shaPush_keeps {s : State} {j : ShaJob} (h : Holds P s) : Holds P (shaPush s j).1 := by
  unfold shaPush
  try dsimp only
  repeat' with_reducible first
    | assumption | intro _ | apply onSpindle_keeps | apply notePeak_keeps | apply noteFull_keeps | apply demand_keeps | ((apply sameMem_mk) <;> rfl)
    | apply ite_keeps | apply fst_ite_keeps

theorem shaMemGo_keeps {s : State} (h : Holds P s) : Holds P (shaMemGo s).1 := by
  unfold shaMemGo
  try dsimp only
  repeat' with_reducible first | assumption | intro _ | apply shaPush_keeps | apply ite_keeps | apply fst_ite_keeps

theorem shaMemJob_keeps {s : State} {a : Nat} {n : Nat} (h : Holds P s) : Holds P (shaMemJob s a n) := by
  unfold shaMemJob
  try dsimp only
  repeat' with_reducible first | assumption | intro _ | apply onCore_keeps | apply onSha_keeps

theorem shaHalf_keeps {s : State} {a : Nat} {n : Nat} {last : Bool} (h : Holds P s) : Holds P (shaHalf s a n last) := by
  unfold shaHalf
  try dsimp only
  repeat' with_reducible first | assumption | intro _ | apply onLoader_keeps

theorem loaderFail_keeps {s : State} {reason : Nat} (h : Holds P s) : Holds P (loaderFail s reason) := by
  unfold loaderFail
  try dsimp only
  repeat' with_reducible first
    | assumption | intro _ | apply onLoader_keeps | apply onMem_keeps | apply onSpindle_keeps | apply used_keeps | ((apply sameMem_mk) <;> rfl)
    | apply memOk_mk | apply Region.putAll_wf | apply Region.empty_wf | exact (‹MemOk _›).code | exact (‹MemOk _›).data | exact (‹MemOk _›).capt
    | exact (‹MemOk _›).scratch | exact (‹MemOk _›).flash

theorem zeroPage_keeps {s : State} {u : User} (h : Holds P s) : Holds P (zeroPage s u) := by
  unfold zeroPage
  try dsimp only
  repeat' with_reducible first | assumption | intro _ | apply onPage_keeps | apply clearPage_keeps

theorem zeroBn_keeps {s : State} {u : User} (h : Holds P s) : Holds P (zeroBn s u) := by
  unfold zeroBn
  try dsimp only
  repeat' with_reducible first | assumption | intro _ | apply onBnUser_keeps

theorem bnRelease_keeps {s : State} (h : Holds P s) : Holds P (bnRelease s) := by
  unfold bnRelease
  try dsimp only
  repeat' with_reducible first | assumption | intro _ | apply onBn_keeps

theorem bnAbort_keeps {s : State} {status : Nat} (h : Holds P s) : Holds P (bnAbort s status) := by
  unfold bnAbort
  try dsimp only
  repeat' with_reducible first
    | assumption | intro _ | apply sbQueue_keeps | apply rngForget_keeps | apply loaderFail_keeps | apply bnRelease_keeps | split

theorem zeroEngine_keeps {s : State} (h : Holds P s) : Holds P (zeroEngine s) := by
  unfold zeroEngine
  try dsimp only
  repeat' with_reducible first | assumption | intro _ | apply onBn_keeps | apply bnAbort_keeps

theorem zeroise_keeps {s : State} (h : Holds P s) : Holds P (zeroise s) := by
  unfold zeroise
  try dsimp only
  repeat' with_reducible first
    | assumption | intro _ | apply bump_keeps | apply raise_keeps | apply zeroPage_keeps | apply zeroBn_keeps | apply zeroEngine_keeps
    | apply foldl_keeps

/-! ## Skein -/

theorem monoStart_keeps {s : State} (h : Holds P s) : Holds P (monoStart s) := by
  unfold monoStart
  try dsimp only
  repeat' with_reducible first | assumption | intro _ | apply put_keeps | apply setBits_keeps | apply ite_keeps

theorem monoInc_keeps {s : State} {u : User} {n : Nat} (h : Holds P s) : Holds P (monoInc s u n).1 := by
  unfold monoInc
  try dsimp only
  repeat' with_reducible first
    | assumption | intro _ | apply put_keeps | apply putU_keeps | apply setBits_keeps | apply ite_keeps | apply fst_ite_keeps

theorem askSignature_keeps {s : State} {slot : Nat} {r : LogRec} (h : Holds P s) : Holds P (askSignature s slot r) := by
  unfold askSignature
  try dsimp only
  repeat' with_reducible first | assumption | intro _ | apply onLog_keeps | apply sbQueue_keeps

theorem formAlone_keeps {s : State} {slot : Nat} {r : LogRec} (h : Holds P s) : Holds P (formAlone s slot r) := by
  unfold formAlone
  try dsimp only
  repeat' with_reducible first | assumption | intro _ | apply onLog_keeps

theorem askClose_keeps {s : State} (h : Holds P s) : Holds P (askClose s) := by
  unfold askClose
  try dsimp only
  repeat' with_reducible first | assumption | intro _ | apply askSignature_keeps | apply ite_keeps

theorem placeRecord_keeps {s : State} {r : LogRec} (h : Holds P s) : Holds P (placeRecord s r) := by
  unfold placeRecord
  try dsimp only
  repeat' with_reducible first | assumption | intro _ | apply askSignature_keeps | apply formAlone_keeps | apply ite_keeps

theorem logTake_keeps {s : State} (h : Holds P s) : Holds P (logTake s) := by
  unfold logTake
  try dsimp only
  repeat' with_reducible first
    | assumption | intro _ | apply onLog_keeps | apply countSummary_keeps | apply unlogged_keeps | apply formAlone_keeps | apply placeRecord_keeps
    | apply ite_keeps | split

theorem noteSelftest_keeps {s : State} {f : Formed} (h : Holds P s) : Holds P (noteSelftest s f) := by
  unfold noteSelftest
  try dsimp only
  repeat' with_reducible first | assumption | intro _ | apply bump_keeps | apply put_keeps | apply stSigned_keeps | apply ite_keeps

theorem commitRecord_keeps {s : State} {f : Formed} (h : Holds P s) : Holds P (commitRecord s f) := by
  unfold commitRecord
  try dsimp only
  repeat' with_reducible first
    | assumption | intro _ | apply bump_keeps | apply onLog_keeps | apply put_keeps | apply raise_keeps | apply ite_keeps | split

theorem settleRecord_keeps {s : State} {f : Formed} (h : Holds P s) : Holds P (settleRecord s f) := by
  unfold settleRecord
  try dsimp only
  repeat' with_reducible first | assumption | intro _ | apply raise_keeps | apply noteSelftest_keeps | apply commitRecord_keeps | apply ite_keeps

theorem logWritten_keeps {s : State} (h : Holds P s) : Holds P (logWritten s) := by
  unfold logWritten
  try dsimp only
  repeat' with_reducible first | assumption | intro _ | apply askClose_keeps | apply settleRecord_keeps | apply ite_keeps | split

theorem signFailed_keeps {s : State} (h : Holds P s) : Holds P (signFailed s) := by
  unfold signFailed
  try dsimp only
  repeat' with_reducible first | assumption | intro _ | apply bump_keeps | apply onLog_keeps | apply formAlone_keeps | apply ite_keeps | split

theorem signPart_keeps {s : State} {step : Nat} {d : Bytes} (h : Holds P s) : Holds P (signPart s step d) := by
  unfold signPart
  try dsimp only
  repeat' with_reducible first | assumption | intro _ | apply onLog_keeps | apply signFailed_keeps | apply ite_keeps | apply fst_ite_keeps | split

theorem takeLogWrite_keeps {s : State} {m : SbMsg} (h : Holds P s) : Holds P (takeLogWrite s m).1 := by
  unfold takeLogWrite
  try dsimp only
  repeat' with_reducible first
    | assumption | intro _ | apply bump_keeps | apply onLog_keeps | apply notePeak_keeps | apply noteFull_keeps | apply ite_keeps
    | apply fst_ite_keeps

theorem dropQueue_keeps {s : State} {writing : Bool} (h : Holds P s) : Holds P (dropQueue s writing) := by
  unfold dropQueue
  try dsimp only
  repeat' with_reducible first | assumption | intro _ | apply onLog_keeps | apply unlogged_keeps | apply ite_keeps | apply foldl_keeps

theorem recoverLog_keeps {s : State} (h : Holds P s) : Holds P (recoverLog s).1 := by
  unfold recoverLog
  try dsimp only
  repeat' with_reducible first
    | assumption | intro _ | apply bump_keeps | apply settleRecord_keeps | apply dropQueue_keeps | apply ite_keeps | apply fst_ite_keeps

theorem haltLog_keeps {s : State} (h : Holds P s) : Holds P (haltLog s) := by
  unfold haltLog
  try dsimp only
  repeat' with_reducible first | assumption | intro _ | apply onLog_keeps

theorem tornWrite_keeps {s : State} (h : Holds P s) : Holds P (tornWrite s) := by
  unfold tornWrite
  try dsimp only
  repeat' with_reducible first | assumption | intro _ | apply onLog_keeps | apply used_keeps | apply ite_keeps | split

end Sys2Proof.Machine
end

