-- ==== Sys2Proof/Laws/KeepsReset.lean ====
section
/-! SUPPORT. The operations and commands of resets, the arbiter, the big-number engine, claims, traps, power domains and the sideband keep every stable property of the state. -/
namespace Sys2Proof.Machine
variable {P : State → Prop} [Stable P]

/-! ## Reset -/

theorem toDefault_keeps {s : State} {e : Nat} (h : Holds P s) : Holds P (toDefault s e) := by
  unfold toDefault
  try dsimp only
  repeat' with_reducible first | assumption | intro _ | apply put_keeps

theorem domainDefaults_keeps {s : State} {d : Domain} (h : Holds P s) : Holds P (domainDefaults s d) := by
  unfold domainDefaults
  try dsimp only
  repeat' with_reducible first | assumption | intro _ | apply onDom_keeps | apply toDefault_keeps

theorem cutFlash_keeps {s : State} (h : Holds P s) : Holds P (cutFlash s) := by
  unfold cutFlash
  try dsimp only
  repeat' with_reducible first
    | assumption | intro _ | apply onMem_keeps | apply used_keeps | apply memOk_mk | apply Region.putAll_wf | apply Region.empty_wf
    | exact (‹MemOk _›).code | exact (‹MemOk _›).data | exact (‹MemOk _›).capt | exact (‹MemOk _›).scratch | exact (‹MemOk _›).flash
    | apply ite_keeps | split

theorem orphanJobs_keeps {s : State} (h : Holds P s) : Holds P (orphanJobs s) := by
  unfold orphanJobs
  try dsimp only
  repeat' with_reducible first | assumption | intro _ | apply onKeeper_keeps

theorem memAfterReset_ok {m : Mem} (n : Nat) (h : MemOk m) : MemOk (memAfterReset m n) :=
  ⟨Region.empty_wf _, Region.empty_wf _, Region.empty_wf _, Region.empty_wf _, h.flash⟩

theorem freshSpindle_keeps {s : State} (h : Holds P s) : Holds P (freshSpindle s) := by
  have h1 := Stable.mem (P := P) s (memAfterReset s.spindle.mem s.free) (memAfterReset_ok _) h
  have h2 := Stable.xfer (P := P) _ {} {} (fun _ => Region.empty_wf _) (fun _ => Region.empty_wf _) h1
  exact Holds.same (P := P) h2 rfl rfl ⟨rfl, rfl, rfl⟩

theorem dropSpindle_keeps {s : State} (h : Holds P s) : Holds P (dropSpindle s) := by
  unfold dropSpindle
  try dsimp only
  repeat' with_reducible first
    | assumption | intro _ | apply dropEntries_keeps | apply onKeeper_keeps | apply onPly_keeps | apply onSbDie_keeps | apply plyReset_keeps
    | apply wordsCheck_keeps | apply endAuth_keeps | apply toDefault_keeps | apply domainDefaults_keeps | apply cutFlash_keeps
    | apply orphanJobs_keeps | apply freshSpindle_keeps | apply foldl_keeps

theorem countReset_keeps {s : State} {cause : Nat} (h : Holds P s) : Holds P (countReset s cause) := by
  unfold countReset
  try dsimp only
  repeat' with_reducible first | assumption | intro _ | apply bump_keeps | apply put_keeps

theorem releaseSpindle_keeps {s : State} (h : Holds P s) : Holds P (releaseSpindle s) := by
  unfold releaseSpindle
  try dsimp only
  repeat' with_reducible first
    | assumption | intro _ | apply onKeeper_keeps | apply onSpindle_keeps | apply sendTime_keeps | ((apply sameMem_mk) <;> rfl)

theorem releaseIfDue_keeps {s : State} (h : Holds P s) : Holds P (releaseIfDue s) := by
  unfold releaseIfDue
  try dsimp only
  repeat' with_reducible first | assumption | intro _ | apply releaseSpindle_keeps | apply ite_keeps

theorem finishReset_keeps {s : State} {cause : Nat} (h : Holds P s) : Holds P (finishReset s cause) := by
  unfold finishReset
  try dsimp only
  repeat' with_reducible first
    | assumption | intro _ | apply onDom_keeps | apply onKeeper_keeps | apply setDomState_keeps | apply dropSpindle_keeps | apply countReset_keeps
    | apply releaseIfDue_keeps | apply ite_keeps | apply foldl_keeps

theorem startReset_keeps {s : State} {cause : Nat} (h : Holds P s) : Holds P (startReset s cause) := by
  unfold startReset
  try dsimp only
  repeat' with_reducible first
    | assumption | intro _ | apply onKeeper_keeps | apply sbQueue_keeps | apply setAlarmFw_keeps | apply finishReset_keeps | apply ite_keeps

theorem quietReached_keeps {s : State} (h : Holds P s) : Holds P (quietReached s) := by
  unfold quietReached
  try dsimp only
  repeat' with_reducible first | assumption | intro _ | apply finishReset_keeps | split

theorem sendHello_keeps {s : State} {d : Die} {cause : Nat} (h : Holds P s) : Holds P (sendHello s d cause) := by
  unfold sendHello
  try dsimp only
  repeat' with_reducible first | assumption | intro _ | apply sbQueue_keeps

theorem dropFlyer_keeps {s : State} (h : Holds P s) : Holds P (dropFlyer s) := by
  unfold dropFlyer
  try dsimp only
  repeat' with_reducible first | assumption | intro _ | apply onFlyer_keeps | apply onSbDie_keeps | apply lostHold_keeps | apply plyReset_keeps

theorem startFlyer_keeps {s : State} {cause : Nat} (h : Holds P s) : Holds P (startFlyer s cause) := by
  unfold startFlyer
  try dsimp only
  repeat' with_reducible first | assumption | intro _ | apply onFlyer_keeps | apply sendHello_keeps | apply dropFlyer_keeps

theorem restartFlyer_keeps {s : State} {cause : Nat} (h : Holds P s) : Holds P (restartFlyer s cause) := by
  unfold restartFlyer
  try dsimp only
  repeat' with_reducible first | assumption | intro _ | apply onSense_keeps | apply startFlyer_keeps

theorem resetFlyerDomains_keeps {s : State} (h : Holds P s) : Holds P (resetFlyerDomains s) := by
  unfold resetFlyerDomains
  try dsimp only
  repeat' with_reducible first
    | assumption | intro _ | apply onFlyer_keeps | apply optNext_keeps | apply heatNext_keeps | apply coNext_keeps | apply auxNext_keeps

theorem storeN_keeps {s : State} {u : User} {e : Nat} {v : Nat} (h : Holds P s) : Holds P (storeN s u e v) := by
  unfold storeN
  try dsimp only
  repeat' with_reducible first
    | assumption | intro _ | apply put_keeps | apply burn_keeps | apply monoInc_keeps | exact pair_keeps (monoInc_keeps ‹_›) ‹_› | apply ite_keeps
    | apply fst_ite_keeps | split

theorem storeJob_keeps {s : State} {j : NvmJob} (h : Holds P s) : Holds P (storeJob s j) := by
  unfold storeJob
  try dsimp only
  repeat' with_reducible first
    | assumption | intro _ | apply put_keeps | apply writeRows_keeps | apply storeN_keeps | apply ite_keeps | apply fst_ite_keeps
    | apply foldl_keeps

theorem cutJobs_keeps {s : State} (h : Holds P s) : Holds P (cutJobs s) := by
  unfold cutJobs
  try dsimp only
  repeat' with_reducible first
    | assumption | intro _ | apply onKeeper_keeps | apply used_keeps | apply storeJob_keeps | apply ite_keeps | apply foldl_keeps

theorem setLcRow_keeps {s : State} {row : Nat} {v : Nat} (h : Holds P s) : Holds P (setLcRow s row v) := by
  unfold setLcRow
  try dsimp only
  repeat' with_reducible first | assumption | intro _ | apply onKeeper_keeps

theorem cutFuses_keeps {s : State} (h : Holds P s) : Holds P (cutFuses s) := by
  unfold cutFuses
  try dsimp only
  repeat' with_reducible first | assumption | intro _ | apply onKeeper_keeps | apply used_keeps | apply setLcRow_keeps | apply foldl_keeps | split

theorem powerUp_keeps {s : State} {mv : Nat} (h : Holds P s) : Holds P (powerUp s mv) := by
  unfold powerUp
  try dsimp only
  repeat' with_reducible first
    | assumption | intro _ | apply onKeeper_keeps | apply used_keeps | apply monoStart_keeps | apply startFlyer_keeps | apply ite_keeps

theorem powerLost_keeps {s : State} {mv : Nat} (h : Holds P s) : Holds P (powerLost s mv) := by
  unfold powerLost
  try dsimp only
  repeat' with_reducible first
    | assumption | intro _ | apply onKeeper_keeps | apply onSb_keeps | apply onSbDie_keeps | apply put_keeps | apply lostHold_keeps
    | apply haltLog_keeps | apply tornWrite_keeps | apply dropSpindle_keeps | apply dropFlyer_keeps | apply cutJobs_keeps | apply cutFuses_keeps
    | apply ite_keeps

theorem startModes_keeps {s : State} (h : Holds P s) : Holds P (startModes s) := by
  unfold startModes
  try dsimp only
  repeat' with_reducible first
    | assumption | intro _ | apply onKeeper_keeps | apply put_keeps | apply setBits_keeps | apply alertFlags_keeps | apply alertRecord_keeps
    | apply sendMode_keeps | apply ite_keeps

theorem keeperPor_keeps {s : State} {testmode : Bool} (h : Holds P s) : Holds P (keeperPor s testmode) := by
  unfold keeperPor
  try dsimp only
  repeat' with_reducible first
    | assumption | intro _ | apply dropEntries_keeps | apply onDom_keeps | apply onKeeper_keeps | apply onSbDie_keeps | apply onTag_keeps
    | apply put_keeps | apply used_keeps | apply logKeeper_keeps | apply sendDomain_keeps | apply monoStart_keeps | apply recoverLog_keeps
    | apply tornWrite_keeps | apply dropSpindle_keeps | apply countReset_keeps | apply sendHello_keeps | apply resetFlyerDomains_keeps
    | apply cutJobs_keeps | apply cutFuses_keeps | apply startModes_keeps | apply ite_keeps | apply fst_ite_keeps | apply foldl_keeps

theorem execVddInValid_keeps {mv : Nat} {s : State} (h : Holds P s) : Keeps P (execVddInValid mv s) := by
  unfold execVddInValid
  apply next_keeps
  repeat' with_reducible first | assumption | intro _ | apply powerUp_keeps

theorem execVddInLost_keeps {mv : Nat} {s : State} (h : Holds P s) : Keeps P (execVddInLost mv s) := by
  unfold execVddInLost
  apply next_keeps
  repeat' with_reducible first | assumption | intro _ | apply powerLost_keeps

theorem execKeeperPowerOnReset_keeps {testmode : Bool} {s : State} (h : Holds P s) : Keeps P (execKeeperPowerOnReset testmode s) := by
  unfold execKeeperPowerOnReset
  apply next_keeps
  repeat' with_reducible first | assumption | intro _ | apply keeperPor_keeps

theorem execNrstAssert_keeps {s : State} (h : Holds P s) : Keeps P (execNrstAssert s) := by
  unfold execNrstAssert
  apply next_keeps
  repeat' with_reducible first | assumption | intro _ | apply onKeeper_keeps | apply startReset_keeps

theorem execNrstRelease_keeps {s : State} (h : Holds P s) : Keeps P (execNrstRelease s) := by
  unfold execNrstRelease
  apply next_keeps
  repeat' with_reducible first | assumption | intro _ | apply onKeeper_keeps | apply releaseIfDue_keeps

/-! ## Arbiter -/

theorem setAsk_keeps {s : State} {j : Nat} {a : ArbAsk} (h : Holds P s) : Holds P (setAsk s j a) := by
  unfold setAsk
  try dsimp only
  repeat' with_reducible first | assumption | intro _ | apply onSpindle_keeps | ((apply sameMem_mk) <;> rfl)

theorem beginAsk_keeps {s : State} {a : Nat × Nat × Nat} (h : Holds P s) : Holds P (beginAsk s a) := by
  unfold beginAsk
  try dsimp only
  repeat' with_reducible first | assumption | intro _ | apply setAsk_keeps | apply ite_keeps

theorem askLess_keeps {s : State} {j : Nat} (h : Holds P s) : Holds P (askLess s j) := by
  unfold askLess
  try dsimp only
  repeat' with_reducible first | assumption | intro _ | apply setAsk_keeps

theorem windowStart_keeps {s : State} {k : Nat} (h : Holds P s) : Holds P (windowStart s k) := by
  unfold windowStart
  try dsimp only
  repeat' with_reducible first | assumption | intro _ | apply onArb_keeps

theorem wrapApply_keeps {s : State} {k : Nat} (h : Holds P s) : Holds P (wrapApply s k) := by
  unfold wrapApply
  try dsimp only
  repeat' with_reducible first
    | assumption | intro _ | apply onArb_keeps | apply put_keeps | apply windowStart_keeps | apply ite_keeps | apply fst_ite_keeps
    | apply foldl_keeps

theorem windowTick_keeps {s : State} {k : Nat} (h : Holds P s) : Holds P (windowTick s k) := by
  unfold windowTick
  try dsimp only
  repeat' with_reducible first | assumption | intro _ | apply onArb_keeps | apply windowStart_keeps | apply ite_keeps

theorem arbClock_keeps {s : State} {k : Nat} (h : Holds P s) : Holds P (arbClock s k) := by
  unfold arbClock
  try dsimp only
  repeat' with_reducible first | assumption | intro _ | apply put_keeps | apply wrapApply_keeps | apply windowTick_keeps | apply ite_keeps

theorem delayed_keeps {s : State} {j : Nat} (h : Holds P s) : Holds P (delayed s j) := by
  unfold delayed
  try dsimp only
  repeat' with_reducible first
    | assumption | intro _ | apply bump_keeps | apply onSpindle_keeps | apply put_keeps | ((apply sameMem_mk) <;> rfl) | apply ite_keeps

theorem delays_keeps {s : State} {stalled : List Nat} (h : Holds P s) : Holds P (delays s stalled) := by
  unfold delays
  try dsimp only
  repeat' with_reducible first
    | assumption | intro _ | apply onSpindle_keeps | apply delayed_keeps | ((apply sameMem_mk) <;> rfl) | apply ite_keeps | apply foldl_keeps

theorem grant_keeps {s : State} {k : Nat} {j : Nat} {empty : Bool} (h : Holds P s) : Holds P (grant s k j empty) := by
  unfold grant
  try dsimp only
  repeat' with_reducible first | assumption | intro _ | apply bump_keeps | apply onArb_keeps | apply put_keeps | apply askLess_keeps | apply ite_keeps

theorem arbDecide_keeps {s : State} {k : Nat} {stalled : List Nat} {withdrawn : List Nat}
    (h : Holds P s) : Holds P (arbDecide s k stalled withdrawn) := by
  unfold arbDecide
  try dsimp only
  repeat' with_reducible first
    | assumption | intro _ | apply bump_keeps | apply onArb_keeps | apply put_keeps | apply grant_keeps | apply ite_keeps | split

theorem countCycle_keeps {s : State} (h : Holds P s) : Holds P (countCycle s) := by
  unfold countCycle
  try dsimp only
  repeat' with_reducible first | assumption | intro _ | apply onCore_keeps

theorem drainResults_keeps {s : State} (h : Holds P s) : Holds P (drainResults s) := by
  unfold drainResults
  try dsimp only
  repeat' with_reducible first
    | assumption | intro _ | apply onSpindle_keeps | apply resultUnit_keeps | ((apply sameMem_mk) <;> rfl) | apply ite_keeps | apply foldl_keeps

theorem arbDecision_keeps {s : State} {begins : List (Nat × Nat × Nat)} {stalled : List Nat} {withdrawn : List Nat}
    (h : Holds P s) : Holds P (arbDecision s begins stalled withdrawn) := by
  unfold arbDecision
  try dsimp only
  repeat' with_reducible first
    | assumption | intro _ | apply setAsk_keeps | apply beginAsk_keeps | apply arbClock_keeps | apply delays_keeps | apply arbDecide_keeps
    | apply countCycle_keeps | apply drainResults_keeps | apply ite_keeps | apply foldl_keeps

theorem arbLeave_keeps {s : State} (h : Holds P s) : Holds P (arbLeave s) := by
  unfold arbLeave
  try dsimp only
  repeat' with_reducible first
    | assumption | intro _ | apply onArb_keeps | apply onSpindle_keeps | apply put_keeps | ((apply sameMem_mk) <;> rfl) | apply foldl_keeps

theorem arbReturn_keeps {s : State} (h : Holds P s) : Holds P (arbReturn s) := by
  unfold arbReturn
  try dsimp only
  repeat' with_reducible first | assumption | intro _ | apply put_keeps | apply foldl_keeps

theorem arbHold_keeps {s : State} {e : Nat} {v : Nat} (h : Holds P s) : Holds P (arbHold s e v) := by
  unfold arbHold
  try dsimp only
  repeat' with_reducible first | assumption | intro _ | apply onArb_keeps | apply put_keeps

theorem execArbDecision_keeps {begins : List (Nat × Nat × Nat)} {stalled : List Nat} {withdrawn : List Nat} {s : State}
    (h : Holds P s) : Keeps P (execArbDecision begins stalled withdrawn s) := by
  unfold execArbDecision
  apply next_keeps
  repeat' with_reducible first | assumption | intro _ | apply arbDecision_keeps

theorem execCreditWindowStart_keeps {res : Nat} {s : State} (h : Holds P s) : Keeps P (execCreditWindowStart res s) := by
  unfold execCreditWindowStart
  apply next_keeps
  repeat' with_reducible first | assumption | intro _ | apply windowStart_keeps | apply ite_keeps

theorem execSlotWrapApply_keeps {res : Nat} {s : State} (h : Holds P s) : Keeps P (execSlotWrapApply res s) := by
  unfold execSlotWrapApply
  apply next_keeps
  repeat' with_reducible first | assumption | intro _ | apply wrapApply_keeps | apply ite_keeps

/-! ## BigNum -/

theorem bnGo_keeps {s : State} {u : User} (h : Holds P s) : Holds P (bnGo s u).1 := by
  unfold bnGo
  try dsimp only
  repeat' with_reducible first
    | assumption | intro _ | apply onBn_keeps | apply onBnUser_keeps | apply notePeak_keeps | apply noteFull_keeps | apply demand_keeps
    | apply ite_keeps | apply fst_ite_keeps

theorem bnCount_keeps {s : State} {status : Nat} {detail : Nat} (h : Holds P s) : Holds P (bnCount s status detail) := by
  unfold bnCount
  try dsimp only
  repeat' with_reducible first | assumption | intro _ | apply bump_keeps | apply ite_keeps

theorem bnFinish_keeps {s : State} {u : User} {status : Nat} {detail : Nat} (h : Holds P s) : Holds P (bnFinish s u status detail) := by
  unfold bnFinish
  try dsimp only
  repeat' with_reducible first | assumption | intro _ | apply onBnUser_keeps | apply onCore_keeps | apply bnCount_keeps | apply ite_keeps

theorem bnDecode_keeps {s : State} {u : User} (h : Holds P s) : Holds P (bnDecode s u) := by
  unfold bnDecode
  try dsimp only
  repeat' with_reducible first | assumption | intro _ | apply onBn_keeps | apply onBnUser_keeps | apply bnFinish_keeps | apply ite_keeps | split

theorem bnStartUser_keeps {s : State} {u : User} (h : Holds P s) : Holds P (bnStartUser s u) := by
  unfold bnStartUser
  try dsimp only
  repeat' with_reducible first
    | assumption | intro _ | apply onBn_keeps | apply onBnUser_keeps | apply rngAsk_keeps | apply bnDecode_keeps | apply ite_keeps
    | apply fst_ite_keeps | split

theorem bnStart_keeps {s : State} (h : Holds P s) : Holds P (bnStart s) := by
  unfold bnStart
  try dsimp only
  repeat' with_reducible first | assumption | intro _ | apply onBn_keeps | apply rngAsk_keeps | apply bnStartUser_keeps | apply ite_keeps | split

theorem bnForget_keeps {s : State} (h : Holds P s) : Holds P (bnForget s) := by
  unfold bnForget
  try dsimp only
  repeat' with_reducible first | assumption | intro _ | apply rngForget_keeps

theorem bnRngExpiry_keeps {s : State} (h : Holds P s) : Holds P (bnRngExpiry s) := by
  unfold bnRngExpiry
  try dsimp only
  repeat' with_reducible first | assumption | intro _ | apply bump_keeps | apply onBn_keeps | apply bnForget_keeps | apply ite_keeps

theorem bnResult_keeps {s : State} {u : User} {r : Bytes} (h : Holds P s) : Holds P (bnResult s u r) := by
  unfold bnResult
  try dsimp only
  repeat' with_reducible first | assumption | intro _ | apply putU_keeps | apply bnFinish_keeps

theorem bnConsume_keeps {s : State} {u : User} {src : Nat} (h : Holds P s) : Holds P (bnConsume s u src) := by
  unfold bnConsume
  try dsimp only
  repeat' with_reducible first | assumption | intro _ | apply onBnUser_keeps | apply ite_keeps

theorem bnSign_keeps {s : State} {u : User} {src : Nat} (h : Holds P s) : Holds P (bnSign s u src) := by
  unfold bnSign
  try dsimp only
  repeat' with_reducible first | assumption | intro _ | apply bump_keeps | apply putU_keeps | apply bnFinish_keeps | apply ite_keeps

theorem bnVerify_keeps {s : State} {u : User} (h : Holds P s) : Holds P (bnVerify s u) := by
  unfold bnVerify
  try dsimp only
  repeat' with_reducible first | assumption | intro _ | apply bnFinish_keeps | split

theorem bnEcdh_keeps {s : State} {u : User} {src : Nat} (h : Holds P s) : Holds P (bnEcdh s u src) := by
  unfold bnEcdh
  try dsimp only
  repeat' with_reducible first | assumption | intro _ | apply bnFinish_keeps | apply bnResult_keeps | apply bnConsume_keeps | split

theorem bnShared_keeps {s : State} {u : User} {src : Nat} (h : Holds P s) : Holds P (bnShared s u src) := by
  unfold bnShared
  try dsimp only
  repeat' with_reducible first | assumption | intro _ | apply bnFinish_keeps | apply bnResult_keeps | apply bnConsume_keeps | apply ite_keeps

theorem bnEdVerify_keeps {s : State} {u : User} (h : Holds P s) : Holds P (bnEdVerify s u) := by
  unfold bnEdVerify
  try dsimp only
  repeat' with_reducible first | assumption | intro _ | apply bnFinish_keeps | split

theorem bnUserDone_keeps {s : State} {u : User} {op : Nat} {src : Nat} (h : Holds P s) : Holds P (bnUserDone s u op src) := by
  unfold bnUserDone
  try dsimp only
  repeat' with_reducible first
    | assumption | intro _ | apply onBnUser_keeps | apply bnResult_keeps | apply bnSign_keeps | apply bnVerify_keeps | apply bnEcdh_keeps
    | apply bnShared_keeps | apply bnEdVerify_keeps | split

theorem bnKeeperDone_keeps {s : State} {digest : Bytes} (h : Holds P s) : Holds P (bnKeeperDone s digest) := by
  unfold bnKeeperDone
  try dsimp only
  repeat' with_reducible first | assumption | intro _ | apply bump_keeps | apply sbQueue_keeps | apply foldl_keeps

theorem bnReseed_keeps {s : State} {u : User} {op : Nat} {src : Nat} (h : Holds P s) : Holds P (bnReseed s u op src) := by
  unfold bnReseed
  try dsimp only
  repeat' with_reducible first | assumption | intro _ | apply reseed_keeps | apply ite_keeps

theorem bnUserEnd_keeps {s : State} {u : User} {op : Nat} {src : Nat} (h : Holds P s) : Holds P (bnUserEnd s u op src) := by
  unfold bnUserEnd
  try dsimp only
  repeat' with_reducible first
    | assumption | intro _ | apply onBn_keeps | apply rngAsk_keeps | apply askMask_keeps | apply bnRelease_keeps | apply bnFinish_keeps
    | apply bnUserDone_keeps | apply bnReseed_keeps | apply ite_keeps

theorem bnComplete_keeps {s : State} (h : Holds P s) : Holds P (bnComplete s) := by
  unfold bnComplete
  try dsimp only
  repeat' with_reducible first
    | assumption | intro _ | apply onBn_keeps | apply bnRelease_keeps | apply bnAbort_keeps | apply bnKeeperDone_keeps | apply bnUserEnd_keeps
    | apply ite_keeps | split

theorem bnCandidateTimeout_keeps {s : State} (h : Holds P s) : Holds P (bnCandidateTimeout s) := by
  unfold bnCandidateTimeout
  try dsimp only
  repeat' with_reducible first | assumption | intro _ | apply bnRelease_keeps | apply bnFinish_keeps | apply bnForget_keeps | apply ite_keeps | split

theorem bnFeed_keeps {s : State} {u : User} {d : Bytes} (h : Holds P s) : Holds P (bnFeed s u d) := by
  unfold bnFeed
  try dsimp only
  repeat' with_reducible first | assumption | intro _ | apply onBnUser_keeps

theorem bnMsg_keeps {s : State} {u : User} {d : Bytes} (h : Holds P s) : Holds P (bnMsg s u d).1 := by
  unfold bnMsg
  try dsimp only
  repeat' with_reducible first | assumption | intro _ | apply bnFeed_keeps | apply ite_keeps | apply fst_ite_keeps

theorem bnMemGo_keeps {s : State} (h : Holds P s) : Holds P (bnMemGo s).1 := by
  unfold bnMemGo
  try dsimp only
  repeat' with_reducible first | assumption | intro _ | apply bnFeed_keeps | apply ite_keeps | apply fst_ite_keeps

theorem bnMsgTimeout_keeps {s : State} {u : User} (h : Holds P s) : Holds P (bnMsgTimeout s u) := by
  unfold bnMsgTimeout
  try dsimp only
  repeat' with_reducible first | assumption | intro _ | apply onBn_keeps | apply bnFinish_keeps | apply ite_keeps

theorem bnClear_keeps {s : State} {u : User} (h : Holds P s) : Holds P (bnClear s u).1 := by
  unfold bnClear
  try dsimp only
  repeat' with_reducible first | assumption | intro _ | apply onBn_keeps | apply onBnUser_keeps | apply ite_keeps

theorem bnDigest_keeps {s : State} {step : Nat} {half : Bytes} (h : Holds P s) : Holds P (bnDigest s step half) := by
  unfold bnDigest
  try dsimp only
  repeat' with_reducible first | assumption | intro _ | apply onBn_keeps | apply demand_keeps | split

/-! ## Claims -/

theorem claimFree_keeps {s : State} {g : Nat} (h : Holds P s) : Holds P (claimFree s g) := by
  unfold claimFree
  try dsimp only
  repeat' with_reducible first | assumption | intro _ | apply put_keeps | apply raise_keeps

theorem claimWrite_keeps {s : State} {u : User} {g : Nat} {v : Nat} (h : Holds P s) : Holds P (claimWrite s u g v).1 := by
  unfold claimWrite
  try dsimp only
  repeat' with_reducible first
    | assumption | intro _ | apply put_keeps | apply raise_keeps | apply claimFree_keeps | apply ite_keeps | apply fst_ite_keeps

theorem releaseClaims_keeps {s : State} {u : User} (h : Holds P s) : Holds P (releaseClaims s u) := by
  unfold releaseClaims
  try dsimp only
  repeat' with_reducible first | assumption | intro _ | apply claimFree_keeps | apply ite_keeps | apply foldl_keeps

theorem dropWaiting_keeps {s : State} {u : User} {p : Request → Bool} (h : Holds P s) : Holds P (dropWaiting s u p) := by
  unfold dropWaiting
  try dsimp only
  repeat' with_reducible first
    | assumption | intro _ | apply onKeeper_keeps | apply onPage_keeps | apply onSpindle_keeps | ((apply sameMem_mk) <;> rfl)


theorem dropRequests_keeps {s : State} {u : User} (h : Holds P s) : Holds P (dropRequests s u) := by
  unfold dropRequests
  try dsimp only
  repeat' with_reducible first | assumption | intro _ | apply onDict_keeps | apply dropWaiting_keeps | ((apply sameXfer_mk) <;> rfl)

theorem dropStaged_keeps {s : State} {u : User} (h : Holds P s) : Holds P (dropStaged s u) := by
  unfold dropStaged
  try dsimp only
  repeat' with_reducible first | assumption | intro _ | apply onDict_keeps | ((apply sameXfer_mk) <;> rfl)

theorem portReset_keeps {s : State} {p : Port} (h : Holds P s) : Holds P (portReset s p) := by
  unfold portReset
  try dsimp only
  repeat' with_reducible first
    | assumption | intro _ | apply bump_keeps | apply onPort_keeps | apply answer_keeps | apply clearPage_keeps | apply releaseClaims_keeps
    | apply dropRequests_keeps | apply dropStaged_keeps

theorem countPageLosses_keeps {s : State} (h : Holds P s) : Holds P (countPageLosses s) := by
  unfold countPageLosses
  try dsimp only
  repeat' with_reducible first | assumption | intro _ | apply bump_keeps | apply ite_keeps | apply foldl_keeps

/-! ## Hart -/

theorem lockUp_keeps {s : State} {cause : Word} {epc : Word} (h : Holds P s) : Holds P (lockUp s cause epc) := by
  unfold lockUp
  try dsimp only
  repeat' with_reducible first | assumption | intro _ | apply onSpindle_keeps | apply put_keeps | apply sbQueue_keeps | ((apply sameMem_mk) <;> rfl)

theorem raiseTrap_keeps {s : State} {cause : Nat} {tval : Word} (h : Holds P s) : Holds P (raiseTrap s cause tval) := by
  unfold raiseTrap
  try dsimp only
  repeat' with_reducible first | assumption | intro _ | apply bump_keeps | apply onCore_keeps | apply put_keeps | apply lockUp_keeps | apply ite_keeps

theorem accessFault_keeps {s : State} {cause : Nat} {addr : Word} {kind : Nat} {status : Nat} {regions : Nat}
    (h : Holds P s) : Holds P (accessFault s cause addr kind status regions) := by
  unfold accessFault
  try dsimp only
  repeat' with_reducible first | assumption | intro _ | apply bump_keeps | apply onCore_keeps | apply raiseTrap_keeps | apply ite_keeps

theorem takeIrq_keeps {s : State} {cause : Nat} (h : Holds P s) : Holds P (takeIrq s cause) := by
  unfold takeIrq
  try dsimp only
  repeat' with_reducible first | assumption | intro _ | apply bump_keeps | apply onCore_keeps

theorem setCodeLock_keeps {s : State} {byMode : Bool} (h : Holds P s) : Holds P (setCodeLock s byMode) := by
  unfold setCodeLock
  try dsimp only
  repeat' with_reducible first | assumption | intro _ | apply onCore_keeps | apply put_keeps | apply ite_keeps

theorem writeSvctl_keeps {s : State} {v : Word} (h : Holds P s) : Holds P (writeSvctl s v) := by
  unfold writeSvctl
  try dsimp only
  repeat' with_reducible first | assumption | intro _ | apply onCore_keeps | apply setCodeLock_keeps | apply ite_keeps

theorem writeMpu_keeps {s : State} {a : Nat} {v : Word} (h : Holds P s) : Holds P (writeMpu s a v) := by
  unfold writeMpu
  try dsimp only
  repeat' with_reducible first | assumption | intro _ | apply onCore_keeps | apply put_keeps | apply ite_keeps

theorem writeCsr_keeps {s : State} {a : Nat} {v : Word} {dbg : Bool} (h : Holds P s) : Holds P (writeCsr s a v dbg) := by
  unfold writeCsr
  try dsimp only
  repeat' with_reducible first | assumption | intro _ | apply onCore_keeps | apply writeSvctl_keeps | apply writeMpu_keeps | apply ite_keeps

theorem setXfer_keeps {s : State} {user : Bool} {a : Nat} {b : Bytes} (h : Holds P s) :
    Holds P (setXfer s user ((xferBuf s user).putAll a b)) := by
  cases user
  · exact Holds.same (P := P) (Stable.xfer (P := P) s _ s.spindle.dict.xferU (Region.putAll_wf s.spindle.dict.xferM a b) id h) rfl rfl ⟨rfl, rfl, rfl⟩
  · exact Holds.same (P := P) (Stable.xfer (P := P) s s.spindle.dict.xferM _ id (Region.putAll_wf s.spindle.dict.xferU a b) h) rfl rfl ⟨rfl, rfl, rfl⟩

theorem enterDebug_keeps {s : State} {cause : Nat} (h : Holds P s) : Holds P (enterDebug s cause) := by
  unfold enterDebug
  try dsimp only
  repeat' with_reducible first | assumption | intro _ | apply bump_keeps | apply onCore_keeps | apply put_keeps

theorem triggerAct_keeps {s : State} {action : Nat} {tval : Word} (h : Holds P s) : Holds P (triggerAct s action tval) := by
  unfold triggerAct
  try dsimp only
  repeat' with_reducible first | assumption | intro _ | apply raiseTrap_keeps | apply enterDebug_keeps | apply ite_keeps

/-! ## Power -/

theorem leaveOff_keeps {s : State} (h : Holds P s) : Holds P (leaveOff s) := by
  unfold leaveOff
  try dsimp only
  repeat' with_reducible first | assumption | intro _ | apply countReset_keeps | apply releaseIfDue_keeps

theorem wakeDomain_keeps {s : State} {src : Nat} {owner : Domain} {d : Domain} (h : Holds P s) : Holds P (wakeDomain s src owner d) := by
  unfold wakeDomain
  try dsimp only
  repeat' with_reducible first | assumption | intro _ | apply raiseDomain_keeps | apply leaveOff_keeps | apply ite_keeps

theorem wake_keeps {s : State} {src : Nat} {more : List Domain} (h : Holds P s) : Holds P (wake s src more) := by
  unfold wake
  try dsimp only
  repeat' with_reducible first | assumption | intro _ | apply wakeDomain_keeps | apply ite_keeps | apply foldl_keeps | split

theorem levelWake_keeps {s : State} {d : Domain} (h : Holds P s) : Holds P (levelWake s d) := by
  unfold levelWake
  try dsimp only
  repeat' with_reducible first | assumption | intro _ | apply wakeDomain_keeps | split

theorem processSwitches_keeps {s : State} (h : Holds P s) : Holds P (processSwitches s) := by
  unfold processSwitches
  try dsimp only
  repeat' with_reducible first | assumption | intro _ | apply onPads_keeps | apply ite_keeps

theorem exitComplete_keeps {s : State} {d : Domain} (h : Holds P s) : Holds P (exitComplete s d) := by
  unfold exitComplete
  try dsimp only
  repeat' with_reducible first
    | assumption | intro _ | apply turnOn_keeps | apply startWaiting_keeps | apply arbReturn_keeps | apply processSwitches_keeps | apply ite_keeps
    | split

theorem beginEntry_keeps {s : State} {d : Domain} {rest : Nat} (h : Holds P s) : Holds P (beginEntry s d rest) := by
  unfold beginEntry
  try dsimp only
  repeat' with_reducible first
    | assumption | intro _ | apply onDom_keeps | apply setDomNow_keeps | apply startReset_keeps | apply wake_keeps | apply levelWake_keeps
    | apply ite_keeps

theorem tryEntry_keeps {s : State} {d : Domain} {retry : Bool} (h : Holds P s) : Holds P (tryEntry s d retry) := by
  unfold tryEntry
  try dsimp only
  repeat' with_reducible first | assumption | intro _ | apply onDom_keeps | apply refuse_keeps | apply beginEntry_keeps | apply ite_keeps | split

theorem entryStart_keeps {s : State} {d : Domain} {retry : Bool} (h : Holds P s) : Holds P (entryStart s d retry) := by
  unfold entryStart
  try dsimp only
  repeat' with_reducible first | assumption | intro _ | apply arbLeave_keeps | apply tryEntry_keeps | apply ite_keeps

theorem loseContents_keeps {s : State} {d : Domain} (h : Holds P s) : Holds P (loseContents s d) := by
  unfold loseContents
  try dsimp only
  repeat' with_reducible first
    | assumption | intro _ | apply dropEntries_keeps | apply onCan_keeps | apply onCore_keeps | apply onMem_keeps | apply onPads_keeps
    | apply onPage_keeps | apply onRng_keeps | apply onSense_keeps | apply onSpindle_keeps | apply onTag_keeps | apply put_keeps | apply used_keeps
    | apply rngForget_keeps | apply clearPage_keeps | apply clearPages_keeps | apply endAuth_keeps | apply portReset_keeps
    | apply countPageLosses_keeps | ((apply sameMem_mk) <;> rfl) | apply memOk_mk | apply Region.putAll_wf | apply Region.empty_wf
    | exact (‹MemOk _›).code | exact (‹MemOk _›).data | exact (‹MemOk _›).capt | exact (‹MemOk _›).scratch | exact (‹MemOk _›).flash
    | apply foldl_keeps | split

theorem discharge_keeps {s : State} {d : Domain} (h : Holds P s) : Holds P (discharge s d) := by
  unfold discharge
  try dsimp only
  repeat' with_reducible first | assumption | intro _ | apply onHorn_keeps | apply ite_keeps

theorem entryComplete_keeps {s : State} {d : Domain} (h : Holds P s) : Holds P (entryComplete s d) := by
  unfold entryComplete
  try dsimp only
  repeat' with_reducible first
    | assumption | intro _ | apply bump_keeps | apply onDom_keeps | apply setDomNow_keeps | apply wakeDomain_keeps | apply wake_keeps
    | apply loseContents_keeps | apply discharge_keeps | apply ite_keeps | split

theorem windowEnd_keeps {s : State} {d : Domain} {low : List Port} (h : Holds P s) : Holds P (windowEnd s d low) := by
  unfold windowEnd
  try dsimp only
  repeat' with_reducible first | assumption | intro _ | apply bump_keeps | apply wake_keeps | apply entryComplete_keeps | apply ite_keeps

theorem restRaised_keeps {s : State} {d : Domain} {r : Nat} (h : Holds P s) : Holds P (restRaised s d r) := by
  unfold restRaised
  try dsimp only
  repeat' with_reducible first | assumption | intro _ | apply wake_keeps | apply ite_keeps

theorem setRest_keeps {s : State} {d : Domain} {r : Nat} (h : Holds P s) : Holds P (setRest s d r) := by
  unfold setRest
  try dsimp only
  repeat' with_reducible first | assumption | intro _ | apply put_keeps | apply sendDomain_keeps | apply restRaised_keeps | apply ite_keeps

theorem restWrite_keeps {s : State} {d : Domain} {v : Nat} (h : Holds P s) : Holds P (restWrite s d v).1 := by
  unfold restWrite
  try dsimp only
  repeat' with_reducible first | assumption | intro _ | apply refuse_keeps | apply setRest_keeps | split

theorem raiseGas_keeps {s : State} (h : Holds P s) : Holds P (raiseGas s) := by
  unfold raiseGas
  try dsimp only
  repeat' with_reducible first | assumption | intro _ | apply setRest_keeps | apply ite_keeps

theorem execDomainEntryStart_keeps {d : Domain} {s : State} (h : Holds P s) : Keeps P (execDomainEntryStart d s) := by
  unfold execDomainEntryStart
  apply next_keeps
  repeat' with_reducible first | assumption | intro _ | apply entryStart_keeps

theorem execDomainEntryRetry_keeps {d : Domain} {s : State} (h : Holds P s) : Keeps P (execDomainEntryRetry d s) := by
  unfold execDomainEntryRetry
  apply next_keeps
  repeat' with_reducible first | assumption | intro _ | apply entryStart_keeps | apply ite_keeps

theorem execDomainEntryComplete_keeps {d : Domain} {s : State} (h : Holds P s) : Keeps P (execDomainEntryComplete d s) := by
  unfold execDomainEntryComplete
  apply next_keeps
  repeat' with_reducible first | assumption | intro _ | apply entryComplete_keeps

theorem noteWakeLevel_keeps {s : State} {source : Nat} (h : Holds P s) : Holds P (noteWakeLevel s source) := by
  unfold noteWakeLevel
  try dsimp only
  repeat' with_reducible first | assumption | intro _ | apply onPads_keeps

theorem execDomainWake_keeps {source : Nat} {more : List Domain} {s : State} (h : Holds P s) : Keeps P (execDomainWake source more s) := by
  unfold execDomainWake
  apply next_keeps
  repeat' with_reducible first | assumption | intro _ | apply source_keeps | apply wake_keeps | apply noteWakeLevel_keeps

theorem execIsolationWindowEnd_keeps {d : Domain} {low : List Port} {s : State} (h : Holds P s) : Keeps P (execIsolationWindowEnd d low s) := by
  unfold execIsolationWindowEnd
  apply next_keeps
  repeat' with_reducible first | assumption | intro _ | apply windowEnd_keeps

/-! ## Sideband -/

theorem sbSent_keeps {s : State} {m : SbMsg} (h : Holds P s) : Holds P (sbSent s m) := by
  unfold sbSent
  try dsimp only
  repeat' with_reducible first | assumption | intro _ | apply onSbDie_keeps

theorem sbPush_keeps {s : State} {m : SbMsg} {d : Die} (h : Holds P s) : Holds P (sbPush s m d) := by
  unfold sbPush
  try dsimp only
  repeat' with_reducible first | assumption | intro _ | apply onSbDie_keeps | apply noteFull_keeps | apply ite_keeps

theorem sbLand_keeps {s : State} (h : Holds P s) : Holds P (sbLand s) := by
  unfold sbLand
  try dsimp only
  repeat' with_reducible first | assumption | intro _ | apply onSb_keeps | apply sbPush_keeps | apply foldl_keeps | split

theorem sbSend_keeps {s : State} (h : Holds P s) : Holds P (sbSend s) := by
  unfold sbSend
  try dsimp only
  repeat' with_reducible first | assumption | intro _ | apply onSb_keeps | apply sbSent_keeps | apply sbLand_keeps | split

theorem sbAck_keeps {s : State} {d : Die} {m : SbMsg} {code : Nat} (h : Holds P s) : Holds P (sbAck s d m code) := by
  unfold sbAck
  try dsimp only
  repeat' with_reducible first | assumption | intro _ | apply onSbDie_keeps

theorem sbClear_keeps {s : State} (h : Holds P s) : Holds P (sbClear s) := by
  unfold sbClear
  try dsimp only
  repeat' with_reducible first | assumption | intro _ | apply onSb_keeps

theorem sbLift_keeps {s : State} {d : Die} (h : Holds P s) : Holds P (sbLift s d) := by
  unfold sbLift
  try dsimp only
  repeat' with_reducible first | assumption | intro _ | apply onSbDie_keeps | apply sbClear_keeps | split

theorem sbTake_keeps {s : State} {d : Die} {m : SbMsg} (h : Holds P s) : Holds P (sbTake s d m) := by
  unfold sbTake
  try dsimp only
  repeat' with_reducible first | assumption | intro _ | apply sbAck_keeps | apply sbLift_keeps | apply ite_keeps

theorem sbDrop_keeps {s : State} {d : Die} (h : Holds P s) : Holds P (sbDrop s d) := by
  cases d <;> unfold sbDrop <;> try dsimp only
  all_goals repeat' with_reducible first | assumption | intro _ | apply bump_keeps | apply onFlyer_keeps

theorem sbAcked_keeps {s : State} {d : Die} {m : SbMsg} (h : Holds P s) : Holds P (sbAcked s d m).1 := by
  unfold sbAcked
  try dsimp only
  repeat' with_reducible first | assumption | intro _ | apply onSbDie_keeps | apply ite_keeps | apply fst_ite_keeps | split

theorem sbTimeout_keeps {s : State} {d : Die} {ty : Nat} (h : Holds P s) : Holds P (sbTimeout s d ty) := by
  unfold sbTimeout
  try dsimp only
  repeat' with_reducible first | assumption | intro _ | apply bump_keeps | apply onSbDie_keeps | apply ite_keeps | apply fst_ite_keeps | split

end Sys2Proof.Machine
end

