-- ==== Sys2Proof/Laws/KeepsLink.lean ====
section
/-! SUPPORT. The operations and commands of sideband messages, the time, clocks, the loader, the life-cycle and the CAN bus keep every stable property of the state. -/
namespace Sys2Proof.Machine
variable {P : State → Prop} [Stable P]

/-! ## Rtc -/

theorem advanceCopies_keeps {s : State} (h : Holds P s) : Holds P (advanceCopies s) := by
  unfold advanceCopies
  try dsimp only
  repeat' with_reducible first | assumption | intro _ | apply onFlyer_keeps | apply onSpindle_keeps | ((apply sameMem_mk) <;> rfl) | apply ite_keeps

theorem secondTick_keeps {s : State} (h : Holds P s) : Holds P (secondTick s) := by
  unfold secondTick
  try dsimp only
  repeat' with_reducible first
    | assumption | intro _ | apply onKeeper_keeps | apply put_keeps | apply setBits_keeps | apply advanceCopies_keeps | apply ite_keeps

theorem wdtStart_keeps {s : State} (h : Holds P s) : Holds P (wdtStart s) := by
  unfold wdtStart
  try dsimp only
  repeat' with_reducible first | assumption | intro _ | apply onKeeper_keeps

theorem passCycles_keeps {s : State} {n : Nat} (h : Holds P s) : Holds P (passCycles s n) := by
  unfold passCycles
  try dsimp only
  repeat' with_reducible first | assumption | intro _ | apply onCore_keeps | apply onKeeper_keeps | apply ite_keeps

theorem countAon_keeps {s : State} (h : Holds P s) : Holds P (countAon s) := by
  unfold countAon
  try dsimp only
  repeat' with_reducible first
    | assumption | intro _ | apply onKeeper_keeps | apply put_keeps | apply secondTick_keeps | apply passCycles_keeps | apply ite_keeps

theorem endSecond_keeps {s : State} (h : Holds P s) : Holds P (endSecond s) := by
  unfold endSecond
  try dsimp only
  repeat' with_reducible first | assumption | intro _ | apply onKeeper_keeps | apply put_keeps | apply secondTick_keeps | apply passCycles_keeps

/-! ## Link -/

theorem sbDropped_keeps {s : State} {dies : List Die} (h : Holds P s) : Holds P (sbDropped s dies) := by
  unfold sbDropped
  try dsimp only
  repeat' with_reducible first | assumption | intro _ | apply onSb_keeps | apply sbDrop_keeps | apply foldl_keeps | split

theorem sbCutOff_keeps {s : State} {dies : List Die} (h : Holds P s) : Holds P (sbCutOff s dies) := by
  unfold sbCutOff
  try dsimp only
  repeat' with_reducible first | assumption | intro _ | apply sbClear_keeps | apply sbDropped_keeps

theorem noteCheck_keeps {s : State} (h : Holds P s) : Holds P (noteCheck s) := by
  unfold noteCheck
  try dsimp only
  repeat' with_reducible first | assumption | intro _ | apply onHorn_keeps

theorem takeLockup_keeps {s : State} {m : SbMsg} (h : Holds P s) : Holds P (takeLockup s m) := by
  unfold takeLockup
  try dsimp only
  repeat' with_reducible first
    | assumption | intro _ | apply bump_keeps | apply onKeeper_keeps | apply put_keeps | apply logKeeper_keeps | apply endAuth_keeps
    | apply sbLift_keeps | apply ite_keeps

theorem repeatLockup_keeps {s : State} (h : Holds P s) : Holds P (repeatLockup s) := by
  unfold repeatLockup
  try dsimp only
  repeat' with_reducible first | assumption | intro _ | apply sbQueue_keeps | apply ite_keeps

theorem takeBackstop_keeps {s : State} {m : SbMsg} (h : Holds P s) : Holds P (takeBackstop s m) := by
  unfold takeBackstop
  try dsimp only
  repeat' with_reducible first | assumption | intro _ | apply modeEvents_keeps | apply wake_keeps | apply sbLift_keeps | apply ite_keeps

theorem sendHeartbeat_keeps {s : State} (h : Holds P s) : Holds P (sendHeartbeat s) := by
  unfold sendHeartbeat
  try dsimp only
  repeat' with_reducible first | assumption | intro _ | apply onBs_keeps | apply sbQueue_keeps | apply ite_keeps

theorem heartbeatEntries_keeps {s : State} {p : Bytes} (h : Holds P s) : Holds P (heartbeatEntries s p) := by
  unfold heartbeatEntries
  try dsimp only
  repeat' with_reducible first | assumption | intro _ | apply bumpBy_keeps | apply onKeeper_keeps | apply put_keeps | split

theorem judgeSupply_keeps {s : State} {raw : Nat} {count : Nat} (h : Holds P s) : Holds P (judgeSupply s raw count) := by
  unfold judgeSupply
  try dsimp only
  repeat' with_reducible first
    | assumption | intro _ | apply bump_keeps | apply onKeeper_keeps | apply raise_keeps | apply setFault_keeps | apply clearFault_keeps
    | apply ite_keeps

theorem judgeShadow_keeps {s : State} {crc : Nat} (h : Holds P s) : Holds P (judgeShadow s crc) := by
  unfold judgeShadow
  try dsimp only
  repeat' with_reducible first
    | assumption | intro _ | apply onKeeper_keeps | apply sendShadow_keeps | apply clearFault_keeps | apply ite_keeps

theorem takeHeartbeat_keeps {s : State} {m : SbMsg} (h : Holds P s) : Holds P (takeHeartbeat s m) := by
  unfold takeHeartbeat
  try dsimp only
  repeat' with_reducible first
    | assumption | intro _ | apply onKeeper_keeps | apply clearFault_keeps | apply releaseIfDue_keeps | apply sbLift_keeps
    | apply heartbeatEntries_keeps | apply judgeSupply_keeps | apply judgeShadow_keeps

theorem sendReset_keeps {s : State} (h : Holds P s) : Holds P (sendReset s) := by
  unfold sendReset
  try dsimp only
  repeat' with_reducible first | assumption | intro _ | apply used_keeps | apply sbQueue_keeps

theorem heartbeatLost_keeps {s : State} (h : Holds P s) : Holds P (heartbeatLost s) := by
  unfold heartbeatLost
  try dsimp only
  repeat' with_reducible first
    | assumption | intro _ | apply onKeeper_keeps | apply logKeeper_keeps | apply setFault_keeps | apply sendReset_keeps | apply ite_keeps

theorem shadowResend_keeps {s : State} (h : Holds P s) : Holds P (shadowResend s) := by
  unfold shadowResend
  try dsimp only
  repeat' with_reducible first
    | assumption | intro _ | apply onKeeper_keeps | apply logKeeper_keeps | apply sendShadow_keeps | apply setFault_keeps | apply ite_keeps


theorem flushNotices_keeps {s : State} (h : Holds P s) : Holds P (flushNotices s) := by
  unfold flushNotices
  try dsimp only
  repeat' with_reducible first | assumption | intro _ | apply onKeeper_keeps | apply setNotices_keeps

theorem takeHello_keeps {s : State} {m : SbMsg} (h : Holds P s) : Holds P (takeHello s m) := by
  unfold takeHello
  try dsimp only
  repeat' with_reducible first
    | assumption | intro _ | apply onKeeper_keeps | apply sbQueue_keeps | apply sendTime_keeps | apply sendShadow_keeps | apply modeEvents_keeps
    | apply askClose_keeps | apply sbTake_keeps | apply flushNotices_keeps | apply ite_keeps

theorem takeLog_keeps {s : State} {m : SbMsg} (h : Holds P s) : Holds P (takeLog s m) := by
  unfold takeLog
  try dsimp only
  repeat' with_reducible first | assumption | intro _ | apply takeLogWrite_keeps | apply sbAck_keeps | apply sbLift_keeps

theorem ackEffect_keeps {s : State} {acked : Option SbMsg} (h : Holds P s) : Holds P (ackEffect s acked) := by
  unfold ackEffect
  try dsimp only
  repeat' with_reducible first | assumption | intro _ | apply onDom_keeps | apply setDomState_keeps | apply ite_keeps | split

theorem takeAck_keeps {s : State} {d : Die} {m : SbMsg} (h : Holds P s) : Holds P (takeAck s d m) := by
  unfold takeAck
  try dsimp only
  repeat' with_reducible first | assumption | intro _ | apply sbLift_keeps | apply sbAcked_keeps | apply ackEffect_keeps

theorem ackTimeout_keeps {s : State} {d : Die} {ty : Nat} (h : Holds P s) : Holds P (ackTimeout s d ty) := by
  unfold ackTimeout
  try dsimp only
  repeat' with_reducible first | assumption | intro _ | apply wordsCheck_keeps | apply quietReached_keeps | apply sbTimeout_keeps | apply ite_keeps

theorem takeDomain_keeps {s : State} {m : SbMsg} (h : Holds P s) : Holds P (takeDomain s m) := by
  unfold takeDomain
  try dsimp only
  repeat' with_reducible first | assumption | intro _ | apply onFlyDom_keeps | apply restRaised_keeps | apply sbTake_keeps | apply ite_keeps | split

theorem resendDomains_keeps {s : State} (h : Holds P s) : Holds P (resendDomains s) := by
  unfold resendDomains
  try dsimp only
  repeat' with_reducible first | assumption | intro _ | apply sendDomain_keeps | apply ite_keeps | apply fst_ite_keeps | apply foldl_keeps | split

theorem takePeerReset_keeps {s : State} {m : SbMsg} (h : Holds P s) : Holds P (takePeerReset s m) := by
  unfold takePeerReset
  try dsimp only
  repeat' with_reducible first
    | assumption | intro _ | apply onFlyer_keeps | apply onHorn_keeps | apply sbQueue_keeps | apply formReport_keeps | apply sbTake_keeps
    | apply ite_keeps

theorem spindleMode_keeps {s : State} {m : Mode} (h : Holds P s) : Holds P (spindleMode s m) := by
  unfold spindleMode
  try dsimp only
  repeat' with_reducible first
    | assumption | intro _ | apply onSpindle_keeps | apply setCodeLock_keeps | ((apply sameMem_mk) <;> rfl) | apply ite_keeps

theorem takeMode_keeps {s : State} {d : Die} {m : SbMsg} (h : Holds P s) : Holds P (takeMode s d m) := by
  unfold takeMode
  try dsimp only
  repeat' with_reducible first
    | assumption | intro _ | apply onFlyer_keeps | apply sbLift_keeps | apply sbDrop_keeps | apply spindleMode_keeps | split

theorem takeTime_keeps {s : State} {d : Die} {m : SbMsg} (h : Holds P s) : Holds P (takeTime s d m) := by
  unfold takeTime
  try dsimp only
  repeat' with_reducible first
    | assumption | intro _ | apply onFlyer_keeps | apply onSpindle_keeps | apply sbLift_keeps | ((apply sameMem_mk) <;> rfl) | split

theorem takeShadow_keeps {s : State} {m : SbMsg} (h : Holds P s) : Holds P (takeShadow s m) := by
  unfold takeShadow
  try dsimp only
  repeat' with_reducible first | assumption | intro _ | apply onBs_keeps | apply sbTake_keeps

omit [Stable P] in
theorem onArrival_keeps {s : State} {ty : Nat} {d : Die} {f : State → SbMsg → State}
    (h : Holds P s) (hf : ∀ t x0, Holds P t → Holds P (f t x0)) : Holds P (onArrival s ty d f) := by
  unfold onArrival
  try dsimp only
  repeat' with_reducible first | assumption | intro _ | apply hf | apply ite_keeps | split

theorem onFlyerArrival_keeps {s : State} {ty : Nat} {f : State → SbMsg → State}
    (h : Holds P s) (hf : ∀ t x0, Holds P t → Holds P (f t x0)) : Holds P (onFlyerArrival s ty f) := by
  unfold onFlyerArrival
  try dsimp only
  repeat' with_reducible first | assumption | intro _ | apply hf | apply sbLift_keeps | apply onArrival_keeps | apply ite_keeps

theorem landOf_keeps {s : State} {ty : Nat} (h : Holds P s) : Holds P (landOf s ty) := by
  unfold landOf
  try dsimp only
  repeat' with_reducible first | assumption | intro _ | apply sbLand_keeps | apply ite_keeps

omit [Stable P] in
theorem takeOldest_keeps {f : State → Die → SbMsg → State} {ty : Nat} {s : State} {d : Die}
    (h : Holds P s) (hf : ∀ t x0 x1, Holds P t → Holds P (f t x0 x1)) : Holds P (takeOldest f ty s d) := by
  unfold takeOldest
  try dsimp only
  repeat' with_reducible first | assumption | intro _ | apply hf | apply ite_keeps | split

theorem onBroadcast_keeps {s : State} {ty : Nat} {f : State → Die → SbMsg → State}
    (h : Holds P s) (hf : ∀ t x0 x1, Holds P t → Holds P (f t x0 x1)) : Holds P (onBroadcast s ty f) := by
  unfold onBroadcast
  try dsimp only
  repeat' with_reducible first | assumption | intro _ | apply hf | apply landOf_keeps | apply takeOldest_keeps | apply foldl_keeps

theorem checkModeWords_keeps {s : State} (h : Holds P s) : Holds P (checkModeWords s) := by
  unfold checkModeWords
  try dsimp only
  repeat' with_reducible first | assumption | intro _ | apply invalidWord_keeps | apply ite_keeps

theorem checkLcWord_keeps {s : State} (h : Holds P s) : Holds P (checkLcWord s) := by
  unfold checkLcWord
  try dsimp only
  repeat' with_reducible first | assumption | intro _ | apply onKeeper_keeps | apply invalidWord_keeps | apply ite_keeps

theorem checkRestWord_keeps {s : State} {d : Domain} (h : Holds P s) : Holds P (checkRestWord s d) := by
  unfold checkRestWord
  try dsimp only
  repeat' with_reducible first | assumption | intro _ | apply invalidWord_keeps | apply setRest_keeps | apply ite_keeps

theorem checkWords_keeps {s : State} (h : Holds P s) : Holds P (checkWords s) := by
  unfold checkWords
  try dsimp only
  repeat' with_reducible first
    | assumption | intro _ | apply checkModeWords_keeps | apply checkLcWord_keeps | apply checkRestWord_keeps | apply foldl_keeps

theorem wordsExpire_keeps {s : State} (h : Holds P s) : Holds P (wordsExpire s) := by
  unfold wordsExpire
  try dsimp only
  repeat' with_reducible first
    | assumption | intro _ | apply onKeeper_keeps | apply sendWords_keeps | apply wordsGone_keeps | apply wordsCheck_keeps | apply rngForget_keeps
    | apply ite_keeps | split

theorem aonCycle_keeps {s : State} {evs : List ModeEvent} (h : Holds P s) : Holds P (aonCycle s evs) := by
  unfold aonCycle
  try dsimp only
  repeat' with_reducible first
    | assumption | intro _ | apply modeCycle_keeps | apply countAon_keeps | apply checkWords_keeps | apply wordsExpire_keeps

theorem execKeeperAonCycle_keeps {evs : List ModeEvent} {s : State} (h : Holds P s) : Keeps P (execKeeperAonCycle evs s) := by
  unfold execKeeperAonCycle
  apply next_keeps
  repeat' with_reducible first | assumption | intro _ | apply aonCycle_keeps

theorem execSbSendStart_keeps {s : State} (h : Holds P s) : Keeps P (execSbSendStart s) := by
  unfold execSbSendStart
  apply next_keeps
  repeat' with_reducible first | assumption | intro _ | apply sbSend_keeps | apply noteCheck_keeps

theorem execSbMessageDropped_keeps {dies : List Die} {s : State} (h : Holds P s) : Keeps P (execSbMessageDropped dies s) := by
  unfold execSbMessageDropped
  apply next_keeps
  repeat' with_reducible first | assumption | intro _ | apply sbDropped_keeps | apply noteCheck_keeps

theorem execSbMessageCutOff_keeps {dies : List Die} {s : State} (h : Holds P s) : Keeps P (execSbMessageCutOff dies s) := by
  unfold execSbMessageCutOff
  apply next_keeps
  repeat' with_reducible first | assumption | intro _ | apply sbCutOff_keeps | apply noteCheck_keeps

theorem execSbAckTimeout_keeps {die : Die} {ty : Nat} {s : State} (h : Holds P s) : Keeps P (execSbAckTimeout die ty s) := by
  unfold execSbAckTimeout
  apply next_keeps
  repeat' with_reducible first | assumption | intro _ | apply ackTimeout_keeps

theorem execLogWriteRetry_keeps {die : Die} {s : State} (h : Holds P s) : Keeps P (execLogWriteRetry die s) := by
  unfold execLogWriteRetry
  apply next_keeps
  repeat' with_reducible first | assumption | intro _ | apply onSbDie_keeps

theorem execLockup_keeps {s : State} (h : Holds P s) : Keeps P (execLockup s) := by
  unfold execLockup
  apply next_keeps
  repeat' with_reducible first | assumption | intro _ | apply takeLockup_keeps | apply onArrival_keeps

theorem execLockupRepeatTimer_keeps {s : State} (h : Holds P s) : Keeps P (execLockupRepeatTimer s) := by
  unfold execLockupRepeatTimer
  apply next_keeps
  repeat' with_reducible first | assumption | intro _ | apply repeatLockup_keeps

theorem execLockupResetDelay_keeps {s : State} (h : Holds P s) : Keeps P (execLockupResetDelay s) := by
  unfold execLockupResetDelay
  apply next_keeps
  repeat' with_reducible first | assumption | intro _ | apply startReset_keeps | apply ite_keeps

theorem execBackstopAlarm_keeps {s : State} (h : Holds P s) : Keeps P (execBackstopAlarm s) := by
  unfold execBackstopAlarm
  apply next_keeps
  repeat' with_reducible first | assumption | intro _ | apply takeBackstop_keeps | apply onArrival_keeps

theorem execBackstopAlarmRepeat_keeps {s : State} (h : Holds P s) : Keeps P (execBackstopAlarmRepeat s) := by
  unfold execBackstopAlarmRepeat
  apply next_keeps
  repeat' with_reducible first | assumption | intro _ | apply sendBackstop_keeps | apply ite_keeps

theorem execHeartbeat_keeps {s : State} (h : Holds P s) : Keeps P (execHeartbeat s) := by
  unfold execHeartbeat
  apply next_keeps
  repeat' with_reducible first | assumption | intro _ | apply takeHeartbeat_keeps | apply onArrival_keeps

theorem execHeartbeatSendTimer_keeps {s : State} (h : Holds P s) : Keeps P (execHeartbeatSendTimer s) := by
  unfold execHeartbeatSendTimer
  apply next_keeps
  repeat' with_reducible first | assumption | intro _ | apply sendHeartbeat_keeps

theorem execHeartbeatTimeout_keeps {s : State} (h : Holds P s) : Keeps P (execHeartbeatTimeout s) := by
  unfold execHeartbeatTimeout
  apply next_keeps
  repeat' with_reducible first | assumption | intro _ | apply heartbeatLost_keeps

theorem execFlyerResetRepeat_keeps {s : State} (h : Holds P s) : Keeps P (execFlyerResetRepeat s) := by
  unfold execFlyerResetRepeat
  apply next_keeps
  repeat' with_reducible first | assumption | intro _ | apply sendReset_keeps | apply ite_keeps

theorem execLogWrite_keeps {s : State} (h : Holds P s) : Keeps P (execLogWrite s) := by
  unfold execLogWrite
  apply next_keeps
  repeat' with_reducible first | assumption | intro _ | apply takeLog_keeps | apply onArrival_keeps

theorem execAck_keeps {s : State} (h : Holds P s) : Keeps P (execAck s) := by
  unfold execAck
  apply next_keeps
  repeat' with_reducible first | assumption | intro _ | apply takeAck_keeps | apply onBroadcast_keeps

theorem execDomain_keeps {s : State} (h : Holds P s) : Keeps P (execDomain s) := by
  unfold execDomain
  apply next_keeps
  repeat' with_reducible first | assumption | intro _ | apply takeDomain_keeps | apply onFlyerArrival_keeps

theorem execDomainResend_keeps {s : State} (h : Holds P s) : Keeps P (execDomainResend s) := by
  unfold execDomainResend
  apply next_keeps
  repeat' with_reducible first | assumption | intro _ | apply resendDomains_keeps

theorem execReset_keeps {s : State} (h : Holds P s) : Keeps P (execReset s) := by
  unfold execReset
  apply next_keeps
  repeat' with_reducible first | assumption | intro _ | apply restartFlyer_keeps | apply sbLift_keeps | apply onFlyerArrival_keeps

theorem execHello_keeps {s : State} (h : Holds P s) : Keeps P (execHello s) := by
  unfold execHello
  apply next_keeps
  repeat' with_reducible first | assumption | intro _ | apply takeHello_keeps | apply onArrival_keeps

theorem execPeerReset_keeps {s : State} (h : Holds P s) : Keeps P (execPeerReset s) := by
  unfold execPeerReset
  apply next_keeps
  repeat' with_reducible first | assumption | intro _ | apply takePeerReset_keeps | apply onFlyerArrival_keeps

theorem execPlyQuiet_keeps {s : State} (h : Holds P s) : Keeps P (execPlyQuiet s) := by
  unfold execPlyQuiet
  apply next_keeps
  repeat' with_reducible first | assumption | intro _ | apply quietReached_keeps | apply sbLift_keeps | apply onArrival_keeps

theorem execPeerResetQuietTimeout_keeps {s : State} (h : Holds P s) : Keeps P (execPeerResetQuietTimeout s) := by
  unfold execPeerResetQuietTimeout
  apply next_keeps
  repeat' with_reducible first | assumption | intro _ | apply quietReached_keeps | apply ite_keeps

theorem execCaptureReady_keeps {s : State} (h : Holds P s) : Keeps P (execCaptureReady s) := by
  unfold execCaptureReady
  apply next_keeps
  repeat' with_reducible first | assumption | intro _ | apply wake_keeps | apply sbLift_keeps | apply onArrival_keeps

theorem execMode_keeps {s : State} (h : Holds P s) : Keeps P (execMode s) := by
  unfold execMode
  apply next_keeps
  repeat' with_reducible first | assumption | intro _ | apply takeMode_keeps | apply onBroadcast_keeps

theorem execModeRepeatTimer_keeps {s : State} (h : Holds P s) : Keeps P (execModeRepeatTimer s) := by
  unfold execModeRepeatTimer
  apply next_keeps
  repeat' with_reducible first | assumption | intro _ | apply sendMode_keeps

theorem execTime_keeps {s : State} (h : Holds P s) : Keeps P (execTime s) := by
  unfold execTime
  apply next_keeps
  repeat' with_reducible first | assumption | intro _ | apply takeTime_keeps | apply onBroadcast_keeps

theorem execCalShadow_keeps {s : State} (h : Holds P s) : Keeps P (execCalShadow s) := by
  unfold execCalShadow
  apply next_keeps
  repeat' with_reducible first | assumption | intro _ | apply takeShadow_keeps | apply onFlyerArrival_keeps

theorem execCalShadowResend_keeps {s : State} (h : Holds P s) : Keeps P (execCalShadowResend s) := by
  unfold execCalShadowResend
  apply next_keeps
  repeat' with_reducible first | assumption | intro _ | apply shadowResend_keeps

/-! ## Clock -/

theorem crystalLost_keeps {s : State} (h : Holds P s) : Holds P (crystalLost s) := by
  unfold crystalLost
  try dsimp only
  repeat' with_reducible first
    | assumption | intro _ | apply bump_keeps | apply setBits_keeps | apply used_keeps | apply monitorAlert_keeps | apply ite_keeps

theorem crystalReturn_keeps {s : State} (h : Holds P s) : Holds P (crystalReturn s) := by
  unfold crystalReturn
  try dsimp only
  repeat' with_reducible first | assumption | intro _ | apply put_keeps | apply monitorEnd_keeps | apply ite_keeps

theorem logKeeperFirst_keeps {s : State} {ty : Nat} {src : Nat} {data : Bytes} (h : Holds P s) : Holds P (logKeeperFirst s ty src data) := by
  unfold logKeeperFirst
  try dsimp only
  repeat' with_reducible first
    | assumption | intro _ | apply onLog_keeps | apply notePeak_keeps | apply noteFull_keeps | apply countSummary_keeps | apply ite_keeps

theorem changeTime_keeps {s : State} {v : Nat} (h : Holds P s) : Holds P (changeTime s v) := by
  unfold changeTime
  try dsimp only
  repeat' with_reducible first | assumption | intro _ | apply onKeeper_keeps | apply put_keeps | apply sendTime_keeps

theorem loggedSet_keeps {s : State} {u : User} {old : Nat} {v : Nat} (h : Holds P s) : Holds P (loggedSet s u old v) := by
  unfold loggedSet
  try dsimp only
  repeat' with_reducible first
    | assumption | intro _ | apply bump_keeps | apply put_keeps | apply raise_keeps | apply logKeeperFirst_keeps | apply changeTime_keeps

theorem timeSet_keeps {s : State} {u : User} {v : Nat} (h : Holds P s) : Holds P (timeSet s u v).1 := by
  unfold timeSet
  try dsimp only
  repeat' with_reducible first
    | assumption | intro _ | apply bump_keeps | apply changeTime_keeps | apply loggedSet_keeps | apply ite_keeps | apply fst_ite_keeps

theorem execAonCrystalLost_keeps {s : State} (h : Holds P s) : Keeps P (execAonCrystalLost s) := by
  unfold execAonCrystalLost
  apply next_keeps
  repeat' with_reducible first | assumption | intro _ | apply crystalLost_keeps

theorem execAonCrystalReturn_keeps {s : State} (h : Holds P s) : Keeps P (execAonCrystalReturn s) := by
  unfold execAonCrystalReturn
  apply next_keeps
  repeat' with_reducible first | assumption | intro _ | apply crystalReturn_keeps

theorem execFllUnlock_keeps {s : State} (h : Holds P s) : Keeps P (execFllUnlock s) := by
  unfold execFllUnlock
  apply next_keeps
  repeat' with_reducible first | assumption | intro _ | apply bump_keeps | apply ite_keeps

theorem execXoCheckEnd_keeps {found : Bool} {s : State} (h : Holds P s) : Keeps P (execXoCheckEnd found s) := by
  unfold execXoCheckEnd
  apply next_keeps
  repeat' with_reducible first | assumption | intro _ | apply onSpindle_keeps | ((apply sameMem_mk) <;> rfl) | apply ite_keeps

theorem execXoStartFail_keeps {s : State} (h : Holds P s) : Keeps P (execXoStartFail s) := by
  unfold execXoStartFail
  apply next_keeps
  repeat' with_reducible first | assumption | intro _ | apply bump_keeps | apply onSpindle_keeps | ((apply sameMem_mk) <;> rfl) | apply ite_keeps

theorem execRtcSecondTick_keeps {s : State} (h : Holds P s) : Keeps P (execRtcSecondTick s) := by
  unfold execRtcSecondTick
  apply next_keeps
  repeat' with_reducible first | assumption | intro _ | apply endSecond_keeps

/-! ## Boot -/

theorem loaderStep_keeps {s : State} {k : Nat} {f : State → State}
    (h : Holds P s) (hf : ∀ t , Holds P t → Holds P (f t )) : Holds P (loaderStep s k f) := by
  unfold loaderStep
  try dsimp only
  repeat' with_reducible first | assumption | intro _ | apply hf | apply invalidWord_keeps | apply loaderFail_keeps | apply ite_keeps

theorem loaderTo_keeps {s : State} {k : Nat} (h : Holds P s) : Holds P (loaderTo s k) := by
  unfold loaderTo
  try dsimp only
  repeat' with_reducible first | assumption | intro _ | apply onLoader_keeps

theorem onFlBus_keeps {s : State} {l : List FlashTx} (h : Holds P s) : Holds P (onFlBus s l) := by
  unfold onFlBus
  try dsimp only
  repeat' with_reducible first | assumption | intro _ | apply onSpindle_keeps | ((apply sameMem_mk) <;> rfl)

theorem flRead_keeps {s : State} {a : Nat} (h : Holds P s) : Holds P (flRead s a) := by
  unfold flRead
  try dsimp only
  repeat' with_reducible first | assumption | intro _ | apply onFlBus_keeps

theorem readPeak_keeps {s : State} (h : Holds P s) : Holds P (readPeak s) := by
  unfold readPeak
  try dsimp only
  repeat' with_reducible first | assumption | intro _ | apply used_keeps | apply notePeak_keeps

theorem loaderDiscovery_keeps {s : State} {sfdp : Bytes} {qe : Bool} (h : Holds P s) : Holds P (loaderDiscovery s sfdp qe) := by
  unfold loaderDiscovery
  try dsimp only
  repeat' with_reducible first
    | assumption | intro _ | apply onLoader_keeps | apply loaderFail_keeps | apply loaderTo_keeps | apply onFlBus_keeps | apply readPeak_keeps
    | apply ite_keeps


theorem loaderSelect_keeps {s : State} (h : Holds P s) : Holds P (loaderSelect s) := by
  unfold loaderSelect
  try dsimp only
  repeat' with_reducible first
    | assumption | intro _ | apply onLoader_keeps | apply loaderFail_keeps | apply loaderTo_keeps | apply onFlBus_keeps | apply readPeak_keeps
    | apply ite_keeps

theorem readManifest_keeps {s : State} (h : Holds P s) : Holds P (readManifest s) := by
  unfold readManifest
  try dsimp only
  repeat' with_reducible first
    | assumption | intro _ | apply onMem_keeps | apply flRead_keeps | apply readPeak_keeps | apply memOk_mk | apply Region.putAll_wf
    | apply Region.empty_wf | exact (‹MemOk _›).code | exact (‹MemOk _›).data | exact (‹MemOk _›).capt | exact (‹MemOk _›).scratch | exact (‹MemOk _›).flash

theorem askVerify_keeps {s : State} {key : Nat} (h : Holds P s) : Holds P (askVerify s key) := by
  unfold askVerify
  try dsimp only
  repeat' with_reducible first | assumption | intro _ | apply onBn_keeps | apply onLoader_keeps | apply demand_keeps

theorem loaderManifest_keeps {s : State} (h : Holds P s) : Holds P (loaderManifest s) := by
  unfold loaderManifest
  try dsimp only
  repeat' with_reducible first
    | assumption | intro _ | apply loaderFail_keeps | apply readManifest_keeps | apply askVerify_keeps | apply ite_keeps | split

theorem loaderSignature_keeps {s : State} (h : Holds P s) : Holds P (loaderSignature s) := by
  unfold loaderSignature
  try dsimp only
  repeat' with_reducible first
    | assumption | intro _ | apply loaderFail_keeps | apply bnRelease_keeps | apply bnCount_keeps | apply loaderTo_keeps | apply ite_keeps | split

theorem openStream_keeps {s : State} {l : Loader} (h : Holds P s) : Holds P (openStream s l) := by
  unfold openStream
  try dsimp only
  repeat' with_reducible first | assumption | intro _ | apply flRead_keeps | apply ite_keeps

theorem loaderHalf_keeps {s : State} (h : Holds P s) : Holds P (loaderHalf s) := by
  unfold loaderHalf
  try dsimp only
  repeat' with_reducible first
    | assumption | intro _ | apply onLoader_keeps | apply onMem_keeps | apply readPeak_keeps | apply shaPush_keeps | apply openStream_keeps
    | apply memOk_mk
    | apply Region.putAll_wf | apply Region.empty_wf | exact (‹MemOk _›).code | exact (‹MemOk _›).data | exact (‹MemOk _›).capt
    | exact (‹MemOk _›).scratch | exact (‹MemOk _›).flash | apply ite_keeps

theorem loaderDigest_keeps {s : State} (h : Holds P s) : Holds P (loaderDigest s) := by
  unfold loaderDigest
  try dsimp only
  repeat' with_reducible first | assumption | intro _ | apply onLoader_keeps | apply loaderFail_keeps | apply ite_keeps | split

theorem loaderClose_keeps {s : State} (h : Holds P s) : Holds P (loaderClose s) := by
  unfold loaderClose
  try dsimp only
  repeat' with_reducible first
    | assumption | intro _ | apply onLoader_keeps | apply onMem_keeps | apply loaderTo_keeps | apply memOk_mk | apply Region.putAll_wf
    | apply Region.empty_wf | exact (‹MemOk _›).code | exact (‹MemOk _›).data | exact (‹MemOk _›).capt | exact (‹MemOk _›).scratch
    | exact (‹MemOk _›).flash | apply ite_keeps

theorem publishBoot_keeps {s : State} (h : Holds P s) : Holds P (publishBoot s) := by
  unfold publishBoot
  try dsimp only
  repeat' with_reducible first | assumption | intro _ | apply put_keeps

theorem keeperHandover_keeps {s : State} (h : Holds P s) : Holds P (keeperHandover s) := by
  unfold keeperHandover
  try dsimp only
  repeat' with_reducible first | assumption | intro _ | apply onKeeper_keeps | apply put_keeps | apply clearFault_keeps | apply wdtStart_keeps

theorem handover_keeps {s : State} (h : Holds P s) : Holds P (handover s) := by
  unfold handover
  try dsimp only
  repeat' with_reducible first
    | assumption | intro _ | apply onCore_keeps | apply onSpindle_keeps | apply put_keeps | apply sendHello_keeps | apply setCodeLock_keeps
    | apply publishBoot_keeps | apply keeperHandover_keeps | ((apply sameMem_mk) <;> rfl) | apply ite_keeps

theorem bootRecord_keeps {s : State} {d : Die} {reason : Nat} (h : Holds P s) : Holds P (bootRecord s d reason) := by
  unfold bootRecord
  try dsimp only
  repeat' with_reducible first | assumption | intro _ | apply onKeeper_keeps | apply record_keeps | apply ite_keeps

theorem bootFailed_keeps {s : State} {d : Die} {reason : Nat} (h : Holds P s) : Holds P (bootFailed s d reason) := by
  unfold bootFailed
  try dsimp only
  repeat' with_reducible first
    | assumption | intro _ | apply bump_keeps | apply onKeeper_keeps | apply put_keeps | apply setFault_keeps | apply startReset_keeps
    | apply bootRecord_keeps | apply ite_keeps

theorem bootReport_keeps {s : State} (h : Holds P s) : Holds P (bootReport s) := by
  unfold bootReport
  try dsimp only
  repeat' with_reducible first | assumption | intro _ | apply onLoader_keeps | apply handover_keeps | apply bootFailed_keeps | split

theorem bootTimeout_keeps {s : State} (h : Holds P s) : Holds P (bootTimeout s) := by
  unfold bootTimeout
  try dsimp only
  repeat' with_reducible first | assumption | intro _ | apply loaderTo_keeps | apply bootFailed_keeps | apply ite_keeps

theorem rollbackCommit_keeps {s : State} {u : User} {v : Nat} (h : Holds P s) : Holds P (rollbackCommit s u v).1 := by
  unfold rollbackCommit
  try dsimp only
  repeat' with_reducible first | assumption | intro _ | apply put_keeps | apply logKeeper_keeps | apply ite_keeps | apply fst_ite_keeps

theorem rotRecord_keeps {s : State} {u : User} {status : Nat} (h : Holds P s) : Holds P (rotRecord s u status) := by
  unfold rotRecord
  try dsimp only
  repeat' with_reducible first | assumption | intro _ | apply logKeeper_keeps

theorem rotSig_keeps {s : State} {u : User} {sig : Bytes} (h : Holds P s) : Holds P (rotSig s u sig).1 := by
  unfold rotSig
  try dsimp only
  repeat' with_reducible first
    | assumption | intro _ | apply onKeeper_keeps | apply put_keeps | apply rotRecord_keeps | apply ite_keeps | apply fst_ite_keeps

theorem keyRevoke0_keeps {s : State} {u : User} {v : Nat} (h : Holds P s) : Holds P (keyRevoke0 s u v).1 := by
  unfold keyRevoke0
  try dsimp only
  repeat' with_reducible first | assumption | intro _ | apply onKeeper_keeps | apply logKeeper_keeps | apply ite_keeps | apply fst_ite_keeps

theorem flOp_keeps {s : State} {op : Nat} (h : Holds P s) : Holds P (flOp s op).1 := by
  unfold flOp
  try dsimp only
  repeat' with_reducible first
    | assumption | intro _ | apply onSpindle_keeps | apply put_keeps | apply onFlBus_keeps | ((apply sameMem_mk) <;> rfl) | apply ite_keeps
    | apply fst_ite_keeps

theorem flEnd_keeps {s : State} {status : Nat} (h : Holds P s) : Holds P (flEnd s status) := by
  unfold flEnd
  try dsimp only
  repeat' with_reducible first | assumption | intro _ | apply onSpindle_keeps | apply put_keeps | apply flOp_keeps | ((apply sameMem_mk) <;> rfl)

theorem flPoll_keeps {s : State} {op : Nat} (h : Holds P s) : Holds P (flPoll s op) := by
  unfold flPoll
  try dsimp only
  repeat' with_reducible first | assumption | intro _ | apply onFlBus_keeps | apply ite_keeps

theorem flDo_keeps {s : State} {op : Nat} {a : Nat} (h : Holds P s) : Holds P (flDo s op a) := by
  unfold flDo
  try dsimp only
  repeat' with_reducible first
    | assumption | intro _ | apply onMem_keeps | apply put_keeps | apply memOk_mk | apply Region.putAll_wf | apply Region.empty_wf
    | exact (‹MemOk _›).code | exact (‹MemOk _›).data | exact (‹MemOk _›).capt | exact (‹MemOk _›).scratch | exact (‹MemOk _›).flash
    | apply ite_keeps

theorem flComplete_keeps {s : State} (h : Holds P s) : Holds P (flComplete s) := by
  unfold flComplete
  try dsimp only
  repeat' with_reducible first
    | assumption | intro _ | apply flOp_keeps | apply flEnd_keeps | apply flPoll_keeps | apply flDo_keeps | exact pair_keeps (flOp_keeps ‹_›) ‹_›
    | split

theorem flTimeout_keeps {s : State} (h : Holds P s) : Holds P (flTimeout s) := by
  unfold flTimeout
  try dsimp only
  repeat' with_reducible first
    | assumption | intro _ | apply cutFlash_keeps | apply flOp_keeps | apply flEnd_keeps | apply flPoll_keeps
    | exact pair_keeps (flOp_keeps ‹_›) ‹_› | split

theorem execLoaderDiscovery_keeps {sfdp : Bytes} {qe : Bool} {s : State} (h : Holds P s) : Keeps P (execLoaderDiscovery sfdp qe s) := by
  unfold execLoaderDiscovery
  apply next_keeps
  repeat' with_reducible first | assumption | intro _ | apply loaderStep_keeps | apply loaderDiscovery_keeps

theorem execLoaderSelect_keeps {s : State} (h : Holds P s) : Keeps P (execLoaderSelect s) := by
  unfold execLoaderSelect
  apply next_keeps
  repeat' with_reducible first | assumption | intro _ | apply loaderStep_keeps | apply loaderSelect_keeps

theorem execLoaderManifestRead_keeps {s : State} (h : Holds P s) : Keeps P (execLoaderManifestRead s) := by
  unfold execLoaderManifestRead
  apply next_keeps
  repeat' with_reducible first | assumption | intro _ | apply loaderStep_keeps | apply loaderManifest_keeps | apply ite_keeps

theorem execLoaderSignatureDone_keeps {s : State} (h : Holds P s) : Keeps P (execLoaderSignatureDone s) := by
  unfold execLoaderSignatureDone
  apply next_keeps
  repeat' with_reducible first | assumption | intro _ | apply loaderStep_keeps | apply loaderSignature_keeps

theorem execLoaderHalfBlock_keeps {s : State} (h : Holds P s) : Keeps P (execLoaderHalfBlock s) := by
  unfold execLoaderHalfBlock
  apply next_keeps
  repeat' with_reducible first | assumption | intro _ | apply loaderStep_keeps | apply loaderHalf_keeps

theorem execLoaderBlockDigest_keeps {s : State} (h : Holds P s) : Keeps P (execLoaderBlockDigest s) := by
  unfold execLoaderBlockDigest
  apply next_keeps
  repeat' with_reducible first | assumption | intro _ | apply loaderStep_keeps | apply loaderDigest_keeps

theorem execLoaderClose_keeps {s : State} (h : Holds P s) : Keeps P (execLoaderClose s) := by
  unfold execLoaderClose
  apply next_keeps
  repeat' with_reducible first | assumption | intro _ | apply loaderStep_keeps | apply loaderClose_keeps

theorem execBootReport_keeps {s : State} (h : Holds P s) : Keeps P (execBootReport s) := by
  unfold execBootReport
  apply next_keeps
  repeat' with_reducible first | assumption | intro _ | apply bootReport_keeps | apply ite_keeps

theorem execBootAttemptTimeout_keeps {s : State} (h : Holds P s) : Keeps P (execBootAttemptTimeout s) := by
  unfold execBootAttemptTimeout
  apply next_keeps
  repeat' with_reducible first | assumption | intro _ | apply bootTimeout_keeps

theorem execBootRetryDelayExpiry_keeps {s : State} (h : Holds P s) : Keeps P (execBootRetryDelayExpiry s) := by
  unfold execBootRetryDelayExpiry
  apply next_keeps
  repeat' with_reducible first | assumption | intro _ | apply onKeeper_keeps | apply releaseIfDue_keeps | apply ite_keeps

theorem execFlOpComplete_keeps {s : State} (h : Holds P s) : Keeps P (execFlOpComplete s) := by
  unfold execFlOpComplete
  apply next_keeps
  repeat' with_reducible first | assumption | intro _ | apply flComplete_keeps

theorem execFlOpTimeout_keeps {s : State} (h : Holds P s) : Keeps P (execFlOpTimeout s) := by
  unfold execFlOpTimeout
  apply next_keeps
  repeat' with_reducible first | assumption | intro _ | apply flTimeout_keeps

/-! ## Lifecycle -/

theorem modeRequestTo_keeps {s : State} {u : User} {t : ModeTarget} {m : Mode} (h : Holds P s) : Holds P (modeRequestTo s u t m).1 := by
  unfold modeRequestTo
  try dsimp only
  repeat' with_reducible first | assumption | intro _ | apply takeRequest_keeps | apply ite_keeps | apply fst_ite_keeps

theorem modeRequest_keeps {s : State} {u : User} {w : Nat} (h : Holds P s) : Holds P (modeRequest s u w).1 := by
  unfold modeRequest
  try dsimp only
  repeat' with_reducible first | assumption | intro _ | apply modeRequestTo_keeps | exact pair_keeps (modeRequestTo_keeps ‹_›) ‹_› | split

theorem claimSecond_keeps {s : State} {g : Nat} (h : Holds P s) : Holds P (claimSecond s g) := by
  unfold claimSecond
  try dsimp only
  repeat' with_reducible first | assumption | intro _ | apply put_keeps | apply ite_keeps

theorem secondPasses_keeps {s : State} (h : Holds P s) : Holds P (secondPasses s) := by
  unfold secondPasses
  try dsimp only
  repeat' with_reducible first | assumption | intro _ | apply put_keeps | apply claimSecond_keeps | apply ite_keeps | apply foldl_keeps

theorem commitService_keeps {s : State} (h : Holds P s) : Holds P (commitService s) := by
  unfold commitService
  try dsimp only
  repeat' with_reducible first | assumption | intro _ | apply onKeeper_keeps

theorem commitHorn_keeps {s : State} (h : Holds P s) : Holds P (commitHorn s) := by
  unfold commitHorn
  try dsimp only
  repeat' with_reducible first | assumption | intro _ | apply bumpBy_keeps | apply onHorn_keeps

theorem lcArm_keeps {s : State} {u : User} {t : Lc} (h : Holds P s) : Holds P (lcArm s u t).1 := by
  unfold lcArm
  try dsimp only
  repeat' with_reducible first | assumption | intro _ | apply onKeeper_keeps | apply ite_keeps | apply fst_ite_keeps

theorem lcConfirm_keeps {s : State} {u : User} {t : Lc} (h : Holds P s) : Holds P (lcConfirm s u t).1 := by
  unfold lcConfirm
  try dsimp only
  repeat' with_reducible first | assumption | intro _ | apply onKeeper_keeps | apply commitService_keeps | apply ite_keeps | apply fst_ite_keeps

theorem lcRequest_keeps {s : State} {u : User} {w : Nat} (h : Holds P s) : Holds P (lcRequest s u w).1 := by
  unfold lcRequest
  try dsimp only
  repeat' with_reducible first
    | assumption | intro _ | apply lcArm_keeps | apply lcConfirm_keeps | exact pair_keeps (lcArm_keeps ‹_›) ‹_›
    | exact pair_keeps (lcConfirm_keeps ‹_›) ‹_› | apply ite_keeps | apply fst_ite_keeps | split

theorem lcMode_keeps {s : State} (h : Holds P s) : Holds P (lcMode s) := by
  unfold lcMode
  try dsimp only
  repeat' with_reducible first
    | assumption | intro _ | apply enterMode_keeps | apply afterEvent_keeps | apply lcBecameRetired_keeps | apply ite_keeps | split

theorem lcProgrammed_keeps {s : State} (h : Holds P s) : Holds P (lcProgrammed s) := by
  unfold lcProgrammed
  try dsimp only
  repeat' with_reducible first
    | assumption | intro _ | apply onKeeper_keeps | apply logKeeper_keeps | apply startReset_keeps | apply setLcRow_keeps | apply lcMode_keeps
    | apply foldl_keeps | split

theorem dbgNew_keeps {s : State} {v : Nat} (h : Holds P s) : Holds P (dbgNew s v).1 := by
  unfold dbgNew
  try dsimp only
  repeat' with_reducible first
    | assumption | intro _ | apply onKeeper_keeps | apply onRng_keeps | apply put_keeps | apply demand_keeps | apply ite_keeps | apply fst_ite_keeps

theorem dbgForget_keeps {s : State} (h : Holds P s) : Holds P (dbgForget s) := by
  unfold dbgForget
  try dsimp only
  repeat' with_reducible first | assumption | intro _ | apply onKeeper_keeps | apply put_keeps

theorem dbgRecord_keeps {s : State} {u : User} {status : Nat} (h : Holds P s) : Holds P (dbgRecord s u status) := by
  unfold dbgRecord
  try dsimp only
  repeat' with_reducible first | assumption | intro _ | apply logDie_keeps

theorem dbgSig_keeps {s : State} {u : User} {sig : Bytes} (h : Holds P s) : Holds P (dbgSig s u sig).1 := by
  unfold dbgSig
  try dsimp only
  repeat' with_reducible first
    | assumption | intro _ | apply bump_keeps | apply onCore_keeps | apply onKeeper_keeps | apply dbgForget_keeps | apply dbgRecord_keeps
    | apply ite_keeps | apply fst_ite_keeps

theorem execTestBtnPress_keeps {s : State} (h : Holds P s) : Keeps P (execTestBtnPress s) := by
  unfold execTestBtnPress
  apply next_keeps
  repeat' with_reducible first | assumption | intro _ | apply onPads_keeps | apply buttonPress_keeps

theorem execTestBtnHold_keeps {s : State} (h : Holds P s) : Keeps P (execTestBtnHold s) := by
  unfold execTestBtnHold
  apply next_keeps
  repeat' with_reducible first | assumption | intro _ | apply onPads_keeps | apply buttonHold_keeps

theorem execVerifyTimeout_keeps {s : State} (h : Holds P s) : Keeps P (execVerifyTimeout s) := by
  unfold execVerifyTimeout
  apply next_keeps
  repeat' with_reducible first | assumption | intro _ | apply verifyEnds_keeps

theorem execCommissionTimeout_keeps {s : State} (h : Holds P s) : Keeps P (execCommissionTimeout s) := by
  unfold execCommissionTimeout
  apply next_keeps
  repeat' with_reducible first | assumption | intro _ | apply commissionEnds_keeps

theorem execHushExpiry_keeps {s : State} (h : Holds P s) : Keeps P (execHushExpiry s) := by
  unfold execHushExpiry
  apply next_keeps
  repeat' with_reducible first | assumption | intro _ | apply hushEnds_keeps

theorem execServiceSecondTick_keeps {s : State} (h : Holds P s) : Keeps P (execServiceSecondTick s) := by
  unfold execServiceSecondTick
  apply next_keeps
  repeat' with_reducible first | assumption | intro _ | apply secondPasses_keeps

theorem execServiceCommitHourly_keeps {s : State} (h : Holds P s) : Keeps P (execServiceCommitHourly s) := by
  unfold execServiceCommitHourly
  apply next_keeps
  repeat' with_reducible first | assumption | intro _ | apply commitService_keeps | apply commitHorn_keeps

theorem execEndOfLifeReached_keeps {s : State} (h : Holds P s) : Keeps P (execEndOfLifeReached s) := by
  unfold execEndOfLifeReached
  apply next_keeps
  repeat' with_reducible first | assumption | intro _ | apply endOfLife_keeps

theorem execLcRequestExpiry_keeps {s : State} (h : Holds P s) : Keeps P (execLcRequestExpiry s) := by
  unfold execLcRequestExpiry
  apply next_keeps
  repeat' with_reducible first | assumption | intro _ | apply onKeeper_keeps

theorem execLcProgramComplete_keeps {s : State} (h : Holds P s) : Keeps P (execLcProgramComplete s) := by
  unfold execLcProgramComplete
  apply next_keeps
  repeat' with_reducible first | assumption | intro _ | apply lcProgrammed_keeps

theorem execDbgChallengeExpiry_keeps {s : State} (h : Holds P s) : Keeps P (execDbgChallengeExpiry s) := by
  unfold execDbgChallengeExpiry
  apply next_keeps
  repeat' with_reducible first | assumption | intro _ | apply dbgForget_keeps

theorem execDbgLockoutExpiry_keeps {s : State} (h : Holds P s) : Keeps P (execDbgLockoutExpiry s) := by
  unfold execDbgLockoutExpiry
  apply next_keeps
  repeat' with_reducible first | assumption | intro _ | apply onKeeper_keeps

theorem execEchoTimeoutExpiry_keeps {s : State} (h : Holds P s) : Keeps P (execEchoTimeoutExpiry s) := by
  unfold execEchoTimeoutExpiry
  apply next_keeps
  repeat' with_reducible first | assumption | intro _ | apply onKeeper_keeps | apply refreshRelayed_keeps

theorem execSelftestDue_keeps {s : State} (h : Holds P s) : Keeps P (execSelftestDue s) := by
  unfold execSelftestDue
  apply next_keeps
  repeat' with_reducible first | assumption | intro _ | apply selftestDue_keeps | apply ite_keeps

/-! ## CanBus -/

theorem raiseNet_keeps {s : State} (h : Holds P s) : Holds P (raiseNet s) := by
  unfold raiseNet
  try dsimp only
  repeat' with_reducible first | assumption | intro _ | apply raiseDomain_keeps

theorem canPush_keeps {s : State} {fs : List Frame} (h : Holds P s) : Holds P (canPush s fs).1 := by
  unfold canPush
  try dsimp only
  repeat' with_reducible first
    | assumption | intro _ | apply bumpBy_keeps | apply onCan_keeps | apply notePeak_keeps | apply noteFull_keeps | apply raiseNet_keeps
    | apply ite_keeps | apply fst_ite_keeps

theorem canPushOwn_keeps {s : State} {fn : Nat} {datas : List Bytes} (h : Holds P s) : Holds P (canPushOwn s fn datas) := by
  unfold canPushOwn
  try dsimp only
  repeat' with_reducible first | assumption | intro _ | apply canPush_keeps | apply ite_keeps

theorem sendBeacon_keeps {s : State} (h : Holds P s) : Holds P (sendBeacon s) := by
  unfold sendBeacon
  try dsimp only
  repeat' with_reducible first
    | assumption | intro _ | apply onCan_keeps | apply canPush_keeps | apply canPushOwn_keeps | apply ite_keeps

theorem sendNotice_keeps {s : State} (h : Holds P s) : Holds P (sendNotice s) := by
  unfold sendNotice
  try dsimp only
  repeat' with_reducible first | assumption | intro _ | apply onCan_keeps | apply canPushOwn_keeps | apply ite_keeps | apply foldl_keeps

theorem sendTimeFrame_keeps {s : State} (h : Holds P s) : Holds P (sendTimeFrame s) := by
  unfold sendTimeFrame
  try dsimp only
  repeat' with_reducible first | assumption | intro _ | apply canPushOwn_keeps | apply ite_keeps

theorem sendCanHeartbeat_keeps {s : State} (h : Holds P s) : Holds P (sendCanHeartbeat s) := by
  unfold sendCanHeartbeat
  try dsimp only
  repeat' with_reducible first | assumption | intro _ | apply canPushOwn_keeps | apply ite_keeps

theorem canRandom_keeps {s : State} (h : Holds P s) : Holds P (canRandom s).1 := by
  unfold canRandom
  try dsimp only
  repeat' with_reducible first | assumption | intro _ | apply bump_keeps | apply onRng_keeps | apply used_keeps | apply demand_keeps | split

theorem canStart_keeps {s : State} (h : Holds P s) : Holds P (canStart s) := by
  unfold canStart
  try dsimp only
  repeat' with_reducible first | assumption | intro _ | apply onCan_keeps | apply ite_keeps | split

theorem canSent_keeps {s : State} {delay : Nat} (h : Holds P s) : Holds P (canSent s delay) := by
  unfold canSent
  try dsimp only
  repeat' with_reducible first | assumption | intro _ | apply bump_keeps | apply onCan_keeps | apply put_keeps | apply ite_keeps | split

theorem countError_keeps {s : State} {e : CanError} {sending : Bool} {dataPhase : Bool} {id : Nat}
    (h : Holds P s) : Holds P (countError s e sending dataPhase id) := by
  unfold countError
  try dsimp only
  repeat' with_reducible first | assumption | intro _ | apply bump_keeps | apply put_keeps

theorem nodeConflict_keeps {s : State} {pos : Nat} {id : Nat} (h : Holds P s) : Holds P (nodeConflict s pos id) := by
  unfold nodeConflict
  try dsimp only
  repeat' with_reducible first | assumption | intro _ | apply bump_keeps | apply put_keeps | apply raise_keeps

theorem canAbandon_keeps {s : State} {f : Frame} {pos : Nat} (h : Holds P s) : Holds P (canAbandon s f pos) := by
  unfold canAbandon
  try dsimp only
  repeat' with_reducible first | assumption | intro _ | apply onCan_keeps | apply canRandom_keeps | apply nodeConflict_keeps

theorem beaconLost_keeps {s : State} (h : Holds P s) : Holds P (beaconLost s) := by
  unfold beaconLost
  try dsimp only
  repeat' with_reducible first | assumption | intro _ | apply bump_keeps | apply onCan_keeps | apply canRandom_keeps

theorem dataBitError_keeps {s : State} {f : Frame} {pos : Nat} (h : Holds P s) : Holds P (dataBitError s f pos) := by
  unfold dataBitError
  try dsimp only
  repeat' with_reducible first | assumption | intro _ | apply onCan_keeps | apply canAbandon_keeps | apply ite_keeps

theorem canFailed_keeps {s : State} {e : Option CanError} {pos : Option Nat} {dataPhase : Bool} {exempt : Bool} {extra : Nat}
    (h : Holds P s) : Holds P (canFailed s e pos dataPhase exempt extra) := by
  unfold canFailed
  try dsimp only
  repeat' with_reducible first
    | assumption | intro _ | apply onCan_keeps | apply put_keeps | apply countError_keeps | apply beaconLost_keeps | apply dataBitError_keeps
    | apply ite_keeps | split

theorem busOffBegins_keeps {s : State} (h : Holds P s) : Holds P (busOffBegins s) := by
  unfold busOffBegins
  try dsimp only
  repeat' with_reducible first | assumption | intro _ | apply bump_keeps | apply bumpBy_keeps | apply onCan_keeps

theorem busOffEnds_keeps {s : State} (h : Holds P s) : Holds P (busOffEnds s) := by
  unfold busOffEnds
  try dsimp only
  repeat' with_reducible first | assumption | intro _ | apply onCan_keeps | apply put_keeps | apply ite_keeps

theorem canRestart_keeps {s : State} (h : Holds P s) : Holds P (canRestart s) := by
  unfold canRestart
  try dsimp only
  repeat' with_reducible first | assumption | intro _ | apply onCan_keeps

theorem nodeIdWritten_keeps {s : State} (h : Holds P s) : Holds P (nodeIdWritten s) := by
  unfold nodeIdWritten
  try dsimp only
  repeat' with_reducible first | assumption | intro _ | apply onCan_keeps | apply put_keeps

theorem canEnableWritten_keeps {s : State} {v : Nat} (h : Holds P s) : Holds P (canEnableWritten s v) := by
  unfold canEnableWritten
  try dsimp only
  repeat' with_reducible first | assumption | intro _ | apply onCan_keeps | apply ite_keeps

theorem parserReset_keeps {s : State} (h : Holds P s) : Holds P (parserReset s) := by
  unfold parserReset
  try dsimp only
  repeat' with_reducible first | assumption | intro _ | apply onCan_keeps

theorem execBeaconTimer_keeps {s : State} (h : Holds P s) : Keeps P (execBeaconTimer s) := by
  unfold execBeaconTimer
  apply next_keeps
  repeat' with_reducible first | assumption | intro _ | apply sendBeacon_keeps | apply ite_keeps

theorem execCanBusJoin_keeps {s : State} (h : Holds P s) : Keeps P (execCanBusJoin s) := by
  unfold execCanBusJoin
  apply next_keeps
  repeat' with_reducible first | assumption | intro _ | apply onCan_keeps | apply ite_keeps

theorem execCanTxStart_keeps {s : State} (h : Holds P s) : Keeps P (execCanTxStart s) := by
  unfold execCanTxStart
  apply next_keeps
  repeat' with_reducible first | assumption | intro _ | apply canStart_keeps

theorem execCanTxSuccess_keeps {loopDelay : Nat} {s : State} (h : Holds P s) : Keeps P (execCanTxSuccess loopDelay s) := by
  unfold execCanTxSuccess
  apply next_keeps
  repeat' with_reducible first | assumption | intro _ | apply canSent_keeps

theorem execCanTxError_keeps {e : Option CanError} {pos : Option Nat} {dataPhase : Bool} {tec : Bool × Nat} {s : State}
    (h : Holds P s) : Keeps P (execCanTxError e pos dataPhase tec s) := by
  unfold execCanTxError
  apply next_keeps
  repeat' with_reducible first | assumption | intro _ | apply canFailed_keeps

theorem execCanBackoffExpiry_keeps {s : State} (h : Holds P s) : Keeps P (execCanBackoffExpiry s) := by
  unfold execCanBackoffExpiry
  apply next_keeps
  repeat' with_reducible first | assumption | intro _ | apply onCan_keeps

theorem execCanBusOff_keeps {s : State} (h : Holds P s) : Keeps P (execCanBusOff s) := by
  unfold execCanBusOff
  apply next_keeps
  repeat' with_reducible first | assumption | intro _ | apply busOffBegins_keeps | apply ite_keeps

theorem execCanBusOffRecovered_keeps {s : State} (h : Holds P s) : Keeps P (execCanBusOffRecovered s) := by
  unfold execCanBusOffRecovered
  apply next_keeps
  repeat' with_reducible first | assumption | intro _ | apply busOffEnds_keeps | apply ite_keeps

theorem execCanNoticeTimer_keeps {s : State} (h : Holds P s) : Keeps P (execCanNoticeTimer s) := by
  unfold execCanNoticeTimer
  apply next_keeps
  repeat' with_reducible first | assumption | intro _ | apply sendNotice_keeps | apply ite_keeps

theorem execCanTimeTimer_keeps {s : State} (h : Holds P s) : Keeps P (execCanTimeTimer s) := by
  unfold execCanTimeTimer
  apply next_keeps
  repeat' with_reducible first | assumption | intro _ | apply sendTimeFrame_keeps | apply ite_keeps

theorem execCanHeartbeatTimer_keeps {s : State} (h : Holds P s) : Keeps P (execCanHeartbeatTimer s) := by
  unfold execCanHeartbeatTimer
  apply next_keeps
  repeat' with_reducible first | assumption | intro _ | apply sendCanHeartbeat_keeps | apply ite_keeps

end Sys2Proof.Machine
end

