-- ==== Sys2Proof/Laws/KeepsServe.lean ====
section
/-! SUPPORT. The operations and commands of accesses to entries, the dictionary engine, CAN requests and the commands that are one access keep every stable property of the state. -/
namespace Sys2Proof.Machine
variable {P : State → Prop} [Stable P]

/-! ## Access -/

theorem wdtKick_keeps {s : State} (h : Holds P s) : Holds P (wdtKick s) := by
  unfold wdtKick
  try dsimp only
  repeat' with_reducible first | assumption | intro _ | apply wdtStart_keeps | apply ite_keeps

theorem hpReset_keeps {s : State} {p : Port} (h : Holds P s) : Holds P (hpReset s p) := by
  unfold hpReset
  try dsimp only
  repeat' with_reducible first | assumption | intro _ | apply onPort_keeps | apply portReset_keeps

theorem actDevice_keeps {s : State} {u : User} {e : Nat} {v : Bytes} (h : Holds P s) : HoldsOpt P (actDevice s u e v) := by
  unfold actDevice
  try dsimp only
  repeat' with_reducible first
    | apply opt_map_keeps | apply opt_ite_keeps | apply some_keeps | apply none_keeps | assumption | intro _ | apply optRequest_keeps
    | apply coPulse_keeps | apply hornCmd_keeps | apply setFault_keeps | apply timeSet_keeps | apply rollbackCommit_keeps | apply rotSig_keeps
    | apply keyRevoke0_keeps | apply flOp_keeps | apply modeRequest_keeps | apply lcRequest_keeps | apply dbgNew_keeps | apply dbgSig_keeps
    | apply canRestart_keeps | apply wdtKick_keeps

theorem actCrypto_keeps {s : State} {u : User} {e : Nat} {v : Bytes} (h : Holds P s) : HoldsOpt P (actCrypto s u e v) := by
  unfold actCrypto
  try dsimp only
  repeat' with_reducible first
    | apply opt_map_keeps | apply opt_ite_keeps | apply some_keeps | apply none_keeps | assumption | intro _ | apply kdfDerive_keeps
    | apply aesStart_keeps | apply aesIn_keeps | apply aesClear_keeps | apply aesMemGo_keeps | apply shaInit_keeps | apply shaData_keeps
    | apply shaLast_keeps | apply shaMemGo_keeps | apply bnGo_keeps | apply bnMsg_keeps | apply bnMemGo_keeps | apply bnClear_keeps


theorem actIndexed_keeps {s : State} {u : User} {e : Nat} {v : Bytes} (h : Holds P s) : Holds P (actIndexed s u e v).1 := by
  unfold actIndexed
  try dsimp only
  repeat' with_reducible first
    | assumption | intro _ | apply monoInc_keeps | apply claimWrite_keeps | apply restWrite_keeps | apply hpReset_keeps
    | exact pair_keeps (monoInc_keeps ‹_›) ‹_› | exact pair_keeps (claimWrite_keeps ‹_›) ‹_› | exact pair_keeps (restWrite_keeps ‹_›) ‹_›
    | apply ite_keeps | apply fst_ite_keeps | split

theorem action_keeps {s : State} {u : User} {e : Nat} {v : Bytes} (h : Holds P s) : Holds P (action s u e v).1 := by
  unfold action
  split
  · exact actDevice_keeps h _ ‹_›
  · split
    · exact actCrypto_keeps h _ ‹_›
    · exact actIndexed_keeps h

theorem readEntry_keeps {s : State} {u : User} {r : EntryRow} {e : Nat} (h : Holds P s) : Holds P (readEntry s u r e).1 := by
  unfold readEntry
  try dsimp only
  repeat' with_reducible first
    | assumption | intro _ | apply rngTake_keeps | apply expKey_keeps | apply aesOut_keeps | exact pair_keeps (rngTake_keeps ‹_›) ‹_›
    | exact pair_keeps (expKey_keeps ‹_›) ‹_› | exact pair_keeps (aesOut_keeps ‹_›) ‹_› | apply ite_keeps | apply fst_ite_keeps | split

theorem readAccess_keeps {s : State} {u : User} {idx : Nat} {sub : Nat} (h : Holds P s) : Holds P (readAccess s u idx sub).1 := by
  unfold readAccess
  try dsimp only
  repeat' with_reducible first
    | assumption | intro _ | apply onCore_keeps | apply readEntry_keeps | exact pair_keeps (readEntry_keeps ‹_›) ‹_› | apply ite_keeps
    | apply fst_ite_keeps | split

theorem actionAccess_keeps {s : State} {u : User} {r : EntryRow} {e : Nat} {v : Bytes} (h : Holds P s) : Holds P (actionAccess s u r e v).1 := by
  unfold actionAccess
  try dsimp only
  repeat' with_reducible first | assumption | intro _ | apply action_keeps | apply ite_keeps | apply fst_ite_keeps

theorem coEnabled_keeps {s : State} {old : Nat} {v : Nat} (h : Holds P s) : Holds P (coEnabled s old v) := by
  unfold coEnabled
  try dsimp only
  repeat' with_reducible first | assumption | intro _ | apply coTick_keeps | apply raiseGas_keeps | apply ite_keeps

theorem ainChanged_keeps {s : State} {old : Nat} {v : Nat} (h : Holds P s) : Holds P (ainChanged s old v) := by
  unfold ainChanged
  try dsimp only
  repeat' with_reducible first | assumption | intro _ | apply onSense_keeps | apply auxTick_keeps | apply ite_keeps

theorem backstopSetDone_keeps {s : State} (h : Holds P s) : Holds P (backstopSetDone s) := by
  unfold backstopSetDone
  try dsimp only
  repeat' with_reducible first | assumption | intro _ | apply put_keeps | apply sendShadow_keeps | apply clearFault_keeps

theorem writeOnce_keeps {s : State} {e : Nat} {v : Nat} (h : Holds P s) : Holds P (writeOnce s e v) := by
  unfold writeOnce
  try dsimp only
  repeat' with_reducible first
    | assumption | intro _ | apply put_keeps | apply burn_keeps | apply coEnabled_keeps | apply backstopSetDone_keeps | apply ite_keeps

theorem afterStore_keeps {s : State} {e : Nat} {old : Nat} {v : Nat} (h : Holds P s) : Holds P (afterStore s e old v) := by
  unfold afterStore
  try dsimp only
  repeat' with_reducible first
    | assumption | intro _ | apply onKeeper_keeps | apply refreshRelayed_keeps | apply nodeIdWritten_keeps | apply canEnableWritten_keeps
    | apply coEnabled_keeps | apply ainChanged_keeps | apply ite_keeps

theorem baudWritten_keeps {s : State} {u : User} {old : Nat} (h : Holds P s) : Holds P (baudWritten s u old) := by
  unfold baudWritten
  try dsimp only
  repeat' with_reducible first | assumption | intro _ | apply onPort_keeps | apply ite_keeps

theorem applyWrite_keeps {s : State} {u : User} {e : Nat} {v : Nat} (h : Holds P s) : Holds P (applyWrite s u e v) := by
  unfold applyWrite
  try dsimp only
  repeat' with_reducible first
    | assumption | intro _ | apply put_keeps | apply putU_keeps | apply noticed_keeps | apply clearFault_keeps | apply setAlarmFw_keeps
    | apply monoInc_keeps | apply arbHold_keeps | apply writeOnce_keeps | apply afterStore_keeps | apply baudWritten_keeps
    | exact pair_keeps (monoInc_keeps ‹_›) ‹_› | apply ite_keeps | apply fst_ite_keeps | split

theorem applyWrites_keeps {s : State} {u : User} {ws : List (Nat × Nat)} (h : Holds P s) : Holds P (applyWrites s u ws) := by
  unfold applyWrites
  try dsimp only
  repeat' with_reducible first | assumption | intro _ | apply writeRows_keeps | apply applyWrite_keeps | apply foldl_keeps

/-! ## Serve -/

theorem stage_keeps {s : State} {u : User} {idx : Nat} {sub : Nat} {v : Bytes} (h : Holds P s) : Holds P (stage s u idx sub v).1 := by
  unfold stage
  try dsimp only
  repeat' with_reducible first
    | assumption | intro _ | apply onDict_keeps | apply action_keeps | ((apply sameXfer_mk) <;> rfl) | exact pair_keeps (action_keeps ‹_›) ‹_›
    | apply ite_keeps | apply fst_ite_keeps | split

theorem assumed_keeps {s : State} {u : User} {e : Nat} {v : Nat} (h : Holds P s) : Holds P (assumed s u e v) := by
  unfold assumed
  try dsimp only
  repeat' with_reducible first
    | assumption | intro _ | apply onKeeper_keeps | apply put_keeps | apply putU_keeps | apply arbHold_keeps | apply ite_keeps | split

theorem setResult_keeps {s : State} {u : User} {status : Nat} {pos : Nat} {applied : Nat}
    (h : Holds P s) : Holds P (setResult s u status pos applied) := by
  unfold setResult
  try dsimp only
  repeat' with_reducible first | assumption | intro _ | apply putU_keeps

theorem applied_keeps {s : State} {u : User} {ws : List (Nat × Nat)} {batch : Bool} (h : Holds P s) : Holds P (applied s u ws batch) := by
  unfold applied
  try dsimp only
  repeat' with_reducible first | assumption | intro _ | apply applyWrites_keeps | apply setResult_keeps | apply ite_keeps

theorem badExtension_keeps {s : State} {q : Request} (h : Holds P s) : Holds P (badExtension s q) := by
  unfold badExtension
  try dsimp only
  repeat' with_reducible first
    | assumption | intro _ | apply respond_keeps | apply stage_keeps | exact pair_keeps (stage_keeps ‹_›) ‹_› | apply ite_keeps | split

theorem queueJob_keeps {s : State} {q : Request} {g : Engine} (h : Holds P s) : Holds P (queueJob s q g) := by
  unfold queueJob
  try dsimp only
  repeat' with_reducible first
    | assumption | intro _ | apply onPage_keeps | apply notePeak_keeps | apply noteFull_keeps | apply demand_keeps | apply respond_keeps
    | apply claimPlace_keeps | apply askMask_keeps | apply shaPush_keeps | exact pair_keeps (shaPush_keeps ‹_›) ‹_› | apply ite_keeps
    | apply fst_ite_keeps | split

theorem perform_keeps {s : State} {q : Request} {r : State × Nat × Bytes} (h : Holds P s) (hr : Holds P r.1) : Holds P (perform s q r) := by
  unfold perform
  repeat' with_reducible first | assumption | intro _ | apply respond_keeps | apply queueJob_keeps | apply ite_keeps | split

/-- The state in a verdict has the property. -/
def Verdict.Has (P : State → Prop) : Verdict → Prop
  | .done s _ => Holds P s
  | .writes s _ _ => Holds P s

theorem commitAccess_has {s : State} {u : User} {v : Nat} (h : Holds P s) : (commitAccess s u v).Has P := by
  unfold commitAccess
  dsimp only
  split
  · exact dropStaged_keeps h
  · split
    · exact h
    · split
      · exact setResult_keeps (dropStaged_keeps h)
      · exact dropStaged_keeps h

theorem writeAccess_has {s : State} {q : Request} (h : Holds P s) : (writeAccess s q).Has P := by
  unfold writeAccess
  split
  · exact h
  · dsimp only
    split
    · exact h
    · split
      · exact commitAccess_has h
      · split
        · split
          · exact h
          · exact actionAccess_keeps h
        · exact h

theorem serve_keeps {s : State} {q : Request} (h : Holds P s) : Holds P (serve s q) := by
  have hw := writeAccess_has (q := q) h
  unfold serve
  dsimp only
  split
  · exact badExtension_keeps h
  · split
    · exact perform_keeps h (readAccess_keeps h)
    · split
      · exact respond_keeps (stage_keeps h)
      · split <;> rename_i heq <;> rw [heq] at hw <;> simp only [Verdict.Has] at hw
        · exact perform_keeps h hw
        · split
          · exact claimPlace_keeps (onKeeper_keeps hw)
          · exact respond_keeps (applied_keeps hw)

theorem raiseCore_keeps {s : State} (h : Holds P s) : Holds P (raiseCore s) := by
  unfold raiseCore
  try dsimp only
  repeat' with_reducible first | assumption | intro _ | apply demand_keeps | apply ite_keeps | apply foldl_keeps

theorem enqueue_keeps {s : State} {q : Request} (h : Holds P s) : Holds P (enqueue s q).1 := by
  unfold enqueue
  try dsimp only
  repeat' with_reducible first
    | assumption | intro _ | apply bump_keeps | apply onDict_keeps | apply notePeak_keeps | apply noteFull_keeps | apply raiseCore_keeps
    | ((apply sameXfer_mk) <;> rfl) | apply ite_keeps | apply fst_ite_keeps

theorem access_keeps {s : State} {q : Request} (h : Holds P s) : Holds P (access s q) := by
  unfold access
  try dsimp only
  repeat' with_reducible first | assumption | intro _ | apply serve_keeps | apply enqueue_keeps | apply ite_keeps

theorem countHeld_keeps {s : State} {u : User} (h : Holds P s) : Holds P (countHeld s u) := by
  unfold countHeld
  try dsimp only
  repeat' with_reducible first | assumption | intro _ | apply bump_keeps | apply onDict_keeps | ((apply sameXfer_mk) <;> rfl) | apply ite_keeps

theorem takeHead_keeps {s : State} {u : User} {q : Request} {rest : List Request} (h : Holds P s) : Holds P (takeHead s u q rest) := by
  unfold takeHead
  try dsimp only
  repeat' with_reducible first | assumption | intro _ | apply onDict_keeps | apply serve_keeps | ((apply sameXfer_mk) <;> rfl)

theorem takeTurn_keeps {s : State} {us : List User} (h : Holds P s) : Holds P (takeTurn s us) := by
  induction us generalizing s with
  | nil => exact h
  | cons u us ih =>
    unfold takeTurn
    repeat' with_reducible first | apply ih | assumption | intro _ | apply countHeld_keeps | apply takeHead_keeps | apply ite_keeps | split

theorem engineTake_keeps {s : State} (h : Holds P s) : Holds P (engineTake s) := by
  unfold engineTake
  try dsimp only
  repeat' with_reducible first | assumption | intro _ | apply takeTurn_keeps | apply ite_keeps

theorem takeReply_keeps {s : State} {q : Request} (h : Holds P s) : Holds P (takeReply s q).1 := by
  unfold takeReply
  try dsimp only
  repeat' with_reducible first
    | assumption | intro _ | apply onCore_keeps | apply onDict_keeps | ((apply sameXfer_mk) <;> rfl) | apply ite_keeps | apply fst_ite_keeps | split

theorem coreAsk_keeps {s : State} {q : Request} (h : Holds P s) : Holds P (coreAsk s q).1 := by
  unfold coreAsk
  try dsimp only
  repeat' with_reducible first
    | assumption | intro _ | apply onCore_keeps | apply serve_keeps | apply enqueue_keeps | apply takeReply_keeps
    | exact pair_keeps (enqueue_keeps ‹_›) ‹_› | exact pair_keeps (takeReply_keeps ‹_›) ‹_› | apply ite_keeps | apply fst_ite_keeps | split

theorem jobComplete_keeps {s : State} (h : Holds P s) : Holds P (jobComplete s) := by
  unfold jobComplete
  try dsimp only
  repeat' with_reducible first | assumption | intro _ | apply onKeeper_keeps | apply respondJob_keeps | apply applied_keeps | split

theorem jobTimeout_keeps {s : State} (h : Holds P s) : Holds P (jobTimeout s) := by
  unfold jobTimeout
  try dsimp only
  repeat' with_reducible first
    | assumption | intro _ | apply onKeeper_keeps | apply respondJob_keeps | apply setResult_keeps | apply ite_keeps | split

theorem runJob_keeps {s : State} {q : Request} (h : Holds P s) : Holds P (runJob s q) := by
  have hw := writeAccess_has (q := q) h
  unfold runJob
  split
  · exact respondJob_keeps (readAccess_keeps h)
  · split <;> rename_i heq <;> rw [heq] at hw <;> exact respondJob_keeps hw

theorem aesJob_keeps {s : State} (h : Holds P s) : Holds P (aesJob s) := by
  unfold aesJob
  try dsimp only
  repeat' with_reducible first
    | assumption | intro _ | apply onPage_keeps | apply onSpindle_keeps | apply askMask_keeps | apply aesMemJob_keeps | apply runJob_keeps
    | ((apply sameMem_mk) <;> rfl) | apply ite_keeps | split

theorem shaJob_keeps {s : State} (h : Holds P s) : Holds P (shaJob s) := by
  unfold shaJob
  try dsimp only
  repeat' with_reducible first
    | assumption | intro _ | apply onSpindle_keeps | apply shaLast_keeps | apply shaMemJob_keeps | apply shaHalf_keeps | apply runJob_keeps
    | ((apply sameMem_mk) <;> rfl) | exact pair_keeps (shaLast_keeps ‹_›) ‹_› | apply ite_keeps | split

/-! ## CanNode -/

theorem recAfter_keeps {s : State} (h : Holds P s) : Holds P (recAfter s) := by
  unfold recAfter
  try dsimp only
  repeat' with_reducible first | assumption | intro _ | apply put_keeps | apply used_keeps | apply ite_keeps

theorem rxPush_keeps {s : State} {f : CanRx} (h : Holds P s) : Holds P (rxPush s f) := by
  unfold rxPush
  try dsimp only
  repeat' with_reducible first
    | assumption | intro _ | apply bump_keeps | apply onCan_keeps | apply notePeak_keeps | apply noteFull_keeps | apply ite_keeps

theorem beaconRx_keeps {s : State} {b0 : Byte} {b1 : Byte} (h : Holds P s) : Holds P (beaconRx s b0 b1) := by
  unfold beaconRx
  try dsimp only
  repeat' with_reducible first
    | assumption | intro _ | apply bump_keeps | apply onKeeper_keeps | apply put_keeps | apply refreshRelayed_keeps | apply ite_keeps

theorem ownIdRx_keeps {s : State} {fn : Nat} {node : Nat} (h : Holds P s) : Holds P (ownIdRx s fn node) := by
  unfold ownIdRx
  try dsimp only
  repeat' with_reducible first | assumption | intro _ | apply nodeConflict_keeps | apply ite_keeps

theorem parserAnswer_keeps {s : State} {q : Request} {status : Nat} (h : Holds P s) : Holds P (parserAnswer s q status) := by
  unfold parserAnswer
  try dsimp only
  repeat' with_reducible first | assumption | intro _ | apply canPushOwn_keeps

theorem requestComplete_keeps {s : State} {q : Request} (h : Holds P s) : Holds P (requestComplete s q) := by
  unfold requestComplete
  try dsimp only
  repeat' with_reducible first
    | assumption | intro _ | apply bump_keeps | apply canPushOwn_keeps | apply enqueue_keeps | apply parserAnswer_keeps
    | exact pair_keeps (enqueue_keeps ‹_›) ‹_› | apply ite_keeps | apply fst_ite_keeps | split

theorem firstSegment_keeps {s : State} {q : Request} (h : Holds P s) : Holds P (firstSegment s q) := by
  unfold firstSegment
  try dsimp only
  repeat' with_reducible first | assumption | intro _ | apply onCan_keeps | apply parserAnswer_keeps | apply ite_keeps | split

theorem dropSegment_keeps {s : State} (h : Holds P s) : Holds P (dropSegment s) := by
  unfold dropSegment
  try dsimp only
  repeat' with_reducible first | assumption | intro _ | apply bump_keeps | apply onCan_keeps | apply ite_keeps

theorem secondSegment_keeps {s : State} {q : Request} (h : Holds P s) : Holds P (secondSegment s q) := by
  unfold secondSegment
  try dsimp only
  repeat' with_reducible first
    | assumption | intro _ | apply onCan_keeps | apply requestComplete_keeps | apply dropSegment_keeps | apply ite_keeps | split

theorem requestRx_keeps {s : State} {target : Nat} {p : Bytes} (h : Holds P s) : Holds P (requestRx s target p) := by
  unfold requestRx
  try dsimp only
  repeat' with_reducible first
    | assumption | intro _ | apply parserAnswer_keeps | apply requestComplete_keeps | apply firstSegment_keeps | apply secondSegment_keeps
    | apply ite_keeps

theorem timeRx_keeps {s : State} {node : Nat} {time : Nat} (h : Holds P s) : Holds P (timeRx s node time) := by
  unfold timeRx
  try dsimp only
  repeat' with_reducible first | assumption | intro _ | apply enqueue_keeps | apply ite_keeps

theorem parseRx_keeps {s : State} {f : CanRx} (h : Holds P s) : Holds P (parseRx s f) := by
  unfold parseRx
  try dsimp only
  repeat' with_reducible first
    | assumption | intro _ | apply source_keeps | apply beaconRx_keeps | apply ownIdRx_keeps | apply requestRx_keeps | apply timeRx_keeps
    | exact opt_some_keeps (source_keeps ‹_›) ‹_› | split

theorem parserRun_keeps {s : State} (h : Holds P s) : Holds P (parserRun s) := by
  unfold parserRun
  try dsimp only
  repeat' with_reducible first | assumption | intro _ | apply onCan_keeps | apply parseRx_keeps | apply ite_keeps | apply foldl_keeps

theorem canReceive_keeps {s : State} {accepted : Bool} {f : CanRx} (h : Holds P s) : Holds P (canReceive s accepted f) := by
  unfold canReceive
  try dsimp only
  repeat' with_reducible first
    | assumption | intro _ | apply bump_keeps | apply raiseCore_keeps | apply recAfter_keeps | apply rxPush_keeps | apply parserRun_keeps
    | apply ite_keeps

theorem responseSend_keeps {s : State} (h : Holds P s) : Holds P (responseSend s) := by
  unfold responseSend
  try dsimp only
  repeat' with_reducible first
    | assumption | intro _ | apply onCan_keeps | apply onDict_keeps | apply canPushOwn_keeps | ((apply sameXfer_mk) <;> rfl) | split

theorem execCanBeaconRx_keeps {b0 : Byte} {b1 : Byte} {s : State} (h : Holds P s) : Keeps P (execCanBeaconRx b0 b1 s) := by
  unfold execCanBeaconRx
  apply next_keeps
  repeat' with_reducible first | assumption | intro _ | apply canReceive_keeps

theorem execCanSourceRx_keeps {node : Nat} {s : State} (h : Holds P s) : Keeps P (execCanSourceRx node s) := by
  unfold execCanSourceRx
  apply next_keeps
  repeat' with_reducible first | assumption | intro _ | apply source_keeps | apply canReceive_keeps

theorem execCanHeartbeatRx_keeps {node : Nat} {s : State} (h : Holds P s) : Keeps P (execCanHeartbeatRx node s) := by
  unfold execCanHeartbeatRx
  apply next_keeps
  repeat' with_reducible first | assumption | intro _ | apply canReceive_keeps

theorem execCanRequestRead_keeps {target : Nat} {payload : Bytes} {s : State} (h : Holds P s) : Keeps P (execCanRequestRead target payload s) := by
  unfold execCanRequestRead
  apply next_keeps
  repeat' with_reducible first | assumption | intro _ | apply canReceive_keeps

theorem execCanRequestWrite_keeps {target : Nat} {payload : Bytes} {s : State} (h : Holds P s) : Keeps P (execCanRequestWrite target payload s) := by
  unfold execCanRequestWrite
  apply next_keeps
  repeat' with_reducible first | assumption | intro _ | apply canReceive_keeps

theorem execCanRequestStage_keeps {target : Nat} {payload : Bytes} {s : State} (h : Holds P s) : Keeps P (execCanRequestStage target payload s) := by
  unfold execCanRequestStage
  apply next_keeps
  repeat' with_reducible first | assumption | intro _ | apply canReceive_keeps

theorem execCanSegmentTimeout_keeps {s : State} (h : Holds P s) : Keeps P (execCanSegmentTimeout s) := by
  unfold execCanSegmentTimeout
  apply next_keeps
  repeat' with_reducible first | assumption | intro _ | apply dropSegment_keeps

theorem execCanTimeRx_keeps {node : Nat} {time : Nat} {s : State} (h : Holds P s) : Keeps P (execCanTimeRx node time s) := by
  unfold execCanTimeRx
  apply next_keeps
  repeat' with_reducible first | assumption | intro _ | apply canReceive_keeps

theorem execCanFrameIgnored_keeps {s : State} (h : Holds P s) : Keeps P (execCanFrameIgnored s) := by
  unfold execCanFrameIgnored
  apply next_keeps
  repeat' with_reducible first | assumption | intro _ | apply canReceive_keeps

theorem execCanResponseSend_keeps {s : State} (h : Holds P s) : Keeps P (execCanResponseSend s) := by
  unfold execCanResponseSend
  apply next_keeps
  repeat' with_reducible first | assumption | intro _ | apply responseSend_keeps | apply ite_keeps

theorem execCanRxError_keeps {e : CanError} {id : Nat} {dataPhase : Bool} {rec : Bool × Nat} {s : State}
    (h : Holds P s) : Keeps P (execCanRxError e id dataPhase rec s) := by
  unfold execCanRxError
  apply next_keeps
  repeat' with_reducible first | assumption | intro _ | apply put_keeps | apply countError_keeps | apply ite_keeps

theorem execCanResponseNoticeRx_keeps {s : State} (h : Holds P s) : Keeps P (execCanResponseNoticeRx s) := by
  unfold execCanResponseNoticeRx
  apply next_keeps
  repeat' with_reducible first | assumption | intro _ | apply canReceive_keeps

/-! ## Rows -/

theorem writeNum_keeps {s : State} {u : User} {e : Nat} {v : Nat} (h : Holds P s) : Holds P (writeNum s u e v) := by
  unfold writeNum
  try dsimp only
  repeat' with_reducible first | assumption | intro _ | apply access_keeps

theorem writeOct_keeps {s : State} {u : User} {e : Nat} {v : Bytes} (h : Holds P s) : Holds P (writeOct s u e v) := by
  unfold writeOct
  try dsimp only
  repeat' with_reducible first | assumption | intro _ | apply access_keeps

theorem writeAt_keeps {s : State} {u : User} {idx : Nat} {sub : Nat} {v : Bytes} (h : Holds P s) : Holds P (writeAt s u idx sub v) := by
  unfold writeAt
  try dsimp only
  repeat' with_reducible first | assumption | intro _ | apply access_keeps

theorem readEnt_keeps {s : State} {u : User} {e : Nat} (h : Holds P s) : Holds P (readEnt s u e) := by
  unfold readEnt
  try dsimp only
  repeat' with_reducible first | assumption | intro _ | apply access_keeps

theorem execCaptHeldWrite_keeps {u : User} {v : Nat} {s : State} (h : Holds P s) : Keeps P (execCaptHeldWrite u v s) := by
  unfold execCaptHeldWrite
  apply next_keeps
  repeat' with_reducible first | assumption | intro _ | apply writeNum_keeps

theorem execOptRequest_keeps {u : User} {v : Nat} {s : State} (h : Holds P s) : Keeps P (execOptRequest u v s) := by
  unfold execOptRequest
  apply next_keeps
  repeat' with_reducible first | assumption | intro _ | apply writeNum_keeps

theorem execCoPulse_keeps {u : User} {v : Nat} {s : State} (h : Holds P s) : Keeps P (execCoPulse u v s) := by
  unfold execCoPulse
  apply next_keeps
  repeat' with_reducible first | assumption | intro _ | apply writeNum_keeps

theorem execCoEnableWrite_keeps {u : User} {v : Nat} {s : State} (h : Holds P s) : Keeps P (execCoEnableWrite u v s) := by
  unfold execCoEnableWrite
  apply next_keeps
  repeat' with_reducible first | assumption | intro _ | apply writeNum_keeps

theorem execAinPeriodWrite_keeps {u : User} {v : Nat} {s : State} (h : Holds P s) : Keeps P (execAinPeriodWrite u v s) := by
  unfold execAinPeriodWrite
  apply next_keeps
  repeat' with_reducible first | assumption | intro _ | apply writeNum_keeps

theorem execCalFactoryWrite_keeps {u : User} {idx : Nat} {sub : Nat} {v : Bytes} {s : State}
    (h : Holds P s) : Keeps P (execCalFactoryWrite u idx sub v s) := by
  unfold execCalFactoryWrite
  apply next_keeps
  repeat' with_reducible first | assumption | intro _ | apply writeAt_keeps

theorem execCalDeltaWrite_keeps {u : User} {idx : Nat} {sub : Nat} {v : Bytes} {s : State}
    (h : Holds P s) : Keeps P (execCalDeltaWrite u idx sub v s) := by
  unfold execCalDeltaWrite
  apply next_keeps
  repeat' with_reducible first | assumption | intro _ | apply writeAt_keeps

theorem execAlarmFwWrite_keeps {u : User} {v : Nat} {s : State} (h : Holds P s) : Keeps P (execAlarmFwWrite u v s) := by
  unfold execAlarmFwWrite
  apply next_keeps
  repeat' with_reducible first | assumption | intro _ | apply writeNum_keeps

theorem requestMode_keeps {s : State} {u : User} {m : Mode} (h : Holds P s) : Holds P (requestMode s u m) := by
  unfold requestMode
  try dsimp only
  repeat' with_reducible first | assumption | intro _ | apply writeNum_keeps

theorem execModeRequestCalibrate_keeps {u : User} {s : State} (h : Holds P s) : Keeps P (execModeRequestCalibrate u s) := by
  unfold execModeRequestCalibrate
  apply next_keeps
  repeat' with_reducible first | assumption | intro _ | apply requestMode_keeps

theorem execModeRequestFactory_keeps {u : User} {s : State} (h : Holds P s) : Keeps P (execModeRequestFactory u s) := by
  unfold execModeRequestFactory
  apply next_keeps
  repeat' with_reducible first | assumption | intro _ | apply requestMode_keeps

theorem execModeRequestSupervise_keeps {u : User} {s : State} (h : Holds P s) : Keeps P (execModeRequestSupervise u s) := by
  unfold execModeRequestSupervise
  apply next_keeps
  repeat' with_reducible first | assumption | intro _ | apply requestMode_keeps

theorem execModeRequestCommission_keeps {u : User} {s : State} (h : Holds P s) : Keeps P (execModeRequestCommission u s) := by
  unfold execModeRequestCommission
  apply next_keeps
  repeat' with_reducible first | assumption | intro _ | apply requestMode_keeps

theorem execModeRequestVerify_keeps {u : User} {s : State} (h : Holds P s) : Keeps P (execModeRequestVerify u s) := by
  unfold execModeRequestVerify
  apply next_keeps
  repeat' with_reducible first | assumption | intro _ | apply requestMode_keeps

theorem execModeRequestAlarm_keeps {u : User} {s : State} (h : Holds P s) : Keeps P (execModeRequestAlarm u s) := by
  unfold execModeRequestAlarm
  apply next_keeps
  repeat' with_reducible first | assumption | intro _ | apply requestMode_keeps

theorem execModeRequestHush_keeps {u : User} {s : State} (h : Holds P s) : Keeps P (execModeRequestHush u s) := by
  unfold execModeRequestHush
  apply next_keeps
  repeat' with_reducible first | assumption | intro _ | apply requestMode_keeps

theorem execModeRequestSelftest_keeps {u : User} {s : State} (h : Holds P s) : Keeps P (execModeRequestSelftest u s) := by
  unfold execModeRequestSelftest
  apply next_keeps
  repeat' with_reducible first | assumption | intro _ | apply requestMode_keeps

theorem execFaultCauseClear_keeps {u : User} {v : Nat} {s : State} (h : Holds P s) : Keeps P (execFaultCauseClear u v s) := by
  unfold execFaultCauseClear
  apply next_keeps
  repeat' with_reducible first | assumption | intro _ | apply writeNum_keeps

theorem execFaultRequest_keeps {u : User} {v : Nat} {s : State} (h : Holds P s) : Keeps P (execFaultRequest u v s) := by
  unfold execFaultRequest
  apply next_keeps
  repeat' with_reducible first | assumption | intro _ | apply writeNum_keeps

theorem execLcRequestArm_keeps {u : User} {v : Nat} {s : State} (h : Holds P s) : Keeps P (execLcRequestArm u v s) := by
  unfold execLcRequestArm
  apply next_keeps
  repeat' with_reducible first | assumption | intro _ | apply writeNum_keeps

theorem execLcRequestConfirm_keeps {u : User} {v : Nat} {s : State} (h : Holds P s) : Keeps P (execLcRequestConfirm u v s) := by
  unfold execLcRequestConfirm
  apply next_keeps
  repeat' with_reducible first | assumption | intro _ | apply writeNum_keeps

theorem execDbgNew_keeps {u : User} {v : Nat} {s : State} (h : Holds P s) : Keeps P (execDbgNew u v s) := by
  unfold execDbgNew
  apply next_keeps
  repeat' with_reducible first | assumption | intro _ | apply writeNum_keeps

theorem execDbgSig_keeps {u : User} {v : Bytes} {s : State} (h : Holds P s) : Keeps P (execDbgSig u v s) := by
  unfold execDbgSig
  apply next_keeps
  repeat' with_reducible first | assumption | intro _ | apply writeOct_keeps

theorem execHornCmdTone_keeps {u : User} {rest : Bytes} {s : State} (h : Holds P s) : Keeps P (execHornCmdTone u rest s) := by
  unfold execHornCmdTone
  apply next_keeps
  repeat' with_reducible first | assumption | intro _ | apply writeOct_keeps

theorem execHornCmdIndicator_keeps {u : User} {rest : Bytes} {s : State} (h : Holds P s) : Keeps P (execHornCmdIndicator u rest s) := by
  unfold execHornCmdIndicator
  apply next_keeps
  repeat' with_reducible first | assumption | intro _ | apply writeOct_keeps

theorem execHornCmdStop_keeps {u : User} {rest : Bytes} {s : State} (h : Holds P s) : Keeps P (execHornCmdStop u rest s) := by
  unfold execHornCmdStop
  apply next_keeps
  repeat' with_reducible first | assumption | intro _ | apply writeOct_keeps

theorem execRestWrite_keeps {u : User} {ss : Nat} {v : Nat} {s : State} (h : Holds P s) : Keeps P (execRestWrite u ss v s) := by
  unfold execRestWrite
  apply next_keeps
  repeat' with_reducible first | assumption | intro _ | apply writeNum_keeps

theorem execTimeSet_keeps {u : User} {v : Nat} {s : State} (h : Holds P s) : Keeps P (execTimeSet u v s) := by
  unfold execTimeSet
  apply next_keeps
  repeat' with_reducible first | assumption | intro _ | apply writeNum_keeps

theorem execArbConfigWrite_keeps {u : User} {idx : Nat} {sub : Nat} {v : Bytes} {s : State}
    (h : Holds P s) : Keeps P (execArbConfigWrite u idx sub v s) := by
  unfold execArbConfigWrite
  apply next_keeps
  repeat' with_reducible first | assumption | intro _ | apply writeAt_keeps

theorem execWdtKick_keeps {u : User} {v : Nat} {s : State} (h : Holds P s) : Keeps P (execWdtKick u v s) := by
  unfold execWdtKick
  apply next_keeps
  repeat' with_reducible first | assumption | intro _ | apply writeNum_keeps

theorem execRollbackCommit_keeps {u : User} {v : Nat} {s : State} (h : Holds P s) : Keeps P (execRollbackCommit u v s) := by
  unfold execRollbackCommit
  apply next_keeps
  repeat' with_reducible first | assumption | intro _ | apply writeNum_keeps

theorem execRotSig_keeps {u : User} {v : Bytes} {s : State} (h : Holds P s) : Keeps P (execRotSig u v s) := by
  unfold execRotSig
  apply next_keeps
  repeat' with_reducible first | assumption | intro _ | apply writeOct_keeps

theorem execKeyRevoke0_keeps {u : User} {v : Nat} {s : State} (h : Holds P s) : Keeps P (execKeyRevoke0 u v s) := by
  unfold execKeyRevoke0
  apply next_keeps
  repeat' with_reducible first | assumption | intro _ | apply writeNum_keeps

theorem execFOneTimeWrite_keeps {u : User} {idx : Nat} {sub : Nat} {v : Bytes} {s : State}
    (h : Holds P s) : Keeps P (execFOneTimeWrite u idx sub v s) := by
  unfold execFOneTimeWrite
  apply next_keeps
  repeat' with_reducible first | assumption | intro _ | apply writeAt_keeps

theorem execFlOpRead_keeps {u : User} {s : State} (h : Holds P s) : Keeps P (execFlOpRead u s) := by
  unfold execFlOpRead
  apply next_keeps
  repeat' with_reducible first | assumption | intro _ | apply writeNum_keeps

theorem execFlOpProgram_keeps {u : User} {s : State} (h : Holds P s) : Keeps P (execFlOpProgram u s) := by
  unfold execFlOpProgram
  apply next_keeps
  repeat' with_reducible first | assumption | intro _ | apply writeNum_keeps

theorem execFlOpErase_keeps {u : User} {s : State} (h : Holds P s) : Keeps P (execFlOpErase u s) := by
  unfold execFlOpErase
  apply next_keeps
  repeat' with_reducible first | assumption | intro _ | apply writeNum_keeps

theorem execKdfDerive_keeps {u : User} {v : Nat} {s : State} (h : Holds P s) : Keeps P (execKdfDerive u v s) := by
  unfold execKdfDerive
  apply next_keeps
  repeat' with_reducible first | assumption | intro _ | apply writeNum_keeps

theorem execExpKeyRead_keeps {u : User} {s : State} (h : Holds P s) : Keeps P (execExpKeyRead u s) := by
  unfold execExpKeyRead
  apply next_keeps
  repeat' with_reducible first | assumption | intro _ | apply readEnt_keeps

theorem execAesStart_keeps {u : User} {v : Nat} {s : State} (h : Holds P s) : Keeps P (execAesStart u v s) := by
  unfold execAesStart
  apply next_keeps
  repeat' with_reducible first | assumption | intro _ | apply writeNum_keeps

theorem execAesIn_keeps {u : User} {v : Bytes} {s : State} (h : Holds P s) : Keeps P (execAesIn u v s) := by
  unfold execAesIn
  apply next_keeps
  repeat' with_reducible first | assumption | intro _ | apply writeOct_keeps

theorem execAesOutRead_keeps {u : User} {s : State} (h : Holds P s) : Keeps P (execAesOutRead u s) := by
  unfold execAesOutRead
  apply next_keeps
  repeat' with_reducible first | assumption | intro _ | apply readEnt_keeps

theorem execAesClear_keeps {u : User} {v : Nat} {s : State} (h : Holds P s) : Keeps P (execAesClear u v s) := by
  unfold execAesClear
  apply next_keeps
  repeat' with_reducible first | assumption | intro _ | apply writeNum_keeps

theorem execAesMemGo_keeps {u : User} {v : Nat} {s : State} (h : Holds P s) : Keeps P (execAesMemGo u v s) := by
  unfold execAesMemGo
  apply next_keeps
  repeat' with_reducible first | assumption | intro _ | apply writeNum_keeps

theorem execShaInit_keeps {u : User} {v : Nat} {s : State} (h : Holds P s) : Keeps P (execShaInit u v s) := by
  unfold execShaInit
  apply next_keeps
  repeat' with_reducible first | assumption | intro _ | apply writeNum_keeps

theorem execShaData_keeps {u : User} {v : Bytes} {s : State} (h : Holds P s) : Keeps P (execShaData u v s) := by
  unfold execShaData
  apply next_keeps
  repeat' with_reducible first | assumption | intro _ | apply writeOct_keeps

theorem execShaLast_keeps {u : User} {v : Bytes} {s : State} (h : Holds P s) : Keeps P (execShaLast u v s) := by
  unfold execShaLast
  apply next_keeps
  repeat' with_reducible first | assumption | intro _ | apply writeOct_keeps

theorem execShaMemGo_keeps {u : User} {v : Nat} {s : State} (h : Holds P s) : Keeps P (execShaMemGo u v s) := by
  unfold execShaMemGo
  apply next_keeps
  repeat' with_reducible first | assumption | intro _ | apply writeNum_keeps

theorem bnCommand_keeps {s : State} {u : User} {op : Nat} (h : Holds P s) : Holds P (bnCommand s u op) := by
  unfold bnCommand
  try dsimp only
  repeat' with_reducible first | assumption | intro _ | apply writeNum_keeps | apply ite_keeps

theorem execBnPublicKey_keeps {u : User} {s : State} (h : Holds P s) : Keeps P (execBnPublicKey u s) := by
  unfold execBnPublicKey
  apply next_keeps
  repeat' with_reducible first | assumption | intro _ | apply bnCommand_keeps

theorem execBnEcdsaSign_keeps {u : User} {s : State} (h : Holds P s) : Keeps P (execBnEcdsaSign u s) := by
  unfold execBnEcdsaSign
  apply next_keeps
  repeat' with_reducible first | assumption | intro _ | apply bnCommand_keeps

theorem execBnEcdsaVerify_keeps {u : User} {s : State} (h : Holds P s) : Keeps P (execBnEcdsaVerify u s) := by
  unfold execBnEcdsaVerify
  apply next_keeps
  repeat' with_reducible first | assumption | intro _ | apply bnCommand_keeps

theorem execBnEcdh_keeps {u : User} {s : State} (h : Holds P s) : Keeps P (execBnEcdh u s) := by
  unfold execBnEcdh
  apply next_keeps
  repeat' with_reducible first | assumption | intro _ | apply bnCommand_keeps

theorem execBnX25519Public_keeps {u : User} {s : State} (h : Holds P s) : Keeps P (execBnX25519Public u s) := by
  unfold execBnX25519Public
  apply next_keeps
  repeat' with_reducible first | assumption | intro _ | apply bnCommand_keeps

theorem execBnX25519Shared_keeps {u : User} {s : State} (h : Holds P s) : Keeps P (execBnX25519Shared u s) := by
  unfold execBnX25519Shared
  apply next_keeps
  repeat' with_reducible first | assumption | intro _ | apply bnCommand_keeps

theorem execBnEd25519Verify_keeps {u : User} {s : State} (h : Holds P s) : Keeps P (execBnEd25519Verify u s) := by
  unfold execBnEd25519Verify
  apply next_keeps
  repeat' with_reducible first | assumption | intro _ | apply bnCommand_keeps

theorem execBnNewEphemeralP256_keeps {u : User} {s : State} (h : Holds P s) : Keeps P (execBnNewEphemeralP256 u s) := by
  unfold execBnNewEphemeralP256
  apply next_keeps
  repeat' with_reducible first | assumption | intro _ | apply bnCommand_keeps

theorem execBnNewEphemeralX25519_keeps {u : User} {s : State} (h : Holds P s) : Keeps P (execBnNewEphemeralX25519 u s) := by
  unfold execBnNewEphemeralX25519
  apply next_keeps
  repeat' with_reducible first | assumption | intro _ | apply bnCommand_keeps

theorem execBnMsg_keeps {u : User} {v : Bytes} {s : State} (h : Holds P s) : Keeps P (execBnMsg u v s) := by
  unfold execBnMsg
  apply next_keeps
  repeat' with_reducible first | assumption | intro _ | apply writeOct_keeps

theorem execBnMemGo_keeps {u : User} {v : Nat} {s : State} (h : Holds P s) : Keeps P (execBnMemGo u v s) := by
  unfold execBnMemGo
  apply next_keeps
  repeat' with_reducible first | assumption | intro _ | apply writeNum_keeps

theorem execBnClear_keeps {u : User} {v : Nat} {s : State} (h : Holds P s) : Keeps P (execBnClear u v s) := by
  unfold execBnClear
  apply next_keeps
  repeat' with_reducible first | assumption | intro _ | apply writeNum_keeps

theorem execRngRead_keeps {u : User} {block : Bool} {s : State} (h : Holds P s) : Keeps P (execRngRead u block s) := by
  unfold execRngRead
  apply next_keeps
  repeat' with_reducible first | assumption | intro _ | apply readEnt_keeps

theorem execTamperFlagsClear_keeps {u : User} {v : Nat} {s : State} (h : Holds P s) : Keeps P (execTamperFlagsClear u v s) := by
  unfold execTamperFlagsClear
  apply next_keeps
  repeat' with_reducible first | assumption | intro _ | apply writeNum_keeps

theorem execMonoInc_keeps {u : User} {n : Nat} {v : Nat} {s : State} (h : Holds P s) : Keeps P (execMonoInc u n v s) := by
  unfold execMonoInc
  apply next_keeps
  repeat' with_reducible first | assumption | intro _ | apply writeNum_keeps

theorem execNoticeClear_keeps {u : User} {v : Nat} {s : State} (h : Holds P s) : Keeps P (execNoticeClear u v s) := by
  unfold execNoticeClear
  apply next_keeps
  repeat' with_reducible first | assumption | intro _ | apply writeNum_keeps

theorem execClaimTake_keeps {u : User} {g : Nat} {lease : Nat} {s : State} (h : Holds P s) : Keeps P (execClaimTake u g lease s) := by
  unfold execClaimTake
  apply next_keeps
  repeat' with_reducible first | assumption | intro _ | apply writeNum_keeps

theorem execClaimRelease_keeps {u : User} {g : Nat} {s : State} (h : Holds P s) : Keeps P (execClaimRelease u g s) := by
  unfold execClaimRelease
  apply next_keeps
  repeat' with_reducible first | assumption | intro _ | apply writeNum_keeps

theorem execClaimLeaseExpiry_keeps {g : Nat} {s : State} (h : Holds P s) : Keeps P (execClaimLeaseExpiry g s) := by
  unfold execClaimLeaseExpiry
  apply next_keeps
  repeat' with_reducible first | assumption | intro _ | apply claimFree_keeps | apply ite_keeps

theorem execProbeDescRead_keeps {u : User} {s : State} (h : Holds P s) : Keeps P (execProbeDescRead u s) := by
  unfold execProbeDescRead
  apply next_keeps
  repeat' with_reducible first | assumption | intro _ | apply readEnt_keeps

theorem execCommit_keeps {u : User} {s : State} (h : Holds P s) : Keeps P (execCommit u s) := by
  unfold execCommit
  apply next_keeps
  repeat' with_reducible first | assumption | intro _ | apply access_keeps

theorem execDiscard_keeps {u : User} {s : State} (h : Holds P s) : Keeps P (execDiscard u s) := by
  unfold execDiscard
  apply next_keeps
  repeat' with_reducible first | assumption | intro _ | apply access_keeps

theorem execEntryWrite_keeps {u : User} {idx : Nat} {sub : Nat} {v : Bytes} {s : State} (h : Holds P s) : Keeps P (execEntryWrite u idx sub v s) := by
  unfold execEntryWrite
  apply next_keeps
  repeat' with_reducible first | assumption | intro _ | apply access_keeps

theorem execCanRestart_keeps {u : User} {v : Nat} {s : State} (h : Holds P s) : Keeps P (execCanRestart u v s) := by
  unfold execCanRestart
  apply next_keeps
  repeat' with_reducible first | assumption | intro _ | apply writeNum_keeps

theorem execNodeIdWrite_keeps {u : User} {v : Nat} {s : State} (h : Holds P s) : Keeps P (execNodeIdWrite u v s) := by
  unfold execNodeIdWrite
  apply next_keeps
  repeat' with_reducible first | assumption | intro _ | apply writeNum_keeps

theorem execHpReset_keeps {u : User} {p : Nat} {v : Nat} {s : State} (h : Holds P s) : Keeps P (execHpReset u p v s) := by
  unfold execHpReset
  apply next_keeps
  repeat' with_reducible first | assumption | intro _ | apply writeNum_keeps

end Sys2Proof.Machine
end

