-- ==== Sys2Proof/Laws/KeepsCore.lean ====
section
/-! SUPPORT. The operations and commands of the core and the debug module keep every stable property of the state. -/
namespace Sys2Proof.Machine
variable {P : State → Prop} [Stable P]

/-! ## Fetch -/

theorem takeExc_keeps {s : State} {e : Exc} (h : Holds P s) : Holds P (takeExc s e) := by
  unfold takeExc
  try dsimp only
  repeat' with_reducible first | assumption | intro _ | apply raiseTrap_keeps | apply accessFault_keeps | apply ite_keeps

theorem readMem_keeps {s : State} {user : Bool} {n : Nat} {a : Nat} (h : Holds P s) : Holds P (readMem s user n a).1 := by
  unfold readMem
  try dsimp only
  repeat' with_reducible first
    | assumption | intro _ | apply used_keeps | apply demand_keeps | apply flRead_keeps | apply ite_keeps | apply fst_ite_keeps | split

theorem snoop_keeps {s : State} {a : Nat} {n : Nat} (h : Holds P s) : Holds P (snoop s a n) := by
  unfold snoop
  try dsimp only
  repeat' with_reducible first | assumption | intro _ | apply bump_keeps | apply onCore_keeps | apply ite_keeps

theorem writeMem_keeps {s : State} {user : Bool} {a : Nat} {b : Bytes} (h : Holds P s) : Holds P (writeMem s user a b) := by
  unfold writeMem
  try dsimp only
  repeat' with_reducible first
    | assumption | intro _ | apply onMem_keeps | apply demand_keeps | apply setXfer_keeps | apply snoop_keeps | apply memOk_mk
    | apply Region.putAll_wf | apply Region.empty_wf | exact (‹MemOk _›).code | exact (‹MemOk _›).data | exact (‹MemOk _›).capt
    | exact (‹MemOk _›).scratch | exact (‹MemOk _›).flash | split

/-- The state of an access has the property. -/
def Access.Has (P : State → Prop) : Access → Prop
  | .ok s _ | .bad s _ | .wait s => Holds P s

theorem windowLoad_has {s : State} {user : Bool} {a : Word} (h : Holds P s) : (windowLoad s user a).Has P := by
  unfold windowLoad
  dsimp only
  split <;> rename_i heq
  · exact pair_keeps (coreAsk_keeps h) heq
  · have ht := pair_keeps (coreAsk_keeps h) heq
    split
    · exact ht
    · split
      · exact setXfer_keeps ht
      · exact ht
      · exact ht

theorem windowStore_has {s : State} {user : Bool} {op base : Nat} {a v : Word} (h : Holds P s) : (windowStore s user op base a v).Has P := by
  unfold windowStore
  dsimp only
  split <;> rename_i heq
  · exact pair_keeps (coreAsk_keeps h) heq
  · have ht := pair_keeps (coreAsk_keeps h) heq
    split <;> exact ht

theorem coreLoad_has {s : State} {user : Bool} {n : Nat} {a : Word} (h : Holds P s) : (coreLoad s user n a).Has P := by
  unfold coreLoad
  split
  · exact h
  · split
    · exact windowLoad_has h
    · exact readMem_keeps h

theorem coreStore_has {s : State} {user : Bool} {n : Nat} {a v : Word} (h : Holds P s) : (coreStore s user n a v).Has P := by
  unfold coreStore
  split
  · exact h
  · split
    · exact windowStore_has h
    · exact windowStore_has h
    · exact writeMem_keeps h

theorem fillQueue_keeps {s : State} {len : Nat} (h : Holds P s) : Holds P (fillQueue s len) := by
  unfold fillQueue
  try dsimp only
  repeat' with_reducible first | assumption | intro _ | apply onCore_keeps

/-! ## Execute -/

theorem countInstr_keeps {s : State} (h : Holds P s) : Holds P (countInstr s) := by
  unfold countInstr
  try dsimp only
  repeat' with_reducible first | assumption | intro _ | apply onCore_keeps

theorem stepHalt_keeps {s : State} (h : Holds P s) : Holds P (stepHalt s) := by
  unfold stepHalt
  try dsimp only
  repeat' with_reducible first | assumption | intro _ | apply enterDebug_keeps | apply ite_keeps

theorem serveHalt_keeps {s : State} (h : Holds P s) : Holds P (serveHalt s) := by
  unfold serveHalt
  try dsimp only
  repeat' with_reducible first | assumption | intro _ | apply enterDebug_keeps | apply ite_keeps

/-- The state of an instruction's end has the property. -/
def Done.Has (P : State → Prop) : Done → Prop
  | .retire s _ | .counted s _ | .exc s _ | .wait s => Holds P s
  | .trigger _ | .debug => True

theorem finish_keeps {s : State} {d : Done} (h : Holds P s) (hd : d.Has P) : Holds P (finish s d) := by
  cases d <;> simp only [Done.Has] at hd <;> unfold finish
  all_goals repeat' with_reducible first
    | assumption | intro _ | apply onCore_keeps | apply enterDebug_keeps | apply triggerAct_keeps | apply takeExc_keeps | apply countInstr_keeps
    | apply stepHalt_keeps | apply serveHalt_keeps

theorem setReg_keeps {s : State} {rd : Nat} {v : Word} (h : Holds P s) : Holds P (setReg s rd v) := by
  unfold setReg
  try dsimp only
  repeat' with_reducible first | assumption | intro _ | apply onCore_keeps

theorem runLoad_has {s : State} {f3 rd : Nat} {a next : Word} {dbg : Bool} (h : Holds P s) : (runLoad s f3 rd a next dbg).Has P := by
  unfold runLoad
  split
  · exact True.intro
  · have hl := coreLoad_has (user := accessUser s dbg) (n := accessSize f3) (a := a) h
    split <;> rename_i heq <;> rw [heq] at hl
    · exact onCore_keeps hl
    · exact hl
    · exact hl

theorem runStore_has {s : State} {f3 : Nat} {a v next : Word} {dbg : Bool} (h : Holds P s) : (runStore s f3 a v next dbg).Has P := by
  unfold runStore
  split
  · exact True.intro
  · have hl := coreStore_has (user := accessUser s dbg) (n := accessSize f3) (a := a) (v := v) h
    split <;> rename_i heq <;> rw [heq] at hl
    · exact hl
    · exact hl
    · exact hl

theorem runCsr_has {s : State} {f3 rd rs1 a word : Nat} {next : Word} {dbg : Bool} (h : Holds P s) : (runCsr s f3 rd rs1 a word next dbg).Has P := by
  unfold runCsr
  dsimp only
  split
  · exact h
  · refine onCore_keeps ?_
    apply ite_keeps <;> first | exact writeCsr_keeps (onCore_keeps h) | exact onCore_keeps h

theorem runInstr_has {s : State} {i : Rv} {word : Nat} {next : Word} {dbg : Bool} (h : Holds P s) : (runInstr s i word next dbg).Has P := by
  cases i <;> unfold runInstr <;> try dsimp only
  case load => exact runLoad_has h
  case store => exact runStore_has h
  case csr => exact runCsr_has h
  case ecall => exact h
  case ebreak => unfold runEbreak; split <;> first | exact True.intro | exact h
  case mret => unfold runMret; split <;> first | exact h | exact onCore_keeps h
  case wfi => unfold runWfi; (repeat' split) <;> first | exact h | exact onCore_keeps h
  all_goals try simp only [Done.Has]
  all_goals first | exact h | exact setReg_keeps h | exact onCore_keeps h

theorem stepInstr_keeps {s : State} {p : Rv → Bool} {front : Bool} (h : Holds P s) : Holds P (stepInstr s p front) := by
  unfold stepInstr
  split
  · apply ite_keeps <;> first | exact h | exact stepHalt_keeps (triggerAct_keeps h)
  · apply ite_keeps <;> first | exact h | exact stepHalt_keeps (takeExc_keeps h)
  · apply ite_keeps <;> first | exact h | exact stepHalt_keeps (takeExc_keeps h)
  · apply ite_keeps <;> first | exact h | exact finish_keeps h (runInstr_has (fillQueue_keeps h))

theorem coreCommand_keeps {s : State} {row : CoreRow} (h : Holds P s) : Holds P (coreCommand s row) := by
  unfold coreCommand
  try dsimp only
  repeat' with_reducible first | assumption | intro _ | apply stepInstr_keeps | apply ite_keeps

theorem execInstrExecute_keeps {s : State} (h : Holds P s) : Keeps P (execInstrExecute s) := by
  unfold execInstrExecute
  apply next_keeps
  repeat' with_reducible first | assumption | intro _ | apply coreCommand_keeps

theorem execLoad_keeps {s : State} (h : Holds P s) : Keeps P (execLoad s) := by
  unfold execLoad
  apply next_keeps
  repeat' with_reducible first | assumption | intro _ | apply coreCommand_keeps

theorem execStore_keeps {s : State} (h : Holds P s) : Keeps P (execStore s) := by
  unfold execStore
  apply next_keeps
  repeat' with_reducible first | assumption | intro _ | apply coreCommand_keeps

theorem execCoreWindowLoad_keeps {s : State} (h : Holds P s) : Keeps P (execCoreWindowLoad s) := by
  unfold execCoreWindowLoad
  apply next_keeps
  repeat' with_reducible first | assumption | intro _ | apply coreCommand_keeps

theorem execCoreWindowStore_keeps {s : State} (h : Holds P s) : Keeps P (execCoreWindowStore s) := by
  unfold execCoreWindowStore
  apply next_keeps
  repeat' with_reducible first | assumption | intro _ | apply coreCommand_keeps

theorem execCoreStageStore_keeps {s : State} (h : Holds P s) : Keeps P (execCoreStageStore s) := by
  unfold execCoreStageStore
  apply next_keeps
  repeat' with_reducible first | assumption | intro _ | apply coreCommand_keeps

theorem execCsrAccess_keeps {s : State} (h : Holds P s) : Keeps P (execCsrAccess s) := by
  unfold execCsrAccess
  apply next_keeps
  repeat' with_reducible first | assumption | intro _ | apply coreCommand_keeps

theorem execSvctlWrite_keeps {s : State} (h : Holds P s) : Keeps P (execSvctlWrite s) := by
  unfold execSvctlWrite
  apply next_keeps
  repeat' with_reducible first | assumption | intro _ | apply coreCommand_keeps

theorem execMpuCsrWrite_keeps {s : State} (h : Holds P s) : Keeps P (execMpuCsrWrite s) := by
  unfold execMpuCsrWrite
  apply next_keeps
  repeat' with_reducible first | assumption | intro _ | apply coreCommand_keeps

theorem execEcall_keeps {s : State} (h : Holds P s) : Keeps P (execEcall s) := by
  unfold execEcall
  apply next_keeps
  repeat' with_reducible first | assumption | intro _ | apply coreCommand_keeps

theorem execEbreak_keeps {s : State} (h : Holds P s) : Keeps P (execEbreak s) := by
  unfold execEbreak
  apply next_keeps
  repeat' with_reducible first | assumption | intro _ | apply coreCommand_keeps

theorem execMret_keeps {s : State} (h : Holds P s) : Keeps P (execMret s) := by
  unfold execMret
  apply next_keeps
  repeat' with_reducible first | assumption | intro _ | apply coreCommand_keeps

theorem execWfi_keeps {s : State} (h : Holds P s) : Keeps P (execWfi s) := by
  unfold execWfi
  apply next_keeps
  repeat' with_reducible first | assumption | intro _ | apply coreCommand_keeps

theorem execFence_keeps {s : State} (h : Holds P s) : Keeps P (execFence s) := by
  unfold execFence
  apply next_keeps
  repeat' with_reducible first | assumption | intro _ | apply coreCommand_keeps

theorem execFenceI_keeps {s : State} (h : Holds P s) : Keeps P (execFenceI s) := by
  unfold execFenceI
  apply next_keeps
  repeat' with_reducible first | assumption | intro _ | apply coreCommand_keeps

theorem execWfiResume_keeps {s : State} (h : Holds P s) : Keeps P (execWfiResume s) := by
  unfold execWfiResume
  apply next_keeps
  repeat' with_reducible first | assumption | intro _ | apply onCore_keeps | apply ite_keeps

theorem execInterruptTaken_keeps {s : State} (h : Holds P s) : Keeps P (execInterruptTaken s) := by
  unfold execInterruptTaken
  apply next_keeps
  repeat' with_reducible first | assumption | intro _ | apply takeIrq_keeps | apply stepHalt_keeps | split

theorem wdtExpire_keeps {s : State} (h : Holds P s) : Holds P (wdtExpire s) := by
  unfold wdtExpire
  try dsimp only
  repeat' with_reducible first
    | assumption | intro _ | apply bump_keeps | apply put_keeps | apply logKeeper_keeps | apply startReset_keeps | apply ite_keeps

theorem execWdtExpiry_keeps {s : State} (h : Holds P s) : Keeps P (execWdtExpiry s) := by
  unfold execWdtExpiry
  apply next_keeps
  repeat' with_reducible first | assumption | intro _ | apply wdtExpire_keeps

/-! ## Debug -/

theorem debugHalt_keeps {s : State} (h : Holds P s) : Holds P (debugHalt s) := by
  unfold debugHalt
  try dsimp only
  repeat' with_reducible first | assumption | intro _ | apply onCore_keeps | apply enterDebug_keeps | apply ite_keeps

theorem setCmderr_keeps {s : State} {n : Nat} (h : Holds P s) : Holds P (setCmderr s n) := by
  unfold setCmderr
  try dsimp only
  repeat' with_reducible first | assumption | intro _ | apply onCore_keeps

theorem debugExc_keeps {s : State} {e : Exc} (h : Holds P s) : Holds P (debugExc s e) := by
  unfold debugExc
  try dsimp only
  repeat' with_reducible first | assumption | intro _ | apply bump_keeps | apply onCore_keeps | apply setCmderr_keeps | apply ite_keeps

theorem progRun_keeps {s : State} {hw : List Nat} {k i : Nat} (h : Holds P s) : Holds P (progRun hw k i s) := by
  induction k generalizing s i with
  | zero => exact h
  | succ k ih =>
    unfold progRun
    split
    · exact h
    · split
      · exact setCmderr_keeps h
      · exact h
      · exact ih h
      · split
        · exact setCmderr_keeps h
        · have hr := runInstr_has (i := ‹Rv›) (word := 0) (next := 0) (dbg := true) h
          split
          · rename_i heq; rw [heq] at hr; exact ih (countInstr_keeps hr)
          · rename_i heq; rw [heq] at hr; exact ih hr
          · rename_i heq; rw [heq] at hr; exact debugExc_keeps hr
          · rename_i heq; rw [heq] at hr; exact onCore_keeps hr
          · exact h

theorem progResume_keeps {s : State} (h : Holds P s) : Holds P (progResume s) := by
  unfold progResume
  try dsimp only
  repeat' with_reducible first | assumption | intro _ | apply onCore_keeps | apply progRun_keeps | split

theorem abstractRun_keeps {s : State} {a : Abstract} (h : Holds P s) : Holds P (abstractRun s a) := by
  unfold abstractRun
  try dsimp only
  repeat' with_reducible first
    | assumption | intro _ | apply onCore_keeps | apply writeCsr_keeps | apply setCmderr_keeps | apply progRun_keeps | apply ite_keeps | split

theorem abstractCommand_keeps {s : State} {a : Abstract} (h : Holds P s) : Holds P (abstractCommand s a) := by
  unfold abstractCommand
  try dsimp only
  repeat' with_reducible first | assumption | intro _ | apply setCmderr_keeps | apply progResume_keeps | apply abstractRun_keeps | apply ite_keeps

theorem leaveDebug_keeps {s : State} (h : Holds P s) : Holds P (leaveDebug s) := by
  unfold leaveDebug
  try dsimp only
  repeat' with_reducible first | assumption | intro _ | apply onCore_keeps | apply put_keeps

theorem debugResume_keeps {s : State} (h : Holds P s) : Holds P (debugResume s) := by
  unfold debugResume
  try dsimp only
  repeat' with_reducible first | assumption | intro _ | apply progResume_keeps | apply leaveDebug_keeps | apply ite_keeps

theorem singleStep_keeps {s : State} (h : Holds P s) : Holds P (singleStep s) := by
  unfold singleStep
  try dsimp only
  repeat' with_reducible first
    | assumption | intro _ | apply onCore_keeps | apply takeIrq_keeps | apply enterDebug_keeps | apply stepHalt_keeps | apply stepInstr_keeps
    | apply progResume_keeps | apply leaveDebug_keeps | apply ite_keeps | split

theorem execDebugHalt_keeps {s : State} (h : Holds P s) : Keeps P (execDebugHalt s) := by
  unfold execDebugHalt
  apply next_keeps
  repeat' with_reducible first | assumption | intro _ | apply debugHalt_keeps

theorem execDebugResume_keeps {s : State} (h : Holds P s) : Keeps P (execDebugResume s) := by
  unfold execDebugResume
  apply next_keeps
  repeat' with_reducible first | assumption | intro _ | apply debugResume_keeps

theorem execDebugSingleStep_keeps {s : State} (h : Holds P s) : Keeps P (execDebugSingleStep s) := by
  unfold execDebugSingleStep
  apply next_keeps
  repeat' with_reducible first | assumption | intro _ | apply singleStep_keeps

theorem execDebugAbstractCommand_keeps {a : Abstract} {s : State} (h : Holds P s) : Keeps P (execDebugAbstractCommand a s) := by
  unfold execDebugAbstractCommand
  apply next_keeps
  repeat' with_reducible first | assumption | intro _ | apply abstractCommand_keeps

theorem execNdmreset_keeps {s : State} (h : Holds P s) : Keeps P (execNdmreset s) := by
  unfold execNdmreset
  apply next_keeps
  repeat' with_reducible first | assumption | intro _ | apply startReset_keeps | apply ite_keeps

theorem execTapInstruction_keeps {ir : Nat} {s : State} (h : Holds P s) : Keeps P (execTapInstruction ir s) := by
  unfold execTapInstruction
  apply next_keeps
  repeat' with_reducible first | assumption | intro _ | apply onSpindle_keeps | ((apply sameMem_mk) <;> rfl) | apply ite_keeps

end Sys2Proof.Machine
end

