-- ==== Sys2Proof/Laws/KeepsPorts.lean ====
section
/-! SUPPORT. The operations and commands of self-test steps, the tag, the watchdogs, alerts, engines and host ports keep every stable property of the state. -/
namespace Sys2Proof.Machine
variable {P : State → Prop} [Stable P]

/-! ## Steps -/

theorem onSelftest_keeps {s : State} {d : Die} {codes : List Nat} {f : State → SbMsg → State}
    (h : Holds P s) (hf : ∀ t x0, Holds P t → Holds P (f t x0)) : Holds P (onSelftest s d codes f) := by
  unfold onSelftest
  try dsimp only
  repeat' with_reducible first | assumption | intro _ | apply hf | apply sbLift_keeps | apply sbTake_keeps | apply ite_keeps | split

theorem stAnswer_keeps {s : State} {d : Die} {k : Nat} {ok : Bool} {result : Bytes} (h : Holds P s) : Holds P (stAnswer s d k ok result) := by
  unfold stAnswer
  try dsimp only
  repeat' with_reducible first | assumption | intro _ | apply sbQueue_keeps

theorem stepChamber_keeps {s : State} {m : SbMsg} {caps : Captures} {led : Bool} {loaded : Nat}
    (h : Holds P s) : Holds P (stepChamber s m caps led loaded) := by
  unfold stepChamber
  try dsimp only
  repeat' with_reducible first | assumption | intro _ | apply onSense_keeps | apply optFinish_keeps | apply stAnswer_keeps

theorem stepHorn_keeps {s : State} {m : SbMsg} {ohm : Nat} {rise : Nat} {surge : Bool} (h : Holds P s) : Holds P (stepHorn s m ohm rise surge) := by
  unfold stepHorn
  try dsimp only
  repeat' with_reducible first | assumption | intro _ | apply onHorn_keeps | apply rise_keeps | apply stAnswer_keeps

theorem stepBattery_keeps {s : State} {m : SbMsg} {mv : Nat} (h : Holds P s) : Holds P (stepBattery s m mv) := by
  unfold stepBattery
  try dsimp only
  repeat' with_reducible first | assumption | intro _ | apply stAnswer_keeps

theorem stepCo_keeps {s : State} {m : SbMsg} {peak : Nat} (h : Holds P s) : Holds P (stepCo s m peak) := by
  unfold stepCo
  try dsimp only
  repeat' with_reducible first | assumption | intro _ | apply pulseStep_keeps | apply pulseRestore_keeps | apply stAnswer_keeps | apply ite_keeps

theorem wakeForStep_keeps {s : State} (h : Holds P s) : Holds P (wakeForStep s) := by
  unfold wakeForStep
  try dsimp only
  repeat' with_reducible first | assumption | intro _ | apply wake_keeps

theorem stepRng_keeps {s : State} {w : Nat} (h : Holds P s) : Holds P (stepRng s w) := by
  unfold stepRng
  try dsimp only
  repeat' with_reducible first | assumption | intro _ | apply demand_keeps | apply judgeWindow_keeps | apply stAnswer_keeps | apply wakeForStep_keeps

theorem stepVectors_keeps {s : State} {failing : Nat} (h : Holds P s) : Holds P (stepVectors s failing) := by
  unfold stepVectors
  try dsimp only
  repeat' with_reducible first | assumption | intro _ | apply demand_keeps | apply stAnswer_keeps | apply wakeForStep_keeps

theorem stWords_keeps {s : State} {m : SbMsg} (h : Holds P s) : Holds P (stWords s m) := by
  unfold stWords
  try dsimp only
  repeat' with_reducible first
    | assumption | intro _ | apply onRng_keeps | apply sbQueue_keeps | apply demand_keeps | apply wordsCheck_keeps | apply rngAsk_keeps
    | apply wakeForStep_keeps | apply ite_keeps | split

theorem stNext_keeps {s : State} (h : Holds P s) : Holds P (stNext s) := by
  unfold stNext
  try dsimp only
  repeat' with_reducible first | assumption | intro _ | apply stBegin_keeps | apply selftestDone_keeps | apply ite_keeps

theorem stVerdict_keeps {s : State} {v : Nat} (h : Holds P s) : Holds P (stVerdict s v) := by
  unfold stVerdict
  try dsimp only
  repeat' with_reducible first | assumption | intro _ | apply onSelfTest_keeps | apply ite_keeps

theorem tenthsOf_keeps {s : State} {di : Nat} (h : Holds P s) : Holds P (tenthsOf s di).1 := by
  unfold tenthsOf
  try dsimp only
  repeat' with_reducible first | assumption | intro _ | apply used_keeps | apply ite_keeps | apply fst_ite_keeps

theorem stKeep_keeps {s : State} {k : Nat} {m : SbMsg} (h : Holds P s) : Holds P (stKeep s k m) := by
  unfold stKeep
  try dsimp only
  repeat' with_reducible first | assumption | intro _ | apply onSelfTest_keeps | apply tenthsOf_keeps | apply ite_keeps

theorem stResult_keeps {s : State} {m : SbMsg} (h : Holds P s) : Holds P (stResult s m) := by
  unfold stResult
  try dsimp only
  repeat' with_reducible first | assumption | intro _ | apply stNext_keeps | apply stVerdict_keeps | apply stKeep_keeps | apply ite_keeps

theorem stTimeout_keeps {s : State} (h : Holds P s) : Holds P (stTimeout s) := by
  unfold stTimeout
  try dsimp only
  repeat' with_reducible first | assumption | intro _ | apply stNext_keeps | apply stVerdict_keeps | apply ite_keeps

theorem stepNvm_keeps {s : State} (h : Holds P s) : Holds P (stepNvm s) := by
  unfold stepNvm
  try dsimp only
  repeat' with_reducible first | assumption | intro _ | apply bumpBy_keeps | apply stNext_keeps | apply stVerdict_keeps

theorem fixUid_keeps {s : State} {uid : Bytes} (h : Holds P s) : Holds P (fixUid s uid) := by
  unfold fixUid
  try dsimp only
  repeat' with_reducible first | assumption | intro _ | apply onTag_keeps | apply put_keeps

theorem poolNext_keeps {s : State} (h : Holds P s) : Holds P (poolNext s) := by
  unfold poolNext
  try dsimp only
  repeat' with_reducible first | assumption | intro _ | apply onKeeper_keeps | apply askWords_keeps | apply ite_keeps

theorem wordsTo_keeps {s : State} {w : WordUse} {b : Bytes} (h : Holds P s) : Holds P (wordsTo s w b) := by
  unfold wordsTo
  try dsimp only
  repeat' with_reducible first
    | assumption | intro _ | apply onKeeper_keeps | apply stSpread_keeps | apply wordsGone_keeps | apply fixUid_keeps | apply poolNext_keeps
    | apply ite_keeps | split

theorem takeWords_keeps {s : State} {m : SbMsg} (h : Holds P s) : Holds P (takeWords s m) := by
  unfold takeWords
  try dsimp only
  repeat' with_reducible first
    | assumption | intro _ | apply onKeeper_keeps | apply sendWords_keeps | apply wordsCheck_keeps | apply wordsTo_keeps | split

theorem execStChamber_keeps {caps : Captures} {ledShort : Bool} {loadedMv : Nat} {s : State}
    (h : Holds P s) : Keeps P (execStChamber caps ledShort loadedMv s) := by
  unfold execStChamber
  apply next_keeps
  repeat' with_reducible first | assumption | intro _ | apply onSelftest_keeps | apply stepChamber_keeps

theorem execStHorn_keeps {ohm : Nat} {riseMs : Nat} {overcurrent : Bool} {s : State}
    (h : Holds P s) : Keeps P (execStHorn ohm riseMs overcurrent s) := by
  unfold execStHorn
  apply next_keeps
  repeat' with_reducible first | assumption | intro _ | apply onSelftest_keeps | apply stepHorn_keeps

theorem execStBattery_keeps {mv : Nat} {s : State} (h : Holds P s) : Keeps P (execStBattery mv s) := by
  unfold execStBattery
  apply next_keeps
  repeat' with_reducible first | assumption | intro _ | apply onSelftest_keeps | apply stepBattery_keeps

theorem execStCoCell_keeps {peak : Nat} {s : State} (h : Holds P s) : Keeps P (execStCoCell peak s) := by
  unfold execStCoCell
  apply next_keeps
  repeat' with_reducible first | assumption | intro _ | apply onSelftest_keeps | apply stepCo_keeps

theorem execStNvm_keeps {s : State} (h : Holds P s) : Keeps P (execStNvm s) := by
  unfold execStNvm
  apply next_keeps
  repeat' with_reducible first | assumption | intro _ | apply stepNvm_keeps | apply ite_keeps

theorem execStRngHealth_keeps {window : Nat} {s : State} (h : Holds P s) : Keeps P (execStRngHealth window s) := by
  unfold execStRngHealth
  apply next_keeps
  repeat' with_reducible first | assumption | intro _ | apply onSelftest_keeps | apply stepRng_keeps

theorem execStKnownAnswer_keeps {failing : Nat} {s : State} (h : Holds P s) : Keeps P (execStKnownAnswer failing s) := by
  unfold execStKnownAnswer
  apply next_keeps
  repeat' with_reducible first | assumption | intro _ | apply onSelftest_keeps | apply stepVectors_keeps

theorem execStStepResult_keeps {s : State} (h : Holds P s) : Keeps P (execStStepResult s) := by
  unfold execStStepResult
  apply next_keeps
  repeat' with_reducible first | assumption | intro _ | apply onSelftest_keeps | apply stResult_keeps

theorem execStStepTimeout_keeps {s : State} (h : Holds P s) : Keeps P (execStStepTimeout s) := by
  unfold execStStepTimeout
  apply next_keeps
  repeat' with_reducible first | assumption | intro _ | apply stTimeout_keeps

theorem execStRngWords_keeps {s : State} (h : Holds P s) : Keeps P (execStRngWords s) := by
  unfold execStRngWords
  apply next_keeps
  repeat' with_reducible first | assumption | intro _ | apply onSelftest_keeps | apply stWords_keeps | apply takeWords_keeps

/-! ## Tag -/

theorem uidFallback_keeps {s : State} (h : Holds P s) : Holds P (uidFallback s) := by
  unfold uidFallback
  try dsimp only
  repeat' with_reducible first | assumption | intro _ | apply bump_keeps | apply put_keeps | apply fixUid_keeps

theorem sessionUid_keeps {s : State} (h : Holds P s) : Holds P (sessionUid s) := by
  unfold sessionUid
  try dsimp only
  repeat' with_reducible first
    | assumption | intro _ | apply onKeeper_keeps | apply askWords_keeps | apply fixUid_keeps | apply uidFallback_keeps | apply ite_keeps | split

theorem tagDefaults_keeps {s : State} (h : Holds P s) : Holds P (tagDefaults s) := by
  unfold tagDefaults
  try dsimp only
  repeat' with_reducible first | assumption | intro _ | apply dropEntries_keeps

theorem sessionStart_keeps {s : State} (h : Holds P s) : Holds P (sessionStart s) := by
  unfold sessionStart
  try dsimp only
  repeat' with_reducible first
    | assumption | intro _ | apply bump_keeps | apply onPads_keeps | apply onTag_keeps | apply put_keeps | apply raise_keeps | apply wake_keeps
    | apply sessionUid_keeps | apply tagDefaults_keeps | apply ite_keeps

theorem dropT_keeps {s : State} (h : Holds P s) : Holds P (dropT s) := by
  unfold dropT
  try dsimp only
  repeat' with_reducible first
    | assumption | intro _ | apply onDict_keeps | apply onTag_keeps | apply dropRequests_keeps | ((apply sameXfer_mk) <;> rfl)

theorem sessionEnd_keeps {s : State} (h : Holds P s) : Holds P (sessionEnd s) := by
  unfold sessionEnd
  try dsimp only
  repeat' with_reducible first
    | assumption | intro _ | apply onPads_keeps | apply onTag_keeps | apply put_keeps | apply endAuth_keeps | apply dropT_keeps | apply ite_keeps

theorem fieldDrop_keeps {s : State} {returns : Bool} (h : Holds P s) : Holds P (fieldDrop s returns) := by
  unfold fieldDrop
  try dsimp only
  repeat' with_reducible first | assumption | intro _ | apply onPads_keeps

theorem poolRefill_keeps {s : State} (h : Holds P s) : Holds P (poolRefill s) := by
  unfold poolRefill
  try dsimp only
  repeat' with_reducible first | assumption | intro _ | apply poolNext_keeps | apply ite_keeps

theorem setTagState_keeps {s : State} {k : Nat} (h : Holds P s) : Holds P (setTagState s k) := by
  unfold setTagState
  try dsimp only
  repeat' with_reducible first | assumption | intro _ | apply put_keeps

theorem tagAnswer_keeps {s : State} {f : Bytes} (h : Holds P s) : Holds P (tagAnswer s f) := by
  unfold tagAnswer
  try dsimp only
  repeat' with_reducible first | assumption | intro _ | apply onTag_keeps

theorem otherFrame_keeps {s : State} (h : Holds P s) : Holds P (otherFrame s) := by
  unfold otherFrame
  try dsimp only
  repeat' with_reducible first | assumption | intro _ | apply setTagState_keeps | apply ite_keeps

theorem uidNow_keeps {s : State} (h : Holds P s) : Holds P (uidNow s) := by
  unfold uidNow
  try dsimp only
  repeat' with_reducible first | assumption | intro _ | apply uidFallback_keeps | apply ite_keeps

theorem tagWake_keeps {s : State} (h : Holds P s) : Holds P (tagWake s) := by
  unfold tagWake
  try dsimp only
  repeat' with_reducible first
    | assumption | intro _ | apply onTag_keeps | apply setTagState_keeps | apply tagAnswer_keeps | apply uidNow_keeps

theorem reqa_keeps {s : State} (h : Holds P s) : Holds P (reqa s) := by
  unfold reqa
  try dsimp only
  repeat' with_reducible first | assumption | intro _ | apply otherFrame_keeps | apply tagWake_keeps | apply ite_keeps

theorem wupa_keeps {s : State} (h : Holds P s) : Holds P (wupa s) := by
  unfold wupa
  try dsimp only
  repeat' with_reducible first | assumption | intro _ | apply otherFrame_keeps | apply tagWake_keeps | apply ite_keeps

theorem anticollision_keeps {s : State} {level : Nat} {known : Bytes} (h : Holds P s) : Holds P (anticollision s level known) := by
  unfold anticollision
  try dsimp only
  repeat' with_reducible first | assumption | intro _ | apply tagAnswer_keeps | apply otherFrame_keeps | apply ite_keeps

theorem selectCascade_keeps {s : State} {level : Nat} {uid : Bytes} (h : Holds P s) : Holds P (selectCascade s level uid) := by
  unfold selectCascade
  try dsimp only
  repeat' with_reducible first
    | assumption | intro _ | apply onTag_keeps | apply setTagState_keeps | apply tagAnswer_keeps | apply otherFrame_keeps | apply ite_keeps

theorem hlta_keeps {s : State} (h : Holds P s) : Holds P (hlta s) := by
  unfold hlta
  try dsimp only
  repeat' with_reducible first | assumption | intro _ | apply endAuth_keeps | apply setTagState_keeps | apply otherFrame_keeps | apply ite_keeps

theorem rats_keeps {s : State} {fsdi : Nat} (h : Holds P s) : Holds P (rats s fsdi) := by
  unfold rats
  try dsimp only
  repeat' with_reducible first
    | assumption | intro _ | apply onTag_keeps | apply setTagState_keeps | apply tagAnswer_keeps | apply otherFrame_keeps | apply ite_keeps

theorem pps_keeps {s : State} {rate106 : Bool} (h : Holds P s) : Holds P (pps s rate106) := by
  unfold pps
  try dsimp only
  repeat' with_reducible first | assumption | intro _ | apply tagAnswer_keeps | apply otherFrame_keeps | apply ite_keeps

theorem sendBlock_keeps {s : State} {b : Bytes} (h : Holds P s) : Holds P (sendBlock s b) := by
  unfold sendBlock
  try dsimp only
  repeat' with_reducible first | assumption | intro _ | apply onTag_keeps

theorem sendRAck_keeps {s : State} (h : Holds P s) : Holds P (sendRAck s) := by
  unfold sendRAck
  try dsimp only
  repeat' with_reducible first | assumption | intro _ | apply sendBlock_keeps

theorem sendInf_keeps {s : State} {rest : Bytes} (h : Holds P s) : Holds P (sendInf s rest) := by
  unfold sendInf
  try dsimp only
  repeat' with_reducible first | assumption | intro _ | apply onTag_keeps | apply sendBlock_keeps

theorem apduAnswer_keeps {s : State} {data : Bytes} {sw : Nat} (h : Holds P s) : Holds P (apduAnswer s data sw) := by
  unfold apduAnswer
  try dsimp only
  repeat' with_reducible first | assumption | intro _ | apply bump_keeps | apply onTag_keeps | apply put_keeps | apply sendInf_keeps | apply ite_keeps

theorem apduIn_keeps {s : State} {a : Bytes} (h : Holds P s) : Holds P (apduIn s a) := by
  unfold apduIn
  try dsimp only
  repeat' with_reducible first | assumption | intro _ | apply onTag_keeps | apply notePeak_keeps | apply apduAnswer_keeps | apply ite_keeps

theorem iBlock_keeps {s : State} {chain : Bool} {inf : Bytes} (h : Holds P s) : Holds P (iBlock s chain inf) := by
  unfold iBlock
  try dsimp only
  repeat' with_reducible first
    | assumption | intro _ | apply onTag_keeps | apply noteFull_keeps | apply otherFrame_keeps | apply sendRAck_keeps | apply apduIn_keeps
    | apply ite_keeps

theorem rBlock_keeps {s : State} {nak : Bool} {number : Bool} (h : Holds P s) : Holds P (rBlock s nak number) := by
  unfold rBlock
  try dsimp only
  repeat' with_reducible first
    | assumption | intro _ | apply onTag_keeps | apply tagAnswer_keeps | apply otherFrame_keeps | apply sendRAck_keeps | apply sendInf_keeps
    | apply ite_keeps

theorem wtxResponse_keeps {s : State} (h : Holds P s) : Holds P (wtxResponse s) := by
  unfold wtxResponse
  try dsimp only
  repeat' with_reducible first | assumption | intro _ | apply onTag_keeps | apply otherFrame_keeps | apply sendInf_keeps | apply ite_keeps | split

theorem deselect_keeps {s : State} (h : Holds P s) : Holds P (deselect s) := by
  unfold deselect
  try dsimp only
  repeat' with_reducible first
    | assumption | intro _ | apply onTag_keeps | apply endAuth_keeps | apply setTagState_keeps | apply tagAnswer_keeps | apply otherFrame_keeps
    | apply ite_keeps

theorem wtxTimer_keeps {s : State} (h : Holds P s) : Holds P (wtxTimer s) := by
  unfold wtxTimer
  try dsimp only
  repeat' with_reducible first | assumption | intro _ | apply onTag_keeps | apply sendBlock_keeps | apply ite_keeps

theorem answerTimeout_keeps {s : State} (h : Holds P s) : Holds P (answerTimeout s) := by
  unfold answerTimeout
  try dsimp only
  repeat' with_reducible first | assumption | intro _ | apply dropT_keeps | apply apduAnswer_keeps | apply ite_keeps

theorem tagSelect_keeps {s : State} {sw : Nat} (h : Holds P s) : Holds P (tagSelect s sw) := by
  unfold tagSelect
  try dsimp only
  repeat' with_reducible first | assumption | intro _ | apply onTag_keeps | apply endAuth_keeps | apply apduAnswer_keeps | apply ite_keeps

theorem pageT_keeps {s : State} {k : Bytes} (h : Holds P s) : Holds P (pageT s k) := by
  unfold pageT
  try dsimp only
  repeat' with_reducible first | assumption | intro _ | apply onPage_keeps | apply putU_keeps | apply reseed_keeps

theorem authWait_keeps {s : State} {derives : Bool} (h : Holds P s) : Holds P (authWait s derives) := by
  unfold authWait
  try dsimp only
  repeat' with_reducible first | assumption | intro _ | apply demand_keeps | apply askMask_keeps | apply ite_keeps

theorem authStep1_keeps {s : State} {rndR : Bytes} (h : Holds P s) : Holds P (authStep1 s rndR) := by
  unfold authStep1
  try dsimp only
  repeat' with_reducible first
    | assumption | intro _ | apply onTag_keeps | apply put_keeps | apply setBits_keeps | apply endAuth_keeps | apply apduAnswer_keeps
    | apply pageT_keeps | apply authWait_keeps | apply ite_keeps

theorem authStep2_keeps {s : State} {d : Bytes} (h : Holds P s) : Holds P (authStep2 s d) := by
  unfold authStep2
  try dsimp only
  repeat' with_reducible first
    | assumption | intro _ | apply bump_keeps | apply onTag_keeps | apply endAuth_keeps | apply apduAnswer_keeps | apply authWait_keeps
    | apply ite_keeps

theorem askT_keeps {s t : State} {q : Request} (h : Holds P s) (ht : askT s q = some t) : Holds P t := by
  unfold askT at ht
  dsimp only at ht
  split at ht
  · obtain rfl := Option.some.inj ht
    exact onTag_keeps (enqueue_keeps (wake_keeps h))
  · cases ht

theorem entryAnswer_keeps {s : State} {status : Nat} {v : Bytes} (h : Holds P s) : Holds P (entryAnswer s status v) := by
  unfold entryAnswer
  try dsimp only
  repeat' with_reducible first | assumption | intro _ | apply apduAnswer_keeps

theorem readEntryT_keeps {s : State} {a : Apdu} (h : Holds P s) : Holds P (readEntryT s a) := by
  unfold readEntryT
  try dsimp only
  repeat' with_reducible first
    | assumption | intro _ | apply readAccess_keeps | apply enqueue_keeps | refine askT_keeps ?_ ‹_› | apply entryAnswer_keeps | apply ite_keeps | split

theorem writeAnswer_keeps {s : State} {status : Nat} (h : Holds P s) : Holds P (writeAnswer s status) := by
  unfold writeAnswer
  try dsimp only
  repeat' with_reducible first | assumption | intro _ | apply onTag_keeps | apply used_keeps | apply demand_keeps | apply apduAnswer_keeps | split

theorem writeEntryT_keeps {s : State} {a : Apdu} (h : Holds P s) : Holds P (writeEntryT s a) := by
  unfold writeEntryT
  try dsimp only
  repeat' with_reducible first
    | assumption | intro _ | apply bump_keeps | apply enqueue_keeps | apply authWait_keeps | apply endAuth_keeps | refine askT_keeps ?_ ‹_›
    | apply apduAnswer_keeps | apply writeAnswer_keeps | apply ite_keeps | split

theorem deliverT_keeps {s : State} (h : Holds P s) : Holds P (deliverT s) := by
  unfold deliverT
  try dsimp only
  repeat' with_reducible first
    | assumption | intro _ | apply onDict_keeps | apply onTag_keeps | apply entryAnswer_keeps | apply writeAnswer_keeps
    | ((apply sameXfer_mk) <;> rfl) | apply ite_keeps | split

theorem timeoutT_keeps {s : State} (h : Holds P s) : Holds P (timeoutT s) := by
  unfold timeoutT
  try dsimp only
  repeat' with_reducible first
    | assumption | intro _ | apply dropT_keeps | apply entryAnswer_keeps | apply writeAnswer_keeps | apply ite_keeps | split

theorem apdu_keeps {s : State} {ok : Apdu → Bool} {f : State → Apdu → State}
    (h : Holds P s) (hf : ∀ t x0, Holds P t → Holds P (f t x0)) : Holds P (apdu s ok f) := by
  unfold apdu
  try dsimp only
  repeat' with_reducible first
    | assumption | intro _ | apply hf | apply onTag_keeps | apply apduAnswer_keeps | apply tagSelect_keeps | apply ite_keeps | split

theorem execUidPoolRefill_keeps {words : Unit} {s : State} (h : Holds P s) : Keeps P (execUidPoolRefill words s) := by
  unfold execUidPoolRefill
  apply next_keeps
  repeat' with_reducible first | assumption | intro _ | apply poolRefill_keeps

theorem execFieldSessionStart_keeps {s : State} (h : Holds P s) : Keeps P (execFieldSessionStart s) := by
  unfold execFieldSessionStart
  apply next_keeps
  repeat' with_reducible first | assumption | intro _ | apply sessionStart_keeps

theorem execFieldSessionEnd_keeps {s : State} (h : Holds P s) : Keeps P (execFieldSessionEnd s) := by
  unfold execFieldSessionEnd
  apply next_keeps
  repeat' with_reducible first | assumption | intro _ | apply sessionEnd_keeps

theorem execFieldDrop_keeps {returns : Bool} {s : State} (h : Holds P s) : Keeps P (execFieldDrop returns s) := by
  unfold execFieldDrop
  apply next_keeps
  repeat' with_reducible first | assumption | intro _ | apply fieldDrop_keeps

theorem execReqa_keeps {s : State} (h : Holds P s) : Keeps P (execReqa s) := by
  unfold execReqa
  apply next_keeps
  repeat' with_reducible first | assumption | intro _ | apply reqa_keeps

theorem execWupa_keeps {s : State} (h : Holds P s) : Keeps P (execWupa s) := by
  unfold execWupa
  apply next_keeps
  repeat' with_reducible first | assumption | intro _ | apply wupa_keeps

theorem execAnticollision_keeps {level : Nat} {known : Bytes} {s : State} (h : Holds P s) : Keeps P (execAnticollision level known s) := by
  unfold execAnticollision
  apply next_keeps
  repeat' with_reducible first | assumption | intro _ | apply anticollision_keeps

theorem execSelectCascade_keeps {level : Nat} {uid : Bytes} {s : State} (h : Holds P s) : Keeps P (execSelectCascade level uid s) := by
  unfold execSelectCascade
  apply next_keeps
  repeat' with_reducible first | assumption | intro _ | apply selectCascade_keeps

theorem execHlta_keeps {s : State} (h : Holds P s) : Keeps P (execHlta s) := by
  unfold execHlta
  apply next_keeps
  repeat' with_reducible first | assumption | intro _ | apply hlta_keeps

theorem execRats_keeps {fsdi : Nat} {s : State} (h : Holds P s) : Keeps P (execRats fsdi s) := by
  unfold execRats
  apply next_keeps
  repeat' with_reducible first | assumption | intro _ | apply rats_keeps

theorem execPps_keeps {rate106 : Bool} {s : State} (h : Holds P s) : Keeps P (execPps rate106 s) := by
  unfold execPps
  apply next_keeps
  repeat' with_reducible first | assumption | intro _ | apply pps_keeps

theorem execIBlock_keeps {_number : Bool} {chain : Bool} {inf : Bytes} {s : State} (h : Holds P s) : Keeps P (execIBlock _number chain inf s) := by
  unfold execIBlock
  apply next_keeps
  repeat' with_reducible first | assumption | intro _ | apply iBlock_keeps

theorem execRBlock_keeps {nak : Bool} {number : Bool} {s : State} (h : Holds P s) : Keeps P (execRBlock nak number s) := by
  unfold execRBlock
  apply next_keeps
  repeat' with_reducible first | assumption | intro _ | apply rBlock_keeps

theorem execSWtxResponse_keeps {s : State} (h : Holds P s) : Keeps P (execSWtxResponse s) := by
  unfold execSWtxResponse
  apply next_keeps
  repeat' with_reducible first | assumption | intro _ | apply wtxResponse_keeps

theorem execSDeselect_keeps {s : State} (h : Holds P s) : Keeps P (execSDeselect s) := by
  unfold execSDeselect
  apply next_keeps
  repeat' with_reducible first | assumption | intro _ | apply deselect_keeps

theorem execTagWtxTimer_keeps {s : State} (h : Holds P s) : Keeps P (execTagWtxTimer s) := by
  unfold execTagWtxTimer
  apply next_keeps
  repeat' with_reducible first | assumption | intro _ | apply wtxTimer_keeps

theorem execTagAnswerTimeout_keeps {s : State} (h : Holds P s) : Keeps P (execTagAnswerTimeout s) := by
  unfold execTagAnswerTimeout
  apply next_keeps
  repeat' with_reducible first | assumption | intro _ | apply answerTimeout_keeps

theorem execTagOtherFrame_keeps {_bad : Bool} {s : State} (h : Holds P s) : Keeps P (execTagOtherFrame _bad s) := by
  unfold execTagOtherFrame
  apply next_keeps
  repeat' with_reducible first | assumption | intro _ | apply otherFrame_keeps

theorem execApduSelect_keeps {s : State} (h : Holds P s) : Keeps P (execApduSelect s) := by
  unfold execApduSelect
  apply next_keeps
  repeat' with_reducible first | assumption | intro _ | apply apdu_keeps

theorem execApduGetOrigin_keeps {s : State} (h : Holds P s) : Keeps P (execApduGetOrigin s) := by
  unfold execApduGetOrigin
  apply next_keeps
  repeat' with_reducible first | assumption | intro _ | apply apduAnswer_keeps | apply apdu_keeps

theorem execApduReadLog_keeps {s : State} (h : Holds P s) : Keeps P (execApduReadLog s) := by
  unfold execApduReadLog
  apply next_keeps
  repeat' with_reducible first | assumption | intro _ | apply apduAnswer_keeps | apply apdu_keeps

theorem execApduReadEntry_keeps {s : State} (h : Holds P s) : Keeps P (execApduReadEntry s) := by
  unfold execApduReadEntry
  apply next_keeps
  repeat' with_reducible first | assumption | intro _ | apply readEntryT_keeps | apply apdu_keeps

theorem execApduAuthStep1_keeps {s : State} (h : Holds P s) : Keeps P (execApduAuthStep1 s) := by
  unfold execApduAuthStep1
  apply next_keeps
  repeat' with_reducible first | assumption | intro _ | apply authStep1_keeps | apply apdu_keeps

theorem execApduAuthStep2_keeps {s : State} (h : Holds P s) : Keeps P (execApduAuthStep2 s) := by
  unfold execApduAuthStep2
  apply next_keeps
  repeat' with_reducible first | assumption | intro _ | apply authStep2_keeps | apply apdu_keeps

theorem execApduWriteEntry_keeps {s : State} (h : Holds P s) : Keeps P (execApduWriteEntry s) := by
  unfold execApduWriteEntry
  apply next_keeps
  repeat' with_reducible first | assumption | intro _ | apply writeEntryT_keeps | apply apdu_keeps

theorem execDictEngineTake_keeps {s : State} (h : Holds P s) : Keeps P (execDictEngineTake s) := by
  unfold execDictEngineTake
  apply next_keeps
  repeat' with_reducible first | assumption | intro _ | apply engineTake_keeps | apply deliverT_keeps

theorem execNvmWriteComplete_keeps {s : State} (h : Holds P s) : Keeps P (execNvmWriteComplete s) := by
  unfold execNvmWriteComplete
  apply next_keeps
  repeat' with_reducible first | assumption | intro _ | apply jobComplete_keeps | apply deliverT_keeps

theorem execNvmWriteTimeout_keeps {s : State} (h : Holds P s) : Keeps P (execNvmWriteTimeout s) := by
  unfold execNvmWriteTimeout
  apply next_keeps
  repeat' with_reducible first | assumption | intro _ | apply jobTimeout_keeps | apply deliverT_keeps

/-! ## Bites -/

theorem biteAes_keeps {s : State} (h : Holds P s) : Holds P (biteAes s) := by
  unfold biteAes
  try dsimp only
  repeat' with_reducible first
    | assumption | intro _ | apply onCore_keeps | apply onPage_keeps | apply onSpindle_keeps | apply respondJob_keeps | ((apply sameMem_mk) <;> rfl)
    | apply ite_keeps | split

theorem biteSha_keeps {s : State} (h : Holds P s) : Holds P (biteSha s) := by
  unfold biteSha
  try dsimp only
  repeat' with_reducible first
    | assumption | intro _ | apply onCore_keeps | apply onLoader_keeps | apply onSha_keeps | apply onSpindle_keeps | apply respondJob_keeps
    | ((apply sameMem_mk) <;> rfl) | split

theorem biteBn_keeps {s : State} (h : Holds P s) : Holds P (biteBn s) := by
  unfold biteBn
  try dsimp only
  repeat' with_reducible first
    | assumption | intro _ | apply bnRelease_keeps | apply bnAbort_keeps | apply bnFinish_keeps | apply bnForget_keeps | apply bnConsume_keeps
    | apply ite_keeps | split

theorem dropAsked_keeps {s : State} (h : Holds P s) : Holds P (dropAsked s) := by
  unfold dropAsked
  try dsimp only
  repeat' with_reducible first
    | assumption | intro _ | apply onCore_keeps | apply onDict_keeps | apply dropWaiting_keeps | ((apply sameXfer_mk) <;> rfl) | split

theorem bitePort_keeps {s : State} {req : Nat} {res : Nat} {write : Bool} {addr : Nat} (h : Holds P s) : Holds P (bitePort s req res write addr) := by
  unfold bitePort
  try dsimp only
  repeat' with_reducible first
    | assumption | intro _ | apply onSpindle_keeps | apply loaderFail_keeps | apply drainResults_keeps | apply portReset_keeps
    | apply parserReset_keeps | apply takeExc_keeps | apply timeoutT_keeps | apply biteAes_keeps | apply biteSha_keeps | apply biteBn_keeps
    | apply dropAsked_keeps | ((apply sameMem_mk) <;> rfl) | apply ite_keeps | split

theorem biteRecord_keeps {s : State} {req : Nat} {res : Nat} {write : Bool} {addr : Nat}
    (h : Holds P s) : Holds P (biteRecord s req res write addr) := by
  unfold biteRecord
  try dsimp only
  repeat' with_reducible first | assumption | intro _ | apply onLog_keeps | apply logDie_keeps | apply ite_keeps

theorem bite_keeps {s : State} {req : Nat} {res : Nat} {write : Bool} {addr : Nat} (h : Holds P s) : Holds P (bite s req res write addr) := by
  unfold bite
  try dsimp only
  repeat' with_reducible first
    | assumption | intro _ | apply bump_keeps | apply onArb_keeps | apply put_keeps | apply raise_keeps | apply bitePort_keeps
    | apply biteRecord_keeps

theorem execFabricWatchdogBite_keeps {req : Nat} {res : Nat} {write : Bool} {addr : Nat} {s : State}
    (h : Holds P s) : Keeps P (execFabricWatchdogBite req res write addr s) := by
  unfold execFabricWatchdogBite
  apply next_keeps
  repeat' with_reducible first | assumption | intro _ | apply bite_keeps | apply ite_keeps

/-! ## Watch -/

theorem zeroingAlert_keeps {s : State} {ty : Nat} {inst : Nat} {kind : Nat} {value : Int} {threshold : Int}
    (h : Holds P s) : Holds P (zeroingAlert s ty inst kind value threshold) := by
  unfold zeroingAlert
  try dsimp only
  repeat' with_reducible first | assumption | intro _ | apply monitorAlert_keeps | apply zeroise_keeps | apply ite_keeps

theorem supplyAlert_keeps {s : State} {inst : Nat} {kind : Nat} {value : Int} {threshold : Int}
    (h : Holds P s) : Holds P (supplyAlert s inst kind value threshold) := by
  unfold supplyAlert
  try dsimp only
  repeat' with_reducible first | assumption | intro _ | apply monitorAlert_keeps | apply ite_keeps

theorem enclosure_keeps {s : State} {inst : Nat} {level : Nat} (h : Holds P s) : Holds P (enclosure s inst level) := by
  unfold enclosure
  try dsimp only
  repeat' with_reducible first
    | assumption | intro _ | apply onPads_keeps | apply used_keeps | apply alertFlags_keeps | apply alertRecord_keeps | apply wake_keeps
    | apply processSwitches_keeps | apply ite_keeps

theorem clkCore_keeps {s : State} {dev : Int} (h : Holds P s) : Holds P (clkCore s dev) := by
  unfold clkCore
  try dsimp only
  repeat' with_reducible first | assumption | intro _ | apply monitorAlert_keeps | apply monitorEnd_keeps | apply ite_keeps

theorem execGlitchAlert_keeps {kind : Nat} {value : Int} {threshold : Int} {s : State}
    (h : Holds P s) : Keeps P (execGlitchAlert kind value threshold s) := by
  unfold execGlitchAlert
  apply next_keeps
  repeat' with_reducible first | assumption | intro _ | apply zeroingAlert_keeps

theorem execSupplyAlert_keeps {inst : Nat} {kind : Nat} {value : Int} {threshold : Int} {s : State}
    (h : Holds P s) : Keeps P (execSupplyAlert inst kind value threshold s) := by
  unfold execSupplyAlert
  apply next_keeps
  repeat' with_reducible first | assumption | intro _ | apply supplyAlert_keeps

theorem execLightAlert_keeps {inst : Nat} {value : Int} {threshold : Int} {s : State}
    (h : Holds P s) : Keeps P (execLightAlert inst value threshold s) := by
  unfold execLightAlert
  apply next_keeps
  repeat' with_reducible first | assumption | intro _ | apply zeroingAlert_keeps

theorem execMeshAlert_keeps {inst : Nat} {kind : Nat} {s : State} (h : Holds P s) : Keeps P (execMeshAlert inst kind s) := by
  unfold execMeshAlert
  apply next_keeps
  repeat' with_reducible first | assumption | intro _ | apply used_keeps | apply zeroingAlert_keeps

theorem execEnclosureAlert_keeps {inst : Nat} {level : Nat} {s : State} (h : Holds P s) : Keeps P (execEnclosureAlert inst level s) := by
  unfold execEnclosureAlert
  apply next_keeps
  repeat' with_reducible first | assumption | intro _ | apply enclosure_keeps

theorem execClkCoreDeviation_keeps {deviation : Int} {s : State} (h : Holds P s) : Keeps P (execClkCoreDeviation deviation s) := by
  unfold execClkCoreDeviation
  apply next_keeps
  repeat' with_reducible first | assumption | intro _ | apply clkCore_keeps

theorem execTamperConditionEnd_keeps {ty : Nat} {inst : Nat} {s : State} (h : Holds P s) : Keeps P (execTamperConditionEnd ty inst s) := by
  unfold execTamperConditionEnd
  apply next_keeps
  repeat' with_reducible first | assumption | intro _ | apply monitorEnd_keeps

theorem execLogAppend_keeps {s : State} (h : Holds P s) : Keeps P (execLogAppend s) := by
  unfold execLogAppend
  apply next_keeps
  repeat' with_reducible first | assumption | intro _ | apply logTake_keeps

theorem execLogAppendComplete_keeps {s : State} (h : Holds P s) : Keeps P (execLogAppendComplete s) := by
  unfold execLogAppendComplete
  apply next_keeps
  repeat' with_reducible first | assumption | intro _ | apply logWritten_keeps

theorem execCkptDigest_keeps {s : State} (h : Holds P s) : Keeps P (execCkptDigest s) := by
  unfold execCkptDigest
  apply next_keeps
  repeat' with_reducible first | assumption | intro _ | apply bnDigest_keeps | apply onSelftest_keeps | apply wakeForStep_keeps

theorem execCkptSignature_keeps {s : State} (h : Holds P s) : Keeps P (execCkptSignature s) := by
  unfold execCkptSignature
  apply next_keeps
  repeat' with_reducible first | assumption | intro _ | apply signPart_keeps | apply onSelftest_keeps

theorem execCkptSignTimeout_keeps {s : State} (h : Holds P s) : Keeps P (execCkptSignTimeout s) := by
  unfold execCkptSignTimeout
  apply next_keeps
  repeat' with_reducible first | assumption | intro _ | apply signFailed_keeps

theorem execLogFullRetry_keeps {s : State} (h : Holds P s) : Keeps P (execLogFullRetry s) := by
  unfold execLogFullRetry
  apply next_keeps
  repeat' with_reducible first | assumption | intro _ | apply askClose_keeps

/-! ## Engines -/

theorem execCryptoJobComplete_keeps {e : Engine} {s : State} (h : Holds P s) : Keeps P (execCryptoJobComplete e s) := by
  unfold execCryptoJobComplete
  apply next_keeps
  repeat' with_reducible first | assumption | intro _ | apply aesJob_keeps | apply shaJob_keeps | split

theorem execBnJobStart_keeps {s : State} (h : Holds P s) : Keeps P (execBnJobStart s) := by
  unfold execBnJobStart
  apply next_keeps
  repeat' with_reducible first | assumption | intro _ | apply bnStart_keeps | apply ite_keeps

theorem execBnRngWaitExpiry_keeps {s : State} (h : Holds P s) : Keeps P (execBnRngWaitExpiry s) := by
  unfold execBnRngWaitExpiry
  apply next_keeps
  repeat' with_reducible first | assumption | intro _ | apply bnRngExpiry_keeps

theorem execBnCandidateTimeout_keeps {s : State} (h : Holds P s) : Keeps P (execBnCandidateTimeout s) := by
  unfold execBnCandidateTimeout
  apply next_keeps
  repeat' with_reducible first | assumption | intro _ | apply bnCandidateTimeout_keeps

theorem execBnMsgTimeout_keeps {u : User} {s : State} (h : Holds P s) : Keeps P (execBnMsgTimeout u s) := by
  unfold execBnMsgTimeout
  apply next_keeps
  repeat' with_reducible first | assumption | intro _ | apply bnMsgTimeout_keeps

theorem execBnJobComplete_keeps {s : State} (h : Holds P s) : Keeps P (execBnJobComplete s) := by
  unfold execBnJobComplete
  apply next_keeps
  repeat' with_reducible first | assumption | intro _ | apply bnComplete_keeps

theorem execRngWordProduced_keeps {raw : BitVec 64} {s : State} (h : Holds P s) : Keeps P (execRngWordProduced raw s) := by
  unfold execRngWordProduced
  apply next_keeps
  repeat' with_reducible first | assumption | intro _ | apply rngProduce_keeps

theorem execRngHealthWindowEnd_keeps {window : Nat} {s : State} (h : Holds P s) : Keeps P (execRngHealthWindowEnd window s) := by
  unfold execRngHealthWindowEnd
  apply next_keeps
  repeat' with_reducible first | assumption | intro _ | apply judgeWindow_keeps | apply ite_keeps

/-! ## Host -/

theorem frameError_keeps {s : State} {p : Port} {code : Nat} (h : Holds P s) : Holds P (frameError s p code) := by
  unfold frameError
  try dsimp only
  repeat' with_reducible first | assumption | intro _ | apply bump_keeps | apply put_keeps

theorem portAnswer_keeps {s : State} {p : Port} {r : Response} (h : Holds P s) : Holds P (portAnswer s p r) := by
  unfold portAnswer
  try dsimp only
  repeat' with_reducible first | assumption | intro _ | apply bump_keeps | apply onPort_keeps | apply answer_keeps | apply ite_keeps

theorem offer_keeps {s : State} {p : Port} {q : Request} (h : Holds P s) : Holds P (offer s p q) := by
  unfold offer
  try dsimp only
  repeat' with_reducible first
    | assumption | intro _ | apply put_keeps | apply enqueue_keeps | apply portAnswer_keeps | apply ite_keeps

theorem hostRequest_keeps {s : State} {p : Port} {q : Request} (h : Holds P s) : Holds P (hostRequest s p q) := by
  unfold hostRequest
  try dsimp only
  repeat' with_reducible first | assumption | intro _ | apply bump_keeps | apply portAnswer_keeps | apply offer_keeps | apply ite_keeps | split

theorem frameRx_keeps {s : State} {p : Port} {f : Bytes} (h : Holds P s) : Holds P (frameRx s p f) := by
  unfold frameRx
  try dsimp only
  repeat' with_reducible first | assumption | intro _ | apply bump_keeps | apply hostRequest_keeps | apply ite_keeps

theorem framesRun_keeps {s : State} {p : Port} (h : Holds P s) : Holds P (framesRun s p) := by
  unfold framesRun
  try dsimp only
  repeat' with_reducible first | assumption | intro _ | apply onPort_keeps | apply frameRx_keeps | apply ite_keeps | apply foldl_keeps

theorem bufferFrame_keeps {s : State} {p : Port} {f : Bytes} (h : Holds P s) : Holds P (bufferFrame s p f) := by
  unfold bufferFrame
  try dsimp only
  repeat' with_reducible first
    | assumption | intro _ | apply bump_keeps | apply onPort_keeps | apply notePeak_keeps | apply noteFull_keeps | apply ite_keeps

theorem takeFrame_keeps {s : State} {p : Port} {f : Bytes} {code : Nat} (h : Holds P s) : Holds P (takeFrame s p f code) := by
  unfold takeFrame
  try dsimp only
  repeat' with_reducible first
    | assumption | intro _ | apply raiseCore_keeps | apply frameError_keeps | apply framesRun_keeps | apply bufferFrame_keeps | apply ite_keeps

theorem sdiBytes_keeps {s : State} {p : Port} {f : Bytes} (h : Holds P s) : Holds P (sdiBytes s p f) := by
  unfold sdiBytes
  try dsimp only
  repeat' with_reducible first | assumption | intro _ | apply onPort_keeps | apply takeFrame_keeps | apply ite_keeps

theorem uartFrame_keeps {s : State} {f : Bytes} {framing : Bool} (h : Holds P s) : Holds P (uartFrame s f framing) := by
  unfold uartFrame
  try dsimp only
  repeat' with_reducible first | assumption | intro _ | apply onPads_keeps | apply frameError_keeps | apply takeFrame_keeps | apply ite_keeps | split

theorem hostFrame_keeps {s : State} {p : Port} {f : Bytes} {framing : Bool} (h : Holds P s) : Holds P (hostFrame s p f framing) := by
  unfold hostFrame
  try dsimp only
  repeat' with_reducible first | assumption | intro _ | apply sdiBytes_keeps | apply uartFrame_keeps | apply ite_keeps

theorem csFall_keeps {s : State} {p : Port} {mode3 : Bool} (h : Holds P s) : Holds P (csFall s p mode3) := by
  unfold csFall
  try dsimp only
  repeat' with_reducible first | assumption | intro _ | apply onPort_keeps | apply ite_keeps

theorem answerSent_keeps {s : State} {p : Port} (h : Holds P s) : Holds P (answerSent s p) := by
  unfold answerSent
  try dsimp only
  repeat' with_reducible first | assumption | intro _ | apply bump_keeps | apply onPort_keeps

theorem responseSent_keeps {s : State} {p : Port} {r : Response} (h : Holds P s) : Holds P (responseSent s p r) := by
  unfold responseSent
  try dsimp only
  repeat' with_reducible first | assumption | intro _ | apply bump_keeps | apply onDict_keeps | apply onPort_keeps | ((apply sameXfer_mk) <;> rfl)

theorem chosenEnds_keeps {s : State} {p : Port} {clocked : Nat} (h : Holds P s) : Holds P (chosenEnds s p clocked) := by
  unfold chosenEnds
  try dsimp only
  repeat' with_reducible first | assumption | intro _ | apply bump_keeps | apply answerSent_keeps | apply responseSent_keeps | apply ite_keeps | split

theorem csRise_keeps {s : State} {p : Port} {clocked : Nat} {cut : Bool} (h : Holds P s) : Holds P (csRise s p clocked cut) := by
  unfold csRise
  try dsimp only
  repeat' with_reducible first | assumption | intro _ | apply onPort_keeps | apply frameError_keeps | apply chosenEnds_keeps | apply ite_keeps

theorem uartSend_keeps {s : State} (h : Holds P s) : Holds P (uartSend s) := by
  unfold uartSend
  try dsimp only
  repeat' with_reducible first
    | assumption | intro _ | apply onPort_keeps | apply answer_keeps | apply answerSent_keeps | apply responseSent_keeps | apply ite_keeps | split

theorem execHostRead_keeps {p : Port} {frame : Bytes} {s : State} (h : Holds P s) : Keeps P (execHostRead p frame s) := by
  unfold execHostRead
  apply next_keeps
  repeat' with_reducible first | assumption | intro _ | apply hostFrame_keeps

theorem execHostWrite_keeps {p : Port} {frame : Bytes} {s : State} (h : Holds P s) : Keeps P (execHostWrite p frame s) := by
  unfold execHostWrite
  apply next_keeps
  repeat' with_reducible first | assumption | intro _ | apply hostFrame_keeps

theorem execHostStage_keeps {p : Port} {frame : Bytes} {s : State} (h : Holds P s) : Keeps P (execHostStage p frame s) := by
  unfold execHostStage
  apply next_keeps
  repeat' with_reducible first | assumption | intro _ | apply hostFrame_keeps

theorem execHostFrameError_keeps {p : Port} {frame : Bytes} {framing : Bool} {s : State}
    (h : Holds P s) : Keeps P (execHostFrameError p frame framing s) := by
  unfold execHostFrameError
  apply next_keeps
  repeat' with_reducible first | assumption | intro _ | apply hostFrame_keeps

theorem execHostCsFall_keeps {p : Port} {mode3 : Bool} {s : State} (h : Holds P s) : Keeps P (execHostCsFall p mode3 s) := by
  unfold execHostCsFall
  apply next_keeps
  repeat' with_reducible first | assumption | intro _ | apply csFall_keeps

theorem execHostCsRise_keeps {p : Port} {clocked : Nat} {cutRequest : Bool} {s : State}
    (h : Holds P s) : Keeps P (execHostCsRise p clocked cutRequest s) := by
  unfold execHostCsRise
  apply next_keeps
  repeat' with_reducible first | assumption | intro _ | apply csRise_keeps

theorem execHostUartGapTimeout_keeps {s : State} (h : Holds P s) : Keeps P (execHostUartGapTimeout s) := by
  unfold execHostUartGapTimeout
  apply next_keeps
  repeat' with_reducible first | assumption | intro _ | apply onPads_keeps | apply frameError_keeps | apply ite_keeps

theorem execHostUartResponseSend_keeps {s : State} (h : Holds P s) : Keeps P (execHostUartResponseSend s) := by
  unfold execHostUartResponseSend
  apply next_keeps
  repeat' with_reducible first | assumption | intro _ | apply uartSend_keeps | apply ite_keeps

theorem execKeptResponseExpiry_keeps {p : Port} {s : State} (h : Holds P s) : Keeps P (execKeptResponseExpiry p s) := by
  unfold execKeptResponseExpiry
  apply next_keeps
  repeat' with_reducible first | assumption | intro _ | apply onPort_keeps

theorem parsersRun_keeps {s : State} (h : Holds P s) : Holds P (parsersRun s) := by
  unfold parsersRun
  try dsimp only
  repeat' with_reducible first | assumption | intro _ | apply parserRun_keeps | apply framesRun_keeps | apply foldl_keeps

theorem execDomainExitComplete_keeps {d : Domain} {s : State} (h : Holds P s) : Keeps P (execDomainExitComplete d s) := by
  unfold execDomainExitComplete
  apply next_keeps
  repeat' with_reducible first | assumption | intro _ | apply exitComplete_keeps | apply parsersRun_keeps

end Sys2Proof.Machine
end

