-- ==== Sys2Proof/Laws/Modes.lean ====
section
/-! SUPPORT. What a mode change can do, said once (R82 to R95): the parts of the state it leaves alone, and the mode it leads to. -/
namespace Sys2Proof.Machine

/-- Entries that a mode change, its record, its messages and its notices may write; BS_ALARM aside, which only RETIRED clears (R89). -/
def modeEntry (e : Nat) : Bool :=
  [Ent.LISTEN_ONLY, Ent.MODE, Ent.MODE_SINCE, Ent.MODE_CHANGES, Ent.LAST_ALARM_TIME, Ent.LAST_ALARM_KIND, Ent.ALARM_COUNT, Ent.ECHO_COUNT,
    Ent.HUSH_COUNT, Ent.HUSH_LEFT, Ent.COMMISSIONED_AT, Ent.SERVICE_SECONDS, Ent.ST_FAILS, Ent.ST_ABORTS, Ent.ST_STATE, Ent.ST_SPREAD,
    Ent.ST_NEXT_DUE, Ent.NOTICE_PENDING, Ent.Q_PEAK 2, Ent.Q_PEAK 4, Ent.Q_FULL 2, Ent.Q_FULL 4].contains e || e / 256 == 0x4106

/-- What a mode change leaves alone. -/
structure ModeKept (s t : State) : Prop where
  pending : t.pending = s.pending
  free : t.free = s.free
  ply : t.ply = s.ply
  tag : t.tag = s.tag
  doms : t.doms = s.doms
  pads : t.pads = s.pads
  keeper : t.keeper = { s.keeper with
    st := t.keeper.st, notices := t.keeper.notices, hushEntry := t.keeper.hushEntry, words := t.keeper.words, wordsAt := t.keeper.wordsAt,
    poolDue := t.keeper.poolDue }
  spindle : t.spindle = { s.spindle with can := { s.spindle.can with held := t.spindle.can.held, notices := t.spindle.can.notices } }
  flyer : t.flyer = { s.flyer with bs := t.flyer.bs, horn := { s.flyer.horn with check := t.flyer.horn.check } }
  log : t.log = { s.log with queue := t.log.queue }
  sb : t.sb = { s.sb with keeper := { s.sb.keeper with txq := t.sb.keeper.txq }, flyer := { s.sb.flyer with txq := t.sb.flyer.txq } }
  get : ∀ e, modeEntry e = false → t.get e = s.get e
  getU : ∀ e u, modeEntry e = false → t.getU e u = s.getU e u

theorem ModeKept.refl (s : State) : ModeKept s s := ⟨rfl, rfl, rfl, rfl, rfl, rfl, rfl, rfl, rfl, rfl, rfl, fun _ _ => rfl, fun _ _ _ => rfl⟩

theorem ModeKept.trans {s t u : State} (a : ModeKept s t) (b : ModeKept t u) : ModeKept s u where
  pending := b.pending.trans a.pending
  free := b.free.trans a.free
  ply := b.ply.trans a.ply
  tag := b.tag.trans a.tag
  doms := b.doms.trans a.doms
  pads := b.pads.trans a.pads
  keeper := by rw [b.keeper, a.keeper]
  spindle := by rw [b.spindle, a.spindle]
  flyer := by rw [b.flyer, a.flyer]
  log := by rw [b.log, a.log]
  sb := by rw [b.sb, a.sb]
  get e h := (b.get e h).trans (a.get e h)
  getU e u h := (b.getU e u h).trans (a.getU e u h)

theorem ModeKept.ite {s a b : State} {c : Prop} [Decidable c] (ha : ModeKept s a) (hb : ModeKept s b) : ModeKept s (if c then a else b) := by
  split <;> assumption

/-! ## The steps of a mode change -/

theorem put_kept (s : State) (e v : Nat) (h : modeEntry e = true) : ModeKept s (s.put e v) :=
  ⟨rfl, rfl, rfl, rfl, rfl, rfl, rfl, rfl, rfl, rfl, rfl, fun e' h' => State.get_put_ne _ (by rintro rfl; simp [h] at h') _,
    fun e' _ h' => State.getU_put_ne _ (by rintro rfl; simp [h] at h') _ _⟩

theorem bumpBy_kept (s : State) (e n : Nat) (h : modeEntry e = true) : ModeKept s (s.bumpBy e n) := put_kept _ _ _ h
theorem bump_kept (s : State) (e : Nat) (h : modeEntry e = true) : ModeKept s (s.bump e) := put_kept _ _ _ h

theorem putU_kept (s : State) (e : Nat) (u : User) (v : Nat) (h : modeEntry e = true) : ModeKept s (s.putU e u v) :=
  ⟨rfl, rfl, rfl, rfl, rfl, rfl, rfl, rfl, rfl, rfl, rfl, fun e' h' => State.get_putU_ne _ (by rintro rfl; simp [h] at h') _ _,
    fun e' _ h' => State.getU_putU_ne _ (.inl (by rintro rfl; simp [h] at h')) _⟩

theorem notePeak_kept (s : State) (q n : Nat) (h : modeEntry (Ent.Q_PEAK q) = true) : ModeKept s (notePeak s q n) :=
  .ite (put_kept _ _ _ h) (.refl _)

theorem notePeakOf_kept (s : State) (d : Die) (q n : Nat) (h : modeEntry (Ent.Q_PEAK q) = true) : ModeKept s (notePeakOf s d q n) :=
  .ite (.refl _) (notePeak_kept _ _ _ h)

theorem noteFull_kept (s : State) (q : Nat) (h : modeEntry (Ent.Q_FULL q) = true) : ModeKept s (noteFull s q) := .ite (bump_kept _ _ h) (.refl _)

theorem sbQueue_kept (s : State) (d : Die) (ty dst : Nat) (p : Bytes) (h : d ≠ .spindle) : ModeKept s (sbQueue s d ty dst p) := by
  refine .ite (.trans ?_ (notePeakOf_kept _ _ _ _ rfl)) (noteFull_kept _ _ rfl)
  cases d <;> first | contradiction | exact ⟨rfl, rfl, rfl, rfl, rfl, rfl, rfl, rfl, rfl, rfl, rfl, fun _ _ => rfl, fun _ _ _ => rfl⟩

theorem onCan_kept (s : State) (f : Can → Can)
    (h : f s.spindle.can = { s.spindle.can with held := (f s.spindle.can).held, notices := (f s.spindle.can).notices }) : ModeKept s (s.onCan f) :=
  ⟨rfl, rfl, rfl, rfl, rfl, rfl, rfl, by simp only [State.onCan, State.onSpindle]; rw [← h], rfl, rfl, rfl, fun _ _ => rfl, fun _ _ _ => rfl⟩

theorem setNotices_kept (s : State) (m : Nat) : ModeKept s (setNotices s m) := by
  have : ∀ (l : List User) (s : State), ModeKept s (l.foldl (fun s u => s.putU Ent.NOTICE_PENDING u (s.getU Ent.NOTICE_PENDING u ||| m)) s) := by
    intro l
    induction l with
    | nil => exact fun s => .refl s
    | cons u l ih => exact fun s => (putU_kept s _ u _ rfl).trans (ih _)
  exact (this users s).trans (.ite (.refl _) (onCan_kept _ _ rfl))

theorem onKeeper_kept (s : State) (f : Keeper → Keeper)
    (h : f s.keeper = { s.keeper with
      st := (f s.keeper).st, notices := (f s.keeper).notices, hushEntry := (f s.keeper).hushEntry, words := (f s.keeper).words,
      wordsAt := (f s.keeper).wordsAt, poolDue := (f s.keeper).poolDue }) :
    ModeKept s (s.onKeeper f) := ⟨rfl, rfl, rfl, rfl, rfl, rfl, h, rfl, rfl, rfl, rfl, fun _ _ => rfl, fun _ _ _ => rfl⟩

theorem onLog_kept (s : State) (f : LogUnit → LogUnit) (h : f s.log = { s.log with queue := (f s.log).queue }) : ModeKept s (s.onLog f) :=
  ⟨rfl, rfl, rfl, rfl, rfl, rfl, rfl, rfl, rfl, h, rfl, fun _ _ => rfl, fun _ _ _ => rfl⟩

theorem onHorn_kept (s : State) (f : Horn → Horn) (h : f s.flyer.horn = { s.flyer.horn with check := (f s.flyer.horn).check }) :
    ModeKept s (s.onHorn f) :=
  ⟨rfl, rfl, rfl, rfl, rfl, rfl, rfl, rfl, by simp only [State.onHorn, State.onFlyer]; rw [← h], rfl, rfl, fun _ _ => rfl, fun _ _ _ => rfl⟩

theorem onSelfTest_kept (s : State) (f : SelfTest → SelfTest) : ModeKept s (s.onSelfTest f) := onKeeper_kept _ _ rfl

theorem raise_kept (s : State) (k : Nat) : ModeKept s (raise s k) := .ite (setNotices_kept _ _) (.ite (.refl _) (onKeeper_kept _ _ rfl))

theorem stSigned_kept (s : State) (ty : Nat) : ModeKept s (stSigned s ty) := .ite (put_kept _ _ _ rfl) (.refl _)

theorem countSummary_kept (s : State) (ty : Nat) (d : Bytes) : ModeKept s (countSummary s ty d) := by
  refine (stSigned_kept s ty).trans (.ite (.refl _) (bump_kept _ _ ?_))
  have : recClass ty d < 6 := by unfold recClass; simp only; split_ifs <;> omega
  have h : (Ent.LOG_SUMMARY (recClass ty d)) / 256 = 0x4106 := by unfold Ent.LOG_SUMMARY; omega
  simp [modeEntry, h]

theorem logKeeper_kept (s : State) (ty src : Nat) (d : Bytes) : ModeKept s (logKeeper s ty src d) :=
  .ite ((onLog_kept _ _ rfl).trans (notePeak_kept _ _ _ rfl)) ((noteFull_kept _ _ rfl).trans (countSummary_kept _ _ _))

theorem stSpread_kept (s : State) (n : Nat) : ModeKept s (stSpread s n) := (put_kept _ _ _ rfl).trans (put_kept _ _ _ rfl)

theorem stSpreadFallback_kept (s : State) : ModeKept s (stSpreadFallback s) := stSpread_kept _ _

theorem sendWords_kept (s : State) : ModeKept s (sendWords s) := .ite (.refl _) ((onKeeper_kept _ _ rfl).trans (sbQueue_kept _ _ _ _ _ (by decide)))

theorem wordsGone_kept (s : State) (w : WordUse) : ModeKept s (wordsGone s w) := by
  cases w
  · exact stSpreadFallback_kept _
  · exact .refl _
  · exact onKeeper_kept _ (fun k => { k with poolDue := false }) rfl

theorem wordsLost_kept (n : Nat) (s : State) : ModeKept s (wordsLost n s) := by
  induction n generalizing s with
  | zero => exact .refl _
  | succ n ih =>
    unfold wordsLost
    split
    · exact .refl _
    · exact .ite (.refl _) ((((onKeeper_kept _ _ rfl).trans (wordsGone_kept _ _)).trans (sendWords_kept _)).trans (ih _))

theorem askWords_kept (s : State) (w : WordUse) : ModeKept s (askWords s w) :=
  .trans (.ite ((onKeeper_kept _ _ rfl).trans (sendWords_kept _)) (onKeeper_kept _ _ rfl)) (wordsLost_kept _ _)

theorem stDrawSpread_kept (s : State) : ModeKept s (stDrawSpread s) :=
  .ite (.refl _) (.ite (askWords_kept _ _) (stSpreadFallback_kept _))

theorem stEnd_kept (s : State) (o : Nat) : ModeKept s (stEnd s o) := by
  unfold stEnd
  have h1 : ModeKept s (if o = 1 then s.bump Ent.ST_FAILS else if o = 2 then s.bump Ent.ST_ABORTS else s) :=
    .ite (bump_kept _ _ rfl) (.ite (bump_kept _ _ rfl) (.refl _))
  have h2 := h1.trans (.ite (c := o = 2) (.refl _) (onKeeper_kept _ (fun k => { k with poolDue := true }) rfl))
  exact ((((h2.trans (onSelfTest_kept _ _)).trans (put_kept _ _ _ rfl)).trans (raise_kept _ _)).trans (logKeeper_kept _ _ _ _)).trans
    (stDrawSpread_kept _)

theorem stAbort_kept (s : State) : ModeKept s (stAbort s) :=
  .ite (.refl _) ((stEnd_kept _ _).trans (onHorn_kept _ _ rfl))

theorem leaveMode_kept (s : State) (old : Option Mode) : ModeKept s (leaveMode s old) := by
  unfold leaveMode
  split
  · exact .ite ((put_kept _ _ _ rfl).trans (put_kept _ _ _ rfl)) (.refl _)
  · exact (put_kept _ _ _ rfl).trans (raise_kept _ _)
  · exact stAbort_kept _
  · exact .refl _

theorem writeMode_kept (s : State) (m : Mode) : ModeKept s (writeMode s m) :=
  ((((put_kept _ _ _ rfl).trans (put_kept _ _ _ rfl)).trans (put_kept _ _ _ rfl)).trans (bump_kept _ _ rfl)).trans (raise_kept _ _)

theorem arriveMode_kept (s : State) (m : Mode) (h : m ≠ .retired) : ModeKept s (arriveMode s m) := by
  cases m
  case retired => contradiction
  case alarm =>
    refine .trans ?_ (raise_kept _ _)
    refine .trans ?_ (bump_kept _ _ rfl)
    refine .trans ?_ (put_kept _ _ _ rfl)
    refine .trans ?_ (put_kept _ _ _ rfl)
    exact onCan_kept _ _ rfl
  case echo => exact (bump_kept _ _ rfl).trans (raise_kept _ _)
  case hush => exact ((onKeeper_kept _ _ rfl).trans (bump_kept _ _ rfl)).trans (put_kept _ _ _ rfl)
  case fault => exact raise_kept _ _
  all_goals exact .refl _

theorem alarmEndNotice_kept (s : State) (o : Option Mode) (m : Mode) : ModeKept s (alarmEndNotice s o m) := .ite (raise_kept _ _) (.refl _)

theorem logMode_kept (s : State) (m : Mode) (o : Option Mode) (src : Nat) : ModeKept s (logMode s m o src) :=
  .ite (logKeeper_kept _ _ _ _) (.refl _)

theorem sendMode_kept (s : State) : ModeKept s (sendMode s) := sbQueue_kept _ _ _ _ _ (by decide)

/-- A mode change into any mode but RETIRED. -/
theorem enterMode_kept (s : State) (m : Mode) (src : Nat) (h : m ≠ .retired) : ModeKept s (enterMode s m src) := by
  refine .ite (.refl _) ?_
  refine .trans ?_ (sendMode_kept _)
  refine .trans ?_ (logMode_kept _ _ _ _)
  refine .trans ?_ (alarmEndNotice_kept _ _ _)
  refine .trans ?_ (arriveMode_kept _ _ h)
  exact (leaveMode_kept _ _).trans (writeMode_kept _ _)

/-! ## The mode itself -/

theorem sbQueue_get_mode (s : State) (d : Die) (ty dst : Nat) (p : Bytes) : (sbQueue s d ty dst p).get Ent.MODE = s.get Ent.MODE :=
  sbQueue_get _ (by decide) (by decide)

theorem raise_get_mode (s : State) (k : Nat) : (raise s k).get Ent.MODE = s.get Ent.MODE := raise_get _ (by decide)

theorem logKeeper_get_mode (s : State) (ty src : Nat) (d : Bytes) : (logKeeper s ty src d).get Ent.MODE = s.get Ent.MODE :=
  logKeeper_get _ (by decide) (by decide) (by decide) (by decide)

theorem retireBackstop_get_mode (s : State) : (retireBackstop s).get Ent.MODE = s.get Ent.MODE := by
  unfold retireBackstop
  rw [State.get_put_ne _ (by decide)]
  split
  · exact sbQueue_get_mode _ _ _ _ _
  · rfl

theorem arriveMode_get_mode (s : State) (m : Mode) : (arriveMode s m).get Ent.MODE = s.get Ent.MODE := by
  cases m <;> simp only [arriveMode, raise_get_mode]
  case alarm =>
    exact (State.get_put_ne _ (by decide) _).trans ((State.get_put_ne _ (by decide) _).trans (State.get_put_ne _ (by decide) _))
  case echo => exact State.get_put_ne _ (by decide) _
  case hush => exact (State.get_put_ne _ (by decide) _).trans (State.get_put_ne _ (by decide) _)
  case retired => exact retireBackstop_get_mode _

/-- A mode change leads to its mode. -/
theorem enterMode_mode (s : State) (m : Mode) (src : Nat) : (enterMode s m src).get Ent.MODE = modeCode m := by
  unfold enterMode
  split
  · assumption
  · rw [sendMode, sbQueue_get_mode, logMode]
    have h : (alarmEndNotice (arriveMode (writeMode (leaveMode s (modeNow s)) m) m) (modeNow s) m).get Ent.MODE = modeCode m := by
      rw [alarmEndNotice]
      split <;> simp only [raise_get_mode, arriveMode_get_mode, writeMode] <;>
        exact (State.get_put_ne _ (by decide) _).trans ((State.get_put_ne _ (by decide) _).trans (State.get_put_self _ _ _))
    split
    · rw [logKeeper_get_mode]; exact h
    · exact h

/-! ## What follows an event -/

theorem baseMode_ne_retired (s : State) : baseMode s ≠ .retired := by
  unfold baseMode; split
  · decide
  · split <;> decide

/-- What follows every event leaves alone what a mode change does, but for BASE_MODE. -/
theorem afterEvent_kept (s : State) (src : Nat) : ModeKept (s.put Ent.BASE_MODE (modeCode (baseMode s))) (afterEvent s src) := by
  unfold afterEvent settle backstopCheck
  have h1 : ModeKept (s.put Ent.BASE_MODE (modeCode (baseMode s)))
      (if modeIn (s.put Ent.BASE_MODE (modeCode (baseMode s))) [.supervise, .fault, .endOfLife] then
        enterMode (s.put Ent.BASE_MODE (modeCode (baseMode s))) (baseMode (s.put Ent.BASE_MODE (modeCode (baseMode s)))) src
      else s.put Ent.BASE_MODE (modeCode (baseMode s))) := .ite (enterMode_kept _ _ _ (baseMode_ne_retired _)) (.refl _)
  exact .ite (h1.trans (enterMode_kept _ _ _ (by decide))) h1

theorem alarmEnds_kept (s : State) : ModeKept s (alarmEnds s) := by
  refine .ite (enterMode_kept _ _ _ ?_) (.refl _)
  unfold afterAlarm; split
  · decide
  · split
    · decide
    · exact baseMode_ne_retired _

theorem backstopCheck_kept (s : State) : ModeKept s (backstopCheck s) := .ite (enterMode_kept _ _ _ (by decide)) (.refl _)

end Sys2Proof.Machine
end

