-- ==== Sys2Proof/Machine/Pads.lean ====
section
/-! DEFINITION. What the digital output pads carry (R384, R386), as far as it holds for longer than a bit: a function of the state. -/
namespace Sys2Proof.Machine

/-- The output pads whose level the state gives. -/
inductive OutPad where
  | ind (n : Nat)                    -- IND_1 to IND_3
  | icLine | alarmOut | faultOut | lockup | canStby
  | irq (p : Port)
  deriving DecidableEq, Repr

/-- What a pad carries. -/
inductive PadLevel where
  | low | high                       -- driven
  | z | pullUp | pullDown            -- high impedance, with the pull resistor of R384 where it has one
  deriving DecidableEq, Repr

/-- A pad while its domain does not drive it: its pull resistor alone (R384, R386). -/
def padIdle : OutPad → PadLevel
  | .ind _ => .z
  | .icLine => .pullDown
  | .alarmOut => .pullDown
  | .faultOut => .pullDown
  | .lockup => .z
  | .canStby => .pullUp
  | .irq _ => .z

/-- A push-pull output. -/
def padDrive (b : Bool) : PadLevel := if b then .high else .low

/-- A pad with VDD_IN valid: the flyer drives its own pads while it is up (R144), the spindle die's always-on island also during a reset of the die. -/
def padPowered (s : State) (p : OutPad) : PadLevel :=
  let h := s.flyer.horn
  match p with
  | .ind n => if (n == 1 && h.ind1) || (n == 2 && h.ind2) || (n == 3 && h.ind3) then .low else padIdle p
  | .icLine => if h.icDriven then .high else padIdle p
  | .alarmOut => if s.flyer.up then padDrive h.alarmOut else padIdle p
  | .faultOut => padDrive (faultOut s)
  | .lockup => padDrive s.spindle.lockupPad
  | .canStby => padDrive (canStby s)
  | .irq q => if irqAsserted s q then .low else padIdle p

/-- A pad: nothing is driven while VDD_IN is absent (R386). -/
def padOut (s : State) (p : OutPad) : PadLevel := if s.keeper.vddValid then padPowered s p else padIdle p

end Sys2Proof.Machine
end

