-- ==== Sys2Proof/Tests/Base.lean ====
section
/-! SUPPORT. The small states on which the tests and the witnesses stand. -/
namespace Sys2Proof.Tests
open Sys2Proof.Machine

/-- The backstop set and the capture limits written. -/
def setUp (s : State) : State := s.onKeeper fun k => { k with written := backstopSet.map (·.1) }

/-- A part in OWNED with VDD_IN valid, all dies running and handed over, in SUPERVISE. -/
def booted : State :=
  ((setUp { State.reset with
      keeper := { State.reset.keeper with vddValid := true, vddMv := 3000, seq := .released, live := true, helloSeen := true, oem0 := true
                                          lcRows := [lcCode .blank, lcCode .maker, lcCode .owned, 0, 0] }
      flyer := { up := true, mode := some .supervise }
      spindle := { Spindle.atReset with alive := true, handed := true, mode := some .supervise } }).put Ent.MODE (modeCode .supervise)).put
    Ent.BASE_MODE (modeCode .supervise)

/-- Before handover. -/
def booting : State := booted.onSpindle fun x => { x with handed := false }

/-- The same in another mode. -/
def inMode (m : Mode) (s : State := booted) : State := (s.put Ent.MODE (modeCode m)).onFlyer fun f => { f with mode := some m }

/-- The same in another life-cycle state. -/
def inLc (l : Lc) (s : State := booted) : State :=
  s.onKeeper fun k => { k with lcRows := (allLc.map fun x => if lcRow x ≤ lcRow l then lcCode x else 0) }

/-- The crypto engines on, with a word of the RNG at hand. -/
def rdy : State := (setDomState booted .crypto 2).onRng fun r => { r with fifo := [7] }

def msg0 : SbMsg := ⟨2, .flyer, 0, []⟩

/-- The hart at its first instruction, with bytes in code SRAM. -/
def running (b : Bytes) : State := booted.onMem fun m => { m with code := m.code.putAll 0 b }

/-- A value in a register. -/
def withX (s : State) (r : Nat) (v : Word) : State := s.onCore fun c => c.setX r v

/-- The debug port unlocked. -/
def opened : State := booted.onCore fun c => { c with debugOpen := true }

/-- The first 32 bytes of a manifest of R245: rollback version 3, sequence 7, an image of 4 bytes, entry 2, key 0. -/
def man0 : Bytes := [0x53, 0x56, 0x54, 0x31, 1, 0, 3, 0, 7, 0, 0, 0, 4, 0, 0, 0, 2, 0, 0, 0, 1, 0, 0, 0x10] ++ zeros 8

/-- That manifest at the start of slot A. -/
def flashed (s : State) : State := s.onMem fun m => { m with flash := m.flash.putAll 0x10000 man0 }

/-- A device that has joined the bus as node 5. -/
def joined : State :=
  (((setDomState booted .net 2).onSpindle fun x => { x with xoFound := true, xoChecked := true, can := { x.can with joined := true } }).put
    Ent.CAN_ENABLE 1).put Ent.NODE_ID 5

/-- The host ports on and in use. -/
def hostOn : State := (((setDomState booted .host 2).put (Ent.HP_ENABLE 1) 1).put (Ent.HP_ENABLE 2) 1).put (Ent.HP_ENABLE 3) 1

/-- A request frame (R352). -/
def hostBytes (seq op idx sub : Nat) (v : Bytes) : Bytes :=
  let b := [0x5A, byte seq, byte op] ++ leBytes 2 idx ++ [byte sub, byte v.length] ++ v
  b ++ leBytes 2 (crc16 b)

/-- A field session with a UID of four bytes, in one of the states of the tag. -/
def tagIn (k : Nat) (s : State := booted) : State :=
  (s.put Ent.TAG_STATE k).onTag fun t => { t with session := true, uid := [8, 1, 2, 3], selected := true, fsd := 256 }

/-- That tag in PROTOCOL with a command in its buffer. -/
def tagHas (a : Bytes) (s : State := booted) : State := (tagIn 5 s).onTag fun t => { t with pendingApdu := some a }

/-- Captures whose samples all lie in range. -/
def caps0 : Captures := ⟨[100, 101], [200], [3], [400]⟩

def optRes0 : OptResult := ⟨1000, -5, 600, 700, 40, 16, 9, 2900, 33, false⟩

/-- A message on the wire. -/
def wired (m : SbMsg) (s : State := booted) : State := s.onSb fun b => { b with wire := some m }

end Sys2Proof.Tests
end

