-- ==== Sys2Proof/Tests/Slice0.lean ====
section
/-! SUPPORT. The model's own tests: the worked cases of the spec, ill-formed commands, and for each statement with premises states that meet them. -/
namespace Sys2Proof.Tests
open Sys2Proof.Machine

section
set_option Elab.async false

/-! ## Well-formedness: an ill-formed term for each check -/

/-- Powers, pads and times wider than their fields. -/
theorem test_wf_power : ([.vddInValid 0x10000, .vddInLost 0x10000, .hornVboostReady 0x10000, .optMeasurementTick 0x10000, .stBattery 0x10000,
    .keeperAonCycle [.backstop 256], .keeperAonCycle [.alarmFw 8], .keeperAonCycle [.relayedCan 8], .keeperAonCycle [.faultSet 16],
    .keeperAonCycle [.faultClear 16]] : List Instr).all (fun c => !c.wf) = true := by decide +kernel

/-- Messages, lanes and flits. -/
theorem test_wf_links : ([.sbMessageDropped [], .sbMessageCutOff [.keeper, .flyer, .spindle, .keeper], .sbAckTimeout .keeper 16, .plyWakeTimeout [],
    .plyCommandFlit 256 0, .plyCommandFlit 0 (2 ^ 32), .plyFlitDiscarded .s2f (.crc, .command 256 0),
    .plyFlitDiscarded .f2s0 (.crc, .status 7)] : List Instr).all (fun c => !c.wf) = true := by decide +kernel

/-- Measurements out of the converters' ranges; captures of the wrong length or with samples too wide. -/
theorem test_wf_sensing : ([.optMeasurementComplete caps0 false 3000, .stChamber ⟨[4096], [], [], []⟩ false 3000, .heatConversionComplete 65536,
    .coConversionComplete (2 ^ 19), .ainConversionComplete (-(2 ^ 23) - 1), .dieTempTick 40000 0 0 0, .dieTempTick 0 40000 0 0, .dieTempTick 0 0 40000 0,
    .dieTempTick 0 0 0 (2 ^ 32), .coPulseRestore (2 ^ 32), .stCoCell (2 ^ 32), .stHorn 65536 0 false, .stHorn 0 65536 false] : List Instr).all
      (fun c => !c.wf) = true := by decide +kernel

/-- Values of entries too wide, addresses out of range. -/
theorem test_wf_values : ([.captHeldWrite .A (2 ^ 32), .timeSet .A (2 ^ 32), .wdtKick .M (2 ^ 32), .rollbackCommit .M (2 ^ 32), .aesStart .A (2 ^ 32),
    .shaInit .A (2 ^ 32), .bnClear .A (2 ^ 32), .noticeClear .A (2 ^ 32), .nodeIdWrite .A (2 ^ 32), .calFactoryWrite .A 0x10000 0 [],
    .calDeltaWrite .A 0 256 [], .arbConfigWrite .M 0 0 (zeros 65), .fOneTimeWrite .A 0x10000 0 [], .entryWrite .A 0 256 [], .dbgSig .A (zeros 65),
    .rotSig .M (zeros 65), .aesIn .A (zeros 65), .shaData .A (zeros 65), .shaLast .A (zeros 65), .bnMsg .A (zeros 65), .hornCmdTone .M [],
    .hornCmdIndicator .M (zeros 8), .hornCmdStop .M [], .restWrite .M 256 0, .restWrite .M 0 (2 ^ 32), .monoInc .M 256 1, .monoInc .M 1 (2 ^ 32),
    .claimTake .A 256 1, .claimTake .A 0 (2 ^ 32), .claimRelease .A 256, .claimLeaseExpiry 256, .hpReset .M 256 1,
    .hpReset .M 1 (2 ^ 32)] : List Instr).all (fun c => !c.wf) = true := by decide +kernel

/-- Windows, words and requesters. -/
theorem test_wf_spindle : ([.stRngHealth (2 ^ 4096), .rngHealthWindowEnd (2 ^ 4096), .stKnownAnswer 256,
    .domainWake 256 [.core], .arbDecision [(12, 1, 1)] [] [], .arbDecision [(0, 7, 1)] [] [], .arbDecision [(0, 1, 0)] [] [],
    .arbDecision [(5, 5, 65)] [] [], .arbDecision [(0, 1, 1), (0, 2, 1)] [] [], .arbDecision [] [0] [], .arbDecision [] [] [12],
    .creditWindowStart 0, .creditWindowStart 7, .slotWrapApply 7, .fabricWatchdogBite 12 1 false 0, .fabricWatchdogBite 0 0 false 0,
    .fabricWatchdogBite 0 1 false (2 ^ 32),
    .debugAbstractCommand (.readGpr 32), .debugAbstractCommand (.writeGpr 32 0), .debugAbstractCommand (.readCsr 4096),
    .debugAbstractCommand (.writeCsr 4096 0), .tapInstruction 32, .loaderDiscovery (zeros 257) false] : List Instr).all (fun c => !c.wf) = true := by
  decide +kernel

/-- Alerts, frames of the bus, of the host ports and of the reader. -/
theorem test_wf_edges : ([.glitchAlert 256 0 0, .glitchAlert 0 (2 ^ 31) 0, .glitchAlert 0 0 (2 ^ 31), .supplyAlert 256 0 0 0, .supplyAlert 0 256 0 0,
    .supplyAlert 0 0 (2 ^ 31) 0, .supplyAlert 0 0 0 (2 ^ 31), .lightAlert 256 0 0, .lightAlert 0 (2 ^ 31) 0, .lightAlert 0 0 (2 ^ 31), .meshAlert 256 0,
    .meshAlert 0 256, .enclosureAlert 256 0, .enclosureAlert 0 2, .clkCoreDeviation (2 ^ 31), .tamperConditionEnd 256 0, .tamperConditionEnd 0 256,
    .canSourceRx 128, .canHeartbeatRx 128, .canRequestRead 128 [],
    .canRequestRead 5 (zeros 9), .canRequestWrite 0 (zeros 65), .canRequestStage 128 [], .canTimeRx 128 0,
    .canTimeRx 0 (2 ^ 32), .canTxSuccess 256, .canTxError none (some 512) false (false, 0), .canTxError none none false (false, 256),
    .canRxError .crc (2 ^ 29) false (false, 0), .canRxError .crc 0 false (false, 256), .anticollision 3 [],
    .anticollision 1 (zeros 5), .selectCascade 0 (zeros 4), .selectCascade 1 (zeros 3), .rats 16, .iBlock false false (zeros 254)] : List Instr).all
      (fun c => !c.wf) = true := by decide +kernel

/-- Terms that the checks accept, at the ends of their ranges. -/
theorem test_wf_accepts : ([.vddInValid 0xFFFF, .keeperAonCycle [.backstop 255], .sbMessageDropped [.flyer], .plyCommandFlit 255 (2 ^ 32 - 1),
    .coConversionComplete (2 ^ 19 - 1), .coConversionComplete (-(2 ^ 19)), .entryWrite .A 0xFFFF 255 (zeros 64), .hornCmdTone .M (zeros 7),
    .arbDecision [(11, 6, 1), (5, 5, 64)] [5] [0], .creditWindowStart 6, .tapInstruction 31, .canTxError none (some 511) false (false, 255), .anticollision 2 (zeros 4), .rats 15,
    .hostRead .B (zeros 72)] : List Instr).all Instr.wf = true := by decide +kernel

/-! ## Words, rights, addresses -/

/-- Worked case 3.1: the words of SUPERVISE and VERIFY; a flipped bit makes no code of a word. -/
theorem test_mode_words : modeCode .supervise = 0x4B4B4B4B ∧ modeCode .verify = 0x5A5A5A5A ∧ modeOf 0x4B4B4B4A = none := by decide

/-- Worked case 0.1: the access string `-xrrr-r-`, users L, M, U, A, B, C, N, T from the left: 0 none, 1 read, 3 read and write. -/
theorem test_access_string :
    (findRow Ent.NODE_NAME).map (fun r => [right { r with acc := 0x03111010 } .L, right { r with acc := 0x03111010 } .M,
      right { r with acc := 0x03111010 } .A, right { r with acc := 0x03111010 } .C, right { r with acc := 0x03111010 } .N]) =
    some [0, 3, 1, 0, 1] := by decide +kernel

/-- The column of NODE_NAME in the entries of the dictionary, `-xrxxxrr`. -/
theorem test_node_name_rights :
    (findRow Ent.NODE_NAME).map (fun r => (users.map (right r), r.ty.size, r.perUser)) = some ([0, 3, 1, 3, 3, 3, 1, 1], 32, false) := by
  decide +kernel

/-- Worked case 2.1, step 1: the address of NODE_NAME in the scalar window. -/
theorem test_window_address : windowIdx 0x40000000 0x40402000 = 0x1008 ∧ windowSub 0x40000000 0x40402000 = 0 := by decide

/-! ## The dictionary -/

/-- Worked case 2.2, steps 1 and 2: the claim of group 0x10 by A, then B's try. -/
theorem test_claim_taken : Answers (.claimTake .A 0x10 600) booted fun t => t.get (Ent.CLAIM 0x10) = 0x25813 :=
  ⟨_, rfl, by decide +kernel⟩
theorem test_claim_of_another : Answers (.claimTake .B 0x10 60) (booted.put (Ent.CLAIM 0x10) 0x25813) fun t =>
    t.get (Ent.CLAIM 0x10) = 0x25813 ∧ t.getU Ent.LAST_STATUS .B = 6 := ⟨_, rfl, by decide +kernel⟩

/-- Worked case 2.2, steps 3 to 6: B's three staged writes, committed in SUPERVISE and in COMMISSION. -/
def caseStaged (s : State) : State :=
  s.onDict fun d => { d with staged := d.staged.set .B [(Ent.NODE_NAME, 5), (Ent.NOTICE_MASK, 0x31), (Ent.NOTICE_PENDING, 0x1000)] }
theorem test_commit_fails : Answers (.commit .B) (caseStaged booted) fun t => t.getU Ent.RESULT .B = 6 ∧ stagedOf t .B = [] :=
  ⟨_, rfl, by decide +kernel⟩
theorem test_commit_applies : Answers .nvmWriteComplete
    (((inMode .commission).putU Ent.NOTICE_PENDING .B 0x1001).onKeeper fun k =>
      { k with jobs := [⟨numReq .B Ent.COMMIT 1, [(Ent.NODE_NAME, 5), (Ent.NOTICE_MASK, 0x31), (Ent.NOTICE_PENDING, 0x1000)], true⟩] }) fun t =>
    t.getU Ent.RESULT .B = 0x3FF00 ∧ t.getU Ent.NOTICE_PENDING .B = 1 ∧ t.getU Ent.NOTICE_MASK .B = 0x31 ∧
      t.getU Ent.NOTICE_MASK .A = booted.getU Ent.NOTICE_MASK .A := ⟨_, rfl, by decide +kernel⟩

/-- R323: the increment that reaches 65,535. -/
theorem test_mono_end : Answers .nvmWriteComplete
    ((booted.put (Ent.MONO 1) 65534).onKeeper fun k => { k with jobs := [nvmJob (numReq .M (Ent.MONO_INC 1) 1) (Ent.MONO_INC 1) 1] }) fun t =>
      t.get (Ent.MONO 1) = 65535 ∧ t.get Ent.MONO_FLAGS = 1 := ⟨_, rfl, by decide +kernel⟩

/-! ## Sensing -/

/-- The calibration of worked case 4.1. -/
def caseCal : State :=
  let p (e : Nat → Nat) (v lo hi : Int) (s : State) : State := ((s.putS (e 1) v).putS (e 2) lo).putS (e 3) hi
  let s := p Ent.IR_BASE 18000 15000 24000 (p Ent.BL_BASE 16800 15000 24000 (p Ent.IR_SENS 40000 0 100000 (p Ent.BL_SENS 40000 0 100000 booted)))
  ((s.put Ent.REF_NOM_IR 240000).put Ent.REF_NOM_BL 180000).onKeeper fun k =>
    { k with calRows := k.calRows.set 0 (calRewrite (zeros 64) [(1, 400)]) }

def caseOpt : OptResult := ⟨21504, 25600, 230400, 180000, 100, 0, 37, 2900, 33, true⟩

/-- Worked case 4.1, steps 5 and 6: extinctions and ratio. -/
theorem test_optical_result : (optResult caseCal caseOpt).get Ent.OPT_Y_IR = 0x199A ∧ (optResult caseCal caseOpt).get Ent.OPT_Y_BL = 0x3852 ∧
    (optResult caseCal caseOpt).get Ent.OPT_RATIO = 0x23333 := by decide +kernel

/-- Worked case 4.2, steps 1 and 4: 58 °C at code 12,752, and the user's offset of 1 °C at its limit. -/
def caseHeat : State :=
  (((((booted.put Ent.NTC_NOM 100000).putS Ent.NTC_BETA (4250 * 65536)).put Ent.NTC_REF 100000).putS (Ent.HEAT_OFFSET 1) 19661).putS (Ent.HEAT_OFFSET 2)
    (-65536)).putS (Ent.HEAT_OFFSET 3) 65536 |>.onKeeper fun k => { k with calRows := k.calRows.set 1 (calRewrite (zeros 64) [(1, 65536)]) }
theorem test_heat_temperature : ((heatResult caseHeat ⟨12752, 0, 1, 5⟩).getS Ent.HEAT_TEMP - 0x3B0000).natAbs < 66 ∧
    (heatResult caseHeat ⟨12752, 0, 1, 5⟩).get Ent.HEAT_FLAGS = 4 := by decide +kernel

/-- Worked case 4.2, step 5: 9 K in 64 s. -/
theorem test_heat_rise : f32Of (heatRor [(0, 50, 1), (64, 59, 1)]) = 0x87000 := by decide

/-- The example after R118: code 40,000 is 381.47 nA. -/
theorem test_co_current : f32Of (coCurrent 40000) = 25000000 := by decide

/-! ## Deciding and proving -/

/-- Worked case 5.2, step 5: the data of a self-test record. -/
theorem test_selftest_data :
    stData { trigger := 0, run := 0x7F, passed := 0x7F, ohm := 640, batt := 2870, di := 425, refPct := 96 } 0 0 =
      [0x00, 0x7F, 0x7F, 0x00, 0x00, 0x80, 0x02, 0x36, 0x0B, 0xA9, 0x01, 0x60] := by decide

/-! ## The core -/

/-- The regions of worked case 9.2. -/
def caseMpu (n : Nat) (attr3 : Word) : Core :=
  { Core.atReset with
    mpuBase := [0x10000011, 0x2000800F, 0x4000001A, if n = 4 then 0x20000010 else 0] ++ List.replicate 4 0
    mpuAttr := [0x01007F55, 0x0100FF33, 0x0100FF13, if n = 4 then attr3 else 0] ++ List.replicate 4 0 }

/-- Worked case 9.2, steps 4 to 6: kind 4 by the background rule for U; two regions match, kind 5; with sub-regions left out, one does. -/
theorem test_mpu_background : mpuCheck (caseMpu 3 0) true 0 0x1001C010 = some 4 := by decide +kernel
theorem test_mpu_overlap : mpuCheck (caseMpu 4 0x0100FF03) false 1 0x20009000 = some 5 ∧ mpuMatches (caseMpu 4 0x0100FF03) 0x20009000 = 0xA ∧
    mpuCheck (caseMpu 4 0x01000F03) false 1 0x20009000 = none := by decide +kernel

/-- Worked case 9.1: a fetch from the handler's address in data SRAM, with the in-entry flag set, locks the core up. -/
theorem test_lockup_in_entry : Answers .instrExecute
    (booted.onCore fun c => { c with pc := 0x20000100, inEntry := true }) fun t =>
      t.spindle.lockedUp = true ∧ t.spindle.lockCause = 1 ∧ t.spindle.lockEpc = 0x20000100 := ⟨_, rfl, by decide +kernel⟩

/-! ## Starting -/

/-- Worked case 10.1, step 5: the fields of the manifest of slot B. -/
theorem test_manifest : let h : Bytes := [0x53, 0x56, 0x54, 0x31, 1, 0, 7, 0, 0x29, 0, 0, 0, 0, 0, 2, 0, 0, 1, 0, 0, 0x20, 0, 0, 0x10] ++ zeros 8
    manRollback h = 7 ∧ manSequence h = 41 ∧ manSize h = 131072 ∧ manEntry h = 0x100 := by decide +kernel

/-! ## Keys, hashing -/

/-- Worked case 11.1, step 1: the input of the derivation. -/
theorem test_kdf_input : kdfInput 1 [0x72, 0x65, 0x70, 0x6F, 0x72, 0x74, 0x2D, 0x6B, 0x65, 0x79, 0x2D, 0x30, 0x30, 0x30, 0x30, 0x31] 0 0x13 (lcCode .field) 128 =
    [0x01, 0x72, 0x65, 0x70, 0x6F, 0x72, 0x74, 0x2D, 0x6B, 0x65, 0x79, 0x2D, 0x30, 0x30, 0x30, 0x30, 0x31, 0x00, 0x13, 0xF0, 0xF0, 0xF0, 0xF0, 0x80,
      0x00] := by decide +kernel

/-- Worked case 11.1, steps 3 to 5: AES_STATUS. -/
theorem test_aes_status : aesStatus { state := 3, chunks := 2, unread := true } = 0x0002000B ∧
    aesStatus { state := 4, chunks := 3, unread := true } = 0x0003000C ∧ aesStatus { state := 5, chunks := 3, status := 10 } = 0x00030A05 := by decide

/-- FIPS 180-4 (R277): the digest of "abc". -/
theorem test_sha256_abc : beNat (sha256 [0x61, 0x62, 0x63]) = 0xBA7816BF8F01CFEA414140DE5DAE2223B00361A396177A9CB410FF61F20015AD := by decide +kernel

/-- FIPS 197 (R270): AES-128 of its example. -/
theorem test_aes_example : aesEncrypt ((List.range 16).map byte) ((List.range 16).map fun i => byte (17 * i)) =
    [0x69, 0xC4, 0xE0, 0xD8, 0x6A, 0x7B, 0x04, 0x30, 0xD8, 0xCD, 0xB7, 0x80, 0x70, 0xB4, 0xC5, 0x5A] := by decide +kernel

/-- RFC 7748 (R288): the clamping of a scalar. -/
theorem test_x25519_clamp : clamp25519 (0xFF :: zeros 31) = 2 ^ 254 + 0xF8 := by decide +kernel

/-! ## The log -/

/-- Worked case 13.1, step 2: bytes 0 to 29 of the record. -/
theorem test_record_bytes :
    (recordBytes ((booted.put Ent.RTC_TIME 0x3B9ACA00).put Ent.TIME_FLAGS 0) 1234
      ⟨0x47, 0x32, [1, 1, 0, 0, 0, 0, 0, 0, 0, 0, 0, 1], true⟩ true).take 22 =
    [0xD2, 0x04, 0x00, 0x47, 0x00, 0xCA, 0x9A, 0x3B, 0x32, 0x01, 1, 1, 0, 0, 0, 0, 0, 0, 0, 0, 0, 1] := by decide +kernel

/-- Worked case 13.2, steps 1 and 6: a record of class Y in the reserve, and the data of LOG_FULL. -/
theorem test_reserve_counts : Answers .logAppend
    ((booted.put Ent.LOG_NEXT 3064).onLog fun l => { l with queue := [⟨0x50, 0x43, zeros 12, true⟩] }) fun t =>
      t.get (Ent.LOG_SUMMARY 5) = 1 ∧ t.log.writing = none := ⟨_, rfl, by decide +kernel⟩
theorem test_log_full : (logFull (booted.put (Ent.LOG_SUMMARY 5) 1)).data = [0, 0, 0, 0, 0, 0, 0, 0, 1, 0, 0, 0] := by decide +kernel

/-! ## The bus, the host ports, the tag -/

/-- Worked case 14.1, step 1: the identifier and the first bytes of a HEARTBEAT. -/
theorem test_heartbeat_id : (ownFrame joined 6 [4, 4]).id = 0x305 := by decide +kernel

/-- Worked case 15.1, steps 2 and 3: the read of OPT_TAG by host A. -/
theorem test_host_frame : (hostBytes 7 1 0x2005 0 []).take 7 = [0x5A, 0x07, 0x01, 0x05, 0x20, 0x00, 0x00] ∧
    Answers (.hostRead .A (hostBytes 7 1 0x2005 0 [])) (hostOn.onPort .A fun h => { h with cs := true }) fun t =>
      t.spindle.dict.reqs.get .A = [frameReq .A (hostBytes 7 1 0x2005 0 [])] ∧ t.get (Ent.HP_LAST_SEQ 1) = 7 := ⟨by decide +kernel, _, rfl, by decide +kernel⟩

/-- Worked case 15.1, step 6: what SDO carries. -/
theorem test_response_frame : (responseFrame ⟨frameReq .A (hostBytes 7 1 0x2005 0 []), 0, [0x25, 0x00]⟩).take 10 =
    [0xA5, 0x07, 0x01, 0x05, 0x20, 0x00, 0x03, 0x00, 0x25, 0x00] := by decide +kernel

/-- COBS leaves no zero in a frame, and undoing it gives the frame back (R359). -/
theorem test_cobs : cobsEncode [0, 7, 0, 0, 5] = [1, 2, 7, 1, 2, 5] ∧ cobsDecode [1, 2, 7, 1, 2, 5] = some [0, 7, 0, 0, 5] := by decide

/-- Worked case 16.1, step 3: the check byte of a UID, and the ATS. -/
theorem test_bcc : bcc [0x08, 0x5E, 0x21, 0xC7] = 0xB0 := by decide
theorem test_ats : Answers (.rats 8) (tagIn 4) fun t => t.tag.answer = [0x05, 0x78, 0x00, 0x60, 0x00] ∧ t.tag.fsd = 256 :=
  ⟨_, rfl, by decide +kernel⟩

/-- Worked case 16.1, step 6: the header of a READ_LOG from slot 0. -/
theorem test_read_log : (readLog (booted.put Ent.LOG_NEXT 1237) (parseApdu [0x80, 0x12, 0, 0, 0])).take 4 = [0xD5, 0x04, 0x00, 0x07] := by decide +kernel

/-! ## The premises of the statements are met -/

theorem wit_EmptyQueueIdles :
    (booted.pending = []) := by decide +kernel

theorem wit_StepKeepsCanonical :
    ((step { booted with pending := [.debugHalt] } matches .next _) = true) := by decide +kernel

theorem wit_StepTakesFront :
    ((step { booted with pending := [.debugHalt] } matches .next _) = true) := by decide +kernel

theorem wit_PowerCommands :
    ((fun (s : State) => s.keeper.vddValid = false) (State.reset)) ∧
    ((fun (s : State) => s.keeper.vddValid = true) (booted)) ∧
    ((fun (s : State) => s.keeper.seq = .released ∧ s.flyer.up = true) (booted)) := by decide +kernel

theorem wit_PowerCommands2 :
    ((fun (s : State) => s.keeper.seq = .held ∧ s.keeper.vddValid = true ∧ s.keeper.live = true ∧ domState s .core = 2) (booted.onKeeper fun k => { k with seq := .held, nrstLow := true })) ∧
    ((fun (s : State) => s.keeper.lcProgramming = none) (booted)) ∧
    ((fun (s : State) => s.keeper.lcProgramming = none ∧ lcValid s = false) (booted.onKeeper fun k => { k with lcRows := [1, 0, 0, 0, 0] })) := by decide +kernel

theorem wit_PowerCommands3 :
    ((fun (s : State) => s.keeper.lcProgramming = none ∧ lcValid s = true ∧ lcNow s = .blank) (inLc .blank)) ∧
    ((fun (s : State) => s.keeper.lcProgramming = none ∧ lcValid s = true ∧ lcNow s = .maker) (inLc .maker)) ∧
    ((fun (s : State) => s.keeper.lcProgramming = none ∧ lcValid s = true ∧ lcNow s = .retired) (inLc .retired)) := by decide +kernel

theorem wit_PowerCommands4 :
    ((fun (s : State) => s.keeper.lcProgramming = none ∧ lcValid s = true ∧ lcNow s = .field) (inLc .field)) := by decide +kernel

theorem wit_SidebandTransport :
    ((fun (s : State) (m : SbMsg) => s.sb.wire = none ∧ sbWinner ([Die.keeper, .flyer, .spindle].filterMap (sbReady s)) = some m) (sendMode booted) (⟨0xB, .keeper, 3, leBytes 4 (modeCode .supervise)⟩)) ∧
    ((fun (s : State) (m : SbMsg) => s.sb.wire = some m ∧ m.src ≠ .keeper ∧ m.dst = 0 ∧ s.sb.keeper.rxq.length < 2) (wired msg0) (msg0)) ∧
    ((fun (s : State) (m : SbMsg) => s.sb.wire = some m ∧ m.src ≠ .keeper ∧ m.dst = 0 ∧ 2 ≤ s.sb.keeper.rxq.length ∧ s.spindle.alive = true) (onSbDie (wired msg0) .keeper fun x => { x with rxq := [msg0, msg0] }) (msg0)) := by decide +kernel

theorem wit_SidebandTransport2 :
    ((fun (s : State) (m : SbMsg) => s.sb.wire = some m ∧ m.src ≠ .keeper ∧ m.dst = 0) (wired msg0) (msg0)) ∧
    ((fun (s : State) (m : SbMsg) => s.sb.wire = some m ∧ m.src = .keeper ∧ m.dst = 3 ∧ m.ty = 0xB) (wired ⟨0xB, .keeper, 3, leBytes 4 (modeCode .supervise)⟩) (⟨0xB, .keeper, 3, leBytes 4 (modeCode .supervise)⟩)) ∧
    ((fun (s : State) (m : SbMsg) => s.sb.wire = some m ∧ m.src ≠ .keeper ∧ m.dst = 0) (wired msg0) (msg0)) := by decide +kernel

theorem wit_SidebandTransport3 :
    ((fun (s : State) (m : SbMsg) (d : Die) (n : Nat) => (sbDie s d).wait = [(m, n, false)] ∧ n < 3) (onSbDie booted .flyer fun x => { x with wait := [(msg0, 2, false)] }) (msg0) (.flyer) (2)) ∧
    ((fun (s : State) (m : SbMsg) (d : Die) (n : Nat) => (sbDie s d).wait = [(m, n, false)] ∧ 3 ≤ n ∧ m.ty ≠ 8) (onSbDie booted .flyer fun x => { x with wait := [(msg0, 3, false)] }) (msg0) (.flyer) (3)) ∧
    ((fun (s : State) (d : Die) => (sbDie s d).holdSent = true) (onSbDie booted .flyer fun x => { x with holdSent := true }) (.flyer)) := by decide +kernel

theorem wit_SidebandTransport4 :
    ((fun (s : State) (m : SbMsg) (n : Nat) (b : Bool) => s.sb.wire = some ⟨4, .flyer, 0, [byte m.ty, 0]⟩ ∧ s.sb.keeper.wait = [(m, n, b)] ∧ m.ty < 16 ∧ m.ty ≠ 3 ∧ m.dst = 1 ∧ s.sb.keeper.rxq = [] ∧ s.sb.flyer.rxq = [] ∧ s.sb.spindle.rxq = []) (onSbDie (wired ⟨4, .flyer, 0, [5, 0]⟩) .keeper fun x => { x with wait := [(⟨5, .keeper, 1, [byte (domId .horn), 1]⟩, 1, false)] }) (⟨5, .keeper, 1, [byte (domId .horn), 1]⟩) (1) (false)) := by decide +kernel

theorem wit_LowestHeaderWins :
    (sbWinner [msg0, ⟨1, .flyer, 3, [0]⟩] = some ⟨1, .flyer, 3, [0]⟩) := by decide +kernel

theorem wit_LockupAndResets :
    ((fun (s : State) (m : SbMsg) => sbArrived s 0 .keeper = some m ∧ s.keeper.lockedUp = false) (wired ⟨0, .spindle, 0, [2, 0, 0, 0, 1, 2, 3, 4]⟩) (⟨0, .spindle, 0, [2, 0, 0, 0, 1, 2, 3, 4]⟩)) ∧
    ((fun (s : State) => s.spindle.lockedUp = true ∧ ((s.sb.spindle.txq.any fun x => x.ty == 0) = false) ∧ roomFor s .spindle) (booted.onSpindle fun x => { x with lockedUp := true, lockCause := 5 })) ∧
    ((fun (s : State) => s.keeper.lockedUp = true ∧ s.keeper.seq = .released ∧ s.flyer.up = true) (booted.onKeeper fun k => { k with lockedUp := true })) := by decide +kernel

theorem wit_LockupAndResets2 :
    ((fun (s : State) => s.spindle.alive = true ∧ s.spindle.core.debugOpen = true ∧ s.keeper.seq = .released ∧ s.flyer.up = true) (booted.onCore fun c => { c with debugOpen := true })) ∧
    ((fun (s : State) (cause : Nat) => s.keeper.seq = .quiet cause ∧ cause ≠ 5 ∧ cause ≠ 7 ∧ (sbArrived s 9 .keeper).isSome = true) ((wired ⟨9, .flyer, 0, []⟩).onKeeper fun k => { k with seq := .quiet 3 }) (3)) ∧
    ((fun (s : State) (cause : Nat) => s.keeper.seq = .quiet cause ∧ cause ≠ 5 ∧ cause ≠ 7 ∧ s.sb.keeper.txq = [] ∧ s.sb.keeper.wait = []) (booted.onKeeper fun k => { k with seq := .quiet 6 }) (6)) := by decide +kernel

theorem wit_MessagesToKeeper :
    ((fun (s : State) (m : SbMsg) => sbArrived s 1 .keeper = some m) (wired ⟨1, .flyer, 3, [0x09]⟩) (⟨1, .flyer, 3, [0x09]⟩)) ∧
    ((fun (s : State) => s.flyer.up = true ∧ s.flyer.bs.kinds ≠ 0 ∧ roomFor s .flyer) (booted.onBs fun b => { b with kinds := 2 })) ∧
    ((fun (s : State) (m : SbMsg) => sbArrived s 2 .keeper = some m) (wired ⟨2, .flyer, 0, [1, 2, 3, 4, 5, 6, 7, 8, 9, 9, 9, 9, 9, 9]⟩ (booted.onKeeper fun k => { k with hbLost := true })) (⟨2, .flyer, 0, [1, 2, 3, 4, 5, 6, 7, 8, 9, 9, 9, 9, 9, 9]⟩)) := by decide +kernel

theorem wit_MessagesToKeeper2 :
    ((fun (s : State) => s.flyer.up = true ∧ s.flyer.res.supplyN ≠ 0 ∧ roomFor s .flyer) (booted.onRes fun r => { r with supplyN := 1 })) ∧
    ((fun (s : State) => s.keeper.vddValid = true ∧ s.keeper.hbLost = false) (booted)) ∧
    ((fun (s : State) => s.keeper.hbLost = true ∧ s.keeper.vddValid = true ∧ roomFor s .keeper) (booted.onKeeper fun k => { k with hbLost := true })) := by decide +kernel

theorem wit_MessagesToKeeper3 :
    ((fun (s : State) (m : SbMsg) => sbArrived s 3 .keeper = some m ∧ (dieTypes m.src).contains (m.payload.getD 0 0).toNat = true ∧ (m.payload.getD 0 0).toNat ≠ 0x49 ∧ ((s.log.queue.filter fun r => !r.keeper).length < 12)) (wired ⟨3, .flyer, 0, [0x42, 0x2F, 1, 2]⟩) (⟨3, .flyer, 0, [0x42, 0x2F, 1, 2]⟩)) ∧
    ((fun (s : State) (m : SbMsg) => sbArrived s 3 .keeper = some m ∧ (dieTypes m.src).contains (m.payload.getD 0 0).toNat = false) (wired ⟨3, .flyer, 0, [0x31, 0x2F, 1, 2]⟩) (⟨3, .flyer, 0, [0x31, 0x2F, 1, 2]⟩)) ∧
    ((fun (s : State) (m : SbMsg) => sbArrived s 7 .keeper = some m ∧ m.src = .spindle ∧ roomFor s .keeper ∧ s.get Ent.LOG_NEXT < 3069) (wired ⟨7, .spindle, 0, [2, 0]⟩) (⟨7, .spindle, 0, [2, 0]⟩)) := by decide +kernel

theorem wit_MessagesToKeeper4 :
    ((fun (s : State) => roomFor s .keeper) (booted)) ∧
    ((fun (s : State) => s.keeper.vddValid = true ∧ backstopSetWritten s = true ∧ s.keeper.shadowOk = false) (booted)) ∧
    ((fun (s : State) (r : Nat) => (∀ d ∈ flyerDomains, (domSeq s d).owed = if d = .horn then some r else none) ∧ s.sb.keeper.txq = [] ∧ s.sb.keeper.wait = []) (onDom booted .horn fun q => { q with owed := some 0 }) (0)) := by decide +kernel

theorem wit_MessagesToDies :
    ((fun (s : State) (m : SbMsg) => s.flyer.up = true ∧ sbArrived s 5 .flyer = some m) (wired ⟨5, .keeper, 1, [0x2B, 0]⟩ (booted.onSense fun x => { x with pulse := .step 3 })) (⟨5, .keeper, 1, [0x2B, 0]⟩)) ∧
    ((fun (s : State) (m : SbMsg) => s.flyer.up = true ∧ sbArrived s 6 .flyer = some m) (wired ⟨6, .keeper, 1, [0]⟩) (⟨6, .keeper, 1, [0]⟩)) ∧
    ((fun (s : State) (m : SbMsg) => s.flyer.up = true ∧ sbArrived s 8 .flyer = some m ∧ m.payload = [0]) (wired ⟨8, .keeper, 1, [0]⟩) (⟨8, .keeper, 1, [0]⟩)) := by decide +kernel

theorem wit_MessagesToDies2 :
    ((fun (s : State) (m : SbMsg) => s.flyer.up = true ∧ sbArrived s 8 .flyer = some m ∧ m.payload = [1]) (wired ⟨8, .keeper, 1, [1]⟩) (⟨8, .keeper, 1, [1]⟩)) ∧
    ((fun (s : State) (m : SbMsg) => s.flyer.up = true ∧ sbArrived s 0xA .spindle = some m ∧ (∀ d ∈ [Domain.core, .code, .data, .capt, .plyS], domState s d = 1)) (wired ⟨0xA, .flyer, 2, [0, 0]⟩ ([Domain.core, .code, .data, .capt, .plyS].foldl (fun s d => setDomState s d 1) booted)) (⟨0xA, .flyer, 2, [0, 0]⟩)) ∧
    ((fun (s : State) (m : SbMsg) (k : Mode) => s.flyer.up = true ∧ s.sb.wire = some m ∧ m.src = .keeper ∧ m.ty = 0xB ∧ m.dst = 3 ∧ s.sb.flyer.rxq = [] ∧ s.sb.spindle.rxq = [] ∧ s.spindle.alive = true ∧ modeOf (leNat m.payload) = some k) (wired ⟨0xB, .keeper, 3, leBytes 4 (modeCode .hush)⟩) (⟨0xB, .keeper, 3, leBytes 4 (modeCode .hush)⟩) (.hush)) := by decide +kernel

theorem wit_MessagesToDies3 :
    ((fun (s : State) (m : SbMsg) => s.flyer.up = true ∧ s.sb.wire = some m ∧ m.src = .keeper ∧ m.ty = 0xC ∧ m.dst = 3 ∧ s.sb.keeper.rxq = [] ∧ s.sb.flyer.rxq = [] ∧ s.sb.spindle.rxq = [] ∧ s.spindle.alive = true) (wired ⟨0xC, .keeper, 3, [1, 2, 3, 4]⟩) (⟨0xC, .keeper, 3, [1, 2, 3, 4]⟩)) ∧
    ((fun (s : State) (m : SbMsg) => s.flyer.up = true ∧ sbArrived s 0xD .flyer = some m ∧ (m.payload.getD 0 0).toNat < s.flyer.bs.blocks.length) (wired ⟨0xD, .keeper, 1, 3 :: zeros 24⟩) (⟨0xD, .keeper, 1, 3 :: zeros 24⟩)) := by decide +kernel

theorem wit_PlyBursts :
    ((fun (s : State) => plyState s = 0 ∧ s.flyer.up = true ∧ s.flyer.mayBurst = true ∧ plyOn s = true) (setDomState booted .plyS 2)) ∧
    ((fun (s : State) => plyState s = 0 ∧ plyOn s = true) (setDomState booted .plyS 2)) ∧
    ((fun (s : State) => plyState s = 0 ∧ s.flyer.up = true ∧ s.flyer.mayBurst = true ∧ plySOn s = true ∧ domNow s .plyF < 2) (onFlyDom (setDomState booted .plyS 2) .plyF fun x => { x with state := 1 })) := by decide +kernel

theorem wit_PlyBursts2 :
    ((fun (s : State) (x : Measurement) => plyState s = 0 ∧ s.flyer.up = true ∧ s.flyer.mayBurst = true ∧ plySOn s = false ∧ s.ply.waiting = false ∧ s.flyer.sense.buf = some x ∧ roomFor s .flyer) (setDomState (booted.onSense fun x => { x with buf := some ⟨7, caps0, false⟩ }) .plyS 0) (⟨7, caps0, false⟩)) ∧
    ((fun (s : State) => plyState s = 1) (booted.put Ent.PLY_STATE 1)) ∧
    ((fun (s : State) => plyState s = 1) ((booted.put Ent.PLY_STATE 1).onPly fun p => { p with carry := true })) := by decide +kernel

theorem wit_PlyBursts3 :
    ((fun (s : State) => plyState s = 2) (booted.put Ent.PLY_STATE 2)) ∧
    ((fun (s : State) => plyState s = 3) (booted.put Ent.PLY_STATE 3)) ∧
    ((fun (s : State) (lane : Lane) => fresh s lane = true ∧ laneDrained s lane = true ∧ (laneOf s.ply lane).out = []) (booted.put Ent.PLY_STATE 2) (.s2f)) := by decide +kernel

theorem wit_PlyBursts4 :
    ((fun (s : State) => plyState s = 2 ∧ s.ply.s2f.next = s.ply.s2f.recv ∧ s.ply.s2f.ended = true ∧ s.ply.s2f.out = [] ∧ s.ply.f2s0.ended = true ∧ s.ply.f2s1.ended = true ∧ s.ply.f2s0.sentTo ≤ s.ply.f2s0.recv ∧ s.ply.f2s1.sentTo ≤ s.ply.f2s1.recv) ((booted.put Ent.PLY_STATE 2).onPly fun p => { p with s2f := { ended := true }, f2s0 := { out := [⟨5, 0, zeros 24⟩], next := 1, recv := 1, ended := true }, f2s1 := { out := [⟨5, 0, zeros 24⟩], next := 1, recv := 1, ended := true } })) ∧
    ((fun (s : State) => plyState s = 3) (booted.put Ent.PLY_STATE 3)) ∧
    ((fun (s : State) (lane : Lane) => plyState s = 2 ∧ (laneOf s.ply lane).out ≠ [] ∧ (laneOf s.ply lane).retries < 3) ((booted.put Ent.PLY_STATE 2).onPly fun p => { p with s2f := { out := [⟨3, 0, zeros 24⟩], next := 1 } }) (.s2f)) := by decide +kernel

theorem wit_PlyBursts5 :
    ((fun (s : State) (lane : Lane) => plyState s = 2 ∧ (laneOf s.ply lane).out ≠ [] ∧ 3 ≤ (laneOf s.ply lane).retries) ((booted.put Ent.PLY_STATE 2).onPly fun p => { p with f2s1 := { out := [⟨5, 0, zeros 24⟩], next := 1, retries := 3 } }) (.f2s1)) := by decide +kernel

theorem wit_PlyFlits :
    ((fun (s : State) (lane : Lane) => (plyState s = 2 ∨ plyState s = 3) ∧ (laneOf s.ply lane).next = (laneOf s.ply lane).recv) (booted.put Ent.PLY_STATE 3) (.s2f)) ∧
    ((fun (s : State) => (plyState s = 2 ∨ plyState s = 3)) (booted.put Ent.PLY_STATE 3)) ∧
    ((fun (s : State) (lane : Lane) (k : FlitKind) => k ≠ .idle ∧ plyState s = 2 ∧ (nextFlit s lane k).isSome = true) (booted.put Ent.PLY_STATE 2) (.s2f) (.end_)) := by decide +kernel

theorem wit_PlyFlits2 :
    ((fun (s : State) (lane : Lane) (x : Measurement) (k : Nat) (addr : Nat) => fresh s lane = true ∧ lane ≠ .s2f ∧ s.flyer.sense.buf = some x ∧ s.ply.carry = true ∧ k = (laneOf s.ply lane).data ∧ k < 256 ∧ addr = (k / 128 * 2 + laneNum lane) * 0x1000 + k % 128 * 32) ((booted.put Ent.PLY_STATE 2).onPly (fun p => { p with carry := true, f2s0 := { data := 128 } }) |>.onSense fun x => { x with buf := some ⟨7, caps0, false⟩ }) (.f2s0) (⟨7, caps0, false⟩) (128) (0x2000)) ∧
    ((fun (s : State) (x : Measurement) => fresh s .f2s1 = true ∧ s.flyer.sense.buf = some x ∧ s.ply.carry = true ∧ s.ply.f2s0.got = 256 ∧ s.ply.f2s1.got = 255 ∧ s.ply.f2s1.data = 255) ((booted.put Ent.PLY_STATE 2).onPly (fun p => { p with carry := true, f2s0 := { data := 256, got := 256 }, f2s1 := { data := 255, got := 255 } }) |>.onSense fun x => { x with buf := some ⟨7, caps0, false⟩ }) (⟨7, caps0, false⟩)) ∧
    ((fun (s : State) => plyState s = 2 ∧ s.ply.s2f.next = s.ply.s2f.recv ∧ s.ply.written = true ∧ s.ply.f2s0.sentTo ≤ s.ply.f2s0.recv ∧ s.ply.f2s1.sentTo ≤ s.ply.f2s1.recv) ((booted.put Ent.PLY_STATE 2).onPly (fun p => { p with carry := true, written := true, f2s1 := { out := [⟨1, 0, zeros 24⟩], next := 1, recv := 1 } }) |>.onSense fun x => { x with buf := some ⟨7, caps0, false⟩ })) := by decide +kernel

theorem wit_PlyFlits3 :
    ((fun (s : State) (reg : Nat) (val : Nat) => fresh s .s2f = true ∧ reg < 256 ∧ val < 2 ^ 32) (booted.put Ent.PLY_STATE 2) (3) (9)) ∧
    ((fun (s : State) (cs : List HornCmd) (rest : List (List HornCmd)) => fresh s .s2f = true ∧ s.ply.kinds = none ∧ s.ply.q = cs :: rest ∧ cs.length ≤ 3 ∧ (∀ c ∈ cs, c.op < 256 ∧ c.op ≠ 4 ∧ c.arg < 256 ∧ c.onMs < 65536 ∧ c.offMs < 65536 ∧ c.reps < 256) ∧ s.flyer.horn.queue.length ≤ 8) ((booted.put Ent.PLY_STATE 2).onPly fun p => { p with q := [[⟨1, 1, 2, 3, 4⟩]] }) ([⟨1, 1, 2, 3, 4⟩]) ([])) ∧
    ((fun (s : State) (fw : Nat) (rel : Nat) => fresh s .s2f = true ∧ s.ply.kinds = some (fw, rel) ∧ fw < 8 ∧ rel < 8) ((booted.put Ent.PLY_STATE 2).onPly fun p => { p with kinds := some (1, 2) }) (1) (2)) := by decide +kernel

theorem wit_PlyFlits4 :
    ((fun (s : State) (u : User) (v : Nat) => v < 256 ∧ accepts s (numReq u Ent.CAPT_HELD v) = true) (booted) (.M) (0)) := by decide +kernel

theorem wit_StatusResults :
    ((fun (s : State) (lane : Lane) (r : OptResult) => fresh s lane = true ∧ lane ≠ .s2f ∧ s.spindle.stq.length < 4 ∧ plyHolds s = false ∧ s.flyer.res.opt = some r ∧ (Flight.opt r).fit = .opt r) ((booted.put Ent.PLY_STATE 2).onRes fun x => { x with opt := some optRes0 }) (.f2s0) (optRes0)) ∧
    ((fun (s : State) (lane : Lane) (r : CodeResult) (x : Frac) => fresh s lane = true ∧ lane ≠ .s2f ∧ s.spindle.stq.length < 4 ∧ plyHolds s = false ∧ s.flyer.res.heat = some r ∧ (Flight.heat r).fit = .heat r ∧ heatTemp s r.code.toNat = some x) (((((booted.put Ent.PLY_STATE 2).put Ent.NTC_NOM 10000).put Ent.NTC_BETA (3950 * 65536)).put Ent.NTC_REF 10000).onRes fun x => { x with heat := some ⟨32768, 0, 0, 5⟩ }) (.f2s1) (⟨32768, 0, 0, 5⟩) ((heatTemp ((((booted.put Ent.PLY_STATE 2).put Ent.NTC_NOM 10000).put Ent.NTC_BETA (3950 * 65536)).put Ent.NTC_REF 10000) 32768).getD (0, 1))) ∧
    ((fun (s : State) (lane : Lane) (r : CodeResult) => fresh s lane = true ∧ lane ≠ .s2f ∧ s.spindle.stq.length < 4 ∧ plyHolds s = false ∧ s.flyer.res.heat = some r ∧ (Flight.heat r).fit = .heat r ∧ heatTemp s r.code.toNat = none) ((booted.put Ent.PLY_STATE 2).onRes fun x => { x with heat := some ⟨0, 2, 0, 5⟩ }) (.f2s1) (⟨0, 2, 0, 5⟩)) := by decide +kernel

theorem wit_StatusResults2 :
    ((fun (s : State) (lane : Lane) (r : CoResult) => fresh s lane = true ∧ lane ≠ .s2f ∧ s.spindle.stq.length < 4 ∧ plyHolds s = false ∧ s.flyer.res.co = some r ∧ (Flight.co r).fit = .co r) ((booted.put Ent.PLY_STATE 2).onRes fun x => { x with co := some ⟨100, 128, 5, 6, 0, 7⟩ }) (.f2s0) (⟨100, 128, 5, 6, 0, 7⟩)) ∧
    ((fun (s : State) (lane : Lane) (r : CodeResult) => fresh s lane = true ∧ lane ≠ .s2f ∧ s.spindle.stq.length < 4 ∧ plyHolds s = false ∧ s.flyer.res.aux = some r ∧ (Flight.aux r).fit = .aux r) ((booted.put Ent.PLY_STATE 2).onRes fun x => { x with aux := some ⟨100, 1, 5, 6⟩ }) (.f2s0) (⟨100, 1, 5, 6⟩)) ∧
    ((fun (s : State) (lane : Lane) (r : SupplyResult) => fresh s lane = true ∧ lane ≠ .s2f ∧ s.spindle.stq.length < 4 ∧ plyHolds s = false ∧ s.flyer.res.supply = some r ∧ (Flight.supply r).fit = .supply r) ((booted.put Ent.PLY_STATE 2).onRes fun x => { x with supply := some ⟨3000, 251, 250, 0, 9⟩ }) (.f2s0) (⟨3000, 251, 250, 0, 9⟩)) := by decide +kernel

theorem wit_StatusResults3 :
    ((fun (s : State) (lane : Lane) (r : QueueReport) => fresh s lane = true ∧ lane ≠ .s2f ∧ s.spindle.stq.length < 4 ∧ plyHolds s = false ∧ s.flyer.res.queues = some r ∧ (Flight.queues r).fit = .queues r) ((booted.put Ent.PLY_STATE 2).onRes fun x => { x with queues := some ⟨3, 4, true, 0, 0, 0, 0, 2, 0, 0⟩ }) (.f2s0) (⟨3, 4, true, 0, 0, 0, 0, 2, 0, 0⟩)) := by decide +kernel

theorem wit_MeasurementTicks :
    ((fun (s : State) => schedules s = true ∧ s.flyer.sense.opt = none) (booted.onSense fun x => { x with reqAccepted := true })) ∧
    ((fun (s : State) => schedules s = true ∧ s.flyer.sense.opt.isSome = true) (booted.onSense fun x => { x with opt := some ⟨false, 1, 3000⟩ })) ∧
    ((fun (s : State) => schedules s = true) (booted)) := by decide +kernel

theorem wit_MeasurementTicks2 :
    ((fun (s : State) => schedules s = true ∧ s.get Ent.CO_ENABLE = 1) (booted.put Ent.CO_ENABLE 1)) ∧
    ((fun (s : State) => schedules s = true ∧ s.get Ent.AIN_PERIOD ≠ 0) (booted.put Ent.AIN_PERIOD 1)) ∧
    ((fun (s : State) => schedules s = true ∧ s.flyer.up = true) (booted)) := by decide +kernel

theorem wit_MeasurementResults :
    ((fun (s : State) (run : OptRun) => s.flyer.sense.opt = some run) (booted.onSense fun x => { x with opt := some ⟨true, 5, 3000⟩, optWaiting := some 2900 }) (⟨true, 5, 3000⟩)) ∧
    ((fun (s : State) (tick : Nat) => s.flyer.sense.heat = some tick) (booted.onSense fun x => { x with heat := some 7, heatWait := true }) (7)) ∧
    ((fun (s : State) (tick : Nat) => s.flyer.sense.co = some tick) (booted.onSense fun x => { x with co := some 7 }) (7)) := by decide +kernel

theorem wit_MeasurementResults2 :
    ((fun (s : State) (tick : Nat) => s.flyer.sense.aux = some tick) (booted.onSense fun x => { x with aux := some 7, auxWait := true }) (7)) ∧
    ((fun (s : State) (tick : Nat) => s.flyer.sense.pulse = .step tick) (booted.onSense fun x => { x with pulse := .step 7 }) (7)) ∧
    ((fun (s : State) => s.flyer.sense.pulse = .settling) (booted.onSense fun x => { x with pulse := .settling })) := by decide +kernel

theorem wit_SensingWrites :
    ((fun (s : State) (u : User) (v : Nat) => accepts s (numReq u Ent.OPT_REQUEST v) = true) (booted) (.M) (1)) ∧
    ((fun (s : State) (u : User) (v : Nat) => accepts s (numReq u Ent.CO_PULSE v) = true) (booted) (.M) (1)) ∧
    ((fun (s : State) (u : User) (v : Nat) => v < 256 ∧ accepts s (numReq u Ent.CO_ENABLE v) = true) (inMode .calibrate) (.M) (1)) := by decide +kernel

theorem wit_SensingWrites2 :
    ((fun (s : State) (u : User) (v : Nat) => v < 256 ∧ s.keeper.jobs.head? = some (nvmJob (numReq u Ent.CO_ENABLE v) Ent.CO_ENABLE v)) ((inMode .calibrate).onKeeper fun k => { k with jobs := [nvmJob (numReq .M Ent.CO_ENABLE 1) (Ent.CO_ENABLE) (1)] }) (.M) (1)) ∧
    ((fun (s : State) (u : User) (v : Nat) => v < 65536 ∧ accepts s (numReq u Ent.AIN_PERIOD v) = true) (booted) (.M) (1)) ∧
    ((fun (s : State) (u : User) (v : Nat) => v < 65536 ∧ s.keeper.jobs.head? = some (nvmJob (numReq u Ent.AIN_PERIOD v) Ent.AIN_PERIOD v)) ((booted).onKeeper fun k => { k with jobs := [nvmJob (numReq .M Ent.AIN_PERIOD 1) (Ent.AIN_PERIOD) (1)] }) (.M) (1)) := by decide +kernel

theorem wit_SensingWrites3 :
    ((fun (s : State) (u : User) (idx : Nat) (sub : Nat) (x : Bytes) => (rowAt idx sub).map (·.cls) = some .f ∧ (rowAt idx sub).map (·.action) = some false ∧ accepts s (writeReq u idx sub x) = true) ((inMode .calibrate).onKeeper fun k => { k with written := (backstopSet.map (·.1)).drop 1 ++ [Ent.IR_BASE 2, Ent.IR_BASE 3] }) (.M) (0x6001) (1) ([0, 0, 0, 0])) ∧
    ((fun (s : State) (u : User) (idx : Nat) (sub : Nat) (x : Bytes) => (rowAt idx sub).map (·.cls) = some .f ∧ s.keeper.jobs.head? = some (nvmJob (writeReq u idx sub x) (entAt idx sub) (leNat x))) ((inMode .calibrate).onKeeper fun k => { k with written := (backstopSet.map (·.1)).drop 1, jobs := [nvmJob (writeReq .M 0x6001 1 [0, 0, 0, 0]) (entAt 0x6001 1) 0] }) (.M) (0x6001) (1) ([0, 0, 0, 0])) ∧
    ((fun (s : State) (u : User) (idx : Nat) (sub : Nat) (x : Bytes) => isDelta (entAt idx sub) = true ∧ accepts s (writeReq u idx sub x) = true) (inMode .calibrate) (.M) (0x6101) (1) ([1, 2, 0, 0])) := by decide +kernel

theorem wit_SensingWrites4 :
    ((fun (s : State) (u : User) (idx : Nat) (sub : Nat) (x : Bytes) => idx < 65536 ∧ sub < 256 ∧ isDelta (entAt idx sub) = true ∧ s.keeper.jobs.head? = some (nvmJob (writeReq u idx sub x) (entAt idx sub) (leNat x))) ((booted).onKeeper fun k => { k with jobs := [nvmJob (writeReq .M 0x6101 1 [1, 2, 0, 0]) (entAt 0x6101 1) (513)] }) (.M) (0x6101) (1) ([1, 2, 0, 0])) := by decide +kernel

theorem wit_ModeRequests :
    ((fun (s : State) (u : User) => s.get Ent.BS_ALARM = 0 ∧ accepts s (numReq u Ent.MODE_REQUEST (modeCode .calibrate)) = true ∧ requestTo s u .calibrate = some .calibrate) (inMode .factory (inLc .maker)) (.M)) ∧
    ((fun (s : State) (u : User) => s.get Ent.BS_ALARM = 0 ∧ accepts s (numReq u Ent.MODE_REQUEST (modeCode .factory)) = true ∧ requestTo s u .factory = some .factory) (inMode .calibrate (inLc .maker)) (.M)) ∧
    ((fun (s : State) (u : User) (k : Mode) => s.get Ent.BS_ALARM = 0 ∧ accepts s (numReq u Ent.MODE_REQUEST (modeCode .supervise)) = true ∧ modeIs s .supervise = false ∧ requestTo s u .supervise = some k) (inMode .commission) (.M) (.supervise)) := by decide +kernel

theorem wit_ModeRequests2 :
    ((fun (s : State) (u : User) => s.get Ent.BS_ALARM = 0 ∧ accepts s (numReq u Ent.MODE_REQUEST (modeCode .commission)) = true ∧ requestTo s u .commission = some .commission) (booted) (.M)) ∧
    ((fun (s : State) (u : User) => s.get Ent.BS_ALARM = 0 ∧ accepts s (numReq u Ent.MODE_REQUEST (modeCode .verify)) = true ∧ requestTo s u .verify = some .verify) (booted) (.M)) ∧
    ((fun (s : State) (u : User) => s.get Ent.BS_ALARM = 0 ∧ accepts s (numReq u Ent.MODE_REQUEST (modeCode .alarm)) = true ∧ requestTo s u .alarm = some .alarm) ((inMode .verify).put Ent.ALARM_FW 1) (.M)) := by decide +kernel

theorem wit_ModeRequests3 :
    ((fun (s : State) (u : User) => s.get Ent.BS_ALARM = 0 ∧ accepts s (numReq u Ent.MODE_REQUEST (modeCode .hush)) = true ∧ requestTo s u .hush = some .hush) ((inMode .alarm).put Ent.ALARM_FW 1) (.M)) ∧
    ((fun (s : State) (u : User) => s.get Ent.BS_ALARM = 0 ∧ accepts s (numReq u Ent.MODE_REQUEST (modeCode .hush)) = true ∧ modeIn s [.alarm, .echo] = true ∧ hushRefused s = true) ((inMode .alarm).put Ent.ALARM_FW 2) (.M)) ∧
    ((fun (s : State) (u : User) => s.get Ent.BS_ALARM = 0 ∧ accepts s (numReq u Ent.MODE_REQUEST (modeCode .selftest)) = true ∧ requestTo s u .selftest = some .selftest) (booted) (.M)) := by decide +kernel

theorem wit_ModeEvents :
    ((fun (s : State) => modeIn s [.alarm, .echo] = true ∧ hushRefused s = false) (inMode .echo)) ∧
    ((fun (s : State) => modeIn s [.alarm, .echo] = true ∧ hushRefused s = true) ((inMode .alarm).put Ent.BS_ALARM 2)) ∧
    ((fun (s : State) => modeIn s [.supervise, .fault, .endOfLife] = true ∧ s.get Ent.BS_ALARM = 0) (booted)) := by decide +kernel

theorem wit_ModeEvents2 :
    ((fun (s : State) => modeIn s [.supervise, .fault] = true ∧ (lcNow s = .owned ∨ lcNow s = .field) ∧ s.get Ent.BS_ALARM = 0) (booted)) ∧
    ((fun (s : State) => modeIs s .verify = true ∧ s.get Ent.BS_ALARM = 0) (inMode .verify)) ∧
    ((fun (s : State) => modeIs s .commission = true ∧ s.get Ent.BS_ALARM = 0) (inMode .commission)) := by decide +kernel

theorem wit_ModeEvents3 :
    ((fun (s : State) => modeIs s .hush = true) (inMode .hush)) ∧
    ((fun (s : State) => eolReached s = true ∧ modeIs s .supervise = true ∧ s.get Ent.FAULT_CAUSE = 0 ∧ s.get Ent.BS_ALARM = 0) ((booted.put Ent.COMMISSIONED_AT 5).put Ent.SERVICE_SECONDS 315532800)) ∧
    ((fun (s : State) => s.get Ent.COMMISSIONED_AT ≠ 0 ∧ s.get Ent.ST_NEXT_DUE ≤ s.get Ent.SERVICE_SECONDS) ((booted.put Ent.COMMISSIONED_AT 5).put Ent.SERVICE_SECONDS 31553280)) := by decide +kernel

theorem wit_ModeEvents4 :
    ((fun (s : State) (u : User) (v : Nat) => v < 65536 ∧ accepts s (numReq u Ent.FAULT_CAUSE v) = true) (booted.put Ent.FAULT_CAUSE 3) (.M) (1)) ∧
    ((fun (s : State) (u : User) (v : Nat) => v < 65536 ∧ s.keeper.jobs.head? = some (nvmJob (numReq u Ent.FAULT_CAUSE v) Ent.FAULT_CAUSE v)) (booted.onKeeper (fun k => { k with jobs := [nvmJob (numReq .M Ent.FAULT_CAUSE 1) Ent.FAULT_CAUSE 1] }) |>.put Ent.FAULT_CAUSE 3) (.M) (1)) ∧
    ((fun (s : State) (u : User) (v : Nat) => accepts s (numReq u Ent.FAULT_REQUEST v) = true) (booted) (.M) (1)) := by decide +kernel

theorem wit_ModeEvents5 :
    ((fun (s : State) (u : User) (v : Nat) => v < 256 ∧ accepts s (numReq u Ent.ALARM_FW v) = true) (inMode .alarm) (.M) (0)) ∧
    ((fun (s : State) => s.flyer.bs.hushTimer = true) (booted.onBs fun b => { b with hushTimer := true, suppressed := 1 })) := by decide +kernel

theorem wit_KeeperCycle :
    ((fun (s : State) => modeOf (s.get Ent.MODE) = none ∧ lcIsRetired s = false ∧ s.get Ent.BS_ALARM = 0 ∧ s.keeper.st.waiting = false) (booted.put Ent.MODE 5)) ∧
    ((fun (s : State) => checkWords s = s ∧ modeIs s .supervise = true ∧ s.get Ent.ALARM_FW = 0 ∧ s.get Ent.BS_ALARM = 0 ∧ backstopSetWritten s = true ∧ s.keeper.st.waiting = false) (booted)) := by decide +kernel

theorem wit_TimeKeeping :
    ((fun (s : State) => s.keeper.vddValid = true) (((booted.put Ent.COMMISSIONED_AT 5).put Ent.HUSH_LEFT 600).put (Ent.CLAIM 0x20) 0x111)) ∧
    ((fun (s : State) (u : User) (v : Nat) => accepts s (numReq u Ent.TIME_SET v) = true ∧ v = now s) (booted) (.M) (0)) ∧
    ((fun (s : State) (u : User) (v : Nat) => accepts s (numReq u Ent.TIME_SET v) = true ∧ v < now s ∧ now s < 2 ^ 32 ∧ modeIs s .commission = false) (booted.put Ent.RTC_TIME 5) (.M) (1)) := by decide +kernel

theorem wit_TimeKeeping2 :
    ((fun (s : State) (u : User) (v : Nat) => accepts s (numReq u Ent.TIME_SET v) = true ∧ v < 2 ^ 32 ∧ now s < v ∧ v ≤ now s + 2) (booted) (.M) (2)) ∧
    ((fun (s : State) (u : User) (v : Nat) => accepts s (numReq u Ent.TIME_SET v) = true ∧ v < 2 ^ 32 ∧ now s + 2 < v) (booted) (.M) (3)) := by decide +kernel

theorem wit_LifecycleCommands :
    ((fun (s : State) (u : User) (v : Nat) (tgt : Lc) => accepts s (numReq u Ent.LC_REQUEST v) = true ∧ v = lcCode tgt ∧ lcValid s = true ∧ lcAllowed (lcNow s) tgt = true ∧ s.keeper.lcProgramming = none ∧ lcConditions s tgt = true) (booted) (.M) (lcCode .field) (.field)) ∧
    ((fun (s : State) (u : User) (v : Nat) (tgt : Lc) => accepts s (numReq u Ent.LC_REQUEST v) = true ∧ v = complement32 (lcCode tgt) ∧ lcValid s = true ∧ s.keeper.lcArmed = some (u, lcRow tgt) ∧ lcConditions s tgt = true ∧ 2400 ≤ s.keeper.vddMv) (booted.onKeeper fun k => { k with lcArmed := some (.M, 3) }) (.M) (complement32 (lcCode .field)) (.field)) ∧
    ((fun (s : State) (u : User) (row : Nat) => s.keeper.lcProgramming = some (u, row) ∧ s.keeper.lcRows.length = 5) (booted.onKeeper fun k => { k with lcProgramming := some (.M, 3) }) (.M) (3)) := by decide +kernel

theorem wit_LifecycleCommands2 :
    ((fun (s : State) (u : User) (v : Nat) => accepts s (numReq u Ent.DBG_NEW v) = true ∧ s.keeper.dbgLockout = false ∧ domState s .rng = 2 ∧ s.spindle.rng.waiting = [] ∧ 8 ≤ s.spindle.rng.fifo.length) (booted.onRng fun r => { r with fifo := [1, 2, 3, 4, 5, 6, 7, 8, 9] }) (.A) (1)) ∧
    ((fun (s : State) (u : User) (sig : Bytes) => accepts s (octReq u Ent.DBG_SIG sig) = true) (booted) (.A) (zeros 64)) := by decide +kernel

theorem wit_HornCommands :
    ((fun (s : State) => s.flyer.up = true) (booted.onBs fun b => { b with kinds := 4 })) ∧
    ((fun (s : State) (d : Nat) => s.flyer.up = true ∧ (nextChanges s.flyer.horn).min? = some d) (booted.onHorn fun h => { h with pattern := .t3, ready := true }) (500)) ∧
    ((fun (s : State) => s.flyer.up = true) (booted.onHorn fun h => { h with pattern := .t3, boost := 12000 })) := by decide +kernel

theorem wit_HornCommands2 :
    ((fun (s : State) => s.flyer.up = true ∧ s.flyer.horn.on = true ∧ playsOp s.flyer.horn 1 = false) (booted.onHorn fun h => { h with on := true, pattern := .t3 })) ∧
    ((fun (s : State) => s.flyer.up = true ∧ s.flyer.horn.boost ≠ 0) (booted.onHorn fun h => { h with pattern := .t3, boost := 12000 })) ∧
    ((fun (s : State) => s.flyer.up = true ∧ s.flyer.horn.drive = true) (booted.onHorn fun h => { h with on := true, drive := true, pattern := .t3, ready := true })) := by decide +kernel

theorem wit_HornCommands3 :
    ((fun (s : State) (k : HornCmd) (ks : List HornCmd) => s.flyer.up = true ∧ s.flyer.horn.row = 8 ∧ s.flyer.horn.playing = none ∧ s.flyer.horn.queue = k :: ks) (booted.onHorn fun h => { h with row := 8, queue := [⟨3, 0, 1, 1, 1⟩, ⟨1, 0, 1, 1, 1⟩] }) (⟨3, 0, 1, 1, 1⟩) ([⟨1, 0, 1, 1, 1⟩])) ∧
    ((fun (s : State) (u : User) (x : Bytes) => accepts s (octReq u Ent.HORN_CMD (1 :: x)) = true ∧ hornCmdOk (1 :: x) = true ∧ hornCredit s ≠ 0) (inMode .commission) (.M) ([0, 1, 0, 0, 0, 1, 0])) ∧
    ((fun (s : State) (u : User) (x : Bytes) => accepts s (octReq u Ent.HORN_CMD (1 :: x)) = true ∧ hornCmdOk (1 :: x) = true ∧ hornCredit s = 0) ((inMode .commission).onSpindle fun y => { y with placed := 8 }) (.M) ([0, 1, 0, 0, 0, 1, 0])) := by decide +kernel

theorem wit_HornCommands4 :
    ((fun (s : State) (u : User) (x : Bytes) => accepts s (octReq u Ent.HORN_CMD (2 :: x)) = true ∧ hornCmdOk (2 :: x) = true ∧ hornCredit s ≠ 0) (inMode .commission) (.M) ([3, 1, 0, 0, 0, 1, 0])) ∧
    ((fun (s : State) (u : User) (x : Bytes) => accepts s (octReq u Ent.HORN_CMD (3 :: x)) = true ∧ hornCmdOk (3 :: x) = true ∧ hornCredit s ≠ 0) (inMode .commission) (.M) ([0, 1, 0, 0, 0, 1, 0])) ∧
    ((fun (s : State) => s.spindle.alive = true ∧ modeIn s [.alarm, .echo] = true) (inMode .alarm)) := by decide +kernel

theorem wit_HornCommands5 :
    ((fun (s : State) => s.flyer.up = true ∧ s.flyer.horn.icDriven = false ∧ s.get Ent.IC_LINE_MODE ≠ 0) (booted.put Ent.IC_LINE_MODE 1)) ∧
    ((fun (s : State) => s.flyer.up = true) (booted.onHorn fun h => { h with icRelayed := true, icLevel := true })) := by decide +kernel

theorem wit_SelftestSteps :
    ((fun (s : State) (m : SbMsg) => stMessage s .flyer [1] = some m ∧ s.flyer.up = true ∧ s.sb.flyer.txq.length ≤ 5) (wired ⟨0xE, .keeper, 1, [1, 20, 0, 0, 5, 0]⟩) (⟨0xE, .keeper, 1, [1, 20, 0, 0, 5, 0]⟩)) ∧
    ((fun (s : State) (m : SbMsg) => stMessage s .flyer [2] = some m ∧ s.flyer.up = true ∧ roomFor s .flyer) (wired ⟨0xE, .keeper, 1, [2, 10, 0, 40, 0]⟩) (⟨0xE, .keeper, 1, [2, 10, 0, 40, 0]⟩)) ∧
    ((fun (s : State) (m : SbMsg) => stMessage s .flyer [3] = some m ∧ s.flyer.up = true ∧ roomFor s .flyer) (wired ⟨0xE, .keeper, 1, [3, 10, 0xB8, 0x0B]⟩) (⟨0xE, .keeper, 1, [3, 10, 0xB8, 0x0B]⟩)) := by decide +kernel

theorem wit_SelftestSteps2 :
    ((fun (s : State) (m : SbMsg) => stMessage s .flyer [4] = some m ∧ s.flyer.up = true ∧ roomFor s .flyer ∧ pulseStatus s = Sc.ok) (wired ⟨0xE, .keeper, 1, [4, 10, 0, 1, 0, 0, 0, 9, 0, 0, 0]⟩ (booted.put Ent.CO_ENABLE 1)) (⟨0xE, .keeper, 1, [4, 10, 0, 1, 0, 0, 0, 9, 0, 0, 0]⟩)) ∧
    ((fun (s : State) => s.keeper.st.step = 5) (booted.onSelfTest fun x => { x with step := 5 })) ∧
    ((fun (s : State) (m : SbMsg) => stMessage s .spindle [6] = some m ∧ s.spindle.alive = true ∧ roomFor s .spindle) (wired ⟨0xE, .keeper, 2, [6]⟩) (⟨0xE, .keeper, 2, [6]⟩)) := by decide +kernel

theorem wit_SelftestSteps3 :
    ((fun (s : State) (m : SbMsg) => stMessage s .spindle [7] = some m ∧ s.spindle.alive = true ∧ roomFor s .spindle) (wired ⟨0xE, .keeper, 2, [7]⟩) (⟨0xE, .keeper, 2, [7]⟩)) ∧
    ((fun (s : State) (m : SbMsg) (k : Nat) => stMessage s .keeper [0x81, 0x82, 0x83, 0x84, 0x86, 0x87] = some m ∧ payNat m 0 1 = 0x80 + k ∧ s.keeper.st.step = k ∧ k < 7 ∧ payNat m 1 1 < 2) (wired ⟨0xE, .flyer, 0, [0x82, 1, 20, 0, 5, 0]⟩ (booted.onSelfTest fun x => { x with step := 2 })) (⟨0xE, .flyer, 0, [0x82, 1, 20, 0, 5, 0]⟩) (2)) ∧
    ((fun (s : State) (m : SbMsg) => stMessage s .keeper [0x81, 0x82, 0x83, 0x84, 0x86, 0x87] = some m ∧ payNat m 0 1 = 0x87 ∧ s.keeper.st.step = 7 ∧ modeIs s .selftest = true ∧ s.get Ent.BS_ALARM = 0) (wired ⟨0xE, .spindle, 0, [0x87, 1, 0]⟩ ((inMode .selftest).onSelfTest fun x => { x with step := 7 })) (⟨0xE, .spindle, 0, [0x87, 1, 0]⟩)) := by decide +kernel

theorem wit_SelftestSteps4 :
    ((fun (s : State) (k : Nat) => s.keeper.st.step = k ∧ 1 ≤ k ∧ k < 7) (booted.onSelfTest fun x => { x with step := 6 }) (6)) ∧
    ((fun (s : State) (m : SbMsg) => stMessage s .spindle [0x20] = none ∧ stMessage s .keeper [0x20] = some m ∧ s.keeper.words = [.spread] ∧ 5 ≤ m.payload.length) (wired ⟨0xE, .spindle, 0, [0x20, 1, 2, 3, 4]⟩ (booted.onKeeper fun k => { k with words := [.spread] })) (⟨0xE, .spindle, 0, [0x20, 1, 2, 3, 4]⟩)) ∧
    ((fun (s : State) (m : SbMsg) (ws : List WordUse) => stMessage s .spindle [0x20] = none ∧ stMessage s .keeper [0x20] = some m ∧ s.keeper.words = .pool :: ws ∧ 5 ≤ m.payload.length) (wired ⟨0xE, .spindle, 0, [0x20, 1, 2, 3, 4]⟩ (booted.onKeeper fun k => { k with words := [.pool, .spread] })) (⟨0xE, .spindle, 0, [0x20, 1, 2, 3, 4]⟩) ([.spread])) := by decide +kernel

theorem wit_SelftestSteps5 :
    ((fun (s : State) (m : SbMsg) (ws : List WordUse) => stMessage s .keeper [0x20] = none ∧ stMessage s .spindle [0x20] = some m ∧ s.spindle.alive = true ∧ s.keeper.words = .spread :: ws ∧ domState s .rng = 2 ∧ roomFor s .spindle) (wired ⟨0xE, .keeper, 2, [0x20, 4]⟩ ((booted.onKeeper fun k => { k with words := [.spread] }).onRng fun r => { r with fifo := [7] })) (⟨0xE, .keeper, 2, [0x20, 4]⟩) ([])) := by decide +kernel

theorem wit_DomainCommands :
    ((fun (s : State) (d : Domain) (u : User) (ss : Nat) (v : Nat) (r : Nat) => s.flyer.doms.length = 7 ∧ s.doms.length = 19 ∧ accepts s (numReq u (Ent.REST ss) v) = true ∧ domOf ss = some d ∧ restOf v = some r ∧ staticRefuser s d r = none) (booted) (.horn) (.M) (0x2C) (wideCode 1) (0)) ∧
    ((fun (s : State) (d : Domain) (u : User) (ss : Nat) (v : Nat) (r : Nat) (who : Nat) => s.flyer.doms.length = 7 ∧ s.doms.length = 19 ∧ accepts s (numReq u (Ent.REST ss) v) = true ∧ domOf ss = some d ∧ restOf v = some r ∧ staticRefuser s d r = some who) (booted) (.keep) (.M) (0x30) (wideCode 1) (0) (0x30)) ∧
    ((fun (s : State) (d : Domain) => s.flyer.doms.length = 7 ∧ s.doms.length = 19 ∧ mayEnter s d = true ∧ domIdle s d = true ∧ levelSource s d = none ∧ (d = .core → restState s d = 1)) ((booted.put Ent.CAPT_HELD 1).put (Ent.REST (domId .capt)) (wideCode 1)) (.capt)) := by decide +kernel

theorem wit_DomainCommands2 :
    ((fun (s : State) => s.flyer.doms.length = 7 ∧ s.doms.length = 19 ∧ mayEnter s .core = true ∧ domIdle s .core = true ∧ restState s .core = 0 ∧ refusers s .core 0 = [] ∧ levelSource s .core = none ∧ s.keeper.seq = .released ∧ s.flyer.up = true) (booted.onCore (fun c => { c with waiting := true }) |>.put (Ent.REST (domId .core)) (wideCode 1))) ∧
    ((fun (s : State) (d : Domain) => s.flyer.doms.length = 7 ∧ s.doms.length = 19 ∧ (domSeq s d).idleTried = true ∧ mayEnter s d = true ∧ domIdle s d = true ∧ levelSource s d = none ∧ (d = .core → restState s d = 1)) (onDom booted .capt fun q => { q with idleTried := true }) (.capt)) ∧
    ((fun (s : State) (d : Domain) => s.flyer.doms.length = 7 ∧ s.doms.length = 19 ∧ domNow s d = 3 ∧ (domSeq s d).wake = none ∧ ¬(d = .core ∧ (domSeq s d).target = 0 ∧ s.spindle.alive = true)) (onDom (setDomState (booted.put Ent.CAPT_HELD 1) .capt 3) .capt fun q => { q with target := 0 }) (.capt)) := by decide +kernel

theorem wit_DomainCommands3 :
    ((fun (s : State) (d : Domain) (src : Nat) (more : List Domain) (owner : Domain) (rest : List Domain) => s.flyer.doms.length = 7 ∧ s.doms.length = 19 ∧ wakeLost s src = false ∧ raisedBy s src more = owner :: rest ∧ d ∈ withNeeds (owner :: rest) ∧ domNow s d < 2 ∧ domState s .core ≠ 0) (setDomState (setDomState booted .core 1) .data 1) (.data) (8) ([]) (.core) ([])) ∧
    ((fun (s : State) (d : Domain) (src : Nat) (more : List Domain) (owner : Domain) (rest : List Domain) => s.flyer.doms.length = 7 ∧ s.doms.length = 19 ∧ wakeLost s src = false ∧ raisedBy s src more = owner :: rest ∧ d ∈ owner :: rest ∧ domNow s d = 3 ∧ d ≠ .core ∧ d ≠ .code ∧ d ≠ .data ∧ (owner :: rest).Nodup ∧ domState s .core ≠ 0) (setDomState booted .net 3) (.net) (7) ([]) (.core) ([.net, .horn, .ind])) ∧
    ((fun (s : State) (d : Domain) => s.flyer.doms.length = 7 ∧ s.doms.length = 19 ∧ domNow s d = 4) (setDomState booted .core 4) (.core)) := by decide +kernel

theorem wit_DomainCommands4 :
    ((fun (s : State) (low : List Port) => s.flyer.doms.length = 7 ∧ s.doms.length = 19 ∧ domState s .host = 3 ∧ domState s .core ≠ 0 ∧ low.any (portEnabled s) = true) (setDomState (((booted.put (Ent.HP_ENABLE 2) 1))) .host 3) ([.B])) ∧
    ((fun (s : State) (d : Domain) (low : List Port) => s.flyer.doms.length = 7 ∧ s.doms.length = 19 ∧ (d = .host ∨ d = .net) ∧ domState s d = 3 ∧ (d = .host → low.any (portEnabled s) = false) ∧ (domSeq s d).wake = none) (setDomState booted .net 3) (.net) ([.B])) := by decide +kernel

theorem wit_ClockCommands :
    ((fun (s : State) => onFallback s = false) (booted)) ∧
    ((fun (s : State) => onFallback s = true) ((booted.put Ent.TIME_FLAGS 3).onLog fun l => { l with active := [(0x43, 3)] })) ∧
    ((fun (s : State) => s.spindle.alive = true ∧ domState s .core = 2) (booted)) := by decide +kernel

theorem wit_ClockCommands2 :
    ((fun (s : State) => s.spindle.alive = true ∧ s.spindle.xoChecked = false) (booted)) ∧
    ((fun (s : State) => s.spindle.alive = true ∧ s.spindle.xoFound = true ∧ s.spindle.xoFail = false ∧ (domState s .net = 2 ∨ domState s .net = 4)) (booted.onSpindle fun x => { x with xoFound := true })) := by decide +kernel

theorem wit_ArbiterCommands :
    ((fun (s : State) => s.spindle.arb.length = 6 ∧ s.spindle.asks.length = 12 ∧ arbRuns s = true) (booted.onSpindle fun x => { x with asks := [{}, ⟨1, 3⟩, ⟨1, 2⟩] ++ List.replicate 9 {} })) ∧
    ((fun (s : State) (j : Nat) (k : Nat) => s.spindle.arb.length = 6 ∧ s.spindle.asks.length = 12 ∧ arbRuns s = true ∧ j < 12 ∧ arbReach k j = true ∧ (askOf s j).left = 0) (booted) (2) (2)) ∧
    ((fun (s : State) (res : Nat) => s.spindle.arb.length = 6 ∧ s.spindle.asks.length = 12 ∧ arbRuns s = true ∧ res ∈ resources) (onArb booted 1 fun r => { r with window := 5, spent := [0, 3] }) (1)) := by decide +kernel

theorem wit_ArbiterCommands2 :
    ((fun (s : State) (res : Nat) => s.spindle.arb.length = 6 ∧ s.spindle.asks.length = 12 ∧ arbRuns s = true ∧ res ∈ resources ∧ ((arbRes s res).pend.map (·.1)).Nodup ∧ (∀ p ∈ (arbRes s res).pend, 0x1300 ≤ p.1 / 256 ∧ p.1 / 256 ≤ 0x1304)) (onArb (booted.put Ent.ARB_PENDING 4) 3 fun r => { r with pend := [(Ent.CREDIT_WINDOW 3, 512)] }) (3)) ∧
    ((fun (s : State) (u : User) (idx : Nat) (sub : Nat) (x : Bytes) => s.spindle.arb.length = 6 ∧ s.spindle.asks.length = 12 ∧ accepts s (writeReq u idx sub x) = true ∧ 0x1300 ≤ idx ∧ idx ≤ 0x1304) (booted) (.M) (0x1303) (2) ([0, 4])) ∧
    ((fun (s : State) (req : Nat) (res : Nat) => s.spindle.arb.length = 6 ∧ s.spindle.asks.length = 12 ∧ s.spindle.alive = true ∧ (arbRes s res).owner = some req ∧ 1025 ≤ (arbRes s res).heldFor ∧ arbReach res req = true ∧ req < 12) (onArb booted 2 fun r => { r with owner := some 2, heldFor := 1025 }) (2) (2)) := by decide +kernel

theorem wit_ArbiterCommands3 :
    ((fun (s : State) (u : User) (v : Nat) => s.spindle.arb.length = 6 ∧ s.spindle.asks.length = 12 ∧ accepts s (numReq u Ent.WDT_KICK v) = true) (booted.onKeeper fun k => { k with wdt := some 5 }) (.M) (1)) := by decide +kernel

theorem wit_MemoryAndRegisters :
    ((fun (c : Core) (r : Nat) => c.gpr.length = 31 ∧ r < 32) (Core.atReset) (31)) := by decide +kernel

theorem wit_CoreOrdinary :
    ((fun (s : State) (w : Nat) (n : Nat) (rd : Nat) (imm : Word) => fetches s (.lui rd imm) w n = true) (running [0xB7, 0x10, 0, 0]) (0x10B7) (4) (1) (0x1000)) ∧
    ((fun (s : State) (w : Nat) (n : Nat) (rd : Nat) (imm : Word) => fetches s (.auipc rd imm) w n = true) (running [0x97, 0x10, 0, 0]) (0x1097) (4) (1) (0x1000)) ∧
    ((fun (s : State) (w : Nat) (n : Nat) (rd : Nat) (imm : Word) => fetches s (.jal rd imm) w n = true) (running [0xEF, 0, 0x80, 0]) (0x8000EF) (4) (1) (8)) := by decide +kernel

theorem wit_CoreOrdinary2 :
    ((fun (s : State) (w : Nat) (n : Nat) (rd : Nat) (rs1 : Nat) (imm : Word) => fetches s (.jalr rd rs1 imm) w n = true) (withX (running [0xE7, 0x80, 0x50, 0]) 1 0x10000010) (0x5080E7) (4) (1) (1) (5)) ∧
    ((fun (s : State) (w : Nat) (n : Nat) (rs1 : Nat) (rs2 : Nat) (f3 : Nat) (imm : Word) => fetches s (.branch f3 rs1 rs2 imm) w n = true) (running [0x63, 0x84, 0x20, 0]) (0x208463) (4) (1) (2) (0) (8)) ∧
    ((fun (s : State) (w : Nat) (n : Nat) (rd : Nat) (rs1 : Nat) (f3 : Nat) (imm : Word) => fetches s (.opImm f3 rd rs1 imm) w n = true) (running [0x93, 0, 0x50, 0]) (0x500093) (4) (1) (0) (0) (5)) := by decide +kernel

theorem wit_CoreOrdinary3 :
    ((fun (s : State) (w : Nat) (n : Nat) (rd : Nat) (rs1 : Nat) (f3 : Nat) (k : Nat) (b : Bool) => fetches s (.shiftImm f3 rd rs1 k b) w n = true) (withX (running [0x93, 0xD0, 0x40, 0x40]) 1 0x80000000) (0x4040D093) (4) (1) (1) (5) (4) (true)) ∧
    ((fun (s : State) (w : Nat) (n : Nat) (rd : Nat) (rs1 : Nat) (rs2 : Nat) (f3 : Nat) (b : Bool) => fetches s (.op f3 rd rs1 rs2 b) w n = true) (withX (running [0xB3, 0x80, 0x20, 0x40]) 2 7) (0x402080B3) (4) (1) (1) (2) (0) (true)) ∧
    ((fun (s : State) (w : Nat) (n : Nat) (rd : Nat) (rs1 : Nat) (rs2 : Nat) (f3 : Nat) => fetches s (.muldiv f3 rd rs1 rs2) w n = true) (withX (running [0xB3, 0xC0, 0x20, 0x02]) 1 7) (0x220C0B3) (4) (1) (1) (2) (4)) := by decide +kernel

theorem wit_CoreOrdinary4 :
    ((fun (s : State) => coreReady s = true ∧ triggerHit s.spindle.core 0 s.spindle.core.pc = none ∧ s.spindle.core.dcsr.getLsbD 2 = false ∧ fetchHalf s s.spindle.core.pc = .ok 0) (running [0, 0])) := by decide +kernel

theorem wit_CoreLoadsStores :
    ((fun (s : State) (w : Nat) (n : Nat) (f3 : Nat) (rd : Nat) (rs1 : Nat) (off : Word) (a : Word) (u : Bool) => a = s.spindle.core.x rs1 + off ∧ u = effUser s.spindle.core ∧ fetches s (.load f3 rd rs1 off) w n = true ∧ triggerHit s.spindle.core 2 a = none ∧ dataCheck s u false (accessSize f3) a = none ∧ regionOf a.toNat ≠ some .window) (withX ((running [0x83, 0x80, 0x10, 0]).onMem fun m => { m with data := m.data.putAll 1 [0x85] }) 1 0x20000000) (0x108083) (4) (0) (1) (1) (1) (0x20000001) (false)) ∧
    ((fun (s : State) (w : Nat) (n : Nat) (f3 : Nat) (rd : Nat) (rs1 : Nat) (off : Word) (a : Word) (u : Bool) => a = s.spindle.core.x rs1 + off ∧ u = effUser s.spindle.core ∧ fetches s (.load f3 rd rs1 off) w n = true ∧ triggerHit s.spindle.core 2 a = none ∧ a.toNat % accessSize f3 ≠ 0 ∧ regionOf a.toNat ≠ some .window ∧ s.spindle.core.inEntry = false) (withX (running [0x83, 0xA0, 0x10, 0]) 1 0x20000000) (0x10A083) (4) (2) (1) (1) (1) (0x20000001) (false)) ∧
    ((fun (s : State) (w : Nat) (n : Nat) (f3 : Nat) (rs1 : Nat) (rs2 : Nat) (off : Word) (a : Word) (u : Bool) => a = s.spindle.core.x rs1 + off ∧ u = effUser s.spindle.core ∧ fetches s (.store f3 rs1 rs2 off) w n = true ∧ triggerHit s.spindle.core 1 a = none ∧ dataCheck s u true (accessSize f3) a = none ∧ regionOf a.toNat = some .data) (withX (withX (running [0x23, 0xA2, 0x20, 0]) 1 0x20000000) 2 0x12345678) (0x20A223) (4) (2) (1) (2) (4) (0x20000004) (false)) := by decide +kernel

theorem wit_CoreLoadsStores2 :
    ((fun (s : State) (w : Nat) (n : Nat) (f3 : Nat) (rs1 : Nat) (rs2 : Nat) (off : Word) (a : Word) (u : Bool) => a = s.spindle.core.x rs1 + off ∧ u = effUser s.spindle.core ∧ fetches s (.store f3 rs1 rs2 off) w n = true ∧ triggerHit s.spindle.core 1 a = none ∧ dataCheck s u true (accessSize f3) a = none ∧ regionOf a.toNat = some .code) (withX (withX (running [0x23, 0xA2, 0x20, 0]) 1 0x10000000) 2 0x12345678) (0x20A223) (4) (2) (1) (2) (4) (0x10000004) (false)) ∧
    ((fun (s : State) (w : Nat) (n : Nat) (f3 : Nat) (rs1 : Nat) (rs2 : Nat) (off : Word) (a : Word) (u : Bool) => a = s.spindle.core.x rs1 + off ∧ u = effUser s.spindle.core ∧ fetches s (.store f3 rs1 rs2 off) w n = true ∧ triggerHit s.spindle.core 1 a = none ∧ dataCheck s u true (accessSize f3) a = none ∧ regionOf a.toNat = some .scratch) (withX (withX (running [0x23, 0xA2, 0x20, 0]) 1 0x30000000) 2 0x12345678) (0x20A223) (4) (2) (1) (2) (4) (0x30000004) (false)) ∧
    ((fun (s : State) (w : Nat) (n : Nat) (f3 : Nat) (rd : Nat) (rs1 : Nat) (off : Word) (a : Word) (u : Bool) (ty : Ty) => a = s.spindle.core.x rs1 + off ∧ u = effUser s.spindle.core ∧ fetches s (.load f3 rd rs1 off) w n = true ∧ triggerHit s.spindle.core 2 a = none ∧ dataCheck s u false (accessSize f3) a = none ∧ regionOf a.toNat = some .window ∧ (rowAt (windowIdx 0x40000000 a.toNat) (windowSub 0x40000000 a.toNat)).map (·.ty) = some ty ∧ (ty matches .oct _) = false ∧ readable s (readReq (windowUser u) (windowIdx 0x40000000 a.toNat) (windowSub 0x40000000 a.toNat)) = true ∧ (readAccess (fillQueue s n) (windowUser u) (windowIdx 0x40000000 a.toNat) (windowSub 0x40000000 a.toNat)).2.1 = Sc.ok ∧ f3 = 2 ∧ s.spindle.core.gpr.length = 31 ∧ 1 ≤ rd ∧ rd < 32) (withX (running [0x83, 0xA0, 0, 0]) 1 0x40406000) (0xA083) (4) (2) (1) (1) (0) (0x40406000) (false) (.c32)) := by decide +kernel

theorem wit_CoreLoadsStores3 :
    ((fun (s : State) (w : Nat) (n : Nat) (f3 : Nat) (rd : Nat) (rs1 : Nat) (off : Word) (a : Word) (u : Bool) => a = s.spindle.core.x rs1 + off ∧ u = effUser s.spindle.core ∧ fetches s (.load f3 rd rs1 off) w n = true ∧ triggerHit s.spindle.core 2 a = none ∧ dataCheck s u false (accessSize f3) a = none ∧ regionOf a.toNat = some .window ∧ s.spindle.core.asked = none ∧ s.spindle.dict.resps.get (windowUser u) = [] ∧ servedAtOnce s (readReq (windowUser u) (windowIdx 0x40000000 a.toNat) (windowSub 0x40000000 a.toNat)) = true ∧ rowAt (windowIdx 0x40000000 a.toNat) (windowSub 0x40000000 a.toNat) = none ∧ s.spindle.core.inEntry = false) (withX (running [0x83, 0xA0, 0, 0]) 1 0x40000000) (0xA083) (4) (2) (1) (1) (0) (0x40000000) (false)) ∧
    ((fun (s : State) (w : Nat) (n : Nat) (rs1 : Nat) (rs2 : Nat) (off : Word) (a : Word) (u : Bool) (q : Request) => a = s.spindle.core.x rs1 + off ∧ u = effUser s.spindle.core ∧ fetches s (.store 2 rs1 rs2 off) w n = true ∧ triggerHit s.spindle.core 1 a = none ∧ dataCheck s u true 4 a = none ∧ regionOf a.toNat = some .window ∧ s.spindle.core.asked = none ∧ q = coreReq u 2 (windowIdx 0x40000000 a.toNat) (windowSub 0x40000000 a.toNat) (storedValue s u (windowIdx 0x40000000 a.toNat) (windowSub 0x40000000 a.toNat) (s.spindle.core.x rs2)).1 (storedValue s u (windowIdx 0x40000000 a.toNat) (windowSub 0x40000000 a.toNat) (s.spindle.core.x rs2)).2 ∧ s.spindle.dict.resps.get q.user = [] ∧ servedAtOnce s q = true ∧ (serve (asking s n q) q).spindle.dict.resps.get q.user = [⟨q, Sc.ok, []⟩]) (withX (withX (running [0x23, 0xA0, 0x20, 0]) 1 0x40541800) 2 1) (0x20A023) (4) (1) (2) (0) (0x40541800) (false) (coreReq false 2 0x1506 0 [1] true)) ∧
    ((fun (s : State) (w : Nat) (n : Nat) (rs1 : Nat) (rs2 : Nat) (off : Word) (a : Word) (u : Bool) (q : Request) => a = s.spindle.core.x rs1 + off ∧ u = effUser s.spindle.core ∧ fetches s (.store 2 rs1 rs2 off) w n = true ∧ triggerHit s.spindle.core 1 a = none ∧ dataCheck s u true 4 a = none ∧ regionOf a.toNat = some .window ∧ s.spindle.core.asked = none ∧ q = coreReq u 2 (windowIdx 0x40000000 a.toNat) (windowSub 0x40000000 a.toNat) (storedValue s u (windowIdx 0x40000000 a.toNat) (windowSub 0x40000000 a.toNat) (s.spindle.core.x rs2)).1 (storedValue s u (windowIdx 0x40000000 a.toNat) (windowSub 0x40000000 a.toNat) (s.spindle.core.x rs2)).2 ∧ s.spindle.dict.resps.get q.user = [] ∧ servedAtOnce s q = true ∧ (serve (asking s n q) q).spindle.dict.resps.get q.user = [⟨q, Sc.claimed, []⟩]) (withX (withX (running [0x23, 0xA0, 0x20, 0]) 1 0x40407400) 2 1) (0x20A023) (4) (1) (2) (0) (0x40407400) (false) (coreReq false 2 0x101D 0 [1, 0] true)) := by decide +kernel

theorem wit_CoreLoadsStores4 :
    ((fun (s : State) (w : Nat) (n : Nat) (rs1 : Nat) (rs2 : Nat) (off : Word) (a : Word) (u : Bool) (q : Request) (rest : List Response) => a = s.spindle.core.x rs1 + off ∧ u = effUser s.spindle.core ∧ fetches s (.store 2 rs1 rs2 off) w n = true ∧ triggerHit s.spindle.core 1 a = none ∧ dataCheck s u true 4 a = none ∧ regionOf a.toNat = some .window ∧ s.spindle.core.asked = some q ∧ s.spindle.dict.resps.get q.user = ⟨q, Sc.ok, []⟩ :: rest) (((withX (withX (running [0x23, 0xA0, 0x20, 0]) 1 0x40407400) 2 1).onCore fun c => { c with asked := some (coreReq false 2 0x101D 0 [1, 0] true) }).onDict fun d => { d with resps := d.resps.set .M [⟨coreReq false 2 0x101D 0 [1, 0] true, Sc.ok, []⟩] }) (0x20A023) (4) (1) (2) (0) (0x40407400) (false) (coreReq false 2 0x101D 0 [1, 0] true) ([])) ∧
    ((fun (s : State) (w : Nat) (n : Nat) (rs1 : Nat) (rs2 : Nat) (off : Word) (a : Word) (u : Bool) (x : Bytes) (idx : Nat) (sub : Nat) => a = s.spindle.core.x rs1 + off ∧ u = effUser s.spindle.core ∧ fetches s (.store 2 rs1 rs2 off) w n = true ∧ triggerHit s.spindle.core 1 a = none ∧ dataCheck s u true 4 a = none ∧ regionOf a.toNat = some .staging ∧ idx = windowIdx 0x48000000 a.toNat ∧ sub = windowSub 0x48000000 a.toNat ∧ s.spindle.core.asked = none ∧ s.spindle.dict.resps.get (windowUser u) = [] ∧ storedValue s u idx sub (s.spindle.core.x rs2) = (x, true) ∧ servedAtOnce s (Request.mk' (windowUser u) 3 idx sub x) = true ∧ (stage s (windowUser u) idx sub x).2 = Sc.ok) (withX (withX (running [0x23, 0xA0, 0x20, 0]) 1 0x48403800) 2 5) (0x20A023) (4) (1) (2) (0) (0x48403800) (false) ([5, 0, 0, 0]) (0x100E) (0)) := by decide +kernel

theorem wit_CoreSystem :
    ((fun (s : State) (w : Nat) (n : Nat) (f3 : Nat) (rd : Nat) (rs1 : Nat) (a : Nat) (x : Word) => fetches s (.csr f3 rd rs1 a) w n = true ∧ coreRow s.spindle.core (.csr f3 rd rs1 a) = .csr ∧ csrAllowed s a (csrWrites f3 rs1) s.spindle.core.user false = true ∧ x = (if f3 < 4 then s.spindle.core.x rs1 else BitVec.ofNat 32 rs1)) (withX (running [0xF3, 0x10, 0x01, 0x34]) 2 7) (0x340110F3) (4) (1) (1) (2) (0x340) (7)) ∧
    ((fun (s : State) (w : Nat) (n : Nat) (f3 : Nat) (rd : Nat) (rs1 : Nat) (x : Word) => fetches s (.csr f3 rd rs1 0x7C0) w n = true ∧ csrWrites f3 rs1 = true ∧ s.spindle.core.user = false ∧ x = csrNew f3 s.spindle.core.svctl (if f3 < 4 then s.spindle.core.x rs1 else BitVec.ofNat 32 rs1)) (running [0xF3, 0xD0, 0x01, 0x7C]) (0x7C01D0F3) (4) (5) (1) (3) (3)) ∧
    ((fun (s : State) (w : Nat) (n : Nat) (f3 : Nat) (rd : Nat) (rs1 : Nat) (x : Word) (i : Nat) => fetches s (.csr f3 rd rs1 (0x7C8 + i)) w n = true ∧ i < 8 ∧ csrWrites f3 rs1 = true ∧ s.spindle.core.user = false ∧ x = csrNew f3 (s.spindle.core.mpuBase.getD i 0) (if f3 < 4 then s.spindle.core.x rs1 else BitVec.ofNat 32 rs1)) (withX (running [0x73, 0x90, 0x90, 0x7C]) 1 0x20000010) (0x7C909073) (4) (1) (0) (1) (0x20000010) (1)) := by decide +kernel

theorem wit_CoreSystem2 :
    ((fun (s : State) (w : Nat) (n : Nat) (f3 : Nat) (rd : Nat) (rs1 : Nat) (x : Word) (i : Nat) => fetches s (.csr f3 rd rs1 (0x7D0 + i)) w n = true ∧ i < 8 ∧ csrWrites f3 rs1 = true ∧ s.spindle.core.user = false ∧ x = csrNew f3 (s.spindle.core.mpuAttr.getD i 0) (if f3 < 4 then s.spindle.core.x rs1 else BitVec.ofNat 32 rs1)) (withX (running [0x73, 0x90, 0x10, 0x7D]) 1 0x81000001) (0x7D109073) (4) (1) (0) (1) (0x81000001) (1)) ∧
    ((fun (s : State) (w : Nat) (n : Nat) => fetches s .ecall w n = true) (running [0x73, 0, 0, 0]) (0x73) (4)) ∧
    ((fun (s : State) (w : Nat) (n : Nat) => fetches s .ebreak w n = true ∧ ebreakHalts s.spindle.core = false ∧ s.spindle.core.inEntry = false) (running [0x73, 0, 0x10, 0]) (0x100073) (4)) := by decide +kernel

theorem wit_CoreSystem3 :
    ((fun (s : State) (w : Nat) (n : Nat) => fetches s .ebreak w n = true ∧ ebreakHalts s.spindle.core = true) ((running [0x73, 0, 0x10, 0]).onCore fun c => { c with dcsr := 0x40008003 }) (0x100073) (4)) ∧
    ((fun (s : State) (w : Nat) (n : Nat) => fetches s .mret w n = true ∧ s.spindle.core.user = false) ((running [0x73, 0, 0x20, 0x30]).onCore fun c => { c with mepc := 0x10000020, mstatus := 0x200080 }) (0x30200073) (4)) ∧
    ((fun (s : State) (w : Nat) (n : Nat) => fetches s .mret w n = true ∧ s.spindle.core.user = true ∧ s.spindle.core.inEntry = false) ((running [0x73, 0, 0x20, 0x30]).onCore fun c => { c with user := true, mpuBase := [0x10000014, 0, 0, 0, 0, 0, 0, 0], mpuAttr := [0x0100FF77, 0, 0, 0, 0, 0, 0, 0] }) (0x30200073) (4)) := by decide +kernel

theorem wit_CoreSystem4 :
    ((fun (s : State) (w : Nat) (n : Nat) => fetches s .wfi w n = true ∧ s.spindle.core.user = false) (running [0x73, 0, 0x50, 0x10]) (0x10500073) (4)) ∧
    ((fun (s : State) => coreRuns s = true ∧ enabledIrqs s ≠ 0) (booted.onCore fun c => { c with waiting := true, mie := 0x20000, jobDone := true })) ∧
    ((fun (s : State) (w : Nat) (n : Nat) => fetches s .fence w n = true) (running [0x0F, 0, 0xF0, 0x0F]) (0xFF0000F) (4)) := by decide +kernel

theorem wit_CoreSystem5 :
    ((fun (s : State) (w : Nat) (n : Nat) => fetches s .fenceI w n = true) (running [0x0F, 0x10, 0, 0]) (0x100F) (4)) ∧
    ((fun (s : State) (cause : Nat) => coreRuns s = true ∧ s.spindle.core.asked = none ∧ dueIrq s = some cause ∧ s.spindle.core.dcsr.getLsbD 2 = false) (booted.onCore fun c => { c with waiting := true, mie := 0x20000, jobDone := true, mstatus := 0x200008, mtvec := 0x10000001 }) (17)) ∧
    ((fun (s : State) => s.keeper.wdt.isSome = true ∧ s.spindle.core.halted = false ∧ s.keeper.seq = .released ∧ s.flyer.up = true) (booted.onKeeper fun k => { k with wdt := some 7 })) := by decide +kernel

theorem wit_DebugCommands :
    ((fun (s : State) => debugReaches s = true ∧ s.spindle.core.halted = false ∧ s.spindle.core.inEntry = false ∧ s.spindle.core.asked = none) (opened)) ∧
    ((fun (s : State) => debugReaches s = true ∧ s.spindle.core.halted = false ∧ (s.spindle.core.inEntry = true ∨ s.spindle.core.asked.isSome = true)) (opened.onCore fun c => { c with inEntry := true })) ∧
    ((fun (s : State) => debugReaches s = true ∧ s.spindle.core.halted = true ∧ s.spindle.core.progAt = none) (opened.onCore fun c => { c with halted := true, dpc := 0x10000010 })) := by decide +kernel

theorem wit_DebugCommands2 :
    ((fun (s : State) => debugReaches s = true ∧ s.spindle.core.halted = true ∧ s.spindle.core.progAt = none) (opened.onCore fun c => { c with halted := true, dpc := 0x10000010 })) ∧
    ((fun (s : State) (r : State) => debugReaches s = true ∧ s.spindle.core.halted = true ∧ s.spindle.core.progAt = none ∧ (r = (leaveDebug s).onCore fun c => { c with dcsr := c.dcsr ||| 4 }) ∧ dueIrq r = none ∧ triggerHit r.spindle.core 0 r.spindle.core.pc = none ∧ fetchHalf r r.spindle.core.pc = .ok 0x0093 ∧ fetchHalf r (r.spindle.core.pc + 2) = .ok 0x0050 ∧ s.spindle.core.gpr.length = 31) ((opened.onMem fun m => { m with code := m.code.putAll 0 [0x93, 0, 0x50, 0] }).onCore fun c => { c with halted := true, dpc := 0x10000000 }) ((leaveDebug ((opened.onMem fun m => { m with code := m.code.putAll 0 [0x93, 0, 0x50, 0] }).onCore fun c => { c with halted := true, dpc := 0x10000000 })).onCore fun c => { c with dcsr := c.dcsr ||| 4 })) ∧
    ((fun (s : State) (a : Abstract) => debugReaches s = true ∧ s.spindle.core.halted = false ∧ s.spindle.core.progAt = none ∧ s.spindle.core.cmderr = 0 ∧ a ≠ .clearError) (opened) (.readGpr 1)) := by decide +kernel

theorem wit_DebugCommands3 :
    ((fun (s : State) (a : Abstract) => debugReaches s = true ∧ s.spindle.core.progAt = none ∧ s.spindle.core.cmderr ≠ 0 ∧ a ≠ .clearError) (opened.onCore fun c => { c with halted := true, cmderr := 3 }) (.readGpr 1)) ∧
    ((fun (s : State) => debugReaches s = true) (opened.onCore fun c => { c with halted := true, cmderr := 3 })) ∧
    ((fun (s : State) (n : Nat) => debugIdle s = true ∧ s.spindle.core.cmderr = 0 ∧ n < 32) (opened.onCore fun c => { c with halted := true }) (31)) := by decide +kernel

theorem wit_DebugCommands4 :
    ((fun (s : State) (n : Nat) => debugIdle s = true ∧ s.spindle.core.cmderr = 0 ∧ n < 32) (opened.onCore fun c => { c with halted := true }) (31)) ∧
    ((fun (s : State) (n : Nat) (v : Word) => debugIdle s = true ∧ s.spindle.core.cmderr = 0 ∧ csrRead s n true = some v) (opened.onCore fun c => { c with halted := true }) (0x7B1) (0)) ∧
    ((fun (s : State) (n : Nat) => debugIdle s = true ∧ s.spindle.core.cmderr = 0 ∧ csrAllowed s n true false true = true) (opened.onCore fun c => { c with halted := true }) (0x340)) := by decide +kernel

theorem wit_DebugCommands5 :
    ((fun (s : State) => debugIdle s = true ∧ s.spindle.core.cmderr = 0 ∧ s.spindle.core.gpr.length = 31) (opened.onCore fun c => { c with halted := true })) ∧
    ((fun (s : State) => s.spindle.alive = true) (opened)) := by decide +kernel

theorem wit_LoaderSteps :
    ((fun (s : State) (sfdp : Bytes) => loaderAt s 1 = true ∧ sfdpGood sfdp = false) (booting) ([])) ∧
    ((fun (s : State) (sfdp : Bytes) (base : Nat) => loaderAt s 1 = true ∧ sfdpGood sfdp = true ∧ base = leNat ((sfdp.drop 12).take 3)) (booting) ([0x53, 0x46, 0x44, 0x50, 6, 1, 0, 0xFF, 0, 6, 1, 16, 16, 0, 0, 0xFF, 1, 0, 0x60, 0, 0xFF, 0xFF, 0xFF, 3]) (16)) ∧
    ((fun (s : State) (k : Nat) (a : Bytes) (b : Bytes) (hd : Bytes) => loaderAt s 2 = true ∧ a = flashBytes s 0x10000 32 ∧ b = flashBytes s 0x90000 32 ∧ k = (if s.keeper.altBit then 1 - preferred s a b else preferred s a b) ∧ hd = (if k = 0 then a else b)) ((flashed booting).onLoader fun l => { l with word := wideCode 2 }) (0) (man0) (List.replicate 32 0xFF) (man0)) := by decide +kernel

theorem wit_LoaderSteps2 :
    ((fun (s : State) (a : Nat) => loaderAt s 3 = true ∧ s.spindle.bn.loader = false ∧ s.spindle.bn.running ≠ some .loader ∧ a = slotBase s.spindle.loader.slot ∧ wellFormed (flashBytes s a 32) = true ∧ oemUnbound s = true) ((inLc .blank (flashed (booting.onKeeper fun k => { k with oem0 := false }))).onLoader fun l => { l with word := wideCode 3, headA := man0 }) (0x10000)) ∧
    ((fun (s : State) => loaderAt s 3 = true ∧ s.spindle.bn.loader = false ∧ s.spindle.bn.running ≠ some .loader ∧ wellFormed (flashBytes s (slotBase s.spindle.loader.slot) 32) = false) (booting.onLoader fun l => { l with word := wideCode 3 })) ∧
    ((fun (s : State) (a : Nat) (k : Nat) => loaderAt s 3 = true ∧ s.spindle.bn.loader = false ∧ s.spindle.bn.running ≠ some .loader ∧ a = slotBase s.spindle.loader.slot ∧ wellFormed (flashBytes s a 32) = true ∧ oemUnbound s = false ∧ k = manKey (slotHead s.spindle.loader s.spindle.loader.slot) ∧ (oemUsable s k = false ∨ sha256 (flashBytes s (a + 32) 64) ≠ oemHash s k)) ((flashed (booting.onKeeper fun k => { k with oem0 := false })).onLoader fun l => { l with word := wideCode 3, headA := man0 }) (0x10000) (0)) := by decide +kernel

theorem wit_LoaderSteps3 :
    ((fun (s : State) => loaderAt s 3 = true ∧ s.spindle.bn.running = some .loader) ((booting.onLoader fun l => { l with word := wideCode 3 }).onBn fun b => { b with running := some .loader })) ∧
    ((fun (s : State) (l : Loader) (n : Nat) (buf : Nat) => loaderAt s 4 = true ∧ l = s.spindle.loader ∧ n = halfLength l ∧ n ≠ 0 ∧ buf = 0x1000 + l.got / 2048 % 2 * 0x800 ∧ s.spindle.shaJobs.length < 2) ((flashed booting).onLoader fun l => { l with word := wideCode 4, headA := man0 }) ({ word := wideCode 4, headA := man0 }) (4) (0x1000)) ∧
    ((fun (s : State) (l : Loader) (d : Bytes) => loaderAt s 4 = true ∧ l = s.spindle.loader ∧ l.digest = some d) (booting.onLoader fun l => { l with word := wideCode 4, headA := man0, got := 4, digest := some (zeros 32) }) ({ word := wideCode 4, headA := man0, got := 4, digest := some (zeros 32) }) (zeros 32)) := by decide +kernel

theorem wit_LoaderSteps4 :
    ((fun (s : State) (n : Nat) => loaderAt s 4 = true ∧ n = loadSize s.spindle.loader ∧ n ≤ 4096 * s.spindle.loader.block) (((flashed booting).onMem fun m => { m with code := m.code.putAll 0 [1, 2, 3, 7, 8] }).onLoader fun l => { l with word := wideCode 4, headA := man0, block := 1 }) (4)) ∧
    ((fun (s : State) (c : Instr) (sfdp : Bytes) (qe : Bool) => s.spindle.alive = true ∧ s.spindle.handed = false ∧ (∀ k < 6, s.spindle.loader.word ≠ wideCode (k + 1)) ∧ c ∈ [.loaderDiscovery sfdp qe, .loaderSelect, .loaderManifestRead, .loaderSignatureDone, .loaderHalfBlock, .loaderBlockDigest, .loaderClose]) (booting.onLoader fun l => { l with word := 5 }) (.loaderSelect) ([]) (false)) := by decide +kernel

theorem wit_BootOutcome :
    ((fun (s : State) (l : Loader) (x : Bytes) => l = s.spindle.loader ∧ s.spindle.alive = true ∧ s.spindle.handed = false ∧ l.report = some 0 ∧ x = slotHead l l.slot) ((booting.put Ent.BOOT_FAILS 3).onLoader fun l => { l with word := wideCode 5, headA := man0, report := some 0 }) ({ word := wideCode 5, headA := man0, report := some 0 }) (man0)) ∧
    ((fun (s : State) (l : Loader) (r : Nat) => l = s.spindle.loader ∧ s.spindle.alive = true ∧ s.spindle.handed = false ∧ l.report = some r ∧ r ≠ 0 ∧ s.flyer.up = true ∧ s.keeper.seq = .released) ((booting.put Ent.BOOT_FAILS 7).onLoader fun l => { l with word := wideCode 6, report := some 5 }) ({ word := wideCode 6, report := some 5 }) (5)) ∧
    ((fun (s : State) (l : Loader) => l = s.spindle.loader ∧ s.keeper.attempt = true ∧ s.spindle.alive = true ∧ s.spindle.handed = false ∧ l.report = none ∧ s.flyer.up = true ∧ s.keeper.seq = .released) (booting.onKeeper fun k => { k with attempt := true }) ({})) := by decide +kernel

theorem wit_BootOutcome2 :
    ((fun (s : State) (l : Loader) => l = s.spindle.loader ∧ s.keeper.seq = .heldBackoff ∧ s.keeper.vddValid = true ∧ s.keeper.live = true ∧ s.keeper.nrstLow = false ∧ domState s .core ≠ 0 ∧ domState s .core ≠ 3) ((booting.onSpindle fun x => { x with alive := false }).onKeeper fun k => { k with seq := .heldBackoff }) ({})) := by decide +kernel

theorem wit_FlashAndKeys :
    ((fun (s : State) (u : User) => accepts s (numReq u Ent.FL_OP 1) = true) (booted.onLoader fun l => { l with size := 0x110000 }) (.M)) ∧
    ((fun (s : State) (u : User) => accepts s (numReq u Ent.FL_OP 2) = true) ((booted.put Ent.FL_ADDR 0x90000).onLoader fun l => { l with size := 0x110000 }) (.M)) ∧
    ((fun (s : State) (u : User) => accepts s (numReq u Ent.FL_OP 3) = true) ((booted.put Ent.FL_ADDR 0x90000).onLoader fun l => { l with size := 0x110000, eraseOk := true }) (.M)) := by decide +kernel

theorem wit_FlashAndKeys2 :
    ((fun (s : State) (a : Nat) => s.spindle.flOp = some (1, a)) (booted.onSpindle fun x => { x with flOp := some (1, 0) }) (0)) ∧
    ((fun (s : State) (a : Nat) => s.spindle.flOp = some (2, a) ∧ a + 64 ≤ 2 ^ 24) ((booted.put Ent.FL_DATA 5).onSpindle fun x => { x with flOp := some (2, 64) }) (64)) ∧
    ((fun (s : State) (a : Nat) => s.spindle.flOp = some (3, a)) ((booted.onMem fun m => { m with flash := m.flash.putAll 5 [1, 2] }).onSpindle fun x => { x with flOp := some (3, 0) }) (0)) := by decide +kernel

theorem wit_FlashAndKeys3 :
    ((fun (s : State) => s.spindle.flOp ≠ none) (booted.onSpindle fun x => { x with flOp := some (3, 0) })) ∧
    ((fun (s : State) (u : User) (v : Nat) => v = 1 ∧ accepts s (numReq u Ent.ROLLBACK_COMMIT v) = true ∧ s.get Ent.ROLLBACK_COUNTER < 65535) (booted.put Ent.BOOT_RBV 4) (.M) (1)) ∧
    ((fun (s : State) (u : User) (x : Bytes) => accepts s (octReq u Ent.ROT_SIG x) = true ∧ s.keeper.oem1 = false ∧ oemUsable s 0 = true ∧ 2400 ≤ s.keeper.vddMv) (booted) (.M) (zeros 64)) := by decide +kernel

theorem wit_FlashAndKeys4 :
    ((fun (s : State) (u : User) (v : Nat) => v = 1 ∧ accepts s (numReq u Ent.KEY_REVOKE0 v) = true ∧ s.get Ent.BOOT_KEY = 1 ∧ 2400 ≤ s.keeper.vddMv) (booted.put Ent.BOOT_KEY 1) (.M) (1)) ∧
    ((fun (s : State) (u : User) (idx : Nat) (sub : Nat) (x : Bytes) => (rowAt idx sub).map (·.cls) = some .f ∧ (rowAt idx sub).map (·.action) = some false ∧ accepts s (writeReq u idx sub x) = true) (inLc .maker (booted.onKeeper fun k => { k with oem0 := false })) (.M) (0x1408) (1) (zeros 32)) ∧
    ((fun (s : State) (u : User) (idx : Nat) (sub : Nat) (x : Bytes) => (rowAt idx sub).map (·.cls) = some .f ∧ s.keeper.jobs.head? = some (nvmJob (writeReq u idx sub x) (entAt idx sub) (leNat x))) (booted.onKeeper (fun k => { k with jobs := [nvmJob (writeReq .M 0x1408 1 (zeros 32)) (entAt 0x1408 1) 0] })) (.M) (0x1408) (1) (zeros 32)) := by decide +kernel

theorem wit_PageCommands :
    ((fun (s : State) (u : User) (v : Nat) (n : Nat) => accepts s (numReq u Ent.KDF_DERIVE v) = true ∧ engineFree s (numReq u Ent.KDF_DERIVE v) .aes = true ∧ inMessage (page s u) = false ∧ n = s.getU Ent.KDF_KEYLEN u) (rdy.putU Ent.KDF_KEYLEN .M 32) (.M) (1) (32)) ∧
    ((fun (s : State) (u : User) (v : Nat) => accepts s (numReq u Ent.KDF_DERIVE v) = true ∧ engineFree s (numReq u Ent.KDF_DERIVE v) .aes = false ∧ inMessage (page s u) = false ∧ (page s u).jobs = []) (booted.putU Ent.KDF_KEYLEN .M 32) (.M) (1)) ∧
    ((fun (s : State) (u : User) (who : Nat) (lc : Nat) => readable s (readReq u (Ent.EXP_KEY / 256) (Ent.EXP_KEY % 256)) = true ∧ who = s.getU Ent.EXP_USER u ∧ lc = s.getU Ent.EXP_LC u ∧ 0x13 ≤ who ∧ who ≤ 0x17 ∧ (lc = lcCode .owned ∨ lc = lcCode .field) ∧ engineFree s (readReq u (Ent.EXP_KEY / 256) (Ent.EXP_KEY % 256)) .aes = true) (inLc .maker ((rdy.putU Ent.EXP_USER .A 0x13).putU Ent.EXP_LC .A (lcCode .owned))) (.A) (0x13) (lcCode .owned)) := by decide +kernel

theorem wit_PageCommands2 :
    ((fun (s : State) (u : User) (v : Nat) (mode : Nat) (aad : Nat) (msg : Nat) => accepts s (numReq u Ent.AES_START v) = true ∧ mode = s.getU Ent.AES_MODE u ∧ aad = s.getU Ent.AAD_LEN u ∧ msg = s.getU Ent.MSG_LEN u ∧ (page s u).key ≠ [] ∧ engineFree s (numReq u Ent.AES_START v) .aes = true) (((rdy.putU Ent.AES_MODE .M 5).putU Ent.AAD_LEN .M 20).onPage .M fun p => { p with key := zeros 16, state := 1 }) (.M) (1) (5) (20) (0)) ∧
    ((fun (s : State) (u : User) (x : Bytes) (p : Page) => accepts s (octReq u Ent.AES_IN x) = true ∧ p = page s u ∧ p.state = 3 ∧ p.unread = false ∧ engineFree s (octReq u Ent.AES_IN x) .aes = true ∧ p.buf = [] ∧ 64 < p.msgLeft) ((rdy.putU Ent.AES_MODE .M 3).onPage .M fun p => { p with key := zeros 16, run := zeros 16, state := 3, msgLeft := 100 }) (.M) (zeros 64) ({ key := zeros 16, run := zeros 16, state := 3, msgLeft := 100 })) ∧
    ((fun (s : State) (u : User) (x : Bytes) (p : Page) => accepts s (octReq u Ent.AES_IN x) = true ∧ p = page s u ∧ p.state = 2 ∧ p.unread = false ∧ engineFree s (octReq u Ent.AES_IN x) .aes = true ∧ p.buf = [] ∧ 64 < p.aadLeft) ((rdy.putU Ent.AES_MODE .M 5).onPage .M fun p => { p with key := zeros 16, h := zeros 16, mac := zeros 16, state := 2, aadLeft := 100 }) (.M) (zeros 64) ({ key := zeros 16, h := zeros 16, mac := zeros 16, state := 2, aadLeft := 100 })) := by decide +kernel

theorem wit_PageCommands3 :
    ((fun (s : State) (u : User) (x : Bytes) => accepts s (octReq u Ent.AES_IN x) = true ∧ inMessage (page s u) = true ∧ (page s u).unread = false ∧ engineFree s (octReq u Ent.AES_IN x) .aes = true ∧ (feedChunk (demand s .crypto) u x).2.2 = true) (((rdy.putU Ent.AES_MODE .M 6).putU Ent.AES_TAG .M 5).onPage .M fun p => { p with key := zeros 16, h := zeros 16, mac := zeros 16, j0 := zeros 16, run := zeros 16, state := 2, aadLeft := 4 }) (.M) (zeros 64)) ∧
    ((fun (s : State) (u : User) => readable s (readReq u (Ent.AES_OUT / 256) (Ent.AES_OUT % 256)) = true) (booted.onPage .M fun p => { p with unread := true }) (.M)) ∧
    ((fun (s : State) (u : User) (v : Nat) => accepts s (numReq u Ent.AES_CLEAR v) = true) (booted.onPage .M fun p => { p with key := zeros 16 }) (.M) (1)) := by decide +kernel

theorem wit_PageCommands4 :
    ((fun (s : State) (u : User) (v : Nat) (src : Nat) (dst : Nat) (n : Nat) => accepts s (numReq u Ent.AES_MEM_GO v) = true ∧ src = s.get Ent.AES_MEM_SRC ∧ dst = s.get Ent.AES_MEM_DST ∧ n = s.get Ent.AES_MEM_LEN ∧ inMessage (page s .M) = true ∧ memJobRange src n false = true ∧ memJobRange dst n false = true ∧ src % 4 = 0 ∧ dst % 4 = 0 ∧ n ≤ partLeft (page s .M) ∧ (src = dst ∨ src + n ≤ dst ∨ dst + n ≤ src) ∧ (page s .M).jobs.length < 2) ((((booted.put Ent.AES_MEM_SRC 0x20000000).put Ent.AES_MEM_DST 0x30000000).put Ent.AES_MEM_LEN 8).onPage .M fun p => { p with state := 3, msgLeft := 8 }) (.M) (1) (0x20000000) (0x30000000) (8)) ∧
    ((fun (s : State) (u : User) (src : Nat) (dst : Nat) (n : Nat) (more : List PageJob) (p : Page) => p = page s u ∧ aesNext s = some u ∧ p.jobs = .mem src dst n :: more ∧ pageJobRuns s u (.mem src dst n) = true ∧ p.owes = false ∧ p.blocks + n + 16 < 1024) (rdy.onPage .M fun p => { p with jobs := [.mem 0x20000000 0x30000000 16], key := zeros 16, run := zeros 16, state := 3, msgLeft := 16 }) (.M) (0x20000000) (0x30000000) (16) ([]) ({ jobs := [.mem 0x20000000 0x30000000 16], key := zeros 16, run := zeros 16, state := 3, msgLeft := 16 })) ∧
    ((fun (s : State) (u : User) (v : Nat) (n : Nat) (more : List PageJob) => aesNext s = some u ∧ (page s u).jobs = .req (numReq u Ent.KDF_DERIVE v) :: more ∧ pageJobRuns s u (.req (numReq u Ent.KDF_DERIVE v)) = true ∧ inMessage (page s u) = false ∧ memBusy (page s u) = false ∧ v = 1 ∧ (rowAt (Ent.KDF_DERIVE / 256) (Ent.KDF_DERIVE % 256)).map (fun r => writeStatus s u r Ent.KDF_DERIVE (numReq u Ent.KDF_DERIVE v).value) = some Sc.ok ∧ n = s.getU Ent.KDF_KEYLEN u) ((rdy.putU Ent.KDF_KEYLEN .M 16).onPage .M fun p => { p with jobs := [.req (numReq .M Ent.KDF_DERIVE 1)] }) (.M) (1) (16) ([])) := by decide +kernel

theorem wit_HashCommands :
    ((fun (s : State) (u : User) (v : Nat) => accepts s (numReq u Ent.SHA_INIT v) = true ∧ ownWaits s u .sha = false ∧ shaMemBusy s u = false) (booted) (.M) (1)) ∧
    ((fun (s : State) (u : User) (x : Bytes) (m : Bytes) => accepts s (octReq u Ent.SHA_DATA x) = true ∧ engineFree s (octReq u Ent.SHA_DATA x) .sha = true ∧ shaCtx s u = hashed m) (rdy.onSha .M fun _ => hashed []) (.M) (zeros 64) ([])) ∧
    ((fun (s : State) (u : User) (x : Bytes) (m : Bytes) => accepts s (octReq u Ent.SHA_DATA x) = true ∧ engineFree s (octReq u Ent.SHA_DATA x) .sha = false ∧ s.spindle.shaJobs.length < 2 ∧ shaMemBusy s u = false ∧ shaCtx s u = hashed m) ((setDomState booted .crypto 0).onSha .M fun _ => hashed []) (.M) (zeros 64) ([])) := by decide +kernel

theorem wit_HashCommands2 :
    ((fun (s : State) (u : User) (x : Bytes) => accepts s (octReq u Ent.SHA_DATA x) = true ∧ ownWaits s u .sha = false ∧ (shaCtx s u).open_ = false) (booted) (.M) (zeros 64)) ∧
    ((fun (s : State) (u : User) (x : Bytes) (m : Bytes) (n : Nat) => accepts s (octReq u Ent.SHA_LAST x) = true ∧ engineFree s (octReq u Ent.SHA_LAST x) .sha = true ∧ shaCtx s u = hashed m ∧ n = s.getU Ent.SHA_LAST_LEN u) ((rdy.putU Ent.SHA_LAST_LEN .M 3).onSha .M fun _ => hashed []) (.M) (zeros 64) ([]) (3)) ∧
    ((fun (s : State) (u : User) (v : Nat) (a : Nat) (n : Nat) => accepts s (numReq u Ent.SHA_MEM_GO v) = true ∧ a = s.get Ent.SHA_MEM_ADDR ∧ n = s.get Ent.SHA_MEM_LEN ∧ (shaCtx s .M).open_ = true ∧ memJobRange a n true = true ∧ a % 4 = 0 ∧ s.spindle.shaJobs.length < 2) (((booted.put Ent.SHA_MEM_ADDR 0x21000000).put Ent.SHA_MEM_LEN 8).onSha .M fun _ => hashed []) (.M) (1) (0x21000000) (8)) := by decide +kernel

theorem wit_HashCommands3 :
    ((fun (s : State) (m : Bytes) (a : Nat) (n : Nat) => shaNext s = some (.mem a n) ∧ cryptoOn s = true ∧ memAtHand s a = true ∧ shaCtx s .M = hashed m) ((rdy.onSha .M fun _ => hashed []).onSpindle fun x => { x with shaJobs := [.mem 0x21000000 8] }) ([]) (0x21000000) (8)) ∧
    ((fun (s : State) (m : Bytes) (a : Nat) (n : Nat) => shaNext s = some (.half a n true) ∧ cryptoOn s = true ∧ s.spindle.loader.digest = none ∧ s.spindle.loader.hash = hashed m) ((rdy.onLoader fun l => { l with hash := hashed [] }).onSpindle fun x => { x with shaJobs := [.half 0x30001000 8 true] }) ([]) (0x30001000) (8)) ∧
    ((fun (s : State) (u : User) (x : Bytes) (m : Bytes) => shaNext s = some (.req (octReq u Ent.SHA_DATA x)) ∧ cryptoOn s = true ∧ shaMemBusy s u = false ∧ (rowAt (Ent.SHA_DATA / 256) (Ent.SHA_DATA % 256)).map (fun r => writeStatus s u r Ent.SHA_DATA x) = some Sc.ok ∧ shaCtx s u = hashed m) ((rdy.onSha .M fun _ => hashed []).onSpindle fun x => { x with shaJobs := [.req (octReq .M Ent.SHA_DATA (zeros 64))] }) (.M) (zeros 64) ([])) := by decide +kernel

theorem wit_BnCommands :
    ((fun (s : State) (u : User) (src : Nat) => s.getU Ent.BN_OP u = 1 ∧ accepts s (numReq u Ent.BN_GO 1) = true ∧ bnBusy s u = false ∧ s.spindle.bn.users.length < 2 ∧ src = s.getU Ent.BN_KEY_SRC u ∧ ¬(src = 0 ∧ attestRefused s = true) ∧ src ≤ 2 ∧ (src = 2 → (bnUser s u).eph ≠ [] ∧ (bnUser s u).ephX = false)) ((booted.putU Ent.BN_OP .M 1).putU Ent.BN_KEY_SRC .M 1) (.M) (1)) ∧
    ((fun (s : State) (u : User) (src : Nat) => s.getU Ent.BN_OP u = 2 ∧ accepts s (numReq u Ent.BN_GO 1) = true ∧ bnBusy s u = false ∧ s.spindle.bn.users.length < 2 ∧ src = s.getU Ent.BN_KEY_SRC u ∧ ¬(src = 0 ∧ attestRefused s = true) ∧ src ≤ 1) ((booted.putU Ent.BN_OP .M 2).putU Ent.BN_KEY_SRC .M 1) (.M) (1)) ∧
    ((fun (s : State) (u : User) (src : Nat) => s.getU Ent.BN_OP u = 3 ∧ accepts s (numReq u Ent.BN_GO 1) = true ∧ bnBusy s u = false ∧ s.spindle.bn.users.length < 2 ∧ src = s.getU Ent.BN_KEY_SRC u ∧ src ≤ 2) (booted.putU Ent.BN_OP .M 3) (.M) (1)) := by decide +kernel

theorem wit_BnCommands2 :
    ((fun (s : State) (u : User) (src : Nat) => s.getU Ent.BN_OP u = 4 ∧ accepts s (numReq u Ent.BN_GO 1) = true ∧ bnBusy s u = false ∧ s.spindle.bn.users.length < 2 ∧ src = s.getU Ent.BN_KEY_SRC u ∧ ¬(src = 0 ∧ attestRefused s = true) ∧ (src = 1 ∨ src = 2) ∧ (src = 2 → (bnUser s u).eph ≠ [] ∧ (bnUser s u).ephX = false)) ((booted.putU Ent.BN_OP .M 4).putU Ent.BN_KEY_SRC .M 1) (.M) (1)) ∧
    ((fun (s : State) (u : User) (src : Nat) => s.getU Ent.BN_OP u = 5 ∧ accepts s (numReq u Ent.BN_GO 1) = true ∧ bnBusy s u = false ∧ s.spindle.bn.users.length < 2 ∧ src = s.getU Ent.BN_KEY_SRC u ∧ ¬(src = 0 ∧ attestRefused s = true) ∧ (src = 1 ∨ src = 2) ∧ (src = 2 → (bnUser s u).eph ≠ [] ∧ (bnUser s u).ephX = true)) ((booted.putU Ent.BN_OP .M 5).putU Ent.BN_KEY_SRC .M 1) (.M) (1)) ∧
    ((fun (s : State) (u : User) (src : Nat) => s.getU Ent.BN_OP u = 6 ∧ accepts s (numReq u Ent.BN_GO 1) = true ∧ bnBusy s u = false ∧ s.spindle.bn.users.length < 2 ∧ src = s.getU Ent.BN_KEY_SRC u ∧ ¬(src = 0 ∧ attestRefused s = true) ∧ (src = 1 ∨ src = 2) ∧ (src = 2 → (bnUser s u).eph ≠ [] ∧ (bnUser s u).ephX = true)) ((booted.putU Ent.BN_OP .M 6).putU Ent.BN_KEY_SRC .M 1) (.M) (1)) := by decide +kernel

theorem wit_BnCommands3 :
    ((fun (s : State) (u : User) (src : Nat) => s.getU Ent.BN_OP u = 7 ∧ accepts s (numReq u Ent.BN_GO 1) = true ∧ bnBusy s u = false ∧ s.spindle.bn.users.length < 2 ∧ src = s.getU Ent.BN_KEY_SRC u ∧ src ≤ 2) (booted.putU Ent.BN_OP .M 7) (.M) (1)) ∧
    ((fun (s : State) (u : User) (src : Nat) => s.getU Ent.BN_OP u = 8 ∧ accepts s (numReq u Ent.BN_GO 1) = true ∧ bnBusy s u = false ∧ s.spindle.bn.users.length < 2 ∧ src = s.getU Ent.BN_KEY_SRC u ∧ src ≤ 2) (booted.putU Ent.BN_OP .M 8) (.M) (1)) ∧
    ((fun (s : State) (u : User) (src : Nat) => s.getU Ent.BN_OP u = 9 ∧ accepts s (numReq u Ent.BN_GO 1) = true ∧ bnBusy s u = false ∧ s.spindle.bn.users.length < 2 ∧ src = s.getU Ent.BN_KEY_SRC u ∧ src ≤ 2) (booted.putU Ent.BN_OP .M 9) (.M) (1)) := by decide +kernel

theorem wit_BnCommands4 :
    ((fun (s : State) (u : User) (x : Bytes) => accepts s (octReq u Ent.BN_MSG x) = true ∧ (bnUser s u).state = 3 ∧ (bnUser s u).ready = false) (booted.onBnUser .M fun b => { b with state := 3, left := 70 }) (.M) (zeros 64)) ∧
    ((fun (s : State) (u : User) (v : Nat) (a : Nat) (n : Nat) => accepts s (numReq u Ent.BN_MEM_GO v) = true ∧ a = s.get Ent.BN_MEM_ADDR ∧ n = s.get Ent.BN_MEM_LEN ∧ (bnUser s .M).state = 3 ∧ a % 4 = 0 ∧ 0x30000000 ≤ a ∧ a + n ≤ 0x30002000 ∧ n ≤ (bnUser s .M).left) (((booted.put Ent.BN_MEM_ADDR 0x30000000).put Ent.BN_MEM_LEN 4).onBnUser .M fun b => { b with state := 3, left := 4 }) (.M) (1) (0x30000000) (4)) ∧
    ((fun (s : State) (u : User) (v : Nat) => accepts s (numReq u Ent.BN_CLEAR v) = true) (booted.onBnUser .M fun b => { b with state := 6, eph := [1] }) (.M) (1)) := by decide +kernel

theorem wit_BnCommands5 :
    ((fun (s : State) (u : User) => s.getU Ent.BN_OP u = 3 ∧ accepts s (numReq u Ent.BN_GO 1) = true ∧ bnBusy s u = false ∧ 2 ≤ s.spindle.bn.users.length) ((booted.putU Ent.BN_OP .M 3).onBn fun b => { b with users := [(.A, 3, 0), (.B, 3, 0)] }) (.M)) := by decide +kernel

theorem wit_BnEngine :
    ((fun (s : State) (e : Bn) => e = s.spindle.bn ∧ cryptoOn s = true ∧ e.running = none ∧ e.loader = true) (booted.onBn fun b => { b with loader := true, keeper := some [] }) ({ loader := true, keeper := some [] })) ∧
    ((fun (s : State) (e : Bn) (d : Bytes) => e = s.spindle.bn ∧ cryptoOn s = true ∧ e.running = none ∧ e.loader = false ∧ e.keeper = some d) (booted.onBn fun b => { b with keeper := some [], users := [(.A, 3, 0)] }) ({ keeper := some [], users := [(.A, 3, 0)] }) ([])) ∧
    ((fun (s : State) (u : User) (w : User) (op : Nat) (src : Nat) (e : Bn) => e = s.spindle.bn ∧ cryptoOn s = true ∧ e.running = none ∧ e.loader = false ∧ e.keeper = none ∧ bnNextUser s = some u ∧ bnReady s u = false ∧ (e.users.find? (fun j => j.1 == u) = some (w, op, src)) ∧ op ≠ 7) (booted.onBn fun b => { b with users := [(.A, 3, 0), (.M, 1, 2)], last := .L }) (.M) (.M) (1) (2) ({ users := [(.A, 3, 0), (.M, 1, 2)], last := .L })) := by decide +kernel

theorem wit_BnEngine2 :
    ((fun (s : State) (u : User) (w : User) (src : Nat) (e : Bn) => e = s.spindle.bn ∧ cryptoOn s = true ∧ e.running = none ∧ e.loader = false ∧ e.keeper = none ∧ bnNextUser s = some u ∧ bnReady s u = false ∧ (e.users.find? (fun j => j.1 == u) = some (w, 7, src))) (booted.onBn fun b => { b with users := [(.M, 7, 0)] }) (.M) (.M) (0) ({ users := [(.M, 7, 0)] })) ∧
    ((fun (s : State) (u : User) (e : Bn) => e = s.spindle.bn ∧ cryptoOn s = true ∧ e.running = none ∧ e.loader = false ∧ e.keeper = none ∧ bnNextUser s = some u ∧ bnReady s u = true) ((booted.onBn fun b => { b with waiting := [.M] }).onBnUser .M fun b => { b with state := 3, ready := true }) (.M) ({ waiting := [.M] })) ∧
    ((fun (s : State) (e : Bn) => e = s.spindle.bn ∧ e.rngLeft ≠ 0 ∧ bnRunningOp s ≠ 8 ∧ bnRunningOp s ≠ 9) (booted.onBn fun b => { b with running := some (.user .M 2 1), rngLeft := 10 }) ({ running := some (.user .M 2 1), rngLeft := 10 })) := by decide +kernel

theorem wit_BnEngine3 :
    ((fun (s : State) (e : Bn) => e = s.spindle.bn ∧ e.rngLeft ≠ 0 ∧ (bnRunningOp s = 8 ∨ bnRunningOp s = 9)) (booted.onBn fun b => { b with running := some (.user .M 8 0), rngLeft := 10 }) ({ running := some (.user .M 8 0), rngLeft := 10 })) ∧
    ((fun (s : State) (u : User) (op : Nat) (src : Nat) (e : Bn) => e = s.spindle.bn ∧ e.running = some (.user u op src) ∧ (op = 8 ∨ op = 9) ∧ e.rngLeft ≠ 0) (booted.onBn fun b => { b with running := some (.user .M 8 0), rngLeft := 10 }) (.M) (8) (0) ({ running := some (.user .M 8 0), rngLeft := 10 })) ∧
    ((fun (s : State) (u : User) (e : Bn) => e = s.spindle.bn ∧ (bnUser s u).state = 3 ∧ (bnUser s u).ready = false) ((booted.onBn fun b => { b with waiting := [.M] }).onBnUser .M fun b => { b with state := 3 }) (.M) ({ waiting := [.M] })) := by decide +kernel

theorem wit_BnEngine4 :
    ((fun (s : State) (u : User) (src : Nat) (e : Bn) => e = s.spindle.bn ∧ e.rngLeft = 0 ∧ e.running = some (.user u 1 src) ∧ (src = 1 → maskReady s u = true)) ((booted.onBnUser .M fun b => { b with eph := zeros 31 ++ [5] }).onBn fun _ => { running := some (.user .M 1 2) }) (.M) (2) ({ running := some (.user .M 1 2) })) ∧
    ((fun (s : State) (u : User) (src : Nat) (e : Bn) => e = s.spindle.bn ∧ e.rngLeft = 0 ∧ e.running = some (.user u 2 src) ∧ src = 1 ∧ maskReady s u = true) (rdy.onBn fun _ => { running := some (.user .M 2 1) }) (.M) (1) ({ running := some (.user .M 2 1) })) ∧
    ((fun (s : State) (u : User) (src : Nat) (e : Bn) => e = s.spindle.bn ∧ e.rngLeft = 0 ∧ e.running = some (.user u 2 src) ∧ src = 0 ∧ attestRefused s = false) ((booted).onBn fun _ => { running := some (.user .M 2 0) }) (.M) (0) ({ running := some (.user .M 2 0) })) := by decide +kernel

theorem wit_BnEngine5 :
    ((fun (s : State) (u : User) (src : Nat) (e : Bn) => e = s.spindle.bn ∧ e.rngLeft = 0 ∧ e.running = some (.user u 3 src)) ((booted).onBn fun _ => { running := some (.user .M 3 0) }) (.M) (0) ({ running := some (.user .M 3 0) })) ∧
    ((fun (s : State) (u : User) (src : Nat) (e : Bn) (q : Nat × Nat) => e = s.spindle.bn ∧ e.rngLeft = 0 ∧ e.running = some (.user u 4 src) ∧ (src = 1 → maskReady s u = true) ∧ p256In (leBytes 64 (s.getU Ent.BN_PEER u)) = .ok q) (((booted.onBnUser .M fun b => { b with eph := zeros 31 ++ [5] }).onBn fun _ => { running := some (.user .M 4 2) }).putU Ent.BN_PEER .M (leNat (p256Out (some (p256Gx, p256Gy))))) (.M) (2) ({ running := some (.user .M 4 2) }) ((p256Gx, p256Gy))) ∧
    ((fun (s : State) (u : User) (src : Nat) (e : Bn) (d : Nat) => e = s.spindle.bn ∧ e.rngLeft = 0 ∧ e.running = some (.user u 4 src) ∧ (src = 1 → maskReady s u = true) ∧ p256In (leBytes 64 (s.getU Ent.BN_PEER u)) = .error d) ((booted.onBnUser .M fun b => { b with eph := zeros 31 ++ [5] }).onBn fun _ => { running := some (.user .M 4 2) }) (.M) (2) ({ running := some (.user .M 4 2) }) (2)) := by decide +kernel

theorem wit_BnEngine6 :
    ((fun (s : State) (u : User) (src : Nat) (e : Bn) => e = s.spindle.bn ∧ e.rngLeft = 0 ∧ e.running = some (.user u 5 src) ∧ (src = 1 → maskReady s u = true)) ((booted.onBnUser .M fun b => { b with eph := zeros 31 ++ [5], ephX := true }).onBn fun _ => { running := some (.user .M 5 2) }) (.M) (2) ({ running := some (.user .M 5 2) })) ∧
    ((fun (s : State) (u : User) (src : Nat) (e : Bn) (q : Nat) => e = s.spindle.bn ∧ e.rngLeft = 0 ∧ e.running = some (.user u 6 src) ∧ (src = 1 → maskReady s u = true) ∧ q = leNat (leBytes 32 (s.getU Ent.BN_PEER u)) % 2 ^ 255 % p25519) (((booted.onBnUser .M fun b => { b with eph := zeros 31 ++ [5], ephX := true }).onBn fun _ => { running := some (.user .M 6 2) }).putU Ent.BN_PEER .M 9) (.M) (2) ({ running := some (.user .M 6 2) }) (9)) ∧
    ((fun (s : State) (u : User) (src : Nat) (e : Bn) => e = s.spindle.bn ∧ e.rngLeft = 0 ∧ e.running = some (.user u 7 src)) ((booted).onBn fun _ => { running := some (.user .M 7 0) }) (.M) (0) ({ running := some (.user .M 7 0) })) := by decide +kernel

theorem wit_BnEngine7 :
    ((fun (s : State) (u : User) (src : Nat) (e : Bn) => e = s.spindle.bn ∧ e.rngLeft = 0 ∧ e.running = some (.user u 8 src) ∧ bnRedraw s 8 = false) ((booted).onBn fun _ => { running := some (.user .M 8 0), words := List.replicate 10 7 }) (.M) (0) ({ running := some (.user .M 8 0), words := List.replicate 10 7 })) ∧
    ((fun (s : State) (u : User) (src : Nat) (e : Bn) => e = s.spindle.bn ∧ e.rngLeft = 0 ∧ e.running = some (.user u 9 src)) ((booted).onBn fun _ => { running := some (.user .M 9 0), words := List.replicate 10 7 }) (.M) (0) ({ running := some (.user .M 9 0), words := List.replicate 10 7 })) ∧
    ((fun (s : State) (u : User) (src : Nat) (e : Bn) => e = s.spindle.bn ∧ e.rngLeft = 0 ∧ e.running = some (.user u 8 src) ∧ bnRedraw s 8 = true) (booted.onBn fun _ => { running := some (.user .M 8 0), words := List.replicate 10 0 }) (.M) (0) ({ running := some (.user .M 8 0), words := List.replicate 10 0 })) := by decide +kernel

theorem wit_BnEngine8 :
    ((fun (s : State) (u : User) (e : Bn) => e = s.spindle.bn ∧ e.rngLeft = 0 ∧ e.running = some (.user u 2 0) ∧ attestRefused s = true) (opened.onBn fun _ => { running := some (.user .M 2 0) }) (.M) ({ running := some (.user .M 2 0) })) ∧
    ((fun (s : State) (e : Bn) (d : Bytes) => e = s.spindle.bn ∧ e.rngLeft = 0 ∧ e.running = some (.keeper d) ∧ attestRefused s = false ∧ s.sb.spindle.txq = []) (booted.onBn fun _ => { running := some (.keeper []) }) ({ running := some (.keeper []) }) ([])) := by decide +kernel

theorem wit_RandomSource :
    ((fun (s : State) (raw : BitVec 64) (r : Machine.Rng) (d : Bytes) => s.spindle.alive = true ∧ domState s .rng = 2 ∧ r = s.spindle.rng ∧ r.waiting = [] ∧ r.fifo.length < 8 ∧ d = sha256 (r.pool ++ leBytes 8 raw.toNat ++ leBytes 4 r.counter)) (setDomState booted .rng 2) (5) (booted.spindle.rng) (sha256 (booted.spindle.rng.pool ++ leBytes 8 (5 : BitVec 64).toNat ++ leBytes 4 booted.spindle.rng.counter))) ∧
    ((fun (s : State) => s.spindle.rng.waiting = [] ∧ 8 ≤ s.spindle.rng.fifo.length) (booted.onRng fun r => { r with fifo := List.replicate 8 5 })) ∧
    ((fun (s : State) (u : User) (b : Bool) (e : Nat) (n : Nat) (k : Nat) (r : Machine.Rng) => e = (if b then Ent.RNG_BLOCK else Ent.RNG_DATA) ∧ n = (if b then 8 else 1) ∧ readable s (readReq u (e / 256) (e % 256)) = true ∧ r = s.spindle.rng ∧ r.waiting = [] ∧ k = min n r.fifo.length) (booted.onRng fun r => { r with fifo := [5, 6] }) (.M) (true) (Ent.RNG_BLOCK) (8) (2) ({ fifo := [5, 6] })) := by decide +kernel

theorem wit_RandomSource2 :
    ((fun (s : State) => s.spindle.alive = true ∧ domState s .rng = 2) (setDomState booted .rng 2)) ∧
    ((fun (s : State) => s.keeper.poolDue = true ∧ spindleReady s = true ∧ s.keeper.pool.length < 64 ∧ s.keeper.words = [] ∧ roomFor s .keeper) (booted.onKeeper fun k => { k with poolDue := true })) ∧
    ((fun (s : State) => s.keeper.poolDue = true ∧ s.keeper.words.contains .pool = false ∧ (spindleReady s = false ∨ 64 ≤ s.keeper.pool.length)) ((booted.onKeeper fun k => { k with poolDue := true }).onSpindle fun x => { x with lockedUp := false, alive := false })) := by decide +kernel

theorem wit_TamperAlerts :
    ((fun (s : State) => s.keeper.vddValid = true ∧ alertActive s 0x41 0x20 = false) (booted.onPage .A fun p => { p with key := zeros 16, state := 1 })) ∧
    ((fun (s : State) (inst : Nat) => s.keeper.vddValid = true ∧ alertActive s 0x45 inst = false) (booted) (1)) ∧
    ((fun (s : State) (inst : Nat) => s.keeper.vddValid = true ∧ alertActive s 0x46 inst = false) (booted) (3)) := by decide +kernel

theorem wit_TamperAlerts2 :
    ((fun (s : State) => alertActive s 0x41 0x20 = true) (booted.onLog fun l => { l with active := [(0x41, 0x20)] })) ∧
    ((fun (s : State) => s.flyer.up = true ∧ alertActive s 0x42 0x2F = false) (booted)) ∧
    ((fun (s : State) => domState s .tamper ≠ 0 ∧ alertActive s 0x42 0x30 = false) (setDomState booted .tamper 2)) := by decide +kernel

theorem wit_TamperAlerts3 :
    ((fun (s : State) (inst : Nat) (k : Nat) => inst ≤ 1 ∧ k ≤ 1 ∧ domState s .tamper ≠ 0 ∧ (if inst = 0 then s.pads.caseSw else s.pads.baseSw) = decide (k = 0)) (setDomState booted .tamper 2) (1) (0)) ∧
    ((fun (s : State) (dev : Int) => s.spindle.alive = true ∧ 300 < dev.natAbs ∧ alertActive s 0x43 1 = false) (booted) (-301)) ∧
    ((fun (s : State) (dev : Int) => s.spindle.alive = true ∧ dev.natAbs ≤ 300) (booted.onLog fun l => { l with active := [(0x43, 1)] }) (-300)) := by decide +kernel

theorem wit_TamperAlerts4 :
    ((fun (s : State) (u : User) (v : Nat) => v < 65536 ∧ accepts s (numReq u Ent.TAMPER_FLAGS v) = true) (booted.put Ent.TAMPER_FLAGS 6) (.M) (2)) ∧
    ((fun (s : State) (u : User) (v : Nat) => v < 65536 ∧ s.keeper.jobs.head? = some (nvmJob (numReq u Ent.TAMPER_FLAGS v) Ent.TAMPER_FLAGS v)) (booted.onKeeper (fun k => { k with jobs := [nvmJob (numReq .M Ent.TAMPER_FLAGS 2) Ent.TAMPER_FLAGS 2] }) |>.put Ent.TAMPER_FLAGS 6) (.M) (2)) := by decide +kernel

theorem wit_LogAppends :
    ((fun (s : State) (r : LogRec) (n : Nat) (rest : List LogRec) => n = s.get Ent.LOG_NEXT ∧ s.keeper.vddValid = true ∧ s.log.writing = none ∧ s.log.await = none ∧ padOwed s = false ∧ s.log.queue = r :: rest ∧ (logState s = 0 ∨ (logState s = 1 ∧ recClass r.ty r.data ≠ 5)) ∧ ¬(pairDue s r = true ∧ n + 2 < 3069)) (booted.onLog fun l => { l with queue := [⟨0x50, 0x43, zeros 12, true⟩] }) (⟨0x50, 0x43, zeros 12, true⟩) (0) ([])) ∧
    ((fun (s : State) (r : LogRec) (n : Nat) (rest : List LogRec) => n = s.get Ent.LOG_NEXT ∧ s.keeper.vddValid = true ∧ s.log.writing = none ∧ s.log.await = none ∧ padOwed s = false ∧ s.log.queue = r :: rest ∧ (logState s = 0 ∨ (logState s = 1 ∧ recClass r.ty r.data ≠ 5)) ∧ pairDue s r = true ∧ n + 2 < 3069) (booted.onLog fun l => { l with queue := [⟨0x20, 0x43, zeros 12, true⟩] }) (⟨0x20, 0x43, zeros 12, true⟩) (0) ([])) ∧
    ((fun (s : State) (r : LogRec) (n : Nat) (rest : List LogRec) => n = s.get Ent.LOG_NEXT ∧ s.keeper.vddValid = true ∧ s.log.writing = none ∧ s.log.await = none ∧ padOwed s = false ∧ s.log.queue = r :: rest ∧ (2 ≤ logState s ∨ (logState s = 1 ∧ recClass r.ty r.data = 5))) ((booted.put Ent.LOG_NEXT 3008).onLog fun l => { l with queue := [⟨0x50, 0x43, zeros 12, true⟩] }) (⟨0x50, 0x43, zeros 12, true⟩) (3008) ([])) := by decide +kernel

theorem wit_LogAppends2 :
    ((fun (s : State) (n : Nat) => n = s.get Ent.LOG_NEXT ∧ s.keeper.vddValid = true ∧ s.log.writing = none ∧ s.log.await = none ∧ padOwed s = true) ((booted.put Ent.LOG_NEXT 3068).onLog fun l => { l with last := some (leBytes 3 3067 ++ [0x20] ++ zeros 28) }) (3068)) ∧
    ((fun (s : State) (n : Nat) (f : Formed) => n = s.get Ent.LOG_NEXT ∧ s.keeper.vddValid = true ∧ s.log.writing = some f ∧ f.pair = none ∧ f.slot < 3071) (booted.onLog fun l => { l with writing := some ⟨⟨0x50, 0x43, zeros 12, true⟩, 0, zeros 32, none⟩ }) (0) (⟨⟨0x50, 0x43, zeros 12, true⟩, 0, zeros 32, none⟩)) ∧
    ((fun (s : State) (n : Nat) (f : Formed) (x : Bytes) (y : Bytes) => n = s.get Ent.LOG_NEXT ∧ s.keeper.vddValid = true ∧ s.log.writing = some f ∧ f.pair = some (x, y) ∧ f.slot < 3071) (booted.onLog fun l => { l with writing := some ⟨⟨0x50, 0x43, zeros 12, true⟩, 7, zeros 32, some ([1], [2])⟩ }) (0) (⟨⟨0x50, 0x43, zeros 12, true⟩, 7, zeros 32, some ([1], [2])⟩) ([1]) ([2])) := by decide +kernel

theorem wit_LogAppends3 :
    ((fun (s : State) (n : Nat) (f : Formed) => n = s.get Ent.LOG_NEXT ∧ s.keeper.vddValid = true ∧ s.log.writing = some f ∧ f.slot = 3071) (booted.onLog fun l => { l with writing := some ⟨⟨0x6F, 0x43, zeros 12, true⟩, 3071, zeros 32, some ([1], [2])⟩ }) (0) (⟨⟨0x6F, 0x43, zeros 12, true⟩, 3071, zeros 32, some ([1], [2])⟩)) ∧
    ((fun (s : State) (n : Nat) (m : SbMsg) (d : Bytes) => n = s.get Ent.LOG_NEXT ∧ stMessage s .spindle [0x21, 0x22] = some m ∧ s.spindle.alive = true ∧ s.spindle.bn.sign = [(0x21, d)] ∧ m.payload.headD 0 = 0x22) ((wired ⟨0xE, .keeper, 2, 0x22 :: zeros 16⟩).onBn fun b => { b with sign := [(0x21, [1, 2])] }) (0) (⟨0xE, .keeper, 2, 0x22 :: zeros 16⟩) ([1, 2])) ∧
    ((fun (s : State) (n : Nat) (m : SbMsg) (a : Await) (x : Bytes) (y : Bytes) (z : Bytes) => n = s.get Ent.LOG_NEXT ∧ stMessage s .keeper [0x23, 0x24, 0x25, 0x26, 0x27] = some m ∧ m.payload.headD 0 = 0x26 ∧ s.log.await = some a ∧ a.parts = [(0x23, x), (0x24, y), (0x25, z)]) ((wired ⟨0xE, .spindle, 0, 0x26 :: zeros 16⟩).onLog fun l => { l with await := some ⟨⟨0x50, 0x43, zeros 12, true⟩, 7, zeros 32, zeros 32, [(0x23, [1]), (0x24, [2]), (0x25, [3])]⟩ }) (0) (⟨0xE, .spindle, 0, 0x26 :: zeros 16⟩) (⟨⟨0x50, 0x43, zeros 12, true⟩, 7, zeros 32, zeros 32, [(0x23, [1]), (0x24, [2]), (0x25, [3])]⟩) ([1]) ([2]) ([3])) := by decide +kernel

theorem wit_LogAppends4 :
    ((fun (s : State) (n : Nat) (m : SbMsg) (a : Await) => n = s.get Ent.LOG_NEXT ∧ stMessage s .keeper [0x23, 0x24, 0x25, 0x26, 0x27] = some m ∧ m.payload.headD 0 = 0x27 ∧ s.log.await = some a ∧ a.slot ≠ 3071) ((wired ⟨0xE, .spindle, 0, [0x27, 6]⟩).onLog fun l => { l with await := some ⟨⟨0x50, 0x43, zeros 12, true⟩, 7, zeros 32, zeros 32, []⟩ }) (0) (⟨0xE, .spindle, 0, [0x27, 6]⟩) (⟨⟨0x50, 0x43, zeros 12, true⟩, 7, zeros 32, zeros 32, []⟩)) ∧
    ((fun (s : State) (n : Nat) (a : Await) => n = s.get Ent.LOG_NEXT ∧ s.log.await = some a) (booted.onLog fun l => { l with await := some ⟨⟨0x20, 0x43, zeros 12, true⟩, 7, zeros 32, zeros 32, []⟩ }) (0) (⟨⟨0x20, 0x43, zeros 12, true⟩, 7, zeros 32, zeros 32, []⟩)) ∧
    ((fun (s : State) (n : Nat) => n = s.get Ent.LOG_NEXT ∧ logState s = 2 ∧ s.log.await = none ∧ s.log.writing = none ∧ mayAsk s true = true) (booted.put Ent.LOG_NEXT 3069) (3069)) := by decide +kernel

theorem wit_Responses :
    ((fun (q : Request) => entAt q.idx q.sub ≠ Ent.LAST_STATUS) (numReq .A Ent.NOM_RATE 1)) ∧
    ((fun (q : Request) (u : User) => u ≠ q.user) (numReq .A Ent.NOM_RATE 1) (.B)) ∧
    ((fun (c : Nat) => c = Sc.denied) (Sc.denied)) := by decide +kernel

theorem wit_Responses2 :
    ((fun (s : State) (q : Request) => q.dropped = false ∧ queues s q = false) (booted) (numReq .M Ent.NOM_RATE 1)) ∧
    ((fun (s : State) (q : Request) => q.dropped = false ∧ queues s q = true) (booted) (numReq .A Ent.NOM_RATE 1)) ∧
    ((fun (e : Nat) => e / 256 ∉ ([0x100B, 0x1012, 0x1013, 0x120D] : List Nat)) (Ent.NOM_RATE)) := by decide +kernel

theorem wit_Responses3 :
    ((fun (s : State) (q : Request) (c : Nat) (v : Bytes) (t : State) => t = respond s q c v) (booted) (numReq .A Ent.NOM_RATE 1) (2) ([]) (respond booted (numReq .A Ent.NOM_RATE 1) 2 [])) := by decide +kernel

theorem wit_EngineService :
    ((fun (s : State) (u : User) (c : Nat) (idx : Nat) (sub : Nat) (x : Bytes) => unserved s u = false ∧ coreBlocked s u = false ∧ servedAtOnce s (writeReq u idx sub x) = true ∧ ((rowAt idx sub).map (fun r => writeStatus s u r (entAt idx sub) x) = some c) ∧ c ≠ Sc.ok) (booted) (.M) (Sc.type) (0x100D) (0) ([1, 2])) ∧
    ((fun (s : State) (u : User) (idx : Nat) (sub : Nat) (x : Bytes) => unserved s u = false ∧ coreBlocked s u = false ∧ servedAtOnce s (writeReq u idx sub x) = true ∧ rowAt idx sub = none) (booted) (.M) (0) (0) ([])) ∧
    ((fun (s : State) (u : User) (idx : Nat) (sub : Nat) (x : Bytes) => unserved s u = false ∧ coreBlocked s u = false ∧ servedAtOnce s (writeReq u idx sub x) = false) (booted.onDict fun d => { d with reqs := d.reqs.set .M (List.replicate 4 (numReq .M Ent.NOM_RATE 1)) }) (.M) (0) (0) ([])) := by decide +kernel

theorem wit_EngineService2 :
    ((fun (s : State) (u : User) (idx : Nat) (sub : Nat) (x : Bytes) => accepts s (writeReq u idx sub x) = true ∧ isN (entAt idx sub) = true ∧ (rowAt idx sub).map (·.action) = some false ∧ entAt idx sub ≠ Ent.COMMIT) (inMode .commission) (.M) (0x5002) (1) ([1])) ∧
    ((fun (s : State) (q : Request) (v : Nat) (rest : List NvmJob) => s.tag.waitingT = false ∧ s.keeper.jobs = ⟨q, [(Ent.NOM_RATE, v)], false⟩ :: rest ∧ q.op = 2) (booted.onKeeper fun k => { k with jobs := [⟨numReq .A Ent.NOM_RATE 1, [(Ent.NOM_RATE, 1)], false⟩] }) (numReq .A Ent.NOM_RATE 1) (1) ([])) ∧
    ((fun (s : State) (q : Request) (v : Nat) (rest : List NvmJob) (pre : List Response) (post : List Response) (x : Response) => s.keeper.jobs = ⟨q, [(Ent.NOM_RATE, v)], false⟩ :: rest ∧ q.op = 2 ∧ q.dropped = false ∧ (q.user = .A ∨ q.user = .B ∨ q.user = .C ∨ q.user = .N) ∧ s.spindle.dict.resps.get q.user = pre ++ x :: post ∧ (∀ r ∈ pre, r.status ≠ Sc.claimed) ∧ x.status = Sc.claimed) (claimPlace (booted.onKeeper fun k => { k with jobs := [⟨numReq .A Ent.NOM_RATE 1, [(Ent.NOM_RATE, 1)], false⟩] }) (numReq .A Ent.NOM_RATE 1)) (numReq .A Ent.NOM_RATE 1) (1) ([]) ([]) ([]) (⟨numReq .A Ent.NOM_RATE 1, Sc.claimed, []⟩)) := by decide +kernel

theorem wit_EngineService3 :
    ((fun (s : State) (j : NvmJob) (rest : List NvmJob) => s.tag.waitingT = false ∧ s.keeper.jobs = j :: rest ∧ j.req.op = 2) (booted.onKeeper fun k => { k with jobs := [⟨numReq .A Ent.NOM_RATE 1, [(Ent.NOM_RATE, 1)], false⟩] }) (⟨numReq .A Ent.NOM_RATE 1, [(Ent.NOM_RATE, 1)], false⟩) ([])) ∧
    ((fun (s : State) (u : User) (q : Request) (pre : List User) (post : List User) (rest : List Request) => s.tag.waitingT = false ∧ engineRuns s = true ∧ usersAfter s.spindle.dict.last = pre ++ u :: post ∧ (∀ w ∈ pre, s.spindle.dict.reqs.get w = []) ∧ s.spindle.dict.reqs.get u = q :: rest ∧ unserved s u = false ∧ (s.spindle.dict.resps.get u).length < 4 ∧ mustWait s q = false) (booted.onDict fun d => { d with reqs := d.reqs.set .A [readReq .A 0x1000 0], last := .L }) (.A) (readReq .A 0x1000 0) ([.M, .U]) ([.B, .C, .N, .T, .L]) ([])) ∧
    ((fun (s : State) => s.tag.waitingT = false ∧ (∀ w ∈ users, s.spindle.dict.reqs.get w = [])) (booted)) := by decide +kernel

theorem wit_EngineService4 :
    ((fun (s : State) (u : User) (ws : List (Nat × Nat)) => accepts s (numReq u Ent.COMMIT 1) = true ∧ ws = stagedOf s u ∧ batchCheck s u 0 ws = none ∧ (ws.any (fun w => isN w.1) = false)) (booted.onDict fun d => { d with staged := d.staged.set .M [(Ent.NOTICE_MASK, 5)] }) (.M) ([(Ent.NOTICE_MASK, 5)])) ∧
    ((fun (s : State) (u : User) (ws : List (Nat × Nat)) => accepts s (numReq u Ent.COMMIT 1) = true ∧ ws = stagedOf s u ∧ batchCheck s u 0 ws = none ∧ (ws.any (fun w => isN w.1) = true)) ((inMode .commission).onDict fun d => { d with staged := d.staged.set .M [(Ent.NOM_RATE, 1)] }) (.M) ([(Ent.NOM_RATE, 1)])) ∧
    ((fun (s : State) (u : User) (c : Nat) (k : Nat) => accepts s (numReq u Ent.COMMIT 1) = true ∧ batchCheck s u 0 (stagedOf s u) = some (k, c)) ((inMode .commission).onDict fun d => { d with staged := d.staged.set .M [(Ent.NOTICE_MASK, 5), (Ent.NOM_RATE, 9)] }) (.M) (Sc.range) (1)) := by decide +kernel

theorem wit_EngineService5 :
    ((fun (s : State) (u : User) => accepts s (numReq u Ent.COMMIT 2) = true) (booted.onDict fun d => { d with staged := d.staged.set .M [(Ent.NOTICE_MASK, 5)] }) (.M)) := by decide +kernel

theorem wit_CountersAndClaims :
    ((fun (s : State) (u : User) (n : Nat) (v : Nat) => accepts s (numReq u (Ent.MONO_INC n) v) = true ∧ v < 256 ∧ 1 ≤ n ∧ n ≤ 8 ∧ s.get (Ent.MONO n) < 65535) (booted.put (Ent.MONO 2) 65534) (.M) (2) (1)) ∧
    ((fun (s : State) (u : User) (n : Nat) (v : Nat) (c : Nat) => 1 ≤ n ∧ n ≤ 8 ∧ c = s.get (Ent.MONO n) ∧ c < 65535 ∧ s.keeper.jobs.head? = some (nvmJob (numReq u (Ent.MONO_INC n) v) (Ent.MONO_INC n) v)) (booted.onKeeper (fun k => { k with jobs := [nvmJob (numReq .M (Ent.MONO_INC 2) 1) (Ent.MONO_INC 2) 1] }) |>.put (Ent.MONO 2) 65534) (.M) (2) (1) (65534)) ∧
    ((fun (s : State) (u : User) (n : Nat) (v : Nat) => accepts s (numReq u (Ent.MONO_INC n) v) = true ∧ 1 ≤ n ∧ n ≤ 8 ∧ 65535 ≤ s.get (Ent.MONO n)) (booted.put (Ent.MONO 2) 65535) (.M) (2) (1)) := by decide +kernel

theorem wit_CountersAndClaims2 :
    ((fun (s : State) (u : User) (v : Nat) => accepts s (numReq u Ent.NOTICE_PENDING v) = true ∧ v < 2 ^ 32) ((booted.putU Ent.NOTICE_PENDING .M 6).putU Ent.NOTICE_PENDING .A 6) (.M) (2)) ∧
    ((fun (s : State) (u : User) (g : Nat) (lease : Nat) => accepts s (numReq u (Ent.CLAIM g) lease) = true ∧ g ∈ claimGroups ∧ 1 ≤ lease ∧ lease ≤ 3600) (booted) (.M) (0x10) (60)) ∧
    ((fun (s : State) (u : User) (g : Nat) => accepts s (numReq u (Ent.CLAIM g) 0) = true ∧ g ∈ claimGroups ∧ claimHolder s g ≠ 0x80) (booted.put (Ent.CLAIM 0x10) (0x13 + 256 * 9)) (.M) (0x10)) := by decide +kernel

theorem wit_CountersAndClaims3 :
    ((fun (s : State) (g : Nat) => s.spindle.alive = true ∧ g ∈ claimGroups ∧ claimHolder s g ≠ 0x80) (booted.put (Ent.CLAIM 0x61) 0x13) (0x61)) ∧
    ((fun (s : State) (u : User) (a : Nat) => readable s (readReq u (Ent.PROBE_DESC / 256) (Ent.PROBE_DESC % 256)) = true ∧ a = s.getU Ent.PROBE_TARGET u) (booted.putU Ent.PROBE_TARGET .M Ent.NOM_RATE) (.M) (Ent.NOM_RATE)) := by decide +kernel

theorem wit_CanSending :
    ((fun (s : State) (f : Frame) => s.spindle.alive = true ∧ modeIs s .alarm = true ∧ canBlocked s = false ∧ s.spindle.can.tx = [] ∧ s.spindle.can.sending = none ∧ s.get Ent.NODE_ID ≠ 0 ∧ f = ⟨0, [byte ((s.get Ent.BS_ALARM ||| s.get Ent.ALARM_FW) % 8), byte (s.get Ent.ALARM_ZONE % 16)], false⟩) (inMode .alarm (joined.put Ent.ALARM_FW 1)) (⟨0, [1, 0], false⟩)) ∧
    ((fun (s : State) => s.spindle.alive = true ∧ modeIs s .alarm = true ∧ s.get Ent.LISTEN_ONLY = 1) (inMode .alarm (joined.put Ent.LISTEN_ONLY 1))) ∧
    ((fun (s : State) => s.spindle.alive = true ∧ s.get Ent.TIME_PERIOD ≠ 0 ∧ s.get Ent.NODE_ID ≠ 0 ∧ canBlocked s = false ∧ s.spindle.can.tx = [] ∧ s.spindle.can.sending = none) (joined.put Ent.TIME_PERIOD 5)) := by decide +kernel

theorem wit_CanSending2 :
    ((fun (s : State) => s.spindle.alive = true ∧ s.get Ent.HB_PERIOD ≠ 0 ∧ s.get Ent.NODE_ID ≠ 0 ∧ canBlocked s = false ∧ s.spindle.can.tx = [] ∧ s.spindle.can.sending = none) (joined.put Ent.HB_PERIOD 5)) ∧
    ((fun (s : State) => s.get Ent.HB_PERIOD = 0) (joined.put Ent.HB_PERIOD 0)) ∧
    ((fun (s : State) => s.spindle.alive = true ∧ s.get Ent.NODE_ID ≠ 0 ∧ canBlocked s = false ∧ s.spindle.can.tx = [] ∧ s.spindle.can.sending = none ∧ s.spindle.can.notices = []) ((joined.putU Ent.NOTICE_PENDING .N 6).putU Ent.NOTICE_MASK .N 2)) := by decide +kernel

theorem wit_CanSending3 :
    ((fun (s : State) => s.spindle.alive = true ∧ s.get Ent.NODE_ID ≠ 0 ∧ canBlocked s = false ∧ s.spindle.can.tx = [] ∧ s.spindle.can.sending = none ∧ s.spindle.can.notices ≠ [] ∧ s.spindle.can.notices.length ≤ 4) (joined.onCan fun c => { c with notices := [zeros 12, zeros 12] })) ∧
    ((fun (s : State) => xoRuns s = true ∧ s.spindle.xoChecked = true ∧ s.get Ent.CAN_ENABLE = 1) (joined.onCan fun c => { c with joined := false })) ∧
    ((fun (s : State) (f : Frame) (fs : List Frame) => canSends s = true ∧ s.spindle.can.sending = none ∧ s.spindle.can.tx = f :: fs ∧ ((s.spindle.can.backoff = none ∧ s.get Ent.NODE_ID ≠ 0) ∨ isBeacon f = true)) (joined.onCan fun c => { c with tx := [⟨0, [1, 2], false⟩], backoff := some 9 }) (⟨0, [1, 2], false⟩) ([])) := by decide +kernel

theorem wit_CanSending4 :
    ((fun (s : State) (f : Frame) (fs : List Frame) => s.spindle.can.tx = f :: fs ∧ (s.spindle.can.backoff ≠ none ∨ s.get Ent.NODE_ID = 0) ∧ isBeacon f = false) (joined.onCan fun c => { c with tx := [⟨7, [1, 2], true⟩], backoff := some 9 }) (⟨7, [1, 2], true⟩) ([])) ∧
    ((fun (s : State) (f : Frame) => canSends s = true ∧ s.spindle.can.sending = some f) ((joined.put Ent.TEC 9).onCan fun c => { c with sending := some ⟨7, [1, 2], true⟩ }) (⟨7, [1, 2], true⟩)) ∧
    ((fun (s : State) (f : Frame) (k : Nat) => k ≤ 100 ∧ canSends s = true ∧ s.spindle.can.sending = some f ∧ isBeacon f = true) (joined.onCan fun c => { c with sending := some ⟨0, [1, 2], false⟩ }) (⟨0, [1, 2], false⟩) (1)) := by decide +kernel

theorem wit_CanSending5 :
    ((fun (s : State) (f : Frame) => canSends s = true ∧ s.spindle.can.sending = some f ∧ isBeacon f = false) (joined.onCan fun c => { c with sending := some ⟨7, [1, 2], true⟩, count := 2, lastPos := 3 }) (⟨7, [1, 2], true⟩)) ∧
    ((fun (s : State) (f : Frame) (e : Option CanError) => s.spindle.can.sending = some f ∧ (canSends s = false ∨ e = none)) (joined.onCan fun c => { c with sending := some ⟨7, [1, 2], true⟩, count := 2, lastPos := 3 }) (⟨7, [1, 2], true⟩) (none)) ∧
    ((fun (s : State) => canSends s = false) (joined.put Ent.LISTEN_ONLY 1)) := by decide +kernel

theorem wit_CanSending6 :
    ((fun (s : State) (n : Nat) (k : Nat) => 255 < s.get Ent.TEC ∧ s.spindle.can.busOff = false ∧ n = s.spindle.can.sinceOk + 1 ∧ k = s.get Ent.BUSOFF_LIMIT) (((joined.put Ent.TEC 260).put Ent.BUSOFF_LIMIT 1).onCan fun c => { c with tx := [⟨7, [1, 2], true⟩] }) (1) (1)) ∧
    ((fun (s : State) => xoRuns s = true ∧ s.spindle.can.busOff = true) ((joined.put Ent.TEC 255).onCan fun c => { c with busOff := true })) ∧
    ((fun (s : State) (u : User) (v : Nat) => accepts s (numReq u Ent.CAN_RESTART v) = true) (joined.onCan fun c => { c with busOff := true, held := true }) (.M) (1)) := by decide +kernel

theorem wit_CanSending7 :
    ((fun (s : State) (u : User) (v : Nat) => v < 256 ∧ accepts s (numReq u Ent.NODE_ID v) = true ∧ s.keeper.jobs.length < 2) (inMode .commission ((joined.put Ent.NODE_CONFLICT 1).onCan fun c => { c with backoff := some 5 })) (.M) (9)) ∧
    ((fun (s : State) (u : User) (v : Nat) => v < 256 ∧ s.keeper.jobs.head? = some (nvmJob (numReq u Ent.NODE_ID v) Ent.NODE_ID v)) (((joined.put Ent.NODE_CONFLICT 1).onKeeper fun k => { k with jobs := [nvmJob (numReq .M Ent.NODE_ID 9) Ent.NODE_ID 9] }).onCan fun c => { c with backoff := some 5 }) (.M) (9)) := by decide +kernel

theorem wit_CanReceiving :
    ((fun (s : State) => canOnBus s = true ∧ engineRuns s = true ∧ s.spindle.can.rx = []) ((joined.put Ent.ECHO_SOURCES 1).put Ent.ECHO_ZONE_MASK 4)) ∧
    ((fun (s : State) (n : Nat) => canOnBus s = true ∧ engineRuns s = true ∧ s.spindle.can.rx = [] ∧ nodeOk n = true) (joined) (5)) ∧
    ((fun (s : State) (n : Nat) => canOnBus s = true ∧ engineRuns s = true ∧ s.spindle.can.rx = [] ∧ nodeOk n = true) (joined) (5)) := by decide +kernel

theorem wit_CanReceiving2 :
    ((fun (s : State) (n : Nat) (x : Bytes) => canOnBus s = true ∧ engineRuns s = true ∧ s.spindle.can.rx = [] ∧ nodeOk n = true ∧ n = s.get Ent.NODE_ID ∧ 8 ≤ x.length ∧ (canParse x).req.op = 1 ∧ canMalformed x = false ∧ (canParse x).more = false ∧ (canParse x).second = false ∧ keptPayloads s (canParse x).req = none ∧ s.spindle.dict.reqs.n.length < 4) (joined) (5) ([7, 3, 1, 0, 0x0D, 0x10, 0, 0])) ∧
    ((fun (s : State) (n : Nat) (x : Bytes) => canOnBus s = true ∧ engineRuns s = true ∧ s.spindle.can.rx = [] ∧ nodeOk n = true ∧ n = s.get Ent.NODE_ID ∧ 8 ≤ x.length ∧ (canParse x).req.op = 2 ∧ canMalformed x = false ∧ (canParse x).more = false ∧ (canParse x).second = false ∧ keptPayloads s (canParse x).req = none ∧ s.spindle.dict.reqs.n.length < 4) (joined) (5) ([7, 3, 2, 4, 0x0D, 0x10, 0, 0, 1, 2, 3, 4])) ∧
    ((fun (s : State) (n : Nat) (x : Bytes) (k : Request) (y : Bytes) => canOnBus s = true ∧ engineRuns s = true ∧ s.spindle.can.rx = [] ∧ nodeOk n = true ∧ n = s.get Ent.NODE_ID ∧ 8 ≤ x.length ∧ (canParse x).req.op = 2 ∧ canMalformed x = false ∧ (canParse x).second = true ∧ s.spindle.can.seg = some (k, y) ∧ sameRequest (canParse x).req k = true ∧ s.spindle.can.kept = none ∧ s.spindle.dict.reqs.n.length < 4) (joined.onCan fun c => { c with seg := some ((canParse [7, 3, 18, 4, 0x0D, 0x10, 0, 0, 1, 2, 3, 4]).req, [1, 2, 3, 4]) }) (5) ([7, 3, 34, 2, 0x0D, 0x10, 0, 0, 5, 6]) ((canParse [7, 3, 18, 4, 0x0D, 0x10, 0, 0, 1, 2, 3, 4]).req) ([1, 2, 3, 4])) := by decide +kernel

theorem wit_CanReceiving3 :
    ((fun (s : State) (n : Nat) (x : Bytes) => canOnBus s = true ∧ engineRuns s = true ∧ s.spindle.can.rx = [] ∧ nodeOk n = true ∧ n = s.get Ent.NODE_ID ∧ 8 ≤ x.length ∧ (canParse x).req.op = 3 ∧ canMalformed x = false ∧ (canParse x).more = false ∧ (canParse x).second = false ∧ keptPayloads s (canParse x).req = none ∧ s.spindle.dict.reqs.n.length < 4) (joined) (5) ([7, 3, 3, 4, 0x0D, 0x10, 0, 0, 1, 2, 3, 4])) ∧
    ((fun (s : State) (n : Nat) (x : Bytes) (k : Request) (y : Bytes) => canOnBus s = true ∧ engineRuns s = true ∧ s.spindle.can.rx = [] ∧ nodeOk n = true ∧ n = s.get Ent.NODE_ID ∧ 8 ≤ x.length ∧ (canParse x).req.op = 3 ∧ canMalformed x = false ∧ (canParse x).second = true ∧ s.spindle.can.seg = some (k, y) ∧ sameRequest (canParse x).req k = true ∧ s.spindle.can.kept = none ∧ s.spindle.dict.reqs.n.length < 4) (joined.onCan fun c => { c with seg := some ((canParse [7, 3, 19, 4, 0x0D, 0x10, 0, 0, 1, 2, 3, 4]).req, [1, 2, 3, 4]) }) (5) ([7, 3, 35, 2, 0x0D, 0x10, 0, 0, 5, 6]) ((canParse [7, 3, 19, 4, 0x0D, 0x10, 0, 0, 1, 2, 3, 4]).req) ([1, 2, 3, 4])) ∧
    ((fun (s : State) (n : Nat) (x : Bytes) => canOnBus s = true ∧ engineRuns s = true ∧ s.spindle.can.rx = [] ∧ nodeOk n = true ∧ n = s.get Ent.NODE_ID ∧ 8 ≤ x.length ∧ canMalformed x = true ∧ canBlocked s = false ∧ s.spindle.can.tx = [] ∧ s.spindle.can.sending = none) (joined) (5) ([7, 3, 1, 0, 0x0D, 0x10, 0, 1])) := by decide +kernel

theorem wit_CanReceiving4 :
    ((fun (s : State) (n : Nat) (x : Bytes) (p : Bytes) => canOnBus s = true ∧ engineRuns s = true ∧ s.spindle.can.rx = [] ∧ nodeOk n = true ∧ n = s.get Ent.NODE_ID ∧ 8 ≤ x.length ∧ canMalformed x = false ∧ (canParse x).more = false ∧ (canParse x).second = false ∧ keptPayloads s (canParse x).req = some [p] ∧ canBlocked s = false ∧ s.spindle.can.tx = [] ∧ s.spindle.can.sending = none) (joined.onCan fun c => { c with kept := some ([[9]], (canParse [7, 3, 2, 4, 0x0D, 0x10, 0, 0, 1, 2, 3, 4]).req, 0) }) (5) ([7, 3, 2, 4, 0x0D, 0x10, 0, 0, 1, 2, 3, 4]) ([9])) ∧
    ((fun (s : State) (k : Request) (y : Bytes) => canOnBus s = true ∧ s.spindle.can.seg = some (k, y)) (joined.onCan fun c => { c with seg := some (readReq .N 0 0, [1]) }) (readReq .N 0 0) ([1])) ∧
    ((fun (s : State) (n : Nat) => canOnBus s = true ∧ engineRuns s = true ∧ s.spindle.can.rx = [] ∧ nodeOk n = true ∧ s.get Ent.TIME_PERIOD = 0 ∧ s.get Ent.TIME_ACCEPT = 1 ∧ (s.get Ent.TIME_SOURCE = 0 ∨ s.get Ent.TIME_SOURCE = n) ∧ s.spindle.dict.reqs.n.length < 4) ((joined.put Ent.TIME_ACCEPT 1).put Ent.TIME_PERIOD 0) (7)) := by decide +kernel

theorem wit_CanReceiving5 :
    ((fun (s : State) => canOnBus s = true ∧ s.get Ent.REC ≤ 127) (joined.put Ent.REC 3)) ∧
    ((fun (s : State) (n : Nat) => canOnBus s = true ∧ s.get Ent.REC ≤ 127 ∧ nodeOk n = false) (joined.put Ent.REC 3) (0)) ∧
    ((fun (s : State) (n : Nat) => canOnBus s = true ∧ engineRuns s = true ∧ s.spindle.can.rx = [] ∧ nodeOk n = true) (joined.put Ent.REC 130) (3)) := by decide +kernel

theorem wit_CanReceiving6 :
    ((fun (s : State) (n : Nat) => canOnBus s = true ∧ domState s .core = 1 ∧ s.spindle.can.rx.length < 16 ∧ nodeOk n = true) (setDomState joined .core 1) (3)) ∧
    ((fun (s : State) (n : Nat) => canOnBus s = true ∧ engineRuns s = false ∧ s.spindle.can.rx.length = 16 ∧ nodeOk n = true) ((setDomState joined .core 1).onCan fun c => { c with rx := List.replicate 16 .other }) (3)) ∧
    ((fun (s : State) (j : Nat) => canOnBus s = true ∧ j ≤ 100 ∧ s.get Ent.REC ≤ 255) (joined) (0)) := by decide +kernel

theorem wit_CanReceiving7 :
    ((fun (s : State) (k : Request) (v : Bytes) (c : Nat) (rest : List Response) => canOnBus s = true ∧ engineUp s = true ∧ s.spindle.dict.resps.n = ⟨k, c, v⟩ :: rest ∧ c ≠ 0xFF ∧ v.length ≤ 56 ∧ s.get Ent.NODE_ID ≠ 0 ∧ canBlocked s = false ∧ s.spindle.can.tx = [] ∧ s.spindle.can.sending = none) (joined.onDict fun d => { d with resps := d.resps.set .N [⟨readReq .N 0x1000 0, 0, [1, 2]⟩] }) (readReq .N 0x1000 0) ([1, 2]) (0) ([])) := by decide +kernel

theorem wit_HostRequests :
    ((fun (s : State) (f : Bytes) (p : Port) (r : Request) => hears s p = true ∧ frameCode f = 0 ∧ frameCrcOk f = true ∧ r = frameReq p f ∧ r.op = 1 ∧ r.value = [] ∧ (inFlight s r.user).any (sameHost r) = false ∧ (s.spindle.ports.get p).kept = none ∧ (s.spindle.dict.reqs.get r.user).length < 4) ((hostOn.onPort .A fun h => { h with cs := true })) (hostBytes 9 1 0x100D 0 []) (.A) (frameReq .A (hostBytes 9 1 0x100D 0 []))) ∧
    ((fun (s : State) (f : Bytes) (p : Port) (r : Request) (x : Bytes) => (p ≠ .C ∨ x = []) ∧ hears s p = true ∧ frameCode f = 0 ∧ frameCrcOk f = true ∧ r = frameReq p f ∧ r.op = 2 ∧ (inFlight s r.user).any (sameHost r) = false ∧ (s.spindle.ports.get p).kept = none ∧ (s.spindle.dict.reqs.get r.user).length < 4) ((hostOn.onPort .A fun h => { h with cs := true })) (hostBytes 9 2 0x100D 0 [1, 2, 3, 4]) (.A) (frameReq .A (hostBytes 9 2 0x100D 0 [1, 2, 3, 4])) ([7, 8])) ∧
    ((fun (s : State) (f : Bytes) (p : Port) (r : Request) => hears s p = true ∧ frameCode f = 0 ∧ frameCrcOk f = true ∧ r = frameReq p f ∧ r.op = 3 ∧ (inFlight s r.user).any (sameHost r) = false ∧ (s.spindle.ports.get p).kept = none ∧ (s.spindle.dict.reqs.get r.user).length < 4) ((hostOn.onPort .A fun h => { h with cs := true })) (hostBytes 9 3 0x100D 0 [1, 2, 3, 4]) (.A) (frameReq .A (hostBytes 9 3 0x100D 0 [1, 2, 3, 4]))) := by decide +kernel

theorem wit_HostRequests2 :
    ((fun (s : State) (f : Bytes) (p : Port) (r : Request) => hears s p = true ∧ frameCode f = 0 ∧ frameCrcOk f = true ∧ r = frameReq p f ∧ r.op = 2 ∧ (inFlight s r.user).any (sameHost r) = true) (hostOn.onDict fun d => { d with reqs := d.reqs.set .C [frameReq .C (hostBytes 9 2 0x100D 0 [1, 2, 3, 4])] }) (hostBytes 9 2 0x100D 0 [1, 2, 3, 4]) (.C) (frameReq .C (hostBytes 9 2 0x100D 0 [1, 2, 3, 4]))) ∧
    ((fun (s : State) (f : Bytes) (p : Port) (r : Request) (k : Response) => hears s p = true ∧ frameCode f = 0 ∧ frameCrcOk f = true ∧ r = frameReq p f ∧ r.op = 2 ∧ (inFlight s r.user).any (sameHost r) = false ∧ (s.spindle.ports.get p).kept = some k ∧ sameHost r k.req = true ∧ (s.spindle.ports.get p).answer = none) ((hostOn.onPort .A fun h => { h with cs := true }).onPort .A fun h => { h with kept := some ⟨frameReq .A (hostBytes 9 2 0x100D 0 [1, 2, 3, 4]), 0, []⟩ }) (hostBytes 9 2 0x100D 0 [1, 2, 3, 4]) (.A) (frameReq .A (hostBytes 9 2 0x100D 0 [1, 2, 3, 4])) (⟨frameReq .A (hostBytes 9 2 0x100D 0 [1, 2, 3, 4]), 0, []⟩)) ∧
    ((fun (s : State) (f : Bytes) (p : Port) (r : Request) => hears s p = true ∧ frameCode f = 0 ∧ frameCrcOk f = true ∧ r = frameReq p f ∧ r.op = 2 ∧ (inFlight s r.user).any (sameHost r) = false ∧ (s.spindle.ports.get p).kept = none ∧ (s.spindle.ports.get p).answer = none ∧ 4 ≤ (s.spindle.dict.reqs.get r.user).length) ((hostOn.onPort .A fun h => { h with cs := true }).onDict fun d => { d with reqs := d.reqs.set .A (List.replicate 4 (readReq .A 0 0)) }) (hostBytes 9 2 0x100D 0 [1, 2, 3, 4]) (.A) (frameReq .A (hostBytes 9 2 0x100D 0 [1, 2, 3, 4]))) := by decide +kernel

theorem wit_HostRequests3 :
    ((fun (s : State) (f : Bytes) (p : Port) (r : Request) => hears s p = true ∧ frameCode f = 0 ∧ frameCrcOk f = true ∧ r = frameReq p f ∧ ((r.op = 1 ∧ r.value ≠ []) ∨ r.op = 0 ∨ 3 < r.op)) ((hostOn.onPort .A fun h => { h with cs := true })) (hostBytes 9 1 0x100D 0 [1]) (.A) (frameReq .A (hostBytes 9 1 0x100D 0 [1]))) ∧
    ((fun (s : State) (f : Bytes) (p : Port) => hears s p = true ∧ p ≠ .C ∧ f ≠ [] ∧ f.getD 0 0 ≠ 0x5A ∧ f.getD 0 0 ≠ 0xFF) ((hostOn.onPort .A fun h => { h with cs := true })) ([0x5B, 2]) (.A)) ∧
    ((fun (s : State) (f : Bytes) (p : Port) => hears s p = true ∧ p ≠ .C ∧ f.getD 0 0 = 0x5A ∧ 73 ≤ f.length ∧ 73 < requestLength f) ((hostOn.onPort .A fun h => { h with cs := true })) ([0x5A, 0, 1, 0, 0, 0, 65] ++ zeros 70) (.A)) := by decide +kernel

theorem wit_HostRequests4 :
    ((fun (s : State) (f : Bytes) (b : Bool) => portListens s .C = true ∧ f ≠ [] ∧ f.length ≤ 74 ∧ (b = true ∨ cobsDecode f = none ∨ ∃ g, cobsDecode f = some g ∧ frameCode g ≠ 0)) (hostOn) ([3, 5]) (false)) ∧
    ((fun (s : State) (f : Bytes) (p : Port) => hears s p = true ∧ frameCode f = 0 ∧ frameCrcOk f = false) ((hostOn.onPort .A fun h => { h with cs := true })) ([0x5A, 0, 1, 0, 0, 0, 0, 0, 0]) (.A)) ∧
    ((fun (s : State) (f : Bytes) (p : Port) => hears s p = true ∧ p ≠ .C ∧ f.getD 0 0 = 0xFF) ((hostOn.onPort .A fun h => { h with cs := true })) ([0xFF, 0]) (.A)) := by decide +kernel

theorem wit_HostRequests5 :
    ((fun (s : State) (f : Bytes) (p : Port) => hears s p = true ∧ p ≠ .C ∧ f.getD 0 0 = 0x5A ∧ f.length < requestLength f ∧ f.length < 73) ((hostOn.onPort .A fun h => { h with cs := true })) ([0x5A, 0, 1]) (.A)) ∧
    ((fun (s : State) (f : Bytes) (x : Bytes) => domState s .core = 1 ∧ portListens s .C = true ∧ frameCode f = 0 ∧ (s.spindle.ports.get .C).frames = [x]) ((setDomState hostOn .core 1).onPort .C fun h => { h with frames := [[1]] }) (hostBytes 9 2 0x100D 0 [1, 2, 3, 4]) ([1])) ∧
    ((fun (s : State) (f : Bytes) => domState s .core = 4 ∧ portListens s .C = true ∧ frameCode f = 0 ∧ (s.spindle.ports.get .C).frames.length = 2) ((setDomState hostOn .core 4).onPort .C fun h => { h with frames := [[1], [2]] }) (hostBytes 9 2 0x100D 0 [1, 2, 3, 4])) := by decide +kernel

theorem wit_HostRequests6 :
    ((fun (s : State) => portListens s .C = true) (hostOn)) ∧
    ((fun (s : State) (u : User) (p : Port) (n : Nat) (v : Nat) => accepts s (numReq u (Ent.HP_RESET n) v) = true ∧ 1 ≤ n ∧ n ≤ 3 ∧ p = portOf n) ((hostOn.put (Ent.CLAIM 0x10) 0x14).onPort .B fun h => { h with kept := some ⟨readReq .B 0 0, 0, []⟩ }) (.M) (.B) (2) (1)) := by decide +kernel

theorem wit_HostResponses :
    ((fun (s : State) (p : Port) => p ≠ .C ∧ portListens s p = true) (hostOn.onDict fun d => { d with resps := d.resps.set .A [⟨readReq .A 0 0, 3, []⟩] }) (.A)) ∧
    ((fun (s : State) (p : Port) (k : Response) => portListens s p = true ∧ (s.spindle.ports.get p).cs = true ∧ (s.spindle.ports.get p).part = false ∧ (s.spindle.ports.get p).chosen = 1 ∧ (s.spindle.ports.get p).answer = some k) (hostOn.onPort .A fun h => { h with cs := true, chosen := 1, answer := some ⟨readReq .A 0 0, 3, []⟩ }) (.A) (⟨readReq .A 0 0, 3, []⟩)) ∧
    ((fun (s : State) (p : Port) (k : Response) (rest : List Response) => portListens s p = true ∧ (s.spindle.ports.get p).cs = true ∧ (s.spindle.ports.get p).part = false ∧ (s.spindle.ports.get p).chosen = 2 ∧ s.spindle.dict.resps.get (portUser p) = k :: rest ∧ k.status ≠ Sc.claimed) ((hostOn.onDict fun d => { d with resps := d.resps.set .B [⟨readReq .B 0 0, 0, [1, 2]⟩] }).onPort .B fun h => { h with cs := true, chosen := 2 }) (.B) (⟨readReq .B 0 0, 0, [1, 2]⟩) ([])) := by decide +kernel

theorem wit_HostResponses2 :
    ((fun (s : State) (p : Port) => portListens s p = true ∧ (s.spindle.ports.get p).cs = true ∧ (s.spindle.ports.get p).chosen = 0) (hostOn.onPort .A fun h => { h with cs := true, part := true }) (.A)) ∧
    ((fun (s : State) (p : Port) => portListens s p = true ∧ (s.spindle.ports.get p).cs = true ∧ (s.spindle.ports.get p).taken = false ∧ (s.spindle.ports.get p).fetch = false) (hostOn.onPort .A fun h => { h with cs := true }) (.A)) ∧
    ((fun (s : State) (k : Response) => portListens s .C = true ∧ (s.spindle.ports.get .C).answer = some k) (hostOn.onPort .C fun h => { h with answer := some ⟨readReq .C 0 0, 3, []⟩ }) (⟨readReq .C 0 0, 3, []⟩)) := by decide +kernel

theorem wit_HostResponses3 :
    ((fun (s : State) (k : Response) (rest : List Response) => portListens s .C = true ∧ (s.spindle.ports.get .C).answer = none ∧ s.spindle.dict.resps.c = k :: rest ∧ k.status ≠ Sc.claimed) ((hostOn.onDict fun d => { d with resps := d.resps.set .C [⟨numReq .C Ent.HP_BAUD 3, 0, []⟩] }).onPort .C fun h => { h with baud := some 5 }) (⟨numReq .C Ent.HP_BAUD 3, 0, []⟩) ([])) := by decide +kernel

theorem wit_TagFrames :
    ((fun (s : State) => s.tag.session = false ∧ tagOff s = false ∧ s.get Ent.TAG_UID_MODE = 0) ((setDomState booted .tag 2).put Ent.TAG_UID_MODE 0)) ∧
    ((fun (s : State) (a : Nat) (rest : List Nat) => s.tag.session = false ∧ tagOff s = false ∧ s.keeper.vddValid = true ∧ s.get Ent.TAG_UID_MODE ≠ 0 ∧ s.keeper.pool = a :: rest) (((setDomState booted .tag 2).put Ent.TAG_UID_MODE 1).onKeeper fun k => { k with pool := [0x11223308] }) (0x11223308) ([])) ∧
    ((fun (s : State) => s.tag.session = false ∧ tagOff s = false ∧ s.keeper.vddValid = true ∧ spindleReady s = false ∧ s.get Ent.TAG_UID_MODE ≠ 0 ∧ s.keeper.pool = []) (((setDomState booted .tag 2).put Ent.TAG_UID_MODE 1).onSpindle fun x => { x with alive := false })) := by decide +kernel

theorem wit_TagFrames2 :
    ((fun (s : State) => s.tag.session = true) (tagIn 5)) ∧
    ((fun (s : State) => tagState s = 1 ∧ s.tag.uid.length = 4) (tagIn 1)) ∧
    ((fun (s : State) => tagState s = 2) (tagIn 2)) := by decide +kernel

theorem wit_TagFrames3 :
    ((fun (s : State) => (tagState s = 1 ∨ tagState s = 2) ∧ s.tag.uid.length = 7) ((tagIn 2).onTag fun t => { t with uid := [4, 1, 2, 3, 4, 5, 6] })) ∧
    ((fun (s : State) (n : Nat) (x : Bytes) (y : Bytes) => tagState s = 3 ∧ n = s.tag.level ∧ y = cascadeBytes s.tag n ∧ y.take x.length = x) (tagIn 3) (1) ([8]) ([8, 1, 2, 3])) ∧
    ((fun (s : State) (n : Nat) (x : Bytes) => tagState s = 3 ∧ n = s.tag.level ∧ x = cascadeBytes s.tag n) (tagIn 3) (1) ([8, 1, 2, 3])) := by decide +kernel

theorem wit_TagFrames4 :
    ((fun (s : State) => tagState s = 4) ((tagIn 4).onTag fun t => { t with open_ := true })) ∧
    ((fun (s : State) => tagState s = 4) (tagIn 4)) ∧
    ((fun (s : State) => tagState s = 5) (tagIn 5)) := by decide +kernel

theorem wit_TagBlocks :
    ((fun (s : State) => tagState s = 5 ∧ tagBusy s = false) (tagIn 5)) ∧
    ((fun (s : State) (x : Bytes) (y : Bytes) => tagState s = 5 ∧ tagBusy s = false ∧ y = (s.tag.chain ++ x).take 512 ∧ insListed (y.getD 1 0).toNat = true) (tagIn 5) ([0x80, 0x10, 0, 0, 0]) ([0x80, 0x10, 0, 0, 0])) ∧
    ((fun (s : State) (x : Bytes) (y : Bytes) => tagState s = 5 ∧ tagBusy s = false ∧ y = (s.tag.chain ++ x).take 512 ∧ insListed (y.getD 1 0).toNat = false ∧ 5 ≤ s.tag.fsd) (tagIn 5) ([0x80, 0x11, 0, 0, 0]) ([0x80, 0x11, 0, 0, 0])) := by decide +kernel

theorem wit_TagBlocks2 :
    ((fun (s : State) (b : Bool) => tagState s = 5 ∧ tagBusy s = false ∧ b = s.tag.block) ((tagIn 5).onTag fun t => { t with lastBlock := [2, 0x90, 0] }) (false)) ∧
    ((fun (s : State) (b : Bool) => tagState s = 5 ∧ tagBusy s = false ∧ b ≠ s.tag.block ∧ s.tag.out ≠ []) ((tagIn 5).onTag fun t => { t with fsd := 5, out := [1, 2, 3] }) (true)) ∧
    ((fun (s : State) => tagState s = 5 ∧ s.tag.wtx = true) ((tagIn 5).onTag fun t => { t with wtx := true, ready := some [0x90, 0] })) := by decide +kernel

theorem wit_TagBlocks3 :
    ((fun (s : State) => tagState s = 5 ∧ tagBusy s = false) ((tagIn 5).onTag fun t => { t with open_ := true })) ∧
    ((fun (s : State) => tagState s = 5 ∧ s.tag.pendingApdu ≠ none ∧ s.tag.wtx = false) (tagHas [0x80, 0x10, 0, 0, 0])) ∧
    ((fun (s : State) => tagState s = 5 ∧ s.tag.pendingApdu ≠ none ∧ s.tag.wtx = false ∧ 5 ≤ s.tag.fsd) (tagHas [0x80, 0x10, 0, 0, 0])) := by decide +kernel

theorem wit_TagCommands :
    ((fun (s : State) (x : Bytes) (a : Apdu) => s.tag.pendingApdu = some x ∧ a = parseApdu x ∧ s.tag.waitingT = false ∧ tagState s = 5 ∧ s.tag.wtx = false ∧ 5 ≤ s.tag.fsd ∧ a.ins = 0xA4 ∧ firstSw s a = 0x9000) (tagHas ([0, 0xA4, 4, 0, 7] ++ tagAid)) ([0, 0xA4, 4, 0, 7] ++ tagAid) (parseApdu ([0, 0xA4, 4, 0, 7] ++ tagAid))) ∧
    ((fun (s : State) (x : Bytes) (a : Apdu) => s.tag.pendingApdu = some x ∧ a = parseApdu x ∧ s.tag.waitingT = false ∧ tagState s = 5 ∧ s.tag.wtx = false ∧ 5 ≤ s.tag.fsd ∧ a.ins = 0x10) (tagHas [0x80, 0x10, 0, 0, 0]) ([0x80, 0x10, 0, 0, 0]) (parseApdu [0x80, 0x10, 0, 0, 0])) ∧
    ((fun (s : State) (x : Bytes) (a : Apdu) => s.tag.pendingApdu = some x ∧ a = parseApdu x ∧ s.tag.waitingT = false ∧ tagState s = 5 ∧ s.tag.wtx = false ∧ 5 ≤ s.tag.fsd ∧ a.ins = 0x12 ∧ firstSw s a = 0x9000) (tagHas [0x80, 0x12, 0, 0, 0]) ([0x80, 0x12, 0, 0, 0]) (parseApdu [0x80, 0x12, 0, 0, 0])) := by decide +kernel

theorem wit_TagCommands2 :
    ((fun (s : State) (x : Bytes) (a : Apdu) => s.tag.pendingApdu = some x ∧ a = parseApdu x ∧ s.tag.waitingT = false ∧ tagState s = 5 ∧ s.tag.wtx = false ∧ 5 ≤ s.tag.fsd ∧ a.ins = 0x14 ∧ firstSw s a = 0x9000 ∧ available s = true ∧ s.spindle.dict.reqs.t.length < 4) (tagHas [0x80, 0x14, 0x10, 0x0B, 1, 0, 0]) ([0x80, 0x14, 0x10, 0x0B, 1, 0, 0]) (parseApdu [0x80, 0x14, 0x10, 0x0B, 1, 0, 0])) ∧
    ((fun (s : State) (x : Bytes) (a : Apdu) => (fun (r : State × Nat × Bytes) => s.tag.pendingApdu = some x ∧ a = parseApdu x ∧ s.tag.waitingT = false ∧ tagState s = 5 ∧ s.tag.wtx = false ∧ 5 ≤ s.tag.fsd ∧ a.ins = 0x14 ∧ firstSw s a = 0x9000 ∧ available s = false ∧ (r = readAccess (s.onTag fun q => { q with step1 := false }) .T a.p12 (a.data.getD 0 0).toNat)) (readAccess (s.onTag fun q => { q with step1 := false }) .T 0x1000 0)) (tagHas [0x80, 0x14, 0x10, 0, 1, 0, 0] (booted.onSpindle fun x => { x with alive := false })) ([0x80, 0x14, 0x10, 0, 1, 0, 0]) (parseApdu [0x80, 0x14, 0x10, 0, 1, 0, 0])) ∧
    ((fun (s : State) (x : Bytes) (a : Apdu) => (fun (m : Bytes) => s.tag.pendingApdu = some x ∧ a = parseApdu x ∧ s.tag.waitingT = false ∧ tagState s = 5 ∧ s.tag.wtx = false ∧ 5 ≤ s.tag.fsd ∧ a.ins = 0x20 ∧ a.p1 = 2 ∧ authReady s false = true ∧ firstSw s a = 0x9000 ∧ (page s .T).key ≠ [] ∧ m = cmac (page s .T).key ([0x53, 0x56, 0x41, 0x32] ++ s.tag.rndD ++ s.tag.rndR ++ leBytes 2 s.tag.v)) (cmac (page s .T).key ([0x53, 0x56, 0x41, 0x32] ++ s.tag.rndD ++ s.tag.rndR ++ leBytes 2 s.tag.v))) (((tagHas ([0x80, 0x20, 2, 0, 16] ++ zeros 16) rdy).onTag fun t => { t with step1 := true }).onPage .T fun p => { p with key := zeros 16, state := 1 }) ([0x80, 0x20, 2, 0, 16] ++ zeros 16) (parseApdu ([0x80, 0x20, 2, 0, 16] ++ zeros 16))) := by decide +kernel

theorem wit_TagCommands3 :
    ((fun (s : State) (x : Bytes) (a : Apdu) (f : Nat × Nat × Bytes × Bytes) => s.tag.pendingApdu = some x ∧ a = parseApdu x ∧ s.tag.waitingT = false ∧ tagState s = 5 ∧ s.tag.wtx = false ∧ 5 ≤ s.tag.fsd ∧ a.ins = 0x22 ∧ authReady s false = true ∧ firstSw s a = 0x9000 ∧ f = writeFields a ∧ s.spindle.dict.reqs.t.length < 4) (((tagHas ([0x80, 0x22, 0x10, 0x0D, 14, 0, 0] ++ zeros 12 ++ [9]) rdy).onTag fun t => { t with open_ := true }).onPage .T fun p => { p with key := zeros 16, state := 1 }) ([0x80, 0x22, 0x10, 0x0D, 14, 0, 0] ++ zeros 12 ++ [9]) (parseApdu ([0x80, 0x22, 0x10, 0x0D, 14, 0, 0] ++ zeros 12 ++ [9])) ((0, 0, zeros 4, zeros 8))) := by decide +kernel

theorem wit_FrameSensing :
    ((exec .hornFault booted matches .next _) = true) := by decide +kernel

theorem wit_FramePorts :
    ((exec .reqa booted matches .next _) = true) ∧
    ((fun (s : State) => s.spindle.can.rx = [] ∧ (exec (.canSourceRx 3) s matches .next _) = true) (joined)) := by decide +kernel

theorem wit_FramePages :
    ((exec (.aesClear .M 1) booted matches .next _) = true) := by decide +kernel

theorem wit_FrameLog :
    ((exec .logAppend booted matches .next _) = true) := by decide +kernel

theorem wit_TagCommands_5 :
    (fun (s : State) (x : Bytes) (a : Apdu) => (fun (k : Bytes) (rd : Bytes) (v : Nat) => s.tag.pendingApdu = some x ∧ a = parseApdu x ∧ s.tag.waitingT = false ∧ tagState s = 5 ∧ s.tag.wtx = false ∧ 5 ≤ s.tag.fsd ∧ a.ins = 0x20 ∧ a.p1 = 1 ∧ authReady s true = true ∧ firstSw s a = 0x9000 ∧ v = s.get (Ent.MONO 7) + 1 ∧ k = authKey s ∧ rd = cmac k ([0x53, 0x56, 0x41, 0x44] ++ fitBytes 7 s.tag.uid ++ leBytes 2 v ++ a.data)) (authKey s) (cmac (authKey s) ([0x53, 0x56, 0x41, 0x44] ++ fitBytes 7 s.tag.uid ++ leBytes 2 (s.get (Ent.MONO 7) + 1) ++ zeros 16)) (s.get (Ent.MONO 7) + 1)) (tagHas ([0x80, 0x20, 1, 0, 16] ++ zeros 16 ++ [0]) rdy) ([0x80, 0x20, 1, 0, 16] ++ zeros 16 ++ [0]) (parseApdu ([0x80, 0x20, 1, 0, 16] ++ zeros 16 ++ [0])) := by
  refine ⟨?_, ?_, ?_, ?_, ?_, ?_, ?_, ?_, ?_, ?_, ?_, ?_, ?_⟩ <;> first | decide +kernel | rfl

end

end Sys2Proof.Tests
end

section
/-! SUPPORT. Rules of the sideband's operations (R17 to R21): which part of the state each changes, and the message on the line and the receive buffers
after it. -/
namespace Sys2Proof.Machine
variable (s : State)

/-- A command that leads to a state answers with it. -/
theorem answers_next {c : Instr} {s t : State} {p : State → Prop} (h : exec c s = .next t) (hp : p t) : Answers c s p := ⟨t, h, hp⟩

/-! ### A die's transmitter -/

@[simp] theorem sbDie_keeper : sbDie s .keeper = s.sb.keeper := rfl
@[simp] theorem sbDie_flyer : sbDie s .flyer = s.sb.flyer := rfl
@[simp] theorem sbDie_spindle : sbDie s .spindle = s.sb.spindle := rfl

@[simp] theorem onSbDie_wire (d : Die) (f : SbDie → SbDie) : (onSbDie s d f).sb.wire = s.sb.wire := by cases d <;> rfl

theorem onSbDie_sbDie_ne {d d' : Die} (h : d' ≠ d) (f : SbDie → SbDie) : sbDie (onSbDie s d f) d' = sbDie s d' := by
  cases d <;> cases d' <;> simp [onSbDie] at h ⊢

/-- A message placed in a transmit queue changes that queue alone on the sideband. -/
theorem sbQueue_sb (d : Die) (ty dst : Nat) (p : Bytes) :
    (sbQueue s d ty dst p).sb = s.sb ∨ (sbQueue s d ty dst p).sb = (onSbDie s d fun x => { x with txq := x.txq ++ [⟨ty, d, dst, p⟩] }).sb := by
  unfold sbQueue
  split
  · exact .inr (by simp)
  · exact .inl (by simp)

@[simp] theorem sbQueue_wire (d : Die) (ty dst : Nat) (p : Bytes) : (sbQueue s d ty dst p).sb.wire = s.sb.wire := by
  unfold sbQueue; split <;> simp

/-- Beside its transmit queue, a die's transmitter is as before. -/
theorem sbQueue_sbDie (d d' : Die) (ty dst : Nat) (p : Bytes) :
    sbDie (sbQueue s d ty dst p) d' = { sbDie s d' with txq := (sbDie (sbQueue s d ty dst p) d').txq } := by
  rcases sbQueue_sb s d ty dst p with h | h <;> cases d <;> cases d' <;> simp [h, onSbDie]

end Sys2Proof.Machine
end

section
namespace Sys2Proof.Machine
variable (s : State)

/-! ### Taking a message off its buffer or the line -/

@[simp] theorem sbLift_free (d : Die) : (sbLift s d).free = s.free := by unfold sbLift sbClear; split <;> simp
@[simp] theorem sbLift_ent (d : Die) : (sbLift s d).ent = s.ent := by unfold sbLift sbClear; split <;> simp
@[simp] theorem sbLift_ply (d : Die) : (sbLift s d).ply = s.ply := by unfold sbLift sbClear; split <;> simp
@[simp] theorem sbLift_flyer (d : Die) : (sbLift s d).flyer = s.flyer := by unfold sbLift sbClear; split <;> simp
@[simp] theorem sbLift_keeper (d : Die) : (sbLift s d).keeper = s.keeper := by unfold sbLift sbClear; split <;> simp
@[simp] theorem sbLift_log (d : Die) : (sbLift s d).log = s.log := by unfold sbLift sbClear; split <;> simp
@[simp] theorem sbLift_doms (d : Die) : (sbLift s d).doms = s.doms := by unfold sbLift sbClear; split <;> simp
@[simp] theorem sbLift_spindle (d : Die) : (sbLift s d).spindle = s.spindle := by unfold sbLift sbClear; split <;> simp
@[simp] theorem sbLift_get (d : Die) (e : Nat) : (sbLift s d).get e = s.get e := by simp [State.get]

/-- Beside its receive buffer, a die's transmitter is as before. -/
theorem sbLift_sbDie (d d' : Die) : sbDie (sbLift s d) d' = { sbDie s d' with rxq := (sbDie (sbLift s d) d').rxq } := by
  unfold sbLift sbClear
  split <;> cases d <;> cases d' <;> rfl

/-! ### A message that has ended good (R19, R190) -/

/-- A message for one die that takes messages, with room in its receive buffer. -/
theorem sbLand_room {m : SbMsg} {d : Die} (hw : s.sb.wire = some m) (ht : sbTargets m = [d]) (hd : sbTakes s d = true)
    (hl : (sbDie s d).rxq.length < 2) : sbLand s = sbClear (onSbDie s d fun x => { x with rxq := x.rxq ++ [m] }) := by
  simp only [sbLand, hw, ht, List.foldl, sbPush, hd, hl, sbClear, if_true, Bool.not_true, Bool.false_eq_true, if_false]

/-- One that its die takes at once, with nothing before it, leaves the line free and every buffer as it was. -/
theorem sbLift_sbLand {m : SbMsg} {d : Die} (hw : s.sb.wire = some m) (ht : sbTargets m = [d]) (hd : sbTakes s d = true)
    (hq : (sbDie s d).rxq = []) : sbLift (sbLand s) d = sbClear s := by
  have heta : ∀ x : SbDie, x.rxq = [] → { x with rxq := [] } = x := by rintro ⟨⟩ rfl; rfl
  rw [sbLand_room s hw ht hd (by simp [hq])]
  have := heta _ hq
  cases d <;> simp_all [sbLift, sbClear, onSbDie, State.onSb]

/-- One that finds the receive buffer full is lost and counted. -/
theorem sbLand_full {m : SbMsg} {d : Die} (hw : s.sb.wire = some m) (ht : sbTargets m = [d]) (hd : sbTakes s d = true)
    (hl : 2 ≤ (sbDie s d).rxq.length) : sbLand s = sbClear (noteFull s 6) := by
  simp only [sbLand, hw, ht, List.foldl, sbPush, hd, Nat.not_lt.2 hl, sbClear, Bool.not_true, Bool.false_eq_true, if_false]

theorem sbLand_idle (hw : s.sb.wire = none) : sbLand s = s := by simp [sbLand, hw]

/-- A message from another die to the keeper is for the keeper alone. -/
theorem sbTargets_keeper {m : SbMsg} (hs : m.src ≠ .keeper) (hd : m.dst = 0) : sbTargets m = [.keeper] := by
  cases h : m.src <;> simp_all [sbTargets, sbReceivers, dieNum]

/-- A message of the keeper to all dies, other than BACKSTOP_ALARM, is for both. -/
theorem sbTargets_both {m : SbMsg} (hs : m.src = .keeper) (hd : m.dst = 3) (ht : m.ty ≠ 1) : sbTargets m = [.flyer, .spindle] := by
  simp [sbTargets, sbReceivers, hs, hd, ht]

/-! ### Sending -/

/-- What a die sends leaves the receive buffers, and every entry, alone. -/
@[simp] theorem sbSent_get (m : SbMsg) (e : Nat) : (sbSent s m).get e = s.get e := by simp [sbSent]

theorem sbSent_rxq (m : SbMsg) (d : Die) : (sbDie (sbSent s m) d).rxq = (sbDie s d).rxq := by
  unfold sbSent
  by_cases h : d = m.src
  · subst h; rw [State.onSbDie_sbDie]; split_ifs <;> rfl
  · rw [onSbDie_sbDie_ne s h]

/-- Every ready die sends on the free line, and the winner's message takes it; what has been received stays. -/
theorem sbSend_wire (h : (sbLand s).sb.wire = none) :
    (sbSend s).sb.wire = sbWinner ([Die.keeper, .flyer, .spindle].filterMap (sbReady (sbLand s))) := by
  unfold sbSend
  cases hw : sbWinner ([Die.keeper, .flyer, .spindle].filterMap (sbReady (sbLand s))) <;> simp [hw, h]

theorem sbSend_rxq (d : Die) : (sbDie (sbSend s) d).rxq = (sbDie (sbLand s) d).rxq := by
  unfold sbSend
  cases hw : sbWinner ([Die.keeper, .flyer, .spindle].filterMap (sbReady (sbLand s))) with
  | none => simp [hw]
  | some m =>
    simp only [hw]
    rw [← sbSent_rxq (sbLand s) m d]
    cases d <;> rfl

theorem sbSend_get (e : Nat) : (sbSend s).get e = (sbLand s).get e := by
  unfold sbSend
  cases hw : sbWinner ([Die.keeper, .flyer, .spindle].filterMap (sbReady (sbLand s))) <;> simp [hw]

/-! ### The flyer's note of a horn check -/

@[simp] theorem noteCheck_sb : (noteCheck s).sb = s.sb := rfl
@[simp] theorem noteCheck_get (e : Nat) : (noteCheck s).get e = s.get e := rfl

/-! ### Words asked for -/

/-- Giving up words that do not come changes transmit queues only, on the sideband. -/
theorem wordsCheck_wait (d : Die) : (sbDie (wordsCheck s) d).wait = (sbDie s d).wait := by
  have h := (wordsLost_kept s.keeper.words.length s).sb
  cases d <;> simp only [sbDie, wordsCheck] <;> rw [h]

theorem wordsCheck_get {e : Nat} (h : modeEntry e = false) : (wordsCheck s).get e = s.get e :=
  (wordsLost_kept s.keeper.words.length s).get e h

end Sys2Proof.Machine
end

section
/-! CLAIMS. The sideband's transport (R17 to R21, R161). -/
namespace Sys2Proof.Machine

/-! ## Arbitration -/

theorem sbWinner_none {ms : List SbMsg} (h : sbWinner ms = none) : ms = [] := by
  cases ms with
  | nil => rfl
  | cons m ms =>
    simp only [sbWinner] at h
    split at h
    · cases h
    · split at h <;> cases h

/-- Settles O12, by induction on the messages sent: the winner of the others is kept unless the first one's header is as low. -/
theorem lowestHeaderWins : Obligations.LowestHeaderWins := by
  unfold Obligations.LowestHeaderWins
  intro ms
  induction ms with
  | nil => intro m h; cases h
  | cons x ms ih =>
    intro m h
    simp only [sbWinner] at h
    cases hw : sbWinner ms with
    | none =>
      obtain rfl : x = m := by simpa [hw] using h
      simp [sbWinner_none hw]
    | some n =>
      obtain ⟨hn, hle⟩ := ih n hw
      simp only [hw] at h
      split at h <;> rename_i hlt <;> obtain rfl := Option.some.inj h
      · refine ⟨List.mem_cons_of_mem _ hn, fun y hy => ?_⟩
        rcases List.mem_cons.1 hy with rfl | hy
        · exact hlt.le
        · exact hle y hy
      · refine ⟨List.mem_cons_self, fun y hy => ?_⟩
        rcases List.mem_cons.1 hy with rfl | hy
        · exact le_rfl
        · exact (Nat.not_lt.1 hlt).trans (hle y hy)

/-! ## Sending and receiving -/

section
variable {s : State} {m : SbMsg}

theorem sbSendStart_idle (hw : s.sb.wire = none) (hm : sbWinner ([Die.keeper, .flyer, .spindle].filterMap (sbReady s)) = some m) :
    Answers .sbSendStart s fun t => t.sb.wire = some m := by
  have hl := sbLand_idle s hw
  refine answers_next rfl ?_
  rw [noteCheck_sb, sbSend_wire s (by rw [hl, hw]), hl, hm]

theorem sbSendStart_room (hw : s.sb.wire = some m) (hs : m.src ≠ .keeper) (hd : m.dst = 0) (hr : s.sb.keeper.rxq.length < 2) :
    Answers .sbSendStart s fun t =>
      t.sb.keeper.rxq = s.sb.keeper.rxq ++ [m] ∧
      t.sb.wire = sbWinner ([Die.keeper, .flyer, .spindle].filterMap (sbReady (sbLand s))) := by
  have hl := sbLand_room s (d := .keeper) hw (sbTargets_keeper hs hd) rfl hr
  refine answers_next rfl ⟨?_, ?_⟩
  · rw [noteCheck_sb, ← sbDie_keeper, sbSend_rxq, hl]; rfl
  · rw [noteCheck_sb, sbSend_wire s (by rw [hl]; rfl)]

theorem sbSendStart_full (hw : s.sb.wire = some m) (hs : m.src ≠ .keeper) (hd : m.dst = 0) (hr : 2 ≤ s.sb.keeper.rxq.length)
    (ha : s.spindle.alive = true) :
    Answers .sbSendStart s fun t => t.sb.keeper.rxq = s.sb.keeper.rxq ∧ Counted s t (Ent.Q_FULL 6) := by
  have hl := sbLand_full s (d := .keeper) hw (sbTargets_keeper hs hd) rfl hr
  refine answers_next rfl ⟨?_, ?_⟩
  · rw [noteCheck_sb, ← sbDie_keeper, sbSend_rxq, hl]; simp [sbClear]
  · rw [Counted, noteCheck_get, sbSend_get, hl]; simp [sbClear, noteFull, ha]

theorem sbMessageDropped_keeper (hw : s.sb.wire = some m) (hs : m.src ≠ .keeper) (hd : m.dst = 0) :
    Answers (.sbMessageDropped [.keeper]) s fun t => Counted s t Ent.SB_CRC_ERR_KEEP ∧ t.sb.wire = none := by
  have hr : ((sbReceivers m).filter fun d => [Die.keeper].contains d) = [.keeper] := by
    cases h : m.src <;> simp_all [sbReceivers]
  have hn : sbNarrow m [.keeper] = none := by simp [sbNarrow, sbTargets_keeper hs hd]
  refine answers_next rfl ?_
  simp only [sbDropped, hw, hr, hn, List.foldl, sbDrop]
  exact ⟨by rw [Counted, noteCheck_get, State.onSb_get, State.bump_get_self], rfl⟩

theorem sbMessageDropped_spindle (hw : s.sb.wire = some m) (hs : m.src = .keeper) (hd : m.dst = 3) (ht : m.ty = 0xB) :
    Answers (.sbMessageDropped [.spindle]) s fun t => Counted s t Ent.SB_CRC_ERR ∧ t.sb.wire = some { m with dst := 1 } := by
  have hr : ((sbReceivers m).filter fun d => [Die.spindle].contains d) = [.spindle] := by simp [sbReceivers, hs]
  have hn : sbNarrow m [.spindle] = some { m with dst := 1 } := by
    simp [sbNarrow, sbTargets_both hs hd (by omega), dieNum]
  refine answers_next rfl ?_
  simp only [sbDropped, hw, hr, hn, List.foldl, sbDrop]
  exact ⟨by rw [Counted, noteCheck_get, State.onSb_get, State.bump_get_self], rfl⟩

theorem sbMessageCutOff_keeper (hw : s.sb.wire = some m) (hs : m.src ≠ .keeper) (hd : m.dst = 0) :
    Answers (.sbMessageCutOff [.keeper]) s fun t => Counted s t Ent.SB_CRC_ERR_KEEP ∧ t.sb.wire = none := by
  obtain ⟨t, ht, hc, -⟩ := sbMessageDropped_keeper hw hs hd
  obtain rfl : noteCheck (sbDropped s [.keeper]) = t := Host.Outcome.next.inj ht
  exact answers_next rfl ⟨hc, rfl⟩

end

/-! ## Acknowledgement and retries -/

section
variable {s : State} {m : SbMsg} {d : Die} {n : Nat}

/-- The attempt to be made again leaves the message outstanding. -/
theorem sbTimeout_again (hw : (sbDie s d).wait = [(m, n, false)]) (hn : n < 3) :
    sbTimeout s d m.ty = onSbDie s d fun x => { x with wait := x.wait.map fun v => if v == (m, n, false) then (v.1, v.2.1, true) else v } := by
  simp [sbTimeout, hw, hn]

theorem sbTimeout_abandoned (hw : (sbDie s d).wait = [(m, n, false)]) (hn : 3 ≤ n) :
    sbTimeout s d m.ty = (onSbDie s d fun x => { x with wait := x.wait.filter fun v => v != (m, n, false) }).bump Ent.SB_LOST := by
  simp [sbTimeout, hw, Nat.not_lt.2 hn]

theorem sbAckTimeout_again (hw : (sbDie s d).wait = [(m, n, false)]) (hn : n < 3) :
    Answers (.sbAckTimeout d m.ty) s fun t => (sbDie t d).wait = [(m, n, true)] := by
  have ht : (sbDie (sbTimeout s d m.ty) d).wait = [(m, n, true)] := by rw [sbTimeout_again hw hn, State.onSbDie_sbDie]; simp [hw]
  have hq : ¬(d = .keeper ∧ m.ty = 8 ∧ sbOutstanding s.sb.keeper 8 ∧ !sbOutstanding (sbTimeout s d m.ty).sb.keeper 8) := by
    rintro ⟨rfl, h8, -, ho⟩
    rw [sbDie_keeper] at ht
    simp [sbOutstanding, h8 ▸ ht, h8] at ho
  refine answers_next rfl ?_
  rw [ackTimeout, if_neg hq]
  split
  · rw [wordsCheck_wait, ht]
  · exact ht

theorem sbAckTimeout_abandoned (hw : (sbDie s d).wait = [(m, n, false)]) (hn : 3 ≤ n) (h8 : m.ty ≠ 8) :
    Answers (.sbAckTimeout d m.ty) s fun t => (sbDie t d).wait = [] ∧ Counted s t Ent.SB_LOST := by
  have ht : (sbDie (sbTimeout s d m.ty) d).wait = [] := by
    rw [sbTimeout_abandoned hw hn]
    cases d <;> simp_all [sbDie, onSbDie]
  have hc : Counted s (sbTimeout s d m.ty) Ent.SB_LOST := by rw [sbTimeout_abandoned hw hn]; simp [Counted]
  refine answers_next rfl ?_
  rw [ackTimeout, if_neg fun h => h8 h.2.1]
  split
  · rw [wordsCheck_wait, Counted, wordsCheck_get _ (by decide)]; exact ⟨ht, hc⟩
  · exact ⟨ht, hc⟩

theorem logWriteRetry_due (h : (sbDie s d).holdSent = true) : Answers (.logWriteRetry d) s fun t => (sbDie t d).holdDue = true := by
  refine answers_next rfl ?_
  rw [State.onSbDie_sbDie, if_pos h]

theorem domOf_domId (dom : Domain) : domOf (byte (domId dom)).toNat = some dom := by cases dom <;> decide

/-- What the ACK of a message does beside freeing the line: a DOMAIN message's gives the flyer domain's state. -/
theorem ackEffect_sb (s : State) (a : Option SbMsg) : (ackEffect s a).sb = s.sb := by
  unfold ackEffect
  split
  · rfl
  · split
    · rfl
    · split <;> rfl

theorem ackEffect_domain (s : State) (dom : Domain) {r : Nat} (hr : r < 3) (h5 : m.ty = 5) (hp : m.payload = [byte (domId dom), byte r]) :
    domState (ackEffect s (some m)) dom = r := by
  have hb : (byte r).toNat = r := by simp only [byte, BitVec.toNat_ofNat]; omega
  simp [ackEffect, h5, hp, domOf_domId, hb, domState, setDomState]

/-- The ACK of the one message that a die awaits releases it. -/
theorem sbAcked_one {a : SbMsg} {b : Bool} (hw : (sbDie s d).wait = [(m, n, b)]) (hp : a.payload = [byte m.ty, 0]) (ht : m.ty < 16) (h3 : m.ty ≠ 3)
    (hd : m.dst = dieNum a.src) :
    sbAcked s d a = (onSbDie s d fun x => { x with wait := x.wait.filter fun v => v != (m, n, b) }, some m) := by
  have hb : (byte m.ty).toNat = m.ty := by simp only [byte, BitVec.toNat_ofNat]; omega
  simp [sbAcked, hp, hb, h3, hw, hd]

/-- A die with nothing in its receive buffer takes nothing. -/
theorem takeOldest_empty {f : State → Die → SbMsg → State} {ty : Nat} (h : (sbDie s d).rxq = []) : takeOldest f ty s d = s := by
  simp [takeOldest, h]

/-- A die takes the oldest message of its receive buffer where it is of the type. -/
theorem takeOldest_front {f : State → Die → SbMsg → State} {ms : List SbMsg} (h : (sbDie s d).rxq = m :: ms) :
    takeOldest f m.ty s d = f s d m := by
  simp [takeOldest, h]

theorem ack_releases {b : Bool} (hw : s.sb.wire = some ⟨4, .flyer, 0, [byte m.ty, 0]⟩) (ha : s.sb.keeper.wait = [(m, n, b)]) (ht : m.ty < 16)
    (h3 : m.ty ≠ 3) (hd : m.dst = 1) (hk : s.sb.keeper.rxq = []) (hf : s.sb.flyer.rxq = []) (hsp : s.sb.spindle.rxq = []) :
    Answers .ack s fun t => t.sb.wire = none ∧ t.sb.keeper.wait = [] ∧
      ∀ (dom : Domain) (r : Nat), r < 3 → m.ty = 5 → m.payload = [byte (domId dom), byte r] → domState t dom = r := by
  have hl := sbLand_room s (d := .keeper) hw rfl rfl (by simp [hk])
  have htake : takeAck (sbLand s) .keeper ⟨4, .flyer, 0, [byte m.ty, 0]⟩ =
      ackEffect (onSbDie (sbClear s) .keeper fun x => { x with wait := x.wait.filter fun v => v != (m, n, b) }) (some m) := by
    rw [takeAck, sbLift_sbLand s hw rfl rfl hk, sbAcked_one (s := sbClear s) (d := .keeper) (a := ⟨4, .flyer, 0, [byte m.ty, 0]⟩) ha rfl ht h3 hd]
  have hsb : (takeAck (sbLand s) .keeper ⟨4, .flyer, 0, [byte m.ty, 0]⟩).sb =
      { s.sb with wire := none, keeper := { s.sb.keeper with wait := [] } } := by
    rw [htake, ackEffect_sb]; simp [onSbDie, sbClear, ha]
  have hall : onBroadcast s 4 takeAck = takeAck (sbLand s) .keeper ⟨4, .flyer, 0, [byte m.ty, 0]⟩ := by
    have hland : landOf s 4 = sbLand s := by simp [landOf, hw]
    have hfront : (sbDie (sbLand s) .keeper).rxq = [⟨4, .flyer, 0, [byte m.ty, 0]⟩] := by simp [hl, sbClear, onSbDie, hk]
    simp only [onBroadcast, hland, List.foldl]
    rw [takeOldest_front hfront, takeOldest_empty (d := .flyer) (by rw [sbDie_flyer, hsb]; exact hf),
      takeOldest_empty (by rw [sbDie_spindle, hsb]; exact hsp)]
  refine answers_next rfl ?_
  rw [hall, hsb]
  exact ⟨rfl, rfl, fun dom r hr h5 hp => htake ▸ ackEffect_domain _ dom hr h5 hp⟩

end

/-- Settles O11, clause by clause. -/
theorem sidebandTransport : Obligations.SidebandTransport := fun _ _ _ _ _ =>
  ⟨sbSendStart_idle, sbSendStart_room, sbSendStart_full, sbMessageDropped_keeper, sbMessageDropped_spindle, sbMessageCutOff_keeper,
    sbAckTimeout_again, sbAckTimeout_abandoned, logWriteRetry_due, ack_releases⟩

end Sys2Proof.Machine
end

section
/-! SUPPORT. Rules of the ply link's operations (R25 to R36): what the sending, the acknowledging and the arrival of a flit change of the lanes, and what
they leave alone. -/
namespace Sys2Proof.Machine
variable (s : State)

/-! ### One lane -/

@[simp] theorem onLane_laneOf (l : Lane) (f : LaneState → LaneState) : laneOf (onLane s l f).ply l = f (laneOf s.ply l) := by cases l <;> rfl

theorem onLane_laneOf_ne {l l' : Lane} (h : l' ≠ l) (f : LaneState → LaneState) : laneOf (onLane s l f).ply l' = laneOf s.ply l' := by
  cases l <;> cases l' <;> simp [onLane, laneOf] at h ⊢

@[simp] theorem onLane_free (l : Lane) (f : LaneState → LaneState) : (onLane s l f).free = s.free := rfl
@[simp] theorem onLane_ent (l : Lane) (f : LaneState → LaneState) : (onLane s l f).ent = s.ent := rfl
@[simp] theorem onLane_sb (l : Lane) (f : LaneState → LaneState) : (onLane s l f).sb = s.sb := rfl
@[simp] theorem onLane_flyer (l : Lane) (f : LaneState → LaneState) : (onLane s l f).flyer = s.flyer := rfl
@[simp] theorem onLane_keeper (l : Lane) (f : LaneState → LaneState) : (onLane s l f).keeper = s.keeper := rfl
@[simp] theorem onLane_log (l : Lane) (f : LaneState → LaneState) : (onLane s l f).log = s.log := rfl
@[simp] theorem onLane_doms (l : Lane) (f : LaneState → LaneState) : (onLane s l f).doms = s.doms := rfl
@[simp] theorem onLane_spindle (l : Lane) (f : LaneState → LaneState) : (onLane s l f).spindle = s.spindle := rfl
@[simp] theorem onLane_get (l : Lane) (f : LaneState → LaneState) (e : Nat) : (onLane s l f).get e = s.get e := rfl
@[simp] theorem onLane_carry (l : Lane) (f : LaneState → LaneState) : (onLane s l f).ply.carry = s.ply.carry := by cases l <;> rfl
@[simp] theorem onLane_written (l : Lane) (f : LaneState → LaneState) : (onLane s l f).ply.written = s.ply.written := by cases l <;> rfl
@[simp] theorem onLane_q (l : Lane) (f : LaneState → LaneState) : (onLane s l f).ply.q = s.ply.q := by cases l <;> rfl
@[simp] theorem onLane_kinds (l : Lane) (f : LaneState → LaneState) : (onLane s l f).ply.kinds = s.ply.kinds := by cases l <;> rfl

/-! ### Acknowledgement (R25) -/

/-- A lane whose flits below an ordinal are acknowledged. -/
def ackTo (n : Nat) (x : LaneState) : LaneState :=
  if x.acked < n then { x with acked := n, out := x.out.drop (n - x.acked), next := max x.next n, retries := 0 } else x

theorem ackLane_eq (l : Lane) (n : Nat) : ackLane s l n = (onLane s l (ackTo n)).onRes fun r => ackFlights r l n := rfl

section
variable (n : Nat) (x : LaneState)

@[simp] theorem ackTo_acked : (ackTo n x).acked = max x.acked n := by unfold ackTo; split <;> simp <;> omega
@[simp] theorem ackTo_out : (ackTo n x).out = x.out.drop (n - x.acked) := by
  unfold ackTo; split
  · rfl
  · rw [show n - x.acked = 0 by omega, List.drop_zero]
@[simp] theorem ackTo_recv : (ackTo n x).recv = x.recv := by unfold ackTo; split <;> rfl
@[simp] theorem ackTo_data : (ackTo n x).data = x.data := by unfold ackTo; split <;> rfl
@[simp] theorem ackTo_got : (ackTo n x).got = x.got := by unfold ackTo; split <;> rfl
@[simp] theorem ackTo_ended : (ackTo n x).ended = x.ended := by unfold ackTo; split <;> rfl
theorem ackTo_next (h : n ≤ x.next) : (ackTo n x).next = x.next := by unfold ackTo; split <;> simp [h]

end

theorem unmark_opt (r : Results) (f : Flight) : (unmark r f).opt = r.opt := by
  unfold unmark; split
  · split <;> rfl
  · rfl

theorem foldl_unmark_opt (fs : List (Lane × Nat × Flight)) (r : Results) : (fs.foldl (fun r x => unmark r x.2.2) r).opt = r.opt := by
  induction fs generalizing r with
  | nil => rfl
  | cons x fs ih => rw [List.foldl_cons, ih, unmark_opt]

/-- Results that are acknowledged leave the pending optical result as it is. -/
theorem ackFlights_opt (r : Results) (l : Lane) (n : Nat) : (ackFlights r l n).opt = r.opt := foldl_unmark_opt _ _

/-- Two lanes run in opposite directions. -/
def opposite (l l' : Lane) : Bool := (l == .s2f) != (l' == .s2f)

/-- A good flit's acknowledgements reach the lanes of the other direction. -/
theorem ackReverse_laneOf (l l' : Lane) :
    laneOf (ackReverse s l).ply l' = if opposite l l' then ackTo (laneOf s.ply l').recv (laneOf s.ply l') else laneOf s.ply l' := by
  cases l <;> cases l' <;> rfl

theorem ackReverse_opt (l : Lane) : (ackReverse s l).flyer.res.opt = s.flyer.res.opt := by
  cases l <;> simp [ackReverse, ackLane_eq, ackFlights_opt]

@[simp] theorem releaseDelivered_laneOf (l : Lane) : laneOf (releaseDelivered s).ply l = laneOf s.ply l := by
  unfold releaseDelivered; split
  · cases l <;> rfl
  · rfl

@[simp] theorem drainCheck_ply : (drainCheck s).ply = s.ply := by unfold drainCheck; split <;> simp
@[simp] theorem drainCheck_flyer : (drainCheck s).flyer = s.flyer := by unfold drainCheck; split <;> simp

/-- An arrival moves its own lane's receiver on by one. -/
theorem arrive_laneOf (l : Lane) : laneOf (arrive s l).ply l = { laneOf s.ply l with recv := (laneOf s.ply l).recv + 1 } := by
  unfold arrive
  rw [drainCheck_ply, releaseDelivered_laneOf, ackReverse_laneOf, onLane_laneOf, if_neg (by simp [opposite])]

/-- Beside its own, an arrival changes no lane of its direction. -/
theorem arrive_laneOf_beside {l l' : Lane} (hne : l' ≠ l) (ho : opposite l l' = false) : laneOf (arrive s l).ply l' = laneOf s.ply l' := by
  unfold arrive
  rw [drainCheck_ply, releaseDelivered_laneOf, ackReverse_laneOf, ho, onLane_laneOf_ne _ hne]; rfl

/-! ### What flits leave alone -/

/-- What the sending and the acknowledging of flits leave alone: they change the lanes, the results in flight, and let the flyer release a delivered
measurement; PLY_STATE and PLY_FLITS are their only entries. -/
structure FlitKept (s t : State) : Prop where
  spindle : t.spindle = s.spindle
  keeper : t.keeper = s.keeper
  log : t.log = s.log
  sb : t.sb = s.sb
  horn : t.flyer.horn = s.flyer.horn
  regs : t.flyer.regs = s.flyer.regs
  q : t.ply.q = s.ply.q
  kinds : t.ply.kinds = s.ply.kinds
  get : ∀ e, e ≠ Ent.PLY_STATE → e ≠ Ent.PLY_FLITS → t.get e = s.get e

variable {s}

theorem FlitKept.refl : FlitKept s s := ⟨rfl, rfl, rfl, rfl, rfl, rfl, rfl, rfl, fun _ _ _ => rfl⟩

theorem FlitKept.trans {t u : State} (h : FlitKept s t) (g : FlitKept t u) : FlitKept s u where
  spindle := g.spindle.trans h.spindle
  keeper := g.keeper.trans h.keeper
  log := g.log.trans h.log
  sb := g.sb.trans h.sb
  horn := g.horn.trans h.horn
  regs := g.regs.trans h.regs
  q := g.q.trans h.q
  kinds := g.kinds.trans h.kinds
  get := fun e h1 h2 => (g.get e h1 h2).trans (h.get e h1 h2)

theorem put_flitKept {e : Nat} (v : Nat) (h : e = Ent.PLY_STATE ∨ e = Ent.PLY_FLITS) : FlitKept s (s.put e v) :=
  ⟨rfl, rfl, rfl, rfl, rfl, rfl, rfl, rfl, fun _ h1 h2 => State.get_put_ne s (h.elim (· ▸ h1) (· ▸ h2)) v⟩

theorem onLane_flitKept (l : Lane) (f : LaneState → LaneState) : FlitKept s (onLane s l f) :=
  ⟨rfl, rfl, rfl, rfl, rfl, rfl, by simp, by simp, fun _ _ _ => rfl⟩

theorem ackLane_flitKept (l : Lane) (n : Nat) : FlitKept s (ackLane s l n) :=
  (onLane_flitKept l (ackTo n)).trans ⟨rfl, rfl, rfl, rfl, rfl, rfl, rfl, rfl, fun _ _ _ => rfl⟩

theorem ackReverse_flitKept (l : Lane) : FlitKept s (ackReverse s l) := by
  cases l
  · exact ackLane_flitKept _ _
  · exact ackLane_flitKept _ _
  · exact (ackLane_flitKept _ _).trans (ackLane_flitKept _ _)

theorem releaseDelivered_flitKept : FlitKept s (releaseDelivered s) := by
  unfold releaseDelivered; split
  · exact ⟨rfl, rfl, rfl, rfl, rfl, rfl, rfl, rfl, fun _ _ _ => rfl⟩
  · exact .refl

theorem drainCheck_flitKept : FlitKept s (drainCheck s) := by
  unfold drainCheck; split
  · exact put_flitKept _ (.inl rfl)
  · exact .refl

theorem acks_flitKept (l : Lane) : FlitKept s (drainCheck (releaseDelivered (ackReverse s l))) :=
  ((ackReverse_flitKept l).trans releaseDelivered_flitKept).trans drainCheck_flitKept

theorem arrive_flitKept (l : Lane) : FlitKept s (arrive s l) := (onLane_flitKept l _).trans (acks_flitKept l)

theorem sendFlit_flitKept (l : Lane) (f : SentFlit) : FlitKept s (sendFlit s l f) := by
  have hb : FlitKept s (s.bump Ent.PLY_FLITS) := put_flitKept _ (.inr rfl)
  unfold sendFlit; dsimp only; split
  · exact (hb.trans (onLane_flitKept l _)).trans (ackLane_flitKept l _)
  · exact hb.trans (onLane_flitKept l _)

/-! ### The flits that are counted -/

theorem ackReverse_get (l : Lane) (e : Nat) : (ackReverse s l).get e = s.get e := by cases l <;> rfl

theorem releaseDelivered_get (e : Nat) : (releaseDelivered s).get e = s.get e := by unfold releaseDelivered; split <;> rfl

theorem drainCheck_get {e : Nat} (h : e ≠ Ent.PLY_STATE) : (drainCheck s).get e = s.get e := by
  unfold drainCheck; split
  · exact State.get_put_ne _ h _
  · rfl

theorem acks_get (l : Lane) {e : Nat} (h : e ≠ Ent.PLY_STATE) : (drainCheck (releaseDelivered (ackReverse s l))).get e = s.get e := by
  rw [drainCheck_get h, releaseDelivered_get, ackReverse_get]

theorem arrive_get (l : Lane) {e : Nat} (h : e ≠ Ent.PLY_STATE) : (arrive s l).get e = s.get e := (acks_get l h).trans (onLane_get _ _ _ _)

/-- A flit sent is counted (R28). -/
theorem sendFlit_counted (l : Lane) (f : SentFlit) : Counted s (sendFlit s l f) Ent.PLY_FLITS := by
  have : (sendFlit s l f).get Ent.PLY_FLITS = (s.bump Ent.PLY_FLITS).get Ent.PLY_FLITS := by
    unfold sendFlit; dsimp only; split <;> simp [ackLane_eq]
  rw [Counted, this, State.bump_get_self]

theorem sendFlit_get (l : Lane) (f : SentFlit) {e : Nat} (h : e ≠ Ent.PLY_FLITS) : (sendFlit s l f).get e = s.get e := by
  have : (sendFlit s l f).get e = (s.bump Ent.PLY_FLITS).get e := by
    unfold sendFlit; dsimp only; split <;> simp [ackLane_eq]
  rw [this, State.bump_get _ h]

/-! ### The sender's window (R28) -/

/-- A new flit joins those that await an acknowledgement; the window of 4 means that the flits 4 or more before it are acknowledged. -/
theorem sendFlit_new {l : Lane} {f : SentFlit} (h : (laneOf s.ply l).next = (laneOf s.ply l).sentTo) :
    laneOf (sendFlit s l f).ply l = ackTo ((laneOf s.ply l).sentTo + 1 - 4)
      { laneOf s.ply l with next := (laneOf s.ply l).next + 1, out := (laneOf s.ply l).out ++ [f], last := laneFlit s l f } := by
  have hf : ((laneOf s.ply l).next == (laneOf s.ply l).sentTo) = true := by simpa using h
  unfold sendFlit
  simp only [hf, if_true, ackLane_eq, State.onRes_ply, onLane_laneOf]
  simp [LaneState.sentTo, Nat.add_assoc]

/-- A flit that is repeated stays where it is. -/
theorem sendFlit_again {l : Lane} {f : SentFlit} (h : (laneOf s.ply l).next ≠ (laneOf s.ply l).sentTo) :
    laneOf (sendFlit s l f).ply l = { laneOf s.ply l with next := (laneOf s.ply l).next + 1, last := laneFlit s l f } := by
  have hf : ((laneOf s.ply l).next == (laneOf s.ply l).sentTo) = false := by simpa using h
  unfold sendFlit
  simp only [hf, Bool.false_eq_true, if_false, onLane_laneOf, State.bump_ply]

/-- A flit sent moves the sender on by one and no receiver. -/
theorem sendFlit_next (l : Lane) (f : SentFlit) : (laneOf (sendFlit s l f).ply l).next = (laneOf s.ply l).next + 1 := by
  by_cases h : (laneOf s.ply l).next = (laneOf s.ply l).sentTo
  · rw [sendFlit_new h, ackTo_next _ _ (by simp only [h]; omega)]
  · rw [sendFlit_again h]

theorem sendFlit_recv (l : Lane) (f : SentFlit) : (laneOf (sendFlit s l f).ply l).recv = (laneOf s.ply l).recv := by
  by_cases h : (laneOf s.ply l).next = (laneOf s.ply l).sentTo
  · rw [sendFlit_new h, ackTo_recv]
  · rw [sendFlit_again h]

theorem sendFlit_data (l : Lane) (f : SentFlit) : (laneOf (sendFlit s l f).ply l).data = (laneOf s.ply l).data := by
  by_cases h : (laneOf s.ply l).next = (laneOf s.ply l).sentTo
  · rw [sendFlit_new h, ackTo_data]
  · rw [sendFlit_again h]

theorem sendFlit_got (l : Lane) (f : SentFlit) : (laneOf (sendFlit s l f).ply l).got = (laneOf s.ply l).got := by
  by_cases h : (laneOf s.ply l).next = (laneOf s.ply l).sentTo
  · rw [sendFlit_new h, ackTo_got]
  · rw [sendFlit_again h]

theorem sendFlit_laneOf_ne {l l' : Lane} (h : l' ≠ l) (f : SentFlit) : laneOf (sendFlit s l f).ply l' = laneOf s.ply l' := by
  unfold sendFlit
  dsimp only
  split
  · rw [ackLane_eq, State.onRes_ply, onLane_laneOf_ne _ h, onLane_laneOf_ne _ h, State.bump_ply]
  · rw [onLane_laneOf_ne _ h, State.bump_ply]

end Sys2Proof.Machine
end

section
/-! SUPPORT. The flits that a sender has, and what their receivers take from them (R26, R27, R148, R184). -/
namespace Sys2Proof.Machine

/-! ### Fields of equal length, side by side -/

theorem block_at {α : Type} {f : α → Bytes} {n : Nat} (hf : ∀ x, (f x).length = n) (xs : List α) (rest : Bytes) {j : Nat} (h : j < xs.length) :
    ((xs.flatMap f ++ rest).drop (n * j)).take n = f xs[j] := by
  induction xs generalizing j with
  | nil => simp at h
  | cons x xs ih =>
    cases j with
    | zero => simp [← hf x]
    | succ j =>
      have hj : n * (j + 1) = (f x).length + n * j := by rw [hf]; ring
      rw [List.flatMap_cons, List.append_assoc, hj, List.drop_append, List.drop_eq_nil_of_le (by omega)]
      simpa using ih (Nat.lt_of_succ_lt_succ h)

theorem fitBytes_short {n : Nat} {bs : Bytes} (h : bs.length ≤ n) : fitBytes n bs = bs ++ zeros (n - bs.length) := by
  rw [fitBytes, List.take_of_length_le h]

/-- Bytes read from within bytes written. -/
theorem Region.getAll_putAll (r : Region) (a : Nat) (bs : Bytes) {i n : Nat} (h : i + n ≤ bs.length) :
    (r.putAll a bs).getAll (a + i) n = (bs.drop i).take n := by
  refine List.ext_getElem (by simp [Region.getAll]; omega) fun j hj _ => ?_
  have hj : j < n := by simpa [Region.getAll] using hj
  have := Region.get_putAll_in r a bs (i + j) (by omega)
  simpa [Region.getAll, Nat.add_assoc] using this

/-! ### CAPTURE flits (R26, R27) -/

theorem captureWords_length (p : Bytes) : (captureWords p).length = 32 := by
  have : ∀ (n v : Nat), ((unpackSamples n v).flatMap (leBytes 2)).length = 2 * n := by
    intro n
    induction n with
    | zero => intro; rfl
    | succ n ih => intro v; simp [unpackSamples, ih, leBytes_length]; ring
  exact this 16 _

/-- Sample `j` of a CAPTURE flit, as a halfword of what its payload unpacks to. -/
theorem captureWords_at (xs : List Nat) (index : Nat) {j : Nat} (h : j < 16) :
    leNat (((captureWords (capturePayload xs index)).drop (2 * j)).take 2) = xs.getD (index * 16 + j) 0 % 4096 := by
  have hl : j < ((captureSamples xs index).map (· % 4096)).length := by simp [captureSamples, h]
  have hb := block_at (leBytes_length 2) ((captureSamples xs index).map (· % 4096)) [] hl
  rw [List.append_nil] at hb
  rw [captureWords_payload, hb, leNat_leBytes]
  simp [captureSamples]
  omega

/-- The place in capture SRAM that a CAPTURE flit's TAG names. -/
theorem captureTag_place {c k : Nat} (hc : c < 4) (hk : k < 128) (tag : Nat) :
    captureTag c k tag / 2 ^ 14 % 4 * 0x1000 + captureTag c k tag / 128 % 128 * 32 = c * 0x1000 + k * 32 := by
  unfold captureTag; omega

theorem captureTag_tag (c k tag : Nat) : captureTag c k tag % 128 = tag % 128 := by unfold captureTag; omega

/-! ### HORN flits (R148) -/

theorem hornBytes_length (c : HornCmd) : (hornBytes c).length = 8 := by simp [hornBytes, leBytes_length]

/-- A command whose fields fit their bytes. -/
abbrev HornCmd.fits (c : HornCmd) : Prop := c.op < 256 ∧ c.arg < 256 ∧ c.onMs < 65536 ∧ c.offMs < 65536 ∧ c.reps < 256

theorem hornCmdOf_hornBytes {c : HornCmd} (h : c.fits) : hornCmdOf (hornBytes c) = c := by
  obtain ⟨op, arg, onMs, offMs, reps⟩ := c
  simp only [HornCmd.fits] at h
  simp only [hornCmdOf, hornBytes, HornCmd.mk.injEq]
  simp [leBytes, leNat, byte]
  omega

/-- A HORN flit's commands are those it was formed of. -/
theorem hornCmds_hornFlit {cs : List HornCmd} (h3 : cs.length ≤ 3) (h : ∀ c ∈ cs, c.fits) : hornCmds (hornFlit cs) = cs := by
  have hl : (cs.flatMap hornBytes).length ≤ 24 := by simp [List.length_flatMap, hornBytes_length]; omega
  refine List.ext_getElem (by simp [hornCmds, hornFlit]) fun i _ hi => ?_
  simp only [hornCmds, hornFlit, List.getElem_map, List.getElem_range, fitBytes_short hl, block_at hornBytes_length cs _ hi]
  exact hornCmdOf_hornBytes (h _ (List.getElem_mem hi))

/-- What a HORN flit's command does at the flyer (R148). -/
def hornTakes (h : Horn) (c : HornCmd) : Horn :=
  if c.op = 4 then { h with fwKinds := some (c.arg % 8), relKinds := c.arg / 16 % 8 } else { h with queue := (h.queue ++ [c]).take 8 }

theorem takeHorn_eq (s : State) (g : SentFlit) : takeHorn s g = s.onHorn fun h => (hornCmds g).foldl hornTakes h := rfl

theorem take_take_append {α : Type} (n : Nat) (l m : List α) : (l.take n ++ m).take n = (l ++ m).take n := by
  simp only [List.take_append, List.take_take, List.length_take, Nat.min_self]
  rw [show n - min n l.length = n - l.length by omega]

/-- Commands other than op 0x04 go to queue 01 as far as it has room. -/
theorem hornTakes_queue {cs : List HornCmd} {h : Horn} (h4 : ∀ c ∈ cs, c.op ≠ 4) (hq : h.queue.length ≤ 8) :
    (cs.foldl hornTakes h).queue = (h.queue ++ cs).take 8 := by
  induction cs generalizing h with
  | nil => simp [List.take_of_length_le hq]
  | cons c cs ih =>
    have hc : hornTakes h c = { h with queue := (h.queue ++ [c]).take 8 } := if_neg (h4 c (by simp))
    rw [List.foldl_cons, hc, ih (fun c hm => h4 c (by simp [hm])) (by simp), take_take_append, List.append_assoc, List.singleton_append]

/-! ### The flit that a sender has next (R25, R28) -/

section
variable {s t : State} {l : Lane} {k : FlitKind} {g : SentFlit}

/-- A fresh lane, in parts: its sender has nothing to repeat. -/
theorem fresh_parts (h : fresh s l = true) :
    plyState s = 2 ∧ (laneOf s.ply l).ended = false ∧ (laneOf s.ply l).next = (laneOf s.ply l).recv ∧
      (laneOf s.ply l).next = (laneOf s.ply l).sentTo ∧ canSendNew (laneOf s.ply l) = true := by
  simp only [fresh, Bool.and_eq_true, beq_iff_eq, Bool.not_eq_true'] at h
  obtain ⟨⟨⟨h2, he⟩, hn⟩, hc⟩ := h
  have hs := hc
  simp only [canSendNew, Bool.and_eq_true, beq_iff_eq] at hs
  exact ⟨h2, he, hn, hs.1, hc⟩

/-- A fresh lane's sender sends a new flit, and the receiver takes it. -/
theorem flitArrives_fresh {f : State → SentFlit → State} (h : fresh s l = true) (hs : source s l k = some (t, g)) (hk : isOf k g = true) :
    flitArrives s l k f = f (arrive (sendFlit t l g) l) g := by
  obtain ⟨h2, -, hr, hn, hc⟩ := fresh_parts h
  have hout : (laneOf s.ply l).out[(laneOf s.ply l).next - (laneOf s.ply l).acked]? = none := by
    rw [hn, LaneState.sentTo, Nat.add_sub_cancel_left]
    exact List.getElem?_eq_none le_rfl
  have hnext : nextFlit s l k = some (t, g) := by simp only [nextFlit, hout, hc, if_true, hs]
  have hgo : ¬(plyState s ≠ 2 ∨ (laneOf s.ply l).next ≠ (laneOf s.ply l).recv) := by simp [h2, hr]
  simp only [flitArrives, if_neg hgo, hnext, hk, if_true]

/-- What taking a new flit from its source leaves as it was: the entries, and the lane beside its CAPTURE count and its END. -/
structure Sourced (s t : State) (l : Lane) : Prop where
  get : ∀ e, t.get e = s.get e
  lane : laneOf t.ply l = { laneOf s.ply l with data := (laneOf t.ply l).data, ended := (laneOf t.ply l).ended }

theorem sourceCapture_sourced (h : sourceCapture s l = some (t, g)) : Sourced s t l := by
  unfold sourceCapture at h
  dsimp only at h
  split at h
  · split at h
    · obtain ⟨rfl, -⟩ := Prod.mk.inj (Option.some.inj h)
      exact ⟨fun _ => rfl, by simp⟩
    · cases h
  · cases h

theorem sourceHorn_sourced (h : sourceHorn s = some (t, g)) : Sourced s t l := by
  unfold sourceHorn at h
  split at h <;> cases h <;> exact ⟨fun _ => rfl, by cases l <;> rfl⟩

theorem sourceStatus_sourced {n : Nat} (h : sourceStatus s l n = some (t, g)) : Sourced s t l := by
  obtain ⟨x, -, hx⟩ := Option.map_eq_some_iff.1 h
  obtain ⟨rfl, -⟩ := Prod.mk.inj hx
  exact ⟨fun _ => rfl, rfl⟩

theorem sourceEnd_sourced (h : sourceEnd s l = some (t, g)) : Sourced s t l := by
  unfold sourceEnd at h
  split at h
  · obtain ⟨rfl, -⟩ := Prod.mk.inj (Option.some.inj h)
    exact ⟨fun _ => rfl, by simp [State.used]⟩
  · cases h

theorem source_sourced (h : source s l k = some (t, g)) : Sourced s t l := by
  unfold source at h
  split at h
  · cases h
  cases k with
  | idle => cases h
  | capture => exact sourceCapture_sourced (by simpa using (Option.ite_none_left_eq_some.1 h).2)
  | command reg val =>
    obtain ⟨rfl, -⟩ := Prod.mk.inj (Option.some.inj (Option.ite_none_right_eq_some.1 h).2)
    exact ⟨fun _ => rfl, rfl⟩
  | horn => exact sourceHorn_sourced (Option.ite_none_right_eq_some.1 h).2
  | status n => exact sourceStatus_sourced (Option.ite_none_left_eq_some.1 h).2
  | end_ => exact sourceEnd_sourced h

theorem nextFlit_sourced (h : nextFlit s l k = some (t, g)) : Sourced s t l := by
  unfold nextFlit at h
  dsimp only at h
  split at h
  · obtain ⟨rfl, -⟩ := Prod.mk.inj (Option.some.inj h)
    exact ⟨fun _ => rfl, rfl⟩
  · exact source_sourced (Option.ite_none_right_eq_some.1 h).2

end

/-! ### What the arrival of a new flit leaves -/

section
variable {s : State} {l : Lane} {g : SentFlit}

theorem delivered_flitKept : FlitKept s (arrive (sendFlit s l g) l) := (sendFlit_flitKept l g).trans (arrive_flitKept l)

/-- A flit that arrives is counted. -/
theorem delivered_counted : Counted s (arrive (sendFlit s l g) l) Ent.PLY_FLITS := by
  rw [Counted, arrive_get l (by decide), sendFlit_counted]

theorem delivered_recv : (laneOf (arrive (sendFlit s l g) l).ply l).recv = (laneOf s.ply l).recv + 1 := by
  rw [arrive_laneOf, sendFlit_recv]

theorem delivered_got : (laneOf (arrive (sendFlit s l g) l).ply l).got = (laneOf s.ply l).got := by
  rw [arrive_laneOf]; exact sendFlit_got l g

theorem delivered_data : (laneOf (arrive (sendFlit s l g) l).ply l).data = (laneOf s.ply l).data := by
  rw [arrive_laneOf, sendFlit_data]

end

/-! ### The delivery of a capture (R34, R110) -/

section
variable {s : State} {l : Lane}

/-- The CAPTURE flit `k` of a lane, of a measurement. -/
def captureFlit (x : Measurement) (l : Lane) (k : Nat) : SentFlit :=
  ⟨1, captureTag (k / 128 * 2 + laneNum l) (k % 128) x.tag, capturePayload (laneCapture x.caps l k) (k % 128)⟩

/-- A CAPTURE flit has been placed on the lane. -/
def captureSent (s : State) (l : Lane) : State := onLane s l fun y => { y with data := (laneOf s.ply l).data + 1 }

theorem source_capture {x : Measurement} (h : fresh s l = true) (hl : l ≠ .s2f) (hb : s.flyer.sense.buf = some x) (hc : s.ply.carry = true)
    (hk : (laneOf s.ply l).data < 256) : source s l .capture = some (captureSent s l, captureFlit x l (laneOf s.ply l).data) := by
  obtain ⟨-, he, -⟩ := fresh_parts h
  simp [source, he, hl, sourceCapture, hb, hc, hk, captureSent, captureFlit]

/-- While a CAPTURE flit of a lane from the flyer awaits its acknowledgement, nothing is released. -/
theorem releaseDelivered_of_capturesOut (hl : l ≠ .s2f) (h : capturesOut (laneOf s.ply l) = true) : releaseDelivered s = s := by
  unfold releaseDelivered
  cases l with
  | s2f => exact absurd rfl hl
  | f2s0 => rw [if_neg (by simp [show capturesOut s.ply.f2s0 = true from h])]
  | f2s1 => rw [if_neg (by simp [show capturesOut s.ply.f2s1 = true from h])]

/-- Once no CAPTURE flit of a written measurement awaits its acknowledgement, the flyer lets go of it. -/
theorem releaseDelivered_done (hw : s.ply.written = true) (h0 : s.ply.f2s0.out = []) (h1 : s.ply.f2s1.out = []) :
    releaseDelivered s = ((s.onPly fun p => { p with carry := false, written := false }).onSense fun x => { x with buf := none }).onRes
      fun r => { r with opt := r.opt.map fun o => { o with offered := false } } := by
  simp [releaseDelivered, hw, capturesOut, h0, h1]

/-- A new CAPTURE flit awaits its acknowledgement. -/
theorem sendFlit_capturesOut {g : SentFlit} (hn : (laneOf s.ply l).next = (laneOf s.ply l).sentTo) (hg : g.ty = 1) :
    capturesOut (laneOf (sendFlit s l g).ply l) = true := by
  rw [sendFlit_new hn, capturesOut, ackTo_out, List.any_eq_true]
  refine ⟨g, ?_, by simp [hg]⟩
  simp only [LaneState.sentTo]
  rw [List.drop_append_of_le_length (by omega)]
  simp

@[simp] theorem ackLane_carry (l : Lane) (n : Nat) : (ackLane s l n).ply.carry = s.ply.carry := by rw [ackLane_eq]; simp
@[simp] theorem ackLane_written (l : Lane) (n : Nat) : (ackLane s l n).ply.written = s.ply.written := by rw [ackLane_eq]; simp
@[simp] theorem ackLane_sense (l : Lane) (n : Nat) : (ackLane s l n).flyer.sense = s.flyer.sense := rfl

@[simp] theorem ackReverse_carry (l : Lane) : (ackReverse s l).ply.carry = s.ply.carry := by cases l <;> simp [ackReverse]
@[simp] theorem ackReverse_written (l : Lane) : (ackReverse s l).ply.written = s.ply.written := by cases l <;> simp [ackReverse]
@[simp] theorem ackReverse_sense (l : Lane) : (ackReverse s l).flyer.sense = s.flyer.sense := by cases l <;> rfl

@[simp] theorem sendFlit_carry (l : Lane) (g : SentFlit) : (sendFlit s l g).ply.carry = s.ply.carry := by
  unfold sendFlit; dsimp only; split <;> simp
@[simp] theorem sendFlit_sense (l : Lane) (g : SentFlit) : (sendFlit s l g).flyer.sense = s.flyer.sense := by
  unfold sendFlit; dsimp only; split <;> simp

/-- The arrival of a new CAPTURE flit leaves the measurement with the flyer. -/
theorem delivered_capture {g : SentFlit} (hl : l ≠ .s2f) (hn : (laneOf s.ply l).next = (laneOf s.ply l).sentTo) (hg : g.ty = 1) :
    (arrive (sendFlit s l g) l).ply.carry = s.ply.carry ∧ (arrive (sendFlit s l g) l).flyer.sense = s.flyer.sense ∧
      capturesOut (laneOf (arrive (sendFlit s l g) l).ply l) = true := by
  have hout := sendFlit_capturesOut hn hg
  refine ⟨?_, ?_, by rw [arrive_laneOf]; exact hout⟩ <;>
    rw [arrive, releaseDelivered_of_capturesOut hl (by rw [ackReverse_laneOf, if_neg (by simp [opposite]), onLane_laneOf]; exact hout)] <;> simp

/-- The last CAPTURE flit of a measurement that the flyer still holds (R34). -/
def captureNoted (s : State) (x : Measurement) : State :=
  (raise ((s.put Ent.CAPT_HELD 1).put Ent.OPT_CAPT_TAG x.tag) 8).onPly fun p => { p with written := true }

theorem captureDone_eq {x : Measurement} (h : s.flyer.sense.buf = some x) : captureDone s = releaseDelivered (captureNoted s x) := by
  simp only [captureDone, h, captureNoted]

theorem captureNoted_laneOf (x : Measurement) (l : Lane) : laneOf (captureNoted s x).ply l = laneOf s.ply l := by
  unfold captureNoted; cases l <;> simp [laneOf]

theorem captureNoted_held (x : Measurement) : (captureNoted s x).get Ent.CAPT_HELD = 1 := by
  rw [captureNoted, State.onPly_get, raise_get _ (by decide), State.get_put_ne _ (by decide), State.get_put_self]

theorem captureNoted_tag (x : Measurement) : (captureNoted s x).get Ent.OPT_CAPT_TAG = x.tag := by
  rw [captureNoted, State.onPly_get, raise_get _ (by decide), State.get_put_self]

theorem captureNoted_sense (x : Measurement) : (captureNoted s x).flyer.sense = s.flyer.sense := by simp [captureNoted]

theorem captureDone_laneOf (l : Lane) : laneOf (captureDone s).ply l = laneOf s.ply l := by
  cases h : s.flyer.sense.buf with
  | none => simp only [captureDone, h]
  | some x => rw [captureDone_eq h, releaseDelivered_laneOf, captureNoted_laneOf]

theorem captureDone_mem : (captureDone s).spindle.mem = s.spindle.mem := by
  cases h : s.flyer.sense.buf with
  | none => simp only [captureDone, h]
  | some x => rw [captureDone_eq h, releaseDelivered_flitKept.spindle, captureNoted, State.onPly_spindle, raise_spindle]; simp

theorem captureDone_get {e : Nat} (h1 : e ≠ Ent.CAPT_HELD) (h2 : e ≠ Ent.OPT_CAPT_TAG) (h3 : e ≠ Ent.NOTICE_PENDING) :
    (captureDone s).get e = s.get e := by
  cases h : s.flyer.sense.buf with
  | none => simp only [captureDone, h]
  | some x =>
    rw [captureDone_eq h, releaseDelivered_get, captureNoted, State.onPly_get, raise_get _ h3, State.get_put_ne _ h2, State.get_put_ne _ h1]

/-- A CAPTURE flit's samples in their place. -/
def captured (s : State) (g : SentFlit) : State :=
  s.onMem fun x => { x with capt := x.capt.putAll (g.tag / 2 ^ 14 % 4 * 0x1000 + g.tag / 128 % 128 * 32) (captureWords g.payload) }

/-- A lane that has brought one more CAPTURE flit of the carried measurement. -/
def gotOne (x : LaneState) : LaneState := { x with got := x.got + 1 }

/-- The receiver writes the samples, counts the flit where it is of the carried measurement, and ends the delivery with the last. -/
theorem takeCapture_cases (s : State) (l : Lane) (g : SentFlit) :
    takeCapture s l g = captured s g ∨ takeCapture s l g = onLane (captured s g) l gotOne ∨
      takeCapture s l g = captureDone (onLane (captured s g) l gotOne) := by
  unfold takeCapture
  dsimp only
  split
  · split
    · exact .inr (.inr rfl)
    · exact .inr (.inl rfl)
  · exact .inl rfl

/-- The last CAPTURE flit of the carried measurement, whose acknowledgement is still awaited: the flyer holds the measurement until then. -/
theorem takeCapture_last {x : Measurement} {g : SentFlit} (hl : l ≠ .s2f) (hc : s.ply.carry = true) (hb : s.flyer.sense.buf = some x)
    (hg : x.tag % 128 = g.tag % 128)
    (h0 : (laneOf (onLane s l gotOne).ply .f2s0).got = 256)
    (h1 : (laneOf (onLane s l gotOne).ply .f2s1).got = 256) (ho : capturesOut (laneOf s.ply l) = true) :
    takeCapture s l g = captureNoted (onLane (captured s g) l gotOne) x := by
  have hof : ofCarried (captured s g) g = true := by simp [ofCarried, captured, hc, hb, hg]
  have hgot : (onLane (captured s g) l gotOne).ply.f2s0.got = 256 ∧
      (onLane (captured s g) l gotOne).ply.f2s1.got = 256 := ⟨h0, h1⟩
  have hdone : takeCapture s l g = captureDone (onLane (captured s g) l gotOne) := by
    unfold takeCapture
    exact (if_pos hof).trans (if_pos hgot)
  rw [hdone, captureDone_eq (s := onLane (captured s g) l gotOne) hb]
  exact releaseDelivered_of_capturesOut hl (by rw [captureNoted_laneOf, onLane_laneOf]; exact ho)

theorem takeCapture_lane (l : Lane) (g : SentFlit) :
    laneOf (takeCapture s l g).ply l = { laneOf s.ply l with got := (laneOf (takeCapture s l g).ply l).got } := by
  rcases takeCapture_cases s l g with h | h | h <;> rw [h]
  · rfl
  · simp [captured, gotOne]
  · simp [captureDone_laneOf, captured, gotOne]

theorem takeCapture_capt (l : Lane) (g : SentFlit) : (takeCapture s l g).spindle.mem.capt =
    s.spindle.mem.capt.putAll (g.tag / 2 ^ 14 % 4 * 0x1000 + g.tag / 128 % 128 * 32) (captureWords g.payload) := by
  rcases takeCapture_cases s l g with h | h | h <;> rw [h]
  · rfl
  · rfl
  · rw [captureDone_mem]; rfl

theorem takeCapture_get (l : Lane) (g : SentFlit) {e : Nat} (h1 : e ≠ Ent.CAPT_HELD) (h2 : e ≠ Ent.OPT_CAPT_TAG) (h3 : e ≠ Ent.NOTICE_PENDING) :
    (takeCapture s l g).get e = s.get e := by
  rcases takeCapture_cases s l g with h | h | h <;> rw [h]
  · rfl
  · rfl
  · rw [captureDone_get h1 h2 h3]; rfl

end

end Sys2Proof.Machine
end

section
/-! CLAIMS. The flits of the ply link (R22 to R29, R34, R148, R184). -/
namespace Sys2Proof.Machine

/-! ## IDLE flits and discarded flits -/

section
variable {s : State} {lane : Lane}

/-- An IDLE flit has been taken, its acknowledgements with it. -/
def idleTaken (s : State) (l : Lane) : State :=
  releaseDelivered (ackReverse (onLane (s.bump Ent.PLY_FLITS) l fun x => { x with last := laneFlit s l ⟨0, 0, zeros 24⟩ }) l)

theorem idleArrives_eq (h2 : plyState s = 2 ∨ plyState s = 3) (hn : (laneOf s.ply lane).next = (laneOf s.ply lane).recv) :
    idleArrives s lane = drainCheck (idleTaken s lane) := if_pos ⟨h2, hn⟩

theorem idleTaken_get (s : State) (l : Lane) (e : Nat) : (idleTaken s l).get e = (s.bump Ent.PLY_FLITS).get e := by
  rw [idleTaken, releaseDelivered_get, ackReverse_get, onLane_get]

/-- It acknowledges what the lanes of the other direction have received. -/
theorem idleTaken_opposite (s : State) {l l' : Lane} (ho : opposite l l' = true) :
    laneOf (idleTaken s l).ply l' = ackTo (laneOf s.ply l').recv (laneOf s.ply l') := by
  have hne : l' ≠ l := by rintro rfl; simp [opposite] at ho
  rw [idleTaken, releaseDelivered_laneOf, ackReverse_laneOf, if_pos ho, onLane_laneOf_ne _ hne, State.bump_ply]

/-- It has no place in its own lane's window. -/
theorem idleTaken_self (s : State) (l : Lane) :
    laneOf (idleTaken s l).ply l = { laneOf s.ply l with last := laneFlit s l ⟨0, 0, zeros 24⟩ } := by
  rw [idleTaken, releaseDelivered_laneOf, ackReverse_laneOf, if_neg (by simp [opposite]), onLane_laneOf, State.bump_ply]

theorem plyIdleFlit_acknowledges (h2 : plyState s = 2 ∨ plyState s = 3) (hn : (laneOf s.ply lane).next = (laneOf s.ply lane).recv) :
    Answers (.plyIdleFlit lane) s fun t =>
      Counted s t Ent.PLY_FLITS ∧ (laneOf t.ply lane).recv = (laneOf s.ply lane).recv ∧
      (if lane = .s2f then t.ply.f2s0.acked = max s.ply.f2s0.acked s.ply.f2s0.recv ∧ t.ply.f2s1.acked = max s.ply.f2s1.acked s.ply.f2s1.recv
       else t.ply.s2f.acked = max s.ply.s2f.acked s.ply.s2f.recv) := by
  have hack : ∀ l', opposite lane l' = true →
      (laneOf (drainCheck (idleTaken s lane)).ply l').acked = max (laneOf s.ply l').acked (laneOf s.ply l').recv := fun l' ho => by
    rw [drainCheck_ply, idleTaken_opposite s ho, ackTo_acked]
  refine answers_next rfl ?_
  rw [idleArrives_eq h2 hn]
  refine ⟨?_, ?_, ?_⟩
  · rw [Counted, drainCheck_get (by decide), idleTaken_get, State.bump_get_self]
  · rw [drainCheck_ply, idleTaken_self]
  · cases lane
    · exact hack .s2f rfl
    · exact hack .s2f rfl
    · exact ⟨hack .f2s0 rfl, hack .f2s1 rfl⟩

/-- Where a flit's CRC failed, that is counted as well; nothing else changes. -/
theorem crcCounted (why : Discard) {s t : State} (h : t.get Ent.PLY_CRC_ERR = s.get Ent.PLY_CRC_ERR) :
    if why = .crc then Counted s (if why = .crc then t.bump Ent.PLY_CRC_ERR else t) Ent.PLY_CRC_ERR
    else (if why = .crc then t.bump Ent.PLY_CRC_ERR else t).get Ent.PLY_CRC_ERR = s.get Ent.PLY_CRC_ERR := by
  split
  · rw [Counted, State.bump_get_self, h]
  · exact h

theorem plyFlitDiscarded_idle (why : Discard) (h2 : plyState s = 2 ∨ plyState s = 3) :
    Answers (.plyFlitDiscarded lane (why, .idle)) s fun t =>
      Counted s t Ent.PLY_FLITS ∧ (laneOf t.ply lane).recv = (laneOf s.ply lane).recv ∧
      (if why = .crc then Counted s t Ent.PLY_CRC_ERR else t.get Ent.PLY_CRC_ERR = s.get Ent.PLY_CRC_ERR) := by
  have he : flitDiscarded s lane why .idle = if why = .crc
      then (onLane (s.bump Ent.PLY_FLITS) lane fun x => { x with last := laneFlit s lane ⟨0, 0, zeros 24⟩ }).bump Ent.PLY_CRC_ERR
      else onLane (s.bump Ent.PLY_FLITS) lane fun x => { x with last := laneFlit s lane ⟨0, 0, zeros 24⟩ } := by
    simp only [flitDiscarded, if_pos h2, if_true]
  refine answers_next rfl ⟨?_, ?_, ?_⟩
  · rw [Counted, he]; split
    · rw [State.bump_get _ (by decide), onLane_get, State.bump_get_self]
    · rw [onLane_get, State.bump_get_self]
  · rw [he]; split <;> simp
  · rw [he]
    exact crcCounted why (by rw [onLane_get, State.bump_get _ (by decide)])

theorem plyFlitDiscarded_flit (why : Discard) (k : FlitKind) (hk : k ≠ .idle) (h2 : plyState s = 2) (hf : (nextFlit s lane k).isSome = true) :
    Answers (.plyFlitDiscarded lane (why, k)) s fun t =>
      Counted s t Ent.PLY_FLITS ∧ (laneOf t.ply lane).recv = (laneOf s.ply lane).recv ∧ (laneOf t.ply lane).next = (laneOf s.ply lane).next + 1 ∧
      (if why = .crc then Counted s t Ent.PLY_CRC_ERR else t.get Ent.PLY_CRC_ERR = s.get Ent.PLY_CRC_ERR) := by
  obtain ⟨⟨u, g⟩, hug⟩ := Option.isSome_iff_exists.1 hf
  obtain ⟨hget, hlane⟩ := nextFlit_sourced hug
  have he : flitDiscarded s lane why k = if why = .crc then (sendFlit u lane g).bump Ent.PLY_CRC_ERR else sendFlit u lane g := by
    simp only [flitDiscarded, if_neg hk, h2, hug, ne_eq, not_true_eq_false, if_false]
  have hply : (flitDiscarded s lane why k).ply = (sendFlit u lane g).ply := by rw [he]; split <;> simp
  refine answers_next rfl ⟨?_, ?_, ?_, ?_⟩
  · rw [Counted, he, ← hget]; split
    · rw [State.bump_get _ (by decide), sendFlit_counted]
    · rw [sendFlit_counted]
  · rw [hply, sendFlit_recv, hlane]
  · rw [hply, sendFlit_next, hlane]
  · rw [he]
    exact crcCounted why (by rw [sendFlit_get _ _ (by decide), hget])

end

/-! ## CAPTURE flits -/

section
variable {s : State} {lane : Lane} {x : Measurement} {k : Nat}

/-- A CAPTURE flit of a carried measurement is taken by the spindle end. -/
theorem plyCaptureFlit_taken (h : fresh s lane = true) (hl : lane ≠ .s2f) (hb : s.flyer.sense.buf = some x) (hc : s.ply.carry = true)
    (hk : (laneOf s.ply lane).data < 256) : flitArrives s lane .capture (fun s g => takeCapture s lane g) =
      takeCapture (arrive (sendFlit (captureSent s lane) lane (captureFlit x lane (laneOf s.ply lane).data)) lane) lane
        (captureFlit x lane (laneOf s.ply lane).data) := flitArrives_fresh h (source_capture h hl hb hc hk) rfl

theorem laneNum_lt (hl : lane ≠ .s2f) : laneNum lane < 2 := by cases lane <;> simp_all [laneNum]

theorem plyCaptureFlit_written {addr : Nat} (h : fresh s lane = true) (hl : lane ≠ .s2f) (hb : s.flyer.sense.buf = some x)
    (hc : s.ply.carry = true) (hk : k = (laneOf s.ply lane).data) (hlt : k < 256)
    (ha : addr = (k / 128 * 2 + laneNum lane) * 0x1000 + k % 128 * 32) :
    Answers (.plyCaptureFlit lane) s fun t =>
      (laneOf t.ply lane).data = k + 1 ∧ (laneOf t.ply lane).recv = (laneOf s.ply lane).recv + 1 ∧ Counted s t Ent.PLY_FLITS ∧
      (∀ j, j < 16 → leNat (t.spindle.mem.capt.getAll (addr + 2 * j) 2) = (laneCapture x.caps lane k).getD (k % 128 * 16 + j) 0 % 4096) ∧
      (∀ a, a < addr ∨ addr + 32 ≤ a → t.spindle.mem.capt.get a = s.spindle.mem.capt.get a) := by
  subst hk
  have hd : laneOf (captureSent s lane).ply lane = { laneOf s.ply lane with data := (laneOf s.ply lane).data + 1 } := onLane_laneOf ..
  have hln := laneNum_lt hl
  have hcapt := takeCapture_capt (s := arrive (sendFlit (captureSent s lane) lane (captureFlit x lane (laneOf s.ply lane).data)) lane) lane
    (captureFlit x lane (laneOf s.ply lane).data)
  rw [delivered_flitKept.spindle, show (captureFlit x lane (laneOf s.ply lane).data).tag = captureTag _ _ _ from rfl,
    captureTag_place (by omega) (by omega), ← ha] at hcapt
  refine answers_next rfl ?_
  rw [plyCaptureFlit_taken h hl hb hc hlt]
  refine ⟨?_, ?_, ?_, fun j hj => ?_, fun a hout => ?_⟩
  · rw [takeCapture_lane, delivered_data, hd]
  · rw [takeCapture_lane, delivered_recv, hd]
  · rw [Counted, takeCapture_get _ _ (by decide) (by decide) (by decide), delivered_counted]; rfl
  · rw [hcapt, Region.getAll_putAll _ _ _ (by rw [captureWords_length]; omega)]
    exact captureWords_at _ _ hj
  · rw [hcapt, Region.get_putAll_out _ _ _ _ (by rwa [captureWords_length])]; rfl

theorem plyCaptureFlit_last (h : fresh s .f2s1 = true) (hb : s.flyer.sense.buf = some x) (hc : s.ply.carry = true) (hg0 : s.ply.f2s0.got = 256)
    (hg1 : s.ply.f2s1.got = 255) (hd : s.ply.f2s1.data = 255) :
    Answers (.plyCaptureFlit .f2s1) s fun t =>
      t.get Ent.CAPT_HELD = 1 ∧ t.get Ent.OPT_CAPT_TAG = x.tag ∧ t.ply.written = true ∧ t.flyer.sense.buf = some x := by
  obtain ⟨-, -, -, hn, -⟩ := fresh_parts h
  have hv : laneOf (captureSent s .f2s1).ply .f2s1 = { laneOf s.ply .f2s1 with data := (laneOf s.ply .f2s1).data + 1 } := onLane_laneOf ..
  obtain ⟨huc, hus, huo⟩ := delivered_capture (s := captureSent s .f2s1) (g := captureFlit x .f2s1 (laneOf s.ply .f2s1).data) (l := .f2s1) (by decide)
    (by rw [hv]; exact hn) rfl
  refine answers_next rfl ?_
  rw [plyCaptureFlit_taken h (by decide) hb hc (by simp [laneOf, hd])]
  rw [takeCapture_last (by decide) (huc.trans hc) ((congrArg (·.buf) hus).trans hb) (captureTag_tag _ _ _).symm ?_ ?_ huo]
  · exact ⟨captureNoted_held x, captureNoted_tag x, rfl, by rw [captureNoted_sense]; exact (congrArg (·.buf) hus).trans hb⟩
  · rw [onLane_laneOf_ne _ (by decide), arrive_laneOf_beside _ (by decide) rfl, sendFlit_laneOf_ne (by decide)]
    exact hg0
  · rw [onLane_laneOf]
    exact congrArg (· + 1) (delivered_got.trans ((congrArg (·.got) hv).trans hg1))

/-- A lane whose sent flits have all been received has none left once that is acknowledged. -/
theorem ackTo_recv_out {y : LaneState} (h : y.sentTo ≤ y.recv) : (ackTo y.recv y).out = [] := by
  rw [ackTo_out, List.drop_eq_nil_of_le]
  simp only [LaneState.sentTo] at h
  omega

theorem plyIdleFlit_releases (h2 : plyState s = 2) (hn : s.ply.s2f.next = s.ply.s2f.recv) (hw : s.ply.written = true)
    (h0 : s.ply.f2s0.sentTo ≤ s.ply.f2s0.recv) (h1 : s.ply.f2s1.sentTo ≤ s.ply.f2s1.recv) :
    Answers (.plyIdleFlit .s2f) s fun t =>
      t.flyer.sense.buf = none ∧ t.ply.carry = false ∧ t.ply.written = false ∧
        (t.flyer.res.opt.map (·.offered)) = s.flyer.res.opt.map (fun _ => false) := by
  refine answers_next rfl ?_
  rw [idleArrives_eq (lane := .s2f) (.inl h2) hn, idleTaken, releaseDelivered_done (by simpa using hw) (ackTo_recv_out h0) (ackTo_recv_out h1)]
  refine ⟨by simp, by simp, by simp, ?_⟩
  simp [ackReverse_opt, Function.comp_def]

end

/-! ## COMMAND and HORN flits -/

section
variable {s : State}

theorem plyCommandFlit_sets (reg val : Nat) (h : fresh s .s2f = true) (hr : reg < 256) (hv : val < 2 ^ 32) :
    Answers (.plyCommandFlit reg val) s fun t =>
      sparseGet 0 reg t.flyer.regs = val ∧ Counted s t Ent.PLY_FLITS ∧ t.ply.s2f.recv = s.ply.s2f.recv + 1 := by
  obtain ⟨-, he, -⟩ := fresh_parts h
  have hsrc : source s .s2f (.command reg val) = some (s.used, commandFlit s reg val) := by simp [source, he]
  have hof : isOf (.command reg val) (commandFlit s reg val) = true := by simp [isOf, commandFlit, leBytes]
  have hreg : fieldNat (commandFlit s reg val).payload 0 1 = reg := by simp [fieldNat, commandFlit, leNat, byte]; omega
  have hval : fieldNat (commandFlit s reg val).payload 1 4 = val :=
    (fieldNat_at [byte reg] (zeros 19) 4 val 1 rfl).trans (Nat.mod_eq_of_lt hv)
  refine answers_next rfl ?_
  rw [flitArrives_fresh h hsrc hof]
  refine ⟨?_, delivered_counted (s := s.used) (l := .s2f), delivered_recv (l := .s2f)⟩
  simp only [takeCommand, State.onFlyer_flyer, hreg, hval, sparseGet_set_self]

/-- A HORN flit of given commands is taken by the flyer. -/
theorem plyHornFlit_taken {t : State} {cs : List HornCmd} (h : fresh s .s2f = true) (hs : sourceHorn s = some (t, hornFlit cs)) (h3 : cs.length ≤ 3)
    (hc : ∀ c ∈ cs, c.fits) : flitArrives s .s2f .horn takeHorn =
      (arrive (sendFlit t .s2f (hornFlit cs)) .s2f).onHorn fun h => cs.foldl hornTakes h := by
  obtain ⟨-, he, -⟩ := fresh_parts h
  have hsrc : source s .s2f .horn = some (t, hornFlit cs) := by simp [source, he, hs]
  rw [flitArrives_fresh h hsrc rfl, takeHorn_eq, hornCmds_hornFlit h3 hc]

theorem plyHornFlit_commands (cs : List HornCmd) (rest : List (List HornCmd)) (h : fresh s .s2f = true) (hk : s.ply.kinds = none)
    (hq : s.ply.q = cs :: rest) (h3 : cs.length ≤ 3)
    (hc : ∀ c ∈ cs, c.op < 256 ∧ c.op ≠ 4 ∧ c.arg < 256 ∧ c.onMs < 65536 ∧ c.offMs < 65536 ∧ c.reps < 256) (h8 : s.flyer.horn.queue.length ≤ 8) :
    Answers .plyHornFlit s fun t =>
      t.ply.q = rest ∧ t.flyer.horn.queue = (s.flyer.horn.queue ++ cs).take 8 ∧ t.ply.s2f.recv = s.ply.s2f.recv + 1 := by
  have hsrc : sourceHorn s = some (s.onPly fun p => { p with q := rest }, hornFlit cs) := by simp only [sourceHorn, hk, hq]
  have hfits : ∀ c ∈ cs, c.fits := fun c hm => by
    obtain ⟨h1, -, h2⟩ := hc c hm
    exact ⟨h1, h2⟩
  refine answers_next rfl ?_
  rw [plyHornFlit_taken h hsrc h3 hfits]
  refine ⟨delivered_flitKept.q, ?_, delivered_recv (l := .s2f)⟩
  rw [State.onHorn_flyer, hornTakes_queue (fun c hm => (hc c hm).2.1) (by rw [delivered_flitKept.horn]; exact h8), delivered_flitKept.horn]
  rfl

theorem plyHornFlit_kinds (fw rel : Nat) (h : fresh s .s2f = true) (hk : s.ply.kinds = some (fw, rel)) (hf : fw < 8) (hr : rel < 8) :
    Answers .plyHornFlit s fun t =>
      t.ply.kinds = none ∧ t.ply.q = s.ply.q ∧ t.flyer.horn.fwKinds = some fw ∧ t.flyer.horn.relKinds = rel ∧ t.ply.s2f.recv = s.ply.s2f.recv + 1 := by
  have hsrc : sourceHorn s = some (s.onPly fun p => { p with kinds := none }, hornFlit [kindsCmd (fw, rel)]) := by simp only [sourceHorn, hk]
  have hfits : ∀ c ∈ [kindsCmd (fw, rel)], c.fits := by simp [kindsCmd, HornCmd.fits]; omega
  have htakes : ∀ x : Horn, [kindsCmd (fw, rel)].foldl hornTakes x = { x with fwKinds := some fw, relKinds := rel } := fun x => by
    have h1 : (fw % 8 + rel % 8 * 16) % 8 = fw := by omega
    have h2 : (fw % 8 + rel % 8 * 16) / 16 % 8 = rel := by omega
    simp only [List.foldl, hornTakes, kindsCmd, if_true, h1, h2]
  refine answers_next rfl ?_
  rw [plyHornFlit_taken h hsrc (by simp) hfits]
  simp only [htakes]
  exact ⟨delivered_flitKept.kinds, delivered_flitKept.q, rfl, rfl, delivered_recv (l := .s2f)⟩

end

/-! ## CAPT_HELD -/

/-- CAPT_HELD is stored as it is written. -/
theorem applyWrite_captHeld (s : State) (u : User) (v : Nat) : applyWrite s u Ent.CAPT_HELD v = s.put Ent.CAPT_HELD v := by
  have hrow : ((findRow Ent.CAPT_HELD).map fun r => (decide (r.cls = .f), r.perUser)) = some (false, false) := by decide +kernel
  obtain ⟨r, hr, hx⟩ := Option.map_eq_some_iff.1 hrow
  obtain ⟨hf, hp⟩ := Prod.mk.inj hx
  simp only [applyWrite, hr, of_decide_eq_false hf, hp]
  rfl

theorem captHeldWrite_stored {s : State} (u : User) (v : Nat) (hv : v < 256) (h : accepts s (numReq u Ent.CAPT_HELD v) = true) :
    Serves (.captHeldWrite u v) s (numReq u Ent.CAPT_HELD v) (s.put Ent.CAPT_HELD v) Sc.ok := by
  have hent : entAt (numReq u Ent.CAPT_HELD v).idx (numReq u Ent.CAPT_HELD v).sub = Ent.CAPT_HELD := entAt_div_mod _
  have hsize : entrySize Ent.CAPT_HELD = 1 := by decide +kernel
  have hrow : (rowAt (Ent.CAPT_HELD / 256) (Ent.CAPT_HELD % 256)).map (·.action) = some false := by decide +kernel
  have hact : ∀ r, rowAt (Ent.CAPT_HELD / 256) (Ent.CAPT_HELD % 256) = some r → r.action = false := fun r hr => by
    rw [hr] at hrow
    exact Option.some.inj hrow
  have hval : leNat (numReq u Ent.CAPT_HELD v).value = v := by
    rw [numReq, Request.mk', leNat_leBytes, hsize]
    exact Nat.mod_eq_of_lt (by simpa using hv)
  have hstore := access_store (q := numReq u Ent.CAPT_HELD v) rfl h hact (by rw [hent]; decide) (by rw [hent]; decide +kernel)
  rw [hent, hval, applyWrites_one _ _ _ _ (by decide +kernel), show (numReq u Ent.CAPT_HELD v).user = u from rfl, applyWrite_captHeld] at hstore
  exact congrArg Host.Outcome.next hstore

/-- Settles O17, clause by clause. -/
theorem plyFlits : Obligations.PlyFlits := fun _ _ =>
  ⟨plyIdleFlit_acknowledges, plyFlitDiscarded_idle, plyFlitDiscarded_flit, fun _ _ _ => plyCaptureFlit_written, fun _ => plyCaptureFlit_last,
    plyIdleFlit_releases, plyCommandFlit_sets, plyHornFlit_commands, plyHornFlit_kinds, captHeldWrite_stored⟩

end Sys2Proof.Machine
end

section
/-! SUPPORT. The end of a burst (R35, R36), and a domain of the flyer that rises (R170). -/
namespace Sys2Proof.Machine
variable (s : State)

/-! ### The link goes to OFF -/

/-- The link at OFF, before a PLY_QUIET that is owed is sent. -/
def plyCleared (s : State) : State :=
  (((s.put Ent.PLY_STATE 0).onRes returnFlights).onPly returnHorn).onPly fun p =>
    { p with f2s0 := {}, f2s1 := {}, s2f := {}, reqFlyer := false, reqSpindle := false, carry := false, written := false }

theorem plyOff_eq : plyOff s = if s.flyer.quietOwed
    then sbQueue ((plyCleared s).onFlyer fun f => { f with quietOwed := false }) .flyer 9 0 [] else plyCleared s := rfl

theorem plyOff_ply : (plyOff s).ply = (plyCleared s).ply := by rw [plyOff_eq]; split <;> simp

@[simp] theorem plyOff_keeper : (plyOff s).keeper = s.keeper := by rw [plyOff_eq]; split <;> simp [plyCleared]
@[simp] theorem plyOff_spindle : (plyOff s).spindle = s.spindle := by rw [plyOff_eq]; split <;> simp [plyCleared]
@[simp] theorem plyOff_log : (plyOff s).log = s.log := by rw [plyOff_eq]; split <;> simp [plyCleared]
@[simp] theorem plyOff_doms : (plyOff s).doms = s.doms := by rw [plyOff_eq]; split <;> simp [plyCleared]
@[simp] theorem plyOff_tag : (plyOff s).tag = s.tag := by rw [plyOff_eq]; split <;> simp [plyCleared]
@[simp] theorem plyOff_wire : (plyOff s).sb.wire = s.sb.wire := by rw [plyOff_eq]; split <;> simp [plyCleared]
@[simp] theorem plyOff_sense : (plyOff s).flyer.sense = s.flyer.sense := by rw [plyOff_eq]; split <;> simp [plyCleared]

theorem plyOff_get {e : Nat} (h1 : e ≠ Ent.PLY_STATE) (h2 : e ≠ Ent.Q_PEAK 4) (h3 : e ≠ Ent.Q_FULL 4) : (plyOff s).get e = s.get e := by
  have h : (plyCleared s).get e = s.get e := by simp [plyCleared, State.get_put_ne _ h1]
  rw [plyOff_eq]; split
  · rw [sbQueue_get _ h2 h3, State.onFlyer_get, h]
  · exact h

@[simp] theorem plyOff_state : (plyOff s).get Ent.PLY_STATE = 0 := by
  have h : (plyCleared s).get Ent.PLY_STATE = 0 := by simp [plyCleared]
  rw [plyOff_eq]; split
  · rw [sbQueue_get _ (by decide) (by decide), State.onFlyer_get, h]
  · exact h

/-! ### The carried measurement is given up -/

@[simp] theorem dropCarried_get (e : Nat) : (dropCarried s).get e = s.get e := by unfold dropCarried; split_ifs <;> rfl
@[simp] theorem dropCarried_ply : (dropCarried s).ply = s.ply := by unfold dropCarried; split_ifs <;> rfl
@[simp] theorem dropCarried_sb : (dropCarried s).sb = s.sb := by unfold dropCarried; split_ifs <;> rfl
@[simp] theorem dropCarried_keeper : (dropCarried s).keeper = s.keeper := by unfold dropCarried; split_ifs <;> rfl
@[simp] theorem dropCarried_log : (dropCarried s).log = s.log := by unfold dropCarried; split_ifs <;> rfl
@[simp] theorem dropCarried_doms : (dropCarried s).doms = s.doms := by unfold dropCarried; split_ifs <;> rfl
@[simp] theorem dropCarried_tag : (dropCarried s).tag = s.tag := by unfold dropCarried; split_ifs <;> rfl

/-- Capture SRAM is left undefined; nothing else of the spindle die changes. -/
theorem dropCarried_spindle : (dropCarried s).spindle = { s.spindle with mem := (dropCarried s).spindle.mem } := by
  unfold dropCarried; split_ifs <;> rfl

theorem dropCarried_buf (h : s.ply.carry = true) : (dropCarried s).flyer.sense.buf = none := by
  unfold dropCarried; split_ifs <;> rfl

/-! ### Abandonment (R36) -/

theorem abandon_state (data : Bytes) : (abandon s data).get Ent.PLY_STATE = 0 := plyOff_state _

theorem abandon_carry (data : Bytes) : (abandon s data).ply.carry = false := by rw [abandon, plyOff_ply]; rfl

theorem abandon_counted (data : Bytes) : Counted s (abandon s data) Ent.PLY_ABANDONED := by
  rw [Counted, abandon, plyOff_get _ (by decide) (by decide) (by decide), dropCarried_get,
    alertFlags_get _ (by decide) (by decide) (by decide) (by decide) (by decide), State.bump_get_self]

theorem abandon_buf (data : Bytes) (h : s.ply.carry = true) : (abandon s data).flyer.sense.buf = none := by
  rw [abandon, plyOff_sense, dropCarried_buf]
  simpa using h

/-! ### A domain that rises (R168, R170) -/

/-- A domain that is ON stays as it is. -/
theorem raiseDomain_on {d : Domain} (h : domNow s d = 2) (src : Option Nat) (o : Domain) : raiseDomain s src o d = s := by
  simp only [raiseDomain, h]

/-- One that rests begins its exit. -/
theorem raiseDomain_rest {d : Domain} (h : domNow s d < 2) (src : Option Nat) (o : Domain) : raiseDomain s src o d = beginExit s d src := by
  have : domNow s d = 0 ∨ domNow s d = 1 := by omega
  rcases this with h | h <;> simp only [raiseDomain, h]

theorem beginExit_flyer {d : Domain} (hd : isFlyerDom d = true) (n : Nat) :
    beginExit s d (some n) = (onFlyDom s d fun x => { x with state := 4 }).put (Ent.LAST_WAKE (domId d)) n := by
  have hc : ¬(d = .core ∧ domNow s d = 1) := by rintro ⟨rfl, -⟩; simp [isFlyerDom, domNum] at hd
  have hn : d ≠ .net := by rintro rfl; simp [isFlyerDom, domNum] at hd
  simp only [beginExit, if_neg hc, if_neg hn, setDomNow, hd, if_true]

/-- A flyer domain that the flyer holds takes the state it is given. -/
theorem onFlyDom_flyDom {d : Domain} (hd : domNum d - 9 < s.flyer.doms.length) (f : FlyDom → FlyDom) :
    flyDom (onFlyDom s d f) d = f (flyDom s d) := by
  simp [flyDom, onFlyDom, List.getD_eq_getElem?_getD, hd]

end Sys2Proof.Machine
end

section
/-! CLAIMS. Bursts of the ply link (R28, R30, R31, R33, R35, R36). -/
namespace Sys2Proof.Machine
variable {s : State} {lane : Lane}

/-! ## Requests -/

/-- Both ends of the link ON, in parts. -/
theorem plyOn_parts (h : plyOn s = true) : s.spindle.alive = true ∧ domState s .plyS = 2 ∧ s.flyer.up = true ∧ domNow s .plyF = 2 := by
  simp only [plyOn, plySOn, plyFOn, Bool.and_eq_true, beq_iff_eq] at h
  exact ⟨h.1.1, h.1.2, h.2.1, h.2.2⟩

/-- A burst request wire is asserted (R30). -/
def asserted (s : State) (byFlyer : Bool) : State :=
  s.onPly fun p => if byFlyer then { p with reqFlyer := true } else { p with reqSpindle := true }

/-- With both ends ON a request starts its burst. -/
theorem requestOff_on (h : plyOn s = true) (byFlyer : Bool) : requestOff s byFlyer = startBurst (asserted s byFlyer) byFlyer := by
  obtain ⟨-, hs, -, hf⟩ := plyOn_parts h
  have hd : demand (asserted s byFlyer) .plyS = asserted s byFlyer := raiseDomain_on (asserted s byFlyer) (d := .plyS) hs _ _
  have hr : rise (asserted s byFlyer) .plyF = asserted s byFlyer := raiseDomain_on (asserted s byFlyer) (d := .plyF) hf _ _
  have he : rise (if byFlyer then asserted s byFlyer else demand (asserted s byFlyer) .plyS) .plyF = asserted s byFlyer := by
    rw [hd, ite_self, hr]
  have hon : plyOn (asserted s byFlyer) = true := h
  exact (congrArg (fun t => if plyOn t then startBurst t byFlyer else t) he).trans (if_pos hon)

theorem startBurst_state (s : State) (b : Bool) : (startBurst s b).get Ent.PLY_STATE = 1 := by
  simp [startBurst, State.get_put_ne]

theorem startBurst_counted (s : State) (b : Bool) : Counted s (startBurst s b) Ent.PLY_BURSTS := by
  simp [startBurst, Counted, State.get_put_ne]

theorem plyBurstRequest_flyer (h0 : plyState s = 0) (hu : s.flyer.up = true) (hm : s.flyer.mayBurst = true) (ho : plyOn s = true) :
    Answers (.plyBurstRequest true) s fun t =>
      t.get Ent.PLY_STATE = 1 ∧ Counted s t Ent.PLY_BURSTS ∧ t.ply.carry = mayCarry s ∧ t.ply.reqFlyer = true ∧ t.ply.f2s0 = {} ∧ t.ply.f2s1 = {} ∧
        t.ply.s2f = {} := by
  have hs : plySOn s = true := by simp only [plyOn, Bool.and_eq_true] at ho; exact ho.1
  have he : burstRequest s true = startBurst (asserted s true) true := by
    simp only [burstRequest, h0, hu, hm, hs, Bool.not_true, Bool.or_false, Bool.false_eq_true, if_false, if_true]
    exact requestOff_on ho true
  refine answers_next rfl ?_
  rw [he]
  exact ⟨startBurst_state _ _, startBurst_counted _ _, rfl, rfl, rfl, rfl, rfl⟩

theorem plyBurstRequest_spindle (h0 : plyState s = 0) (ho : plyOn s = true) :
    Answers (.plyBurstRequest false) s fun t =>
      t.get Ent.PLY_STATE = 1 ∧ Counted s t Ent.PLY_BURSTS ∧ t.ply.carry = mayCarry s ∧ t.ply.reqSpindle = true := by
  obtain ⟨ha, -⟩ := plyOn_parts ho
  have he : burstRequest s false = startBurst (asserted s false) false := by
    simp only [burstRequest, h0, ha, Bool.false_eq_true, if_false, if_true]
    exact requestOff_on ho false
  refine answers_next rfl ?_
  rw [he]
  exact ⟨startBurst_state _ _, startBurst_counted _ _, rfl, rfl⟩

/-- Only a domain that the flyer holds can be at rest: any other reads ON. -/
theorem plyF_held (h : domNow s .plyF < 2) : domNum .plyF - 9 < s.flyer.doms.length := by
  by_contra hl
  have hd : domNow s .plyF = 2 := by
    simp only [domNow, isFlyerDom, domNum, flyDom] at *
    rw [List.getD_eq_getElem?_getD, List.getElem?_eq_none (by omega)]
    rfl
  omega

theorem plyBurstRequest_waits (h0 : plyState s = 0) (hu : s.flyer.up = true) (hm : s.flyer.mayBurst = true) (hs : plySOn s = true)
    (hf : domNow s .plyF < 2) :
    Answers (.plyBurstRequest true) s fun t => t.get Ent.PLY_STATE = 0 ∧ t.ply.reqFlyer = true ∧ domNow t .plyF = 4 := by
  have hr : rise (asserted s true) .plyF =
      (onFlyDom (asserted s true) .plyF fun x => { x with state := 4 }).put (Ent.LAST_WAKE (domId .plyF)) 0x0C :=
    (raiseDomain_rest (asserted s true) hf _ _).trans (beginExit_flyer _ (by decide) _)
  have hnow : domNow (rise (asserted s true) .plyF) .plyF = 4 := by
    have := congrArg FlyDom.state (onFlyDom_flyDom (asserted s true) (plyF_held hf) fun x => { x with state := 4 })
    rw [hr]; exact this
  have hoff : ¬plyOn (rise (asserted s true) .plyF) = true := fun h => by
    obtain ⟨-, -, -, h2⟩ := plyOn_parts h
    omega
  have he : burstRequest s true = rise (asserted s true) .plyF := by
    simp only [burstRequest, h0, hu, hm, hs, Bool.not_true, Bool.or_false, Bool.false_eq_true, if_false, if_true]
    exact if_neg hoff
  refine answers_next rfl ?_
  rw [he]
  refine ⟨?_, by rw [rise_ply]; rfl, hnow⟩
  rw [hr, State.get_put_ne _ (by decide)]
  exact h0

theorem plyBurstRequest_captureReady (x : Measurement) (h0 : plyState s = 0) (hu : s.flyer.up = true) (hm : s.flyer.mayBurst = true)
    (hs : plySOn s = false) (hw : s.ply.waiting = false) (hb : s.flyer.sense.buf = some x) (hr : roomFor s .flyer) :
    Answers (.plyBurstRequest true) s fun t =>
      t.get Ent.PLY_STATE = 0 ∧ t.ply.waiting = true ∧ Queued t .flyer 0xA 2 (leBytes 2 x.tag) := by
  have he : burstRequest s true = (sbQueue s .flyer 0xA 2 (leBytes 2 x.tag)).onPly fun p => { p with waiting := true } := by
    simp only [burstRequest, h0, hu, hm, hs, hw, sendCaptureReady, hb, Bool.not_true, Bool.not_false, Bool.or_false, Bool.false_eq_true, if_false,
      if_true]
  refine answers_next rfl ?_
  rw [he]
  refine ⟨?_, rfl, ?_⟩
  · rw [State.onPly_get, sbQueue_get _ (by decide) (by decide)]
    exact h0
  · have := sbQueue_room s (d := .flyer) (ty := 0xA) (dst := 2) (p := leBytes 2 x.tag) hr
    simp only [Queued, sbDie_flyer, State.onPly_sb] at this ⊢
    rw [this, List.getLast?_concat]

theorem plyBurstRequest_joins (h2 : plyState s = 2) :
    Answers (.plyBurstRequest true) s fun t =>
      t.get Ent.PLY_STATE = 2 ∧ t.ply.reqFlyer = true ∧ t.ply.carry = (s.ply.carry || mayCarry s) ∧ t.ply.f2s0.ended = false ∧
        t.ply.f2s1.ended = false := by
  have he : burstRequest s true = joinBurst s true := by simp only [burstRequest, h2]
  refine answers_next rfl ?_
  rw [he]
  unfold joinBurst
  refine ⟨h2, rfl, ?_, ?_, ?_⟩
  · simp only [State.onPly_ply, if_true, Bool.true_and]
    cases s.ply.carry <;> simp
  · simp only [State.onPly_ply, if_true]; split <;> rfl
  · simp only [State.onPly_ply, if_true]; split <;> rfl

theorem plyBurstRequest_draining (h3 : plyState s = 3) :
    Answers (.plyBurstRequest false) s fun t =>
      t.get Ent.PLY_STATE = 2 ∧ t.ply.reqSpindle = true ∧ t.ply.s2f.ended = false ∧ t.ply.f2s0 = s.ply.f2s0 ∧ t.ply.f2s1 = s.ply.f2s1 := by
  have he : burstRequest s false = joinBurst (s.put Ent.PLY_STATE 2) false := by simp only [burstRequest, h3]
  refine answers_next rfl ?_
  rw [he]
  exact ⟨by simp [joinBurst], rfl, rfl, rfl, rfl⟩

/-! ## Waking, ending, draining -/

theorem plyStartMarkerAligned_active (h1 : plyState s = 1) : Answers .plyStartMarkerAligned s fun t => t = s.put Ent.PLY_STATE 2 := by
  refine answers_next rfl ?_
  rw [if_pos h1]

theorem linkRecord_get (s : State) (d : Die) (data : Bytes) {e : Nat} (h1 : e ≠ Ent.Q_PEAK 5) (h2 : e ≠ Ent.Q_FULL 5) (h3 : e ≠ Ent.SB_LOST) :
    (linkRecord s d data).get e = s.get e := logDie_get _ h1 h2 h3

@[simp] theorem linkRecord_ply (s : State) (d : Die) (data : Bytes) : (linkRecord s d data).ply = s.ply := by simp [linkRecord]

/-- A burst abandoned after a die's link record. -/
theorem abandon_recorded (s : State) (d : Die) (r data : Bytes) :
    (abandon (linkRecord s d r) data).get Ent.PLY_STATE = 0 ∧ Counted s (abandon (linkRecord s d r) data) Ent.PLY_ABANDONED ∧
      (abandon (linkRecord s d r) data).ply.carry = false ∧ (s.ply.carry = true → (abandon (linkRecord s d r) data).flyer.sense.buf = none) := by
  refine ⟨abandon_state _ _, ?_, abandon_carry _ _, fun h => abandon_buf _ _ (by simpa using h)⟩
  have := abandon_counted (linkRecord s d r) data
  rwa [Counted, linkRecord_get _ _ _ (by decide) (by decide) (by decide)] at this

theorem plyWakeTimeout_abandons (h1 : plyState s = 1) :
    Answers (.plyWakeTimeout [lane]) s fun t =>
      t.get Ent.PLY_STATE = 0 ∧ Counted s t Ent.PLY_ABANDONED ∧ t.ply.carry = false ∧ (s.ply.carry = true → t.flyer.sense.buf = none) := by
  have he : ∃ d r data, wakeFailed s [lane] = abandon (linkRecord s d r) data := by
    cases lane
    · exact ⟨.spindle, _, _, if_neg (not_not_intro h1)⟩
    · exact ⟨.spindle, _, _, if_neg (not_not_intro h1)⟩
    · exact ⟨.flyer, _, _, if_neg (not_not_intro h1)⟩
  obtain ⟨d, r, data, he⟩ := he
  refine answers_next rfl ?_
  rw [he]
  exact abandon_recorded s d r data

theorem drainCheck_drains (h2 : plyState s = 2) (h0 : laneDone s.ply.f2s0 = true) (h1 : laneDone s.ply.f2s1 = true)
    (hs : laneDone s.ply.s2f = true) : (drainCheck s).get Ent.PLY_STATE = 3 := by
  rw [drainCheck, if_pos ⟨h2, h0, h1, hs⟩, State.get_put_self]

theorem drainCheck_of_laneOut {l : Lane} (h : (laneOf s.ply l).out ≠ []) : drainCheck s = s := by
  have hd : laneDone (laneOf s.ply l) = false := by cases ho : (laneOf s.ply l).out <;> simp_all [laneDone]
  unfold drainCheck
  rw [if_neg]
  rintro ⟨-, h0, h1, h2⟩
  cases l <;> simp_all [laneOf]

/-- A lane's END flit, and its sender once it has sent it (R31). -/
def endFlit (s : State) : SentFlit := ⟨5, Config.freeNat s.free % 65536, zeros 24⟩
def endSent (s : State) (l : Lane) : State := onLane s.used l fun x => { x with ended := true }

theorem plyEndFlit_sent (hf : fresh s lane = true) (hd : laneDrained s lane = true) (ho : (laneOf s.ply lane).out = []) :
    Answers (.plyEndFlit lane) s fun t =>
      (laneOf t.ply lane).ended = true ∧ (laneOf t.ply lane).recv = (laneOf s.ply lane).recv + 1 ∧ (laneOf t.ply lane).out.map (·.ty) = [5] ∧
      t.get Ent.PLY_STATE = 2 := by
  obtain ⟨h2, he, -, hn, -⟩ := fresh_parts hf
  have hsrc : source s lane .end_ = some (endSent s lane, endFlit s) := by simp [source, he, sourceEnd, hd, ho, endSent, endFlit]
  have hv : laneOf (endSent s lane).ply lane = { laneOf s.ply lane with ended := true } := onLane_laneOf ..
  have hlane : laneOf (sendFlit (endSent s lane) lane (endFlit s)).ply lane =
      ackTo ((laneOf s.ply lane).acked + 1 - 4) { laneOf s.ply lane with
        ended := true, next := (laneOf s.ply lane).next + 1, out := [endFlit s], last := laneFlit (endSent s lane) lane (endFlit s) } := by
    rw [sendFlit_new (by rw [hv]; exact hn), hv]
    simp only [ho, List.nil_append, LaneState.sentTo, List.length_nil, Nat.add_zero]
  have hout : (laneOf (sendFlit (endSent s lane) lane (endFlit s)).ply lane).out = [endFlit s] := by
    rw [hlane, ackTo_out, show (laneOf s.ply lane).acked + 1 - 4 - (laneOf s.ply lane).acked = 0 by omega, List.drop_zero]
  refine answers_next rfl ?_
  rw [flitArrives_fresh hf hsrc rfl]
  refine ⟨?_, ?_, ?_, ?_⟩
  · rw [arrive_laneOf, hlane]; exact ackTo_ended _ _
  · rw [delivered_recv, hv]
  · rw [arrive_laneOf, hout]; rfl
  · have hne : (laneOf (sendFlit (endSent s lane) lane (endFlit s)).ply lane).out ≠ [] := by rw [hout]; simp
    rw [arrive, drainCheck_of_laneOut (l := lane) (by
        rw [releaseDelivered_laneOf, ackReverse_laneOf, if_neg (by simp [opposite]), onLane_laneOf]; exact hne),
      releaseDelivered_get, ackReverse_get, onLane_get, sendFlit_get _ _ (by decide)]
    exact h2

theorem plyIdleFlit_drains (h2 : plyState s = 2) (hn : s.ply.s2f.next = s.ply.s2f.recv) (he : s.ply.s2f.ended = true) (ho : s.ply.s2f.out = [])
    (he0 : s.ply.f2s0.ended = true) (he1 : s.ply.f2s1.ended = true) (h0 : s.ply.f2s0.sentTo ≤ s.ply.f2s0.recv)
    (h1 : s.ply.f2s1.sentTo ≤ s.ply.f2s1.recv) :
    Answers (.plyIdleFlit .s2f) s fun t => t.get Ent.PLY_STATE = 3 ∧ t.ply.f2s0.out = [] ∧ t.ply.f2s1.out = [] := by
  have hf0 : (idleTaken s .s2f).ply.f2s0 = ackTo s.ply.f2s0.recv s.ply.f2s0 := idleTaken_opposite s (l' := .f2s0) rfl
  have hf1 : (idleTaken s .s2f).ply.f2s1 = ackTo s.ply.f2s1.recv s.ply.f2s1 := idleTaken_opposite s (l' := .f2s1) rfl
  have hs : (idleTaken s .s2f).ply.s2f = { s.ply.s2f with last := laneFlit s .s2f ⟨0, 0, zeros 24⟩ } := idleTaken_self s .s2f
  refine answers_next rfl ?_
  rw [idleArrives_eq (lane := .s2f) (.inl h2) hn]
  refine ⟨drainCheck_drains ?_ ?_ ?_ ?_, ?_, ?_⟩
  · rw [plyState, idleTaken_get, State.bump_get _ (by decide)]; exact h2
  · rw [hf0, laneDone, ackTo_recv_out h0, ackTo_ended, he0]; rfl
  · rw [hf1, laneDone, ackTo_recv_out h1, ackTo_ended, he1]; rfl
  · rw [hs, laneDone, he, ho]; rfl
  · rw [drainCheck_ply, hf0, ackTo_recv_out h0]
  · rw [drainCheck_ply, hf1, ackTo_recv_out h1]

theorem plyDrainExpiry_off (h3 : plyState s = 3) :
    Answers .plyDrainExpiry s fun t => t.get Ent.PLY_STATE = 0 ∧ t.ply.reqFlyer = false ∧ t.ply.reqSpindle = false := by
  refine answers_next rfl ?_
  rw [drainExpiry, if_pos h3, plyOff_ply]
  exact ⟨plyOff_state s, rfl, rfl⟩

/-! ## Retries (R28) -/

theorem plyRetryTimeout_again (h2 : plyState s = 2) (ho : (laneOf s.ply lane).out ≠ []) (hr : (laneOf s.ply lane).retries < 3) :
    Answers (.plyRetryTimeout lane) s fun t =>
      Counted s t Ent.PLY_RETRIES ∧ (laneOf t.ply lane).next = (laneOf s.ply lane).acked ∧ (laneOf t.ply lane).out = (laneOf s.ply lane).out ∧
        (laneOf t.ply lane).retries = (laneOf s.ply lane).retries + 1 := by
  obtain ⟨f, fs, hfs⟩ := List.exists_cons_of_ne_nil ho
  have he : retryTimeout s lane = (onLane s lane fun x => { x with next := x.acked, retries := x.retries + 1 }).bump Ent.PLY_RETRIES := by
    unfold retryTimeout
    rw [if_neg (not_not_intro h2)]
    dsimp only
    rw [hfs]
    exact if_pos hr
  refine answers_next rfl ?_
  rw [he, State.bump_ply, onLane_laneOf, Counted, State.bump_get_self]
  exact ⟨rfl, rfl, rfl, rfl⟩

theorem plyRetryTimeout_abandons (h2 : plyState s = 2) (ho : (laneOf s.ply lane).out ≠ []) (hr : 3 ≤ (laneOf s.ply lane).retries) :
    Answers (.plyRetryTimeout lane) s fun t => t.get Ent.PLY_STATE = 0 ∧ Counted s t Ent.PLY_ABANDONED ∧ t.ply.carry = false := by
  obtain ⟨f, fs, hfs⟩ := List.exists_cons_of_ne_nil ho
  have he : ∃ d r data, retryTimeout s lane = abandon (linkRecord s d r) data := by
    unfold retryTimeout
    rw [if_neg (not_not_intro h2)]
    dsimp only
    rw [hfs]
    exact ⟨_, _, _, if_neg (Nat.not_lt.2 hr)⟩
  obtain ⟨d, r, data, he⟩ := he
  obtain ⟨h0, ha, hc, -⟩ := abandon_recorded s d r data
  refine answers_next rfl ?_
  rw [he]
  exact ⟨h0, ha, hc⟩

/-- Settles O16, clause by clause. -/
theorem plyBursts : Obligations.PlyBursts := fun _ _ =>
  ⟨plyBurstRequest_flyer, plyBurstRequest_spindle, plyBurstRequest_waits, plyBurstRequest_captureReady, plyStartMarkerAligned_active,
    plyWakeTimeout_abandons, plyBurstRequest_joins, plyBurstRequest_draining, plyEndFlit_sent, plyIdleFlit_drains, plyDrainExpiry_off,
    plyRetryTimeout_again, plyRetryTimeout_abandons⟩

end Sys2Proof.Machine
end

section
/-! SUPPORT. Rules of the resets (R37 to R40, R390, R394): what each leaves of the dies, and what it leaves alone. -/
namespace Sys2Proof.Machine
variable (s : State)

/-! ### A reset ends the burst (R35) -/

@[simp] theorem plyReset_keeper : (plyReset s).keeper = s.keeper := by unfold plyReset; split <;> simp
@[simp] theorem plyReset_log : (plyReset s).log = s.log := by unfold plyReset; split <;> simp
@[simp] theorem plyReset_doms : (plyReset s).doms = s.doms := by unfold plyReset; split <;> simp
@[simp] theorem plyReset_tag : (plyReset s).tag = s.tag := by unfold plyReset; split <;> simp
@[simp] theorem plyReset_wire : (plyReset s).sb.wire = s.sb.wire := by unfold plyReset; split <;> simp

theorem plyReset_spindle : (plyReset s).spindle = { s.spindle with mem := (plyReset s).spindle.mem } := by
  unfold plyReset; split
  · rfl
  · rw [plyOff_spindle, dropCarried_spindle]

/-! ### Records that are lost -/

section
variable {α : Type} {g : State → α}

/-- What no lost record touches, the loss of a hold buffer leaves alone. -/
theorem lostHold_same (d : Die) (h : ∀ s r, g (unlogged s r) = g s) : g (lostHold s d) = g s := foldl_same s _ fun _ _ => h _ _

end

@[simp] theorem lostHold_keeper (d : Die) : (lostHold s d).keeper = s.keeper := lostHold_same s d unlogged_keeper
@[simp] theorem lostHold_spindle (d : Die) : (lostHold s d).spindle = s.spindle := lostHold_same s d unlogged_spindle
@[simp] theorem lostHold_flyer (d : Die) : (lostHold s d).flyer = s.flyer := lostHold_same s d unlogged_flyer
@[simp] theorem lostHold_sb (d : Die) : (lostHold s d).sb = s.sb := lostHold_same s d unlogged_sb
@[simp] theorem lostHold_tag (d : Die) : (lostHold s d).tag = s.tag := lostHold_same s d unlogged_tag

/-! ### The flyer -/

@[simp] theorem dropFlyer_keeper : (dropFlyer s).keeper = s.keeper := by simp [dropFlyer]
@[simp] theorem dropFlyer_tag : (dropFlyer s).tag = s.tag := by simp [dropFlyer]
@[simp] theorem dropFlyer_flyer : (dropFlyer s).flyer = {} := by simp [dropFlyer]

theorem dropFlyer_spindle : (dropFlyer s).spindle = { s.spindle with mem := (dropFlyer s).spindle.mem } := by
  simp only [dropFlyer, State.onSbDie_spindle, State.onFlyer_spindle]
  rw [plyReset_spindle, lostHold_spindle]

@[simp] theorem sendHello_keeper (d : Die) (c : Nat) : (sendHello s d c).keeper = s.keeper := by simp [sendHello]
@[simp] theorem sendHello_flyer (d : Die) (c : Nat) : (sendHello s d c).flyer = s.flyer := by simp [sendHello]
@[simp] theorem sendHello_spindle (d : Die) (c : Nat) : (sendHello s d c).spindle = s.spindle := by simp [sendHello]
@[simp] theorem sendHello_log (d : Die) (c : Nat) : (sendHello s d c).log = s.log := by simp [sendHello]
@[simp] theorem sendHello_tag (d : Die) (c : Nat) : (sendHello s d c).tag = s.tag := by simp [sendHello]

@[simp] theorem startFlyer_keeper (c : Nat) : (startFlyer s c).keeper = s.keeper := by simp [startFlyer]
@[simp] theorem startFlyer_flyer (c : Nat) : (startFlyer s c).flyer = flyerFresh := by simp [startFlyer]

theorem startFlyer_spindle (c : Nat) : (startFlyer s c).spindle = { s.spindle with mem := (startFlyer s c).spindle.mem } := by
  simp only [startFlyer, sendHello_spindle, State.onFlyer_spindle]
  exact dropFlyer_spindle s

/-! ### The spindle die (R38) -/

section
variable {α : Type} {g : State → α}

theorem domainDefaults_same (d : Domain) (hp : ∀ s e v, g (State.put s e v) = g s) (hd : ∀ s d f, g (onDom s d f) = g s) :
    g (domainDefaults s d) = g s := by
  simp only [domainDefaults, toDefault, hd, hp]

end

@[simp] theorem cutFlash_keeper : (cutFlash s).keeper = s.keeper := by unfold cutFlash; split <;> simp
@[simp] theorem cutFlash_log : (cutFlash s).log = s.log := by unfold cutFlash; split <;> simp
@[simp] theorem cutFlash_sb : (cutFlash s).sb = s.sb := by unfold cutFlash; split <;> simp

/-- The entries of the spindle die at their defaults. -/
def spindleDefaults (s : State) : State := toDefault (spindleDomains.foldl domainDefaults (s.dropEntries spindleHeld)) Ent.LATE_WAKES

theorem spindleDefaults_same {α : Type} {g : State → α} (hp : ∀ s e v, g (State.put s e v) = g s) (hd : ∀ s d f, g (onDom s d f) = g s)
    (he : ∀ s p, g (State.dropEntries s p) = g s) : g (spindleDefaults s) = g s := by
  rw [spindleDefaults, toDefault, hp, foldl_same (g := g) _ _ fun s d => domainDefaults_same s d hp hd, he]

@[simp] theorem spindleDefaults_keeper : (spindleDefaults s).keeper = s.keeper :=
  spindleDefaults_same s (g := State.keeper) (fun _ _ _ => rfl) (fun _ _ _ => rfl) fun _ _ => rfl
@[simp] theorem spindleDefaults_spindle : (spindleDefaults s).spindle = s.spindle :=
  spindleDefaults_same s (g := State.spindle) (fun _ _ _ => rfl) (fun _ _ _ => rfl) fun _ _ => rfl
@[simp] theorem spindleDefaults_log : (spindleDefaults s).log = s.log :=
  spindleDefaults_same s (g := State.log) (fun _ _ _ => rfl) (fun _ _ _ => rfl) fun _ _ => rfl

/-- The spindle die as its reset leaves it, before the words it owed the keeper are given up. -/
def spindleReset (s : State) : State :=
  orphanJobs (onSbDie ((freshSpindle (spindleDefaults (plyReset (cutFlash (endAuth s))))).onPly fun p =>
      { p with q := [], kinds := none, waiting := false })
    .spindle fun x => { x with txq := [], acks := [], wait := [], holdSent := false, holdDue := false, rxq := [] })

theorem dropSpindle_eq : dropSpindle s =
    (wordsCheck (spindleReset s)).onKeeper fun k => { k with helloSeen := false, wdt := none, lockedUp := false, attempt := false } := rfl

theorem wordsCheck_kept : ModeKept s (wordsCheck s) := wordsLost_kept _ _

/-- A reset leaves the spindle die at its reset values, its memories and NOTICE frames aside. -/
theorem dropSpindle_spindle : (dropSpindle s).spindle =
    { Spindle.atReset with mem := (dropSpindle s).spindle.mem, can := (dropSpindle s).spindle.can } := by
  rw [dropSpindle_eq, State.onKeeper_spindle, (wordsCheck_kept _).spindle]
  simp [spindleReset, orphanJobs, freshSpindle, State.used]

/-- What a reset of the spindle die leaves of the keeper. -/
theorem dropSpindle_keeper : (dropSpindle s).keeper = { s.keeper with
    jobs := (dropSpindle s).keeper.jobs, helloSeen := false, wdt := none, lockedUp := false, attempt := false
    st := (dropSpindle s).keeper.st, notices := (dropSpindle s).keeper.notices, hushEntry := (dropSpindle s).keeper.hushEntry
    words := (dropSpindle s).keeper.words, wordsAt := (dropSpindle s).keeper.wordsAt, poolDue := (dropSpindle s).keeper.poolDue } := by
  rw [dropSpindle_eq, State.onKeeper_keeper, (wordsCheck_kept _).keeper]
  simp [spindleReset, orphanJobs, freshSpindle, State.used]

/-! ### Release -/

@[simp] theorem releaseSpindle_flyer : (releaseSpindle s).flyer = s.flyer := by simp [releaseSpindle]
@[simp] theorem releaseSpindle_log : (releaseSpindle s).log = s.log := by simp [releaseSpindle]

theorem releaseSpindle_keeper : (releaseSpindle s).keeper = { s.keeper with seq := .released, attempt := true } := by simp [releaseSpindle]

theorem releaseSpindle_spindle : (releaseSpindle s).spindle = { s.spindle with alive := true, mode := modeNow s, loader := {} } := by
  simp [releaseSpindle]

theorem releaseSpindle_get {e : Nat} (h1 : e ≠ Ent.Q_PEAK 4) (h2 : e ≠ Ent.Q_FULL 4) : (releaseSpindle s).get e = s.get e := by
  rw [releaseSpindle, sendTime, sbQueue_get _ h1 h2]; rfl

/-- A release that is due, or not yet: the core's registers and the handover stay as the reset left them. -/
theorem releaseIfDue_core : (releaseIfDue s).spindle.core = s.spindle.core ∧ (releaseIfDue s).spindle.handed = s.spindle.handed := by
  unfold releaseIfDue
  split
  · rw [releaseSpindle_spindle]; exact ⟨rfl, rfl⟩
  · exact ⟨rfl, rfl⟩

theorem releaseIfDue_get {e : Nat} (h1 : e ≠ Ent.Q_PEAK 4) (h2 : e ≠ Ent.Q_FULL 4) : (releaseIfDue s).get e = s.get e := by
  unfold releaseIfDue
  split
  · exact releaseSpindle_get s h1 h2
  · rfl

/-! ### The reset sequence begins (R38, step 1) -/

theorem setAlarmFw_eq (k : Nat) : setAlarmFw s k = afterEvent (alarmEnds (s.put Ent.ALARM_FW k)) 0x43 := rfl

/-- Writing ALARM_FW can change the mode; beside the parts that a mode change writes, the keeper is as before. -/
theorem setAlarmFw_keeper (k : Nat) : (setAlarmFw s k).keeper = { s.keeper with
    st := (setAlarmFw s k).keeper.st, notices := (setAlarmFw s k).keeper.notices, hushEntry := (setAlarmFw s k).keeper.hushEntry
    words := (setAlarmFw s k).keeper.words, wordsAt := (setAlarmFw s k).keeper.wordsAt, poolDue := (setAlarmFw s k).keeper.poolDue } := by
  have h1 := (alarmEnds_kept (s.put Ent.ALARM_FW k)).keeper
  have h2 := (afterEvent_kept (alarmEnds (s.put Ent.ALARM_FW k)) 0x43).keeper
  rw [← setAlarmFw_eq] at h2
  rw [State.put_keeper] at h1 h2
  rw [h1] at h2
  exact h2

theorem setAlarmFw_flyer (k : Nat) : (setAlarmFw s k).flyer = { s.flyer with
    bs := (setAlarmFw s k).flyer.bs, horn := { s.flyer.horn with check := (setAlarmFw s k).flyer.horn.check } } := by
  have h1 := (alarmEnds_kept (s.put Ent.ALARM_FW k)).flyer
  have h2 := (afterEvent_kept (alarmEnds (s.put Ent.ALARM_FW k)) 0x43).flyer
  rw [← setAlarmFw_eq] at h2
  rw [State.put_flyer] at h1 h2
  rw [h1] at h2
  exact h2

variable {s}

/-- With the die released and the flyer up, the keeper waits for PLY_QUIET, and its pads and power are as before. -/
theorem startReset_quiet (hs : s.keeper.seq = .released) (hf : s.flyer.up = true) (cause : Nat) :
    (startReset s cause).keeper.seq = .quiet cause ∧ (startReset s cause).keeper.nrstLow = s.keeper.nrstLow := by
  have hup : (setAlarmFw (s.onKeeper fun k => { k with wdt := none }) 0).flyer.up = true := by rw [setAlarmFw_flyer]; exact hf
  have he : startReset s cause = sbQueue ((setAlarmFw (s.onKeeper fun k => { k with wdt := none }) 0).onKeeper fun k => { k with seq := .quiet cause })
      .keeper 8 1 [0] := by
    unfold startReset
    rw [if_neg (not_not_intro hs)]
    exact if_pos hup
  rw [he, sbQueue_keeper, State.onKeeper_keeper, setAlarmFw_keeper]
  exact ⟨rfl, rfl⟩

/-! ### Its last step (R38, step 3) -/

theorem countReset_cause (t : State) (cause : Nat) : (countReset t cause).get Ent.RESET_CAUSE = cause := by
  rw [countReset, State.bump_get _ (by simp only [Ent.RESET_CAUSE, Ent.SPINDLE_RESETS]; omega), State.get_put_self]

/-- The reset that the sequence leads to, but for CORE's OFF and for the counted loader failures. -/
theorem finishReset_done (s : State) {cause : Nat} (h5 : cause ≠ 5) (h7 : cause ≠ 7) :
    (finishReset s cause).get Ent.RESET_CAUSE = cause ∧ (finishReset s cause).spindle.handed = false ∧
      (finishReset s cause).spindle.core = Core.atReset := by
  have he : finishReset s cause = releaseIfDue ((countReset (dropSpindle s) cause).onKeeper fun k => { k with seq := .held }) := by
    unfold finishReset
    simp only [if_neg h5, h7, false_and, if_false]
  have hspindle : ((countReset (dropSpindle s) cause).onKeeper fun k => { k with seq := .held }).spindle = (dropSpindle s).spindle := by
    simp [countReset]
  obtain ⟨hc, hh⟩ := releaseIfDue_core ((countReset (dropSpindle s) cause).onKeeper fun k => { k with seq := .held })
  rw [he]
  refine ⟨?_, ?_, ?_⟩
  · rw [releaseIfDue_get _ (by decide) (by decide), State.onKeeper_get, countReset_cause]
  · rw [hh, hspindle, dropSpindle_spindle]; rfl
  · rw [hc, hspindle, dropSpindle_spindle]; rfl

theorem quietReached_quiet {cause : Nat} (h : s.keeper.seq = .quiet cause) : quietReached s = finishReset s cause := by
  simp only [quietReached, h]

end Sys2Proof.Machine
end

section
/-! CLAIMS. LOCKUP, ndmreset and the spindle reset sequence (R20, R37, R38, R225, R235, R236). -/
namespace Sys2Proof.Machine
variable {s : State} {m : SbMsg} {cause : Nat}

/-- The message of a type that a die takes next is the one it takes. -/
theorem onArrival_some {ty : Nat} {d : Die} (h : sbArrived s ty d = some m) (f : State → SbMsg → State) : onArrival s ty d f = f s m := by
  simp only [onArrival, h]

/-! ## LOCKUP -/

/-- The first LOCKUP as the keeper records it. -/
def lockupNoted (s : State) (m : SbMsg) : State :=
  let t := ((s.put Ent.LOCKUP_CAUSE (leNat (m.payload.take 4))).put Ent.LOCKUP_EPC (leNat ((m.payload.drop 4).take 4))).put Ent.LOCKUP_TIME (now s)
  ((t.bump Ent.LOCKUPS).put Ent.RESET_CAUSE 2).onKeeper fun k => { k with lockedUp := true }

theorem takeLockup_first (h : s.keeper.lockedUp = false) :
    takeLockup s m = endAuth (logKeeper (lockupNoted (sbLift s .keeper) m) 0x51 0x43 (fitBytes 8 m.payload)) := by
  have hl : ¬(sbLift s .keeper).keeper.lockedUp = true := by simp [h]
  unfold takeLockup
  exact if_neg hl

theorem lockup_recorded (hm : sbArrived s 0 .keeper = some m) (hl : s.keeper.lockedUp = false) :
    Answers .lockup s fun t =>
      Taken s t .keeper ∧ t.keeper.lockedUp = true ∧ t.get Ent.LOCKUP_CAUSE = leNat (m.payload.take 4) ∧
      t.get Ent.LOCKUP_EPC = leNat ((m.payload.drop 4).take 4) ∧ t.get Ent.LOCKUP_TIME = now s ∧ t.get Ent.RESET_CAUSE = 2 ∧
      Counted s t Ent.LOCKUPS := by
  have hget : ∀ e, e ∉ clearedEntries → responseEntry e = false → e ≠ Ent.Q_PEAK 2 → e ≠ Ent.Q_FULL 2 → e / 256 ≠ 0x4106 → e ≠ Ent.ST_STATE →
      (takeLockup s m).get e = (lockupNoted (sbLift s .keeper) m).get e := fun e h1 h2 h3 h4 h5 h6 => by
    rw [takeLockup_first hl, endAuth_get _ h1 h2, logKeeper_get _ h3 h4 h5 h6]
  refine answers_next rfl ?_
  rw [onArrival_some hm]
  refine ⟨?_, ?_, ?_, ?_, ?_, ?_, ?_⟩
  · rw [takeLockup_first hl]; simp [Taken, lockupNoted]
  · rw [takeLockup_first hl]; simp [lockupNoted]
  · rw [hget _ (by decide) (by decide) (by decide) (by decide) (by decide) (by decide)]
    simp (disch := decide) [lockupNoted, State.get_put_ne]
  · rw [hget _ (by decide) (by decide) (by decide) (by decide) (by decide) (by decide)]
    simp (disch := decide) [lockupNoted, State.get_put_ne]
  · rw [hget _ (by decide) (by decide) (by decide) (by decide) (by decide) (by decide)]
    simp (disch := decide) [lockupNoted, State.get_put_ne, now]
  · rw [hget _ (by decide) (by decide) (by decide) (by decide) (by decide) (by decide)]
    simp [lockupNoted]
  · rw [Counted, hget _ (by decide) (by decide) (by decide) (by decide) (by decide) (by decide)]
    simp (disch := decide) [lockupNoted, State.get_put_ne]

/-- A message placed in a queue with room stands last in it. -/
theorem sbQueue_queued {d : Die} (h : roomFor s d) (ty dst : Nat) (p : Bytes) : Queued (sbQueue s d ty dst p) d ty dst p := by
  rw [Queued, sbQueue_room s h, List.getLast?_concat]

theorem lockupRepeatTimer_repeats (hl : s.spindle.lockedUp = true) (hq : (s.sb.spindle.txq.any fun x => x.ty == 0) = false)
    (hr : roomFor s .spindle) :
    Answers .lockupRepeatTimer s fun t =>
      Queued t .spindle 0 0 (leBytes 4 s.spindle.lockCause.toNat ++ leBytes 4 s.spindle.lockEpc.toNat) := by
  refine answers_next rfl ?_
  rw [repeatLockup, if_pos (by simp only [hl, hq, Bool.not_false, Bool.and_self])]
  exact sbQueue_queued hr _ _ _

/-! ## The reset sequence -/

theorem lockupResetDelay_starts (hl : s.keeper.lockedUp = true) (hs : s.keeper.seq = .released) (hf : s.flyer.up = true) :
    Answers .lockupResetDelay s fun t => t.keeper.seq = .quiet 2 := by
  refine answers_next rfl ?_
  rw [if_pos hl]
  exact (startReset_quiet hs hf 2).1

theorem ndmreset_starts (ha : s.spindle.alive = true) (ho : s.spindle.core.debugOpen = true) (hs : s.keeper.seq = .released)
    (hf : s.flyer.up = true) : Answers .ndmreset s fun t => t.keeper.seq = .quiet 6 := by
  refine answers_next rfl ?_
  rw [if_pos (by simp only [ha, ho, Bool.and_self])]
  exact (startReset_quiet hs hf 6).1

theorem plyQuiet_resets (hq : s.keeper.seq = .quiet cause) (h5 : cause ≠ 5) (h7 : cause ≠ 7) (hm : (sbArrived s 9 .keeper).isSome = true) :
    Answers .plyQuiet s fun t => t.get Ent.RESET_CAUSE = cause ∧ t.spindle.handed = false ∧ t.spindle.core = Core.atReset := by
  obtain ⟨m, hm⟩ := Option.isSome_iff_exists.1 hm
  refine answers_next rfl ?_
  rw [onArrival_some hm, quietReached_quiet (by simpa using hq)]
  exact finishReset_done _ h5 h7

theorem peerResetQuietTimeout_resets (hq : s.keeper.seq = .quiet cause) (h5 : cause ≠ 5) (h7 : cause ≠ 7) (ht : s.sb.keeper.txq = [])
    (hw : s.sb.keeper.wait = []) :
    Answers .peerResetQuietTimeout s fun t => t.get Ent.RESET_CAUSE = cause ∧ t.spindle.handed = false ∧ t.spindle.core = Core.atReset := by
  have hn : ¬((s.sb.keeper.txq.any fun m => m.ty == 8) || sbOutstanding s.sb.keeper 8) = true := by simp [ht, hw, sbOutstanding]
  refine answers_next rfl ?_
  rw [if_neg hn, quietReached_quiet hq]
  exact finishReset_done _ h5 h7

/-- Settles O13, clause by clause. -/
theorem lockupAndResets : Obligations.LockupAndResets := fun _ _ _ =>
  ⟨lockup_recorded, lockupRepeatTimer_repeats, lockupResetDelay_starts, ndmreset_starts, plyQuiet_resets, peerResetQuietTimeout_resets⟩

end Sys2Proof.Machine
end

section
/-! SUPPORT. The keeper's start (R37, R39, R91): what its last steps leave of the state that its power-on reset has set up. -/
namespace Sys2Proof.Machine
variable {s t u : State}

/-! ### What the steps of a start leave -/

/-- Parts of the state that every step of the keeper's start-up leaves alone. -/
structure PorKept (s t : State) : Prop where
  alive : t.spindle.alive = s.spindle.alive
  seq : t.keeper.seq = s.keeper.seq
  lcArmed : t.keeper.lcArmed = s.keeper.lcArmed
  jobs : t.keeper.jobs = s.keeper.jobs
  lcRows : t.keeper.lcRows = s.keeper.lcRows
  await : t.log.await = s.log.await
  tag : t.tag = s.tag

/-- The mode and the time of a start (R91). -/
def startEntries : List Nat := [Ent.MODE, Ent.BASE_MODE, Ent.MODE_SINCE, Ent.RTC_TIME]

/-- Those parts, with the mode and the time. -/
structure StartKept (s t : State) : Prop extends PorKept s t where
  get : ∀ e ∈ startEntries, t.get e = s.get e

theorem PorKept.refl (s : State) : PorKept s s := ⟨rfl, rfl, rfl, rfl, rfl, rfl, rfl⟩

theorem PorKept.trans (h : PorKept s t) (g : PorKept t u) : PorKept s u :=
  ⟨g.alive.trans h.alive, g.seq.trans h.seq, g.lcArmed.trans h.lcArmed, g.jobs.trans h.jobs, g.lcRows.trans h.lcRows, g.await.trans h.await,
    g.tag.trans h.tag⟩

theorem StartKept.refl (s : State) : StartKept s s := ⟨.refl s, fun _ _ => rfl⟩

theorem StartKept.trans (h : StartKept s t) (g : StartKept t u) : StartKept s u :=
  ⟨h.toPorKept.trans g.toPorKept, fun e he => (g.get e he).trans (h.get e he)⟩

theorem StartKept.ite {a b : State} {c : Prop} [Decidable c] (ha : StartKept s a) (hb : StartKept s b) : StartKept s (if c then a else b) := by
  split <;> assumption

theorem put_porKept (s : State) (e v : Nat) : PorKept s (s.put e v) := ⟨rfl, rfl, rfl, rfl, rfl, rfl, rfl⟩

theorem put_startKept (s : State) {e : Nat} (v : Nat) (h : e ∉ startEntries) : StartKept s (s.put e v) :=
  ⟨put_porKept s e v, fun e' he => State.get_put_ne s (by rintro rfl; exact h he) v⟩

/-- An entry of a start is none of those outside its list. -/
theorem startEntries_ne {e e' : Nat} (he : e ∈ startEntries) (h : e' ∉ startEntries) : e ≠ e' := fun hx => h (hx ▸ he)

theorem raise_startKept (s : State) (k : Nat) : StartKept s (raise s k) where
  alive := by rw [raise_spindle]
  seq := by rw [raise_keeper']
  lcArmed := by rw [raise_keeper']
  jobs := by rw [raise_keeper']
  lcRows := by rw [raise_keeper']
  await := by rw [raise_log]
  tag := by rw [raise_tag]
  get e he := raise_get s (startEntries_ne he (by decide))

theorem onFlyer_startKept (s : State) (f : Flyer → Flyer) : StartKept s (s.onFlyer f) := ⟨⟨rfl, rfl, rfl, rfl, rfl, rfl, rfl⟩, fun _ _ => rfl⟩

theorem used_startKept (s : State) : StartKept s s.used := ⟨⟨rfl, rfl, rfl, rfl, rfl, rfl, rfl⟩, fun _ _ => rfl⟩

theorem onDom_startKept (s : State) (d : Domain) (f : DomSeq → DomSeq) : StartKept s (onDom s d f) :=
  ⟨⟨rfl, rfl, rfl, rfl, rfl, rfl, rfl⟩, fun _ _ => rfl⟩

theorem foldl_startKept {α : Type} {f : State → α → State} (h : ∀ s x, StartKept s (f s x)) (l : List α) (s : State) : StartKept s (l.foldl f s) := by
  induction l generalizing s with
  | nil => exact .refl s
  | cons x l ih => exact (h s x).trans (ih _)

theorem sbQueue_startKept (s : State) (d : Die) (ty dst : Nat) (p : Bytes) : StartKept s (sbQueue s d ty dst p) where
  alive := by rw [sbQueue_spindle]
  seq := by rw [sbQueue_keeper]
  lcArmed := by rw [sbQueue_keeper]
  jobs := by rw [sbQueue_keeper]
  lcRows := by rw [sbQueue_keeper]
  await := by rw [sbQueue_log]
  tag := by rw [sbQueue_tag]
  get e he := sbQueue_get s (startEntries_ne he (by decide)) (startEntries_ne he (by decide))

theorem sendDomain_startKept (s : State) (d : Domain) (r : Nat) : StartKept s (sendDomain s d r) :=
  (onDom_startKept _ _ _).trans (sbQueue_startKept _ _ _ _ _)

/-! ### Records and counters -/

theorem logKeeper_await (s : State) (ty src : Nat) (b : Bytes) : (logKeeper s ty src b).log.await = s.log.await := by
  rw [(logKeeper_kept s ty src b).log]

theorem logKeeper_startKept (s : State) (ty src : Nat) (b : Bytes) : StartKept s (logKeeper s ty src b) where
  alive := by rw [(logKeeper_kept s ty src b).spindle]
  seq := by rw [(logKeeper_kept s ty src b).keeper]
  lcArmed := by rw [(logKeeper_kept s ty src b).keeper]
  jobs := by rw [(logKeeper_kept s ty src b).keeper]
  lcRows := by rw [(logKeeper_kept s ty src b).keeper]
  await := logKeeper_await s ty src b
  tag := (logKeeper_kept s ty src b).tag
  get e he := by
    have h : e / 256 ≠ 0x4106 := by revert he; revert e; decide
    exact logKeeper_get s (startEntries_ne he (by decide)) (startEntries_ne he (by decide)) h (startEntries_ne he (by decide))

theorem alertFlags_startKept (s : State) (inst kind : Nat) : StartKept s (alertFlags s 0x40 inst kind) :=
  (((((put_startKept s _ (by decide)).trans (put_startKept _ _ (by decide))).trans (put_startKept _ _ (by decide))).trans
    (put_startKept _ _ (by decide)))).trans (raise_startKept _ 4)

theorem onLog_startKept (s : State) (f : LogUnit → LogUnit) (h : (f s.log).await = s.log.await) : StartKept s (s.onLog f) :=
  ⟨⟨rfl, rfl, rfl, rfl, rfl, h, rfl⟩, fun _ _ => rfl⟩

theorem alertRecord_startKept (s : State) (ty src : Nat) (f : Nat → Bytes) : StartKept s (alertRecord s .keeper ty src f) := by
  refine .ite ((onLog_startKept _ _ rfl).trans (put_startKept _ _ (by decide))) (.ite ?_ ?_)
  · exact (onLog_startKept _ _ rfl).trans (logKeeper_startKept _ _ _ _)
  · exact (onLog_startKept _ _ rfl).trans (logKeeper_startKept _ _ _ _)

theorem monoStart_startKept (s : State) : StartKept s (monoStart s) :=
  .ite (.refl s) (.ite ((put_startKept _ _ (by decide)).trans (put_startKept _ _ (by decide))) (put_startKept _ _ (by decide)))

/-! ### The flyer's domains (R37) -/

theorem refuse_startKept (s : State) (d : Domain) (w n : Nat) : StartKept s (refuse s d w n) := by
  refine (((put_startKept s _ ?_).trans (put_startKept _ _ ?_)).trans (put_startKept _ _ (by decide))).trans (raise_startKept _ _) <;>
    cases d <;> decide

theorem rise_startKept (s : State) {d : Domain} (hd : isFlyerDom d = true) : StartKept s (rise s d) := by
  have hexit : ∀ s, StartKept s (beginExit s d (some 0x0C)) := fun s => by
    rw [beginExit_flyer s hd]
    exact (onFlyer_startKept _ _).trans (put_startKept _ _ (by cases d <;> decide))
  have hn : ¬(d = .core ∨ d = .code ∨ d = .data) := by rintro (rfl | rfl | rfl) <;> simp [isFlyerDom, domNum] at hd
  unfold rise raiseDomain
  split
  · rw [if_neg hn]; exact (refuse_startKept _ _ _ _).trans (hexit _)
  · exact hexit _
  · exact hexit _
  · exact .refl s

theorem onSense_startKept (s : State) (f : Sensing → Sensing) : StartKept s (s.onSense f) := onFlyer_startKept s _

theorem optNext_startKept (s : State) : StartKept s (optNext s) := by
  unfold optNext optStart
  split
  · exact .ite (((onSense_startKept s _).trans (rise_startKept _ (d := .opt) (by decide))).trans (onSense_startKept _ _)) (.refl s)
  · exact .refl s

theorem heatNext_startKept (s : State) : StartKept s (heatNext s) := by
  unfold heatNext heatStart
  exact .ite ((rise_startKept s (d := .heat) (by decide)).trans (onSense_startKept _ _)) (.refl s)

theorem coNext_startKept (s : State) : StartKept s (coNext s) := by
  unfold coNext coStart
  exact .ite ((rise_startKept s (d := .gas) (by decide)).trans (onSense_startKept _ _)) (.refl s)

theorem auxNext_startKept (s : State) : StartKept s (auxNext s) := by
  unfold auxNext auxStart
  exact .ite ((rise_startKept s (d := .gas) (by decide)).trans (onSense_startKept _ _)) (.refl s)

theorem resetFlyerDomains_startKept (s : State) : StartKept s (resetFlyerDomains s) :=
  ((((onFlyer_startKept s _).trans (optNext_startKept _)).trans (heatNext_startKept _)).trans (coNext_startKept _)).trans (auxNext_startKept _)

/-! ### The mode at start-up (R91) -/

/-- A life-cycle word that is invalid raises its alert and its fault. -/
def lcAlerted (s : State) : State :=
  if lcValid s then s
  else (alertRecord (alertFlags s 0x40 3 0) .keeper 0x40 0x30 fun _ => [3] ++ leBytes 4 (lcWord s) ++ [0x80]).setBits Ent.FAULT_CAUSE 1

/-- The faults that a start-up finds are flagged. -/
def startFaults (s : State) : State :=
  let t := (lcAlerted s).onKeeper fun k => { k with lcReported := !lcValid (lcAlerted s) }
  if backstopSetWritten t then t else t.setBits Ent.FAULT_CAUSE 128

/-- The mode of a start-up: the base mode where the life-cycle state asks for supervision. -/
def modeAtStart (s : State) : Mode :=
  if startMode s = .supervise ∨ startMode s = .fault then (if lcValid s then baseMode s else .fault) else startMode s

/-- The mode, the base mode and the time of the start are stored. -/
def startStored (s : State) : State :=
  let t := s.put Ent.BASE_MODE (modeCode (baseMode s))
  (t.put Ent.MODE (modeCode (modeAtStart t))).put Ent.MODE_SINCE (now t)

theorem startModes_eq (s : State) : startModes s =
    if lcValid ((startFaults s).put Ent.BASE_MODE (modeCode (baseMode (startFaults s)))) then startStored (startFaults s)
    else sendMode (startStored (startFaults s)) := rfl

theorem lcAlerted_startKept (s : State) : StartKept s (lcAlerted s) :=
  .ite (.refl s) (((alertFlags_startKept s 3 0).trans (alertRecord_startKept _ _ _ _)).trans (put_startKept _ _ (by decide)))

theorem startFaults_startKept (s : State) : StartKept s (startFaults s) := by
  have hrep : ∀ (t : State) (b : Bool), StartKept t (t.onKeeper fun k => { k with lcReported := b }) :=
    fun t b => ⟨⟨rfl, rfl, rfl, rfl, rfl, rfl, rfl⟩, fun _ _ => rfl⟩
  exact ((lcAlerted_startKept s).trans (hrep _ _)).trans (.ite (.refl _) (put_startKept _ _ (by decide)))

/-- BASE_MODE is no condition of the base mode (R83). -/
theorem baseMode_put (s : State) (v : Nat) : baseMode (s.put Ent.BASE_MODE v) = baseMode s := by
  have h : ∀ e, e ≠ Ent.BASE_MODE → (s.put Ent.BASE_MODE v).get e = s.get e := fun e he => State.get_put_ne s he v
  unfold baseMode eolReached
  rw [h Ent.FAULT_CAUSE (by decide), h Ent.COMMISSIONED_AT (by decide), h Ent.EOL_DAYS (by decide), h Ent.SERVICE_SECONDS (by decide)]

/-- The life-cycle word is in the fuses alone (R96). -/
theorem lcValid_of_rows {s t : State} (h : t.keeper.lcRows = s.keeper.lcRows) : lcValid t = lcValid s := by
  unfold lcValid lcTop
  rw [h]

theorem lcNow_of_rows {s t : State} (h : t.keeper.lcRows = s.keeper.lcRows) : lcNow t = lcNow s := by
  unfold lcNow lcWord lcTop
  rw [lcValid_of_rows h, h]

theorem modeAtStart_invalid (h : lcValid s = false) : modeAtStart s = .fault := by simp [modeAtStart, startMode, h]

theorem modeAtStart_factory (h : lcValid s = true) (hl : lcNow s = .blank ∨ lcNow s = .maker) : modeAtStart s = .factory := by
  rcases hl with hl | hl <;> simp [modeAtStart, startMode, h, hl]

theorem modeAtStart_retired (h : lcValid s = true) (hl : lcNow s = .retired) : modeAtStart s = .retired := by
  simp [modeAtStart, startMode, h, hl]

theorem modeAtStart_base (h : lcValid s = true) (hl : lcNow s = .owned ∨ lcNow s = .field) : modeAtStart s = baseMode s := by
  rcases hl with hl | hl <;> simp [modeAtStart, startMode, h, hl]

theorem modeAtStart_put (s : State) (v : Nat) : modeAtStart (s.put Ent.BASE_MODE v) = modeAtStart s := by
  have hrows : (s.put Ent.BASE_MODE v).keeper.lcRows = s.keeper.lcRows := rfl
  unfold modeAtStart startMode
  rw [lcValid_of_rows hrows, lcNow_of_rows hrows, baseMode_put]

theorem startStored_porKept (s : State) : PorKept s (startStored s) :=
  ((put_porKept _ _ _).trans (put_porKept _ _ _)).trans (put_porKept _ _ _)

/-- The start-up's mode is stored over the faults that it finds. -/
theorem startStored_startKept (s : State) : StartKept (startStored (startFaults s)) (startModes s) := by
  rw [startModes_eq]
  exact .ite (.refl _) (sbQueue_startKept _ _ _ _ _)

theorem startModes_porKept (s : State) : PorKept s (startModes s) :=
  ((startFaults_startKept s).toPorKept.trans (startStored_porKept _)).trans (startStored_startKept s).toPorKept

theorem startModes_mode (s : State) : (startModes s).get Ent.MODE = modeCode (modeAtStart (startFaults s)) := by
  rw [(startStored_startKept s).get _ (by decide), startStored, State.get_put_ne _ (by decide), State.get_put_self, modeAtStart_put]

theorem startModes_base (s : State) : (startModes s).get Ent.BASE_MODE = modeCode (baseMode (startFaults s)) := by
  rw [(startStored_startKept s).get _ (by decide), startStored, State.get_put_ne _ (by decide), State.get_put_ne _ (by decide), State.get_put_self]

theorem startModes_since (s : State) : (startModes s).get Ent.MODE_SINCE = now (startModes s) := by
  rw [now, (startStored_startKept s).get _ (by decide), (startStored_startKept s).get Ent.RTC_TIME (by decide), startStored, State.get_put_self]
  simp (disch := decide) [State.get_put_ne, now]

end Sys2Proof.Machine
end

section
/-! SUPPORT. Power and the keeper's power-on reset (R37, R39, R47, R96, R313): what the writes that it cuts leave of the fuses, and the log that it finds. -/
namespace Sys2Proof.Machine
variable {s t u : State}

/-! ### Writes that are cut (R47, R96) -/

/-- What an N write leaves of the keeper, whether or not it is cut: the committed service time and the fuses of the life-cycle. -/
structure NvmKept (s t : State) : Prop where
  saved : t.keeper.savedService = s.keeper.savedService
  rows : t.keeper.lcRows = s.keeper.lcRows
  programming : t.keeper.lcProgramming = s.keeper.lcProgramming

theorem NvmKept.refl (s : State) : NvmKept s s := ⟨rfl, rfl, rfl⟩

theorem NvmKept.trans (h : NvmKept s t) (g : NvmKept t u) : NvmKept s u :=
  ⟨g.saved.trans h.saved, g.rows.trans h.rows, g.programming.trans h.programming⟩

theorem NvmKept.of_keeper (h : t.keeper = s.keeper) : NvmKept s t := ⟨by rw [h], by rw [h], by rw [h]⟩

theorem NvmKept.foldl {α : Type} {f : State → α → State} (h : ∀ s x, NvmKept s (f s x)) (l : List α) (s : State) : NvmKept s (l.foldl f s) := by
  induction l generalizing s with
  | nil => exact .refl s
  | cons x l ih => exact (h s x).trans (ih _)

theorem monoInc_keeper (s : State) (v : User) (n : Nat) : (monoInc s v n).1.keeper = s.keeper := by
  unfold monoInc; dsimp only; split_ifs <;> simp

theorem storeN_nvmKept (s : State) (v : User) (e n : Nat) : NvmKept s (storeN s v e n) := by
  have hburn : NvmKept s (burn s e n) := ⟨rfl, rfl, rfl⟩
  unfold storeN
  split
  · exact .refl s
  split
  · exact .of_keeper (monoInc_keeper _ _ _)
  split
  · split
    · exact .of_keeper rfl
    split
    · dsimp only
      split
      · exact hburn.trans (.of_keeper rfl)
      · exact hburn
    · exact .of_keeper rfl
  · exact .refl s

theorem writeRows_nvmKept (s : State) (ws : List (Nat × Nat)) : NvmKept s (writeRows s ws) :=
  .foldl (fun s k => by dsimp only; split; exacts [.refl s, ⟨rfl, rfl, rfl⟩]) _ s

theorem storeJob_nvmKept (s : State) (j : NvmJob) : NvmKept s (storeJob s j) := by
  have h := fun ws ws' => (NvmKept.foldl (fun s (w : Nat × Nat) => storeN_nvmKept s j.req.user w.1 w.2) ws s).trans (writeRows_nvmKept _ ws')
  unfold storeJob
  dsimp only
  split
  · exact (h _ _).trans (.of_keeper rfl)
  · exact h _ _

theorem cutJobs_nvmKept (s : State) : NvmKept s (cutJobs s) := by
  refine .trans (.foldl (fun s j => ?_) s.keeper.jobs s) ⟨rfl, rfl, rfl⟩
  split
  · exact (storeJob_nvmKept s j).trans (.of_keeper rfl)
  · exact .of_keeper rfl

theorem tornWrite_nvmKept (s : State) : NvmKept s (tornWrite s) := by
  refine .of_keeper ?_
  unfold tornWrite
  dsimp only
  split
  · rfl
  · rename_i f _
    rcases f.pair with _ | ⟨r, v⟩ <;> dsimp only <;> split_ifs <;> rfl

theorem cutFuses_idle (h : s.keeper.lcProgramming = none) : cutFuses s = s := by simp only [cutFuses, h]

theorem setLcRow_saved (s : State) (r v : Nat) : (setLcRow s r v).keeper.savedService = s.keeper.savedService := rfl

theorem cutFuses_saved (s : State) : (cutFuses s).keeper.savedService = s.keeper.savedService := by
  unfold cutFuses
  split
  · rfl
  · dsimp only
    have h : ∀ (l : List (Nat × Nat)) (s : State), (l.foldl (fun s r => setLcRow s r.1 r.2) s).keeper.savedService = s.keeper.savedService :=
      fun l s => foldl_same s l (g := fun s => s.keeper.savedService) fun s r => setLcRow_saved s r.1 r.2
    split <;> exact h _ _

/-! ### The log at a start (R313) -/

theorem dropQueue_porKept (s : State) (b : Bool) : PorKept (s.onLog fun l => { l with await := none }) (dropQueue s b) := by
  have hk : ∀ l : List LogRec, (l.foldl unlogged s).keeper = s.keeper := fun l => foldl_same s l unlogged_keeper
  have hs : ∀ l : List LogRec, (l.foldl unlogged s).spindle = s.spindle := fun l => foldl_same s l unlogged_spindle
  have ht : ∀ l : List LogRec, (l.foldl unlogged s).tag = s.tag := fun l => foldl_same s l unlogged_tag
  exact ⟨congrArg Spindle.alive (hs _), congrArg Keeper.seq (hk _), congrArg Keeper.lcArmed (hk _), congrArg Keeper.jobs (hk _),
    congrArg Keeper.lcRows (hk _), rfl, ht _⟩

theorem commitRecord_porKept (s : State) (f : Formed) (h : s.log.await = none) : PorKept s (commitRecord s f) := by
  have hl : ∀ (s : State) (g : LogUnit → LogUnit), (g s.log).await = s.log.await → PorKept s (s.onLog g) := fun s g hg =>
    (onLog_startKept s g hg).toPorKept
  unfold commitRecord
  dsimp only
  split
  · exact ((hl _ _ h.symm).trans (put_porKept _ _ _)).trans (put_porKept _ _ _)
  · exact (((((((hl _ _ h.symm).trans (put_porKept _ _ _)).trans (put_porKept _ _ _)).trans (hl _ _ rfl)).trans (put_porKept _ _ _)).trans
      (put_porKept _ _ _)).trans (put_porKept _ _ _)).trans (raise_startKept _ _).toPorKept

theorem stSigned_porKept (s : State) (ty : Nat) : PorKept s (stSigned s ty) := by
  unfold stSigned
  split
  · exact put_porKept _ _ _
  · exact .refl s

theorem noteSelftest_porKept (s : State) (f : Formed) : PorKept s (noteSelftest s f) := by
  unfold noteSelftest
  split
  · exact .refl s
  · have h3 : ∀ a b c, PorKept s (((s.put Ent.ST_LAST_RESULT a).put Ent.ST_LAST_TIME b).put Ent.ST_LAST_SEQ c) := fun _ _ _ =>
      ((put_porKept _ _ _).trans (put_porKept _ _ _)).trans (put_porKept _ _ _)
    dsimp only
    split
    · exact (h3 _ _ _).trans (stSigned_porKept _ _)
    · exact ((h3 _ _ _).trans (put_porKept _ _ _)).trans (stSigned_porKept _ _)

theorem settleRecord_porKept (s : State) (f : Formed) (h : s.log.await = none) : PorKept s (settleRecord s f) := by
  have hn := (commitRecord_porKept s f h).trans (noteSelftest_porKept _ f)
  unfold settleRecord
  dsimp only
  split
  · exact hn.trans (raise_startKept _ _).toPorKept
  · exact hn

/-- The log as a start finds it: no signature is awaited. -/
theorem recoverLog_porKept (s : State) : PorKept (s.onLog fun l => { l with await := none }) (recoverLog s).1 := by
  unfold recoverLog
  dsimp only
  split
  · exact (dropQueue_porKept s false).trans (settleRecord_porKept _ _ (dropQueue_porKept s false).await)
  · split
    · exact (dropQueue_porKept s true).trans (put_porKept _ _ _)
    · exact dropQueue_porKept s true

/-! ### The keeper's power-on reset (R37, R91) -/

/-- What is left of the device when the keeper has lost its volatile state. -/
def porFresh (s : State) (tm : Bool) : State :=
  let s := (dropSpindle (cutFuses (cutJobs (tornWrite s)))).dropEntries fun r => r.held == .keeper
  let s := s.onKeeper fun k => keeperFresh k (tm && lcValid s && lcNow s == .blank)
  allDomains.foldl (fun s d => onDom s d fun _ => {}) ((onSbDie s .keeper fun _ => {}).onTag fun _ => {})

/-- The times that the keeper takes from its NVM and its log (R189). -/
def porTimes (s : State) : State :=
  let s := s.put Ent.RTC_TIME (max s.keeper.savedTime (newestTime s))
  let s := s.put Ent.SERVICE_SECONDS s.keeper.savedService
  countReset (s.put Ent.ST_NEXT_DUE (firstDue s.keeper.savedService)) 0

/-- The last steps: the start is counted and recorded, the flyer's domains are reset and told their rest states. -/
def porTail (s : State) (moved : List Domain) (lost : Nat) : State :=
  let s := if s.keeper.vddValid then monoStart s else s.onKeeper fun k => { k with startOwed := true }
  let s := logKeeper s 0x56 0x43 (leBytes 4 (now s) ++ leBytes 4 (s.get Ent.SERVICE_SECONDS) ++ leBytes 2 lost)
  if s.keeper.vddValid then
    sendHello (moved.foldl (fun s d => sendDomain s d (restState s d)) (resetFlyerDomains s)) .flyer (openCause s) |>.used
  else s

theorem keeperPor_eq (s : State) (tm : Bool) : keeperPor s tm =
    porTail (startModes (porTimes (recoverLog (porFresh s tm)).1)) (flyerDomains.filter fun d => s.get (Ent.REST (domId d)) != entryDefault (Ent.REST (domId d)))
      (recoverLog (porFresh s tm)).2 := by
  dsimp only [keeperPor, porTail, porTimes, porFresh]

theorem porTimes_porKept (s : State) : PorKept s (porTimes s) :=
  ((((put_porKept _ _ _).trans (put_porKept _ _ _)).trans (put_porKept _ _ _)).trans (put_porKept _ _ _)).trans (put_porKept _ _ _)

theorem porTail_startKept (s : State) (moved : List Domain) (lost : Nat) : StartKept s (porTail s moved lost) := by
  have howed : StartKept s (s.onKeeper fun k => { k with startOwed := true }) := ⟨⟨rfl, rfl, rfl, rfl, rfl, rfl, rfl⟩, fun _ _ => rfl⟩
  have hlog := fun b => StartKept.trans (.ite (c := s.keeper.vddValid = true) (monoStart_startKept s) howed) (logKeeper_startKept _ 0x56 0x43 b)
  unfold porTail
  dsimp only
  refine (hlog _).trans (.ite ?_ (.refl _))
  exact (((resetFlyerDomains_startKept _).trans (foldl_startKept (fun s d => sendDomain_startKept s d (restState s d)) moved _)).trans
    (sbQueue_startKept _ _ _ _ _)).trans (used_startKept _)

/-- Every part of a power-on reset, but for the start-up's mode, is as the keeper's fresh state has it. -/
theorem keeperPor_porKept (s : State) (tm : Bool) : PorKept ((porFresh s tm).onLog fun l => { l with await := none }) (keeperPor s tm) := by
  rw [keeperPor_eq]
  exact (((recoverLog_porKept _).trans (porTimes_porKept _)).trans (startModes_porKept _)).trans (porTail_startKept _ _ _).toPorKept

theorem porFresh_same {α : Type} {g : State → α} (tm : Bool) (hd : ∀ s d f, g (onDom s d f) = g s) : g (porFresh s tm) =
    g ((onSbDie (((dropSpindle (cutFuses (cutJobs (tornWrite s)))).dropEntries fun r => r.held == .keeper).onKeeper fun k =>
      keeperFresh k (tm && lcValid ((dropSpindle (cutFuses (cutJobs (tornWrite s)))).dropEntries fun r => r.held == .keeper) &&
        lcNow ((dropSpindle (cutFuses (cutJobs (tornWrite s)))).dropEntries fun r => r.held == .keeper) == .blank)) .keeper fun _ => {}).onTag
          fun _ => {}) := foldl_same (g := g) _ _ fun s d => hd s d _

theorem porFresh_tag (s : State) (tm : Bool) : (porFresh s tm).tag = {} := by
  rw [porFresh_same tm (g := State.tag) fun _ _ _ => rfl]; rfl

theorem porFresh_alive (s : State) (tm : Bool) : (porFresh s tm).spindle.alive = false := by
  rw [porFresh_same tm (g := State.spindle) fun _ _ _ => rfl]
  simp only [State.onTag_spindle, State.onSbDie_spindle, State.onKeeper_spindle, State.dropEntries_spindle]
  rw [dropSpindle_spindle]
  rfl

theorem porFresh_keeper (s : State) (tm : Bool) : (porFresh s tm).keeper.seq = .held ∧ (porFresh s tm).keeper.lcArmed = none ∧
    (porFresh s tm).keeper.jobs = [] := by
  rw [porFresh_same tm (g := State.keeper) fun _ _ _ => rfl]
  simp only [State.onTag_keeper, State.onSbDie_keeper, State.onKeeper_keeper]
  exact ⟨rfl, rfl, rfl⟩

/-- With no programming under way the fuses keep what they hold (R96). -/
theorem porFresh_rows (tm : Bool) (h : s.keeper.lcProgramming = none) : (porFresh s tm).keeper.lcRows = s.keeper.lcRows := by
  have hcut := (tornWrite_nvmKept s).trans (cutJobs_nvmKept _)
  rw [porFresh_same tm (g := State.keeper) fun _ _ _ => rfl]
  simp only [State.onTag_keeper, State.onSbDie_keeper, State.onKeeper_keeper, State.dropEntries_keeper, keeperFresh]
  rw [dropSpindle_keeper, cutFuses_idle (hcut.programming.trans h)]
  exact hcut.rows

end Sys2Proof.Machine
end

section
/-! CLAIMS. Power, the keeper's power-on reset, NRST (R37 to R40, R83, R91, R94, R390, R394). -/
namespace Sys2Proof.Machine
variable {s : State}

/-! ## VDD_IN -/

theorem monoStart_keeper (s : State) : (monoStart s).keeper = s.keeper := by unfold monoStart; dsimp only; split_ifs <;> simp
theorem monoStart_spindle (s : State) : (monoStart s).spindle = s.spindle := by unfold monoStart; dsimp only; split_ifs <;> simp

theorem vddInValid_powers (mv : Nat) (h : s.keeper.vddValid = false) :
    Answers (.vddInValid mv) s fun t =>
      t.keeper.vddValid = true ∧ t.keeper.vddMv = mv ∧ t.flyer = flyerFresh ∧ t.spindle.alive = s.spindle.alive := by
  have he : ∃ (u : State) (c : Nat), powerUp s mv = (startFlyer (u.onKeeper fun k => { k with vddValid := true, vddMv := mv, startOwed := false }) c).used ∧
      u.spindle = s.spindle := by
    unfold powerUp
    rw [if_neg (by simp [h])]
    refine ⟨_, _, rfl, ?_⟩
    split
    · exact monoStart_spindle s
    · rfl
  obtain ⟨u, c, he, hu⟩ := he
  refine answers_next rfl ?_
  rw [he]
  refine ⟨?_, ?_, ?_, ?_⟩
  · simp
  · simp
  · simp
  · rw [State.used_spindle, startFlyer_spindle, State.onKeeper_spindle, hu]

/-- What stands when VDD_IN is lost: the writes that it cuts, and both dies in reset. -/
def powerCut (s : State) : State :=
  let s := lostHold (dropFlyer (dropSpindle (haltLog (cutFuses (cutJobs (tornWrite s)))))) .spindle
  (onSbDie s .spindle fun _ => {}).onSb fun b => { b with wire := none }

theorem powerCut_spindle (s : State) : (powerCut s).spindle.alive = false ∧ (powerCut s).spindle.handed = false := by
  have h : (powerCut s).spindle = (dropFlyer (dropSpindle (haltLog (cutFuses (cutJobs (tornWrite s)))))).spindle := by simp [powerCut]
  rw [h, dropFlyer_spindle, dropSpindle_spindle]
  exact ⟨rfl, rfl⟩

theorem powerCut_flyer (s : State) : (powerCut s).flyer = {} := by simp [powerCut]

theorem powerCut_saved (s : State) : (powerCut s).keeper.savedService = s.keeper.savedService := by
  have h : (powerCut s).keeper = (dropSpindle (haltLog (cutFuses (cutJobs (tornWrite s))))).keeper := by simp [powerCut]
  rw [h, dropSpindle_keeper]
  exact (cutFuses_saved _).trans ((tornWrite_nvmKept s).trans (cutJobs_nvmKept _)).saved

theorem vddInLost_cuts (mv : Nat) (h : s.keeper.vddValid = true) :
    Answers (.vddInLost mv) s fun t =>
      t.keeper.vddValid = false ∧ t.flyer = {} ∧ t.spindle.alive = false ∧ t.spindle.handed = false ∧ t.keeper.live = false ∧ t.sb.wire = none ∧
        t.keeper.lcArmed = none ∧ t.get Ent.SERVICE_SECONDS = s.keeper.savedService := by
  have he : powerLost s mv = ((powerCut s).onKeeper fun k =>
      { k with vddValid := false, vddMv := mv, seq := .held, live := false, lcArmed := none }).put Ent.SERVICE_SECONDS
        (powerCut s).keeper.savedService := by
    unfold powerLost
    rw [if_neg (by simp [h])]
    rfl
  refine answers_next rfl ?_
  rw [he]
  obtain ⟨ha, hh⟩ := powerCut_spindle s
  simp only [State.get_put_self, State.put_keeper, State.put_flyer, State.put_spindle, State.put_sb, State.onKeeper_keeper, State.onKeeper_flyer,
    State.onKeeper_spindle, State.onKeeper_sb]
  exact ⟨trivial, powerCut_flyer s, ha, hh, trivial, rfl, trivial, powerCut_saved s⟩

/-! ## The keeper's power-on reset -/

theorem keeperPowerOnReset_forgets (tm : Bool) :
    Answers (.keeperPowerOnReset tm) s fun t =>
      t.spindle.alive = false ∧ t.keeper.seq = .held ∧ t.keeper.lcArmed = none ∧ t.keeper.jobs = [] ∧ t.log.await = none ∧ t.tag = {} := by
  have hk := keeperPor_porKept s tm
  obtain ⟨hq, ha, hj⟩ := porFresh_keeper s tm
  refine answers_next (t := keeperPor s tm) rfl ?_
  rw [hk.alive, hk.seq, hk.lcArmed, hk.jobs, hk.await, hk.tag]
  simp only [State.onLog_spindle, State.onLog_keeper, State.onLog_log, State.onLog_tag]
  exact ⟨porFresh_alive s tm, hq, ha, hj, trivial, porFresh_tag s tm⟩

/-- The mode of a start is the one that R91 gives for the fuses. -/
theorem keeperPor_mode (tm : Bool) (h : s.keeper.lcProgramming = none) : ∃ u : State, u.keeper.lcRows = s.keeper.lcRows ∧
    (keeperPor s tm).get Ent.MODE = modeCode (modeAtStart u) ∧ (keeperPor s tm).get Ent.BASE_MODE = modeCode (baseMode u) ∧
    (keeperPor s tm).get Ent.MODE_SINCE = now (keeperPor s tm) := by
  have hrows := (((recoverLog_porKept (porFresh s tm)).trans (porTimes_porKept _)).trans (startFaults_startKept _).toPorKept).lcRows
  rw [State.onLog_keeper, porFresh_rows tm h] at hrows
  refine ⟨_, hrows, ?_⟩
  rw [keeperPor_eq, now, (porTail_startKept _ _ _).get Ent.MODE (by decide), (porTail_startKept _ _ _).get Ent.BASE_MODE (by decide),
    (porTail_startKept _ _ _).get Ent.MODE_SINCE (by decide), (porTail_startKept _ _ _).get Ent.RTC_TIME (by decide)]
  exact ⟨startModes_mode _, startModes_base _, startModes_since _⟩

theorem keeperPowerOnReset_mode (tm : Bool) (h : s.keeper.lcProgramming = none) :
    Answers (.keeperPowerOnReset tm) s fun t =>
      (lcValid s = false → t.get Ent.MODE = modeCode .fault) ∧
      (lcValid s = true → lcNow s = .blank ∨ lcNow s = .maker → t.get Ent.MODE = modeCode .factory) ∧
      (lcValid s = true → lcNow s = .retired → t.get Ent.MODE = modeCode .retired) ∧
      (lcValid s = true → lcNow s = .owned ∨ lcNow s = .field → t.get Ent.MODE = t.get Ent.BASE_MODE) ∧
      t.get Ent.MODE_SINCE = now t := by
  obtain ⟨u, hrows, hmode, hbase, hsince⟩ := keeperPor_mode (s := s) tm h
  have hv := lcValid_of_rows hrows
  have hl := lcNow_of_rows hrows
  refine answers_next (t := keeperPor s tm) rfl ⟨fun h0 => ?_, fun h1 hn => ?_, fun h1 hn => ?_, fun h1 hn => ?_, hsince⟩
  · rw [hmode, modeAtStart_invalid (hv.trans h0)]
  · rw [hmode, modeAtStart_factory (hv.trans h1) (by rwa [hl])]
  · rw [hmode, modeAtStart_retired (hv.trans h1) (by rwa [hl])]
  · rw [hmode, hbase, modeAtStart_base (hv.trans h1) (by rwa [hl])]

/-! ## NRST -/

theorem nrstAssert_starts (hs : s.keeper.seq = .released) (hf : s.flyer.up = true) :
    Answers .nrstAssert s fun t => t.keeper.nrstLow = true ∧ t.keeper.seq = .quiet 1 := by
  obtain ⟨hq, hn⟩ := startReset_quiet (s := s.onKeeper fun k => { k with nrstLow := true }) hs hf 1
  exact answers_next rfl ⟨hn, hq⟩

theorem nrstRelease_releases (hs : s.keeper.seq = .held) (hv : s.keeper.vddValid = true) (hl : s.keeper.live = true) (hc : domState s .core = 2) :
    Answers .nrstRelease s fun t =>
      t.keeper.nrstLow = false ∧ t.keeper.seq = .released ∧ t.spindle.alive = true ∧ t.spindle.loader = {} := by
  have hmay : mayRelease (s.onKeeper fun k => { k with nrstLow := false }) = true := by
    have hc' : domState (s.onKeeper fun k => { k with nrstLow := false }) .core = 2 := hc
    simp [mayRelease, hs, hv, hl, hc']
  refine answers_next rfl ?_
  rw [releaseIfDue, if_pos hmay, releaseSpindle_keeper, releaseSpindle_spindle]
  exact ⟨rfl, rfl, rfl, rfl⟩

/-- Settles O10, clause by clause. -/
theorem powerCommands : Obligations.PowerCommands := fun _ =>
  ⟨vddInValid_powers, vddInLost_cuts, keeperPowerOnReset_forgets, nrstAssert_starts, nrstRelease_releases, keeperPowerOnReset_mode⟩

end Sys2Proof.Machine
end

section
/-! SUPPORT. What the events that a message brings leave at the keeper (R82 to R84, R170): the line and its receive buffer, the backstop's report, and the
losses it knows of. -/
namespace Sys2Proof.Machine
variable {s t u : State}

/-- Entries that a message of the flyer writes and no event after it. -/
def reportEntries : List Nat := [Ent.BS_ALARM, Ent.BS_STATUS, Ent.SB_CRC_ERR_FLY]

/-- What the events after a message leave alone. -/
structure EventKept (s t : State) : Prop where
  wire : t.sb.wire = s.sb.wire
  rxq : t.sb.keeper.rxq = s.sb.keeper.rxq
  noHush : t.keeper.noHush = s.keeper.noHush
  hbLost : t.keeper.hbLost = s.keeper.hbLost
  get : ∀ e ∈ reportEntries, t.get e = s.get e

theorem EventKept.refl (s : State) : EventKept s s := ⟨rfl, rfl, rfl, rfl, fun _ _ => rfl⟩

theorem EventKept.trans (h : EventKept s t) (g : EventKept t u) : EventKept s u :=
  ⟨g.wire.trans h.wire, g.rxq.trans h.rxq, g.noHush.trans h.noHush, g.hbLost.trans h.hbLost,
    fun e he => (g.get e he).trans (h.get e he)⟩

theorem EventKept.ite {a b : State} {c : Prop} [Decidable c] (ha : EventKept s a) (hb : EventKept s b) : EventKept s (if c then a else b) := by
  split <;> assumption

theorem EventKept.foldl {α : Type} {f : State → α → State} (h : ∀ s x, EventKept s (f s x)) (l : List α) (s : State) : EventKept s (l.foldl f s) := by
  induction l generalizing s with
  | nil => exact .refl s
  | cons x l ih => exact (h s x).trans (ih _)

/-- A message that the keeper took is still taken after the events. -/
theorem EventKept.taken (h : EventKept (sbLift s .keeper) t) : Taken s t .keeper := ⟨h.wire, h.rxq⟩

/-! ### Stores and mode changes -/

theorem put_eventKept (s : State) {e : Nat} (v : Nat) (h : e ∉ reportEntries) : EventKept s (s.put e v) :=
  ⟨rfl, rfl, rfl, rfl, fun e' he => State.get_put_ne s (by rintro rfl; exact h he) v⟩

theorem ModeKept.event (h : ModeKept s t) : EventKept s t where
  wire := by rw [h.sb]
  rxq := by rw [h.sb]
  noHush := by rw [h.keeper]
  hbLost := by rw [h.keeper]
  get e he := h.get e (by revert he; revert e; decide)

theorem afterEvent_eventKept (s : State) (src : Nat) : EventKept s (afterEvent s src) :=
  (put_eventKept s _ (by decide)).trans (afterEvent_kept s src).event

theorem setFault_eventKept (s : State) (b src : Nat) : EventKept s (setFault s b src) :=
  .ite (.refl s) ((put_eventKept s _ (by decide)).trans (afterEvent_eventKept _ _))

theorem clearFault_eventKept (s : State) (mask : Nat) : EventKept s (clearFault s mask) :=
  .ite (.refl s) ((put_eventKept s _ (by decide)).trans (afterEvent_eventKept _ _))

theorem refreshRelayed_eventKept (s : State) : EventKept s (refreshRelayed s) := by
  have hp : EventKept s (s.put Ent.ALARM_RELAYED (relayedValue s)) := put_eventKept s _ (by decide)
  refine .ite ?_ (.ite ?_ hp)
  · exact (hp.trans (.ite (enterMode_kept _ _ _ (by decide)).event (.refl _))).trans (afterEvent_eventKept _ _)
  · exact (hp.trans (.ite (enterMode_kept _ _ _ (baseMode_ne_retired _)).event (.refl _))).trans (afterEvent_eventKept _ _)

/-- A fault that is set is set, whatever mode change it brings. -/
theorem setFault_bit (s : State) (b src : Nat) : bit ((setFault s b src).get Ent.FAULT_CAUSE) b = true := by
  unfold setFault
  split
  · assumption
  · have h := (afterEvent_kept (s.setBits Ent.FAULT_CAUSE (2 ^ b)) src).get Ent.FAULT_CAUSE (by decide)
    rw [h, State.get_put_ne _ (by decide), State.setBits_eq, State.get_put_self, bit, Nat.testBit_or, Nat.testBit_two_pow_self, Bool.or_true]

/-! ### Wakes (R170) -/

theorem onKeeper_eventKept (s : State) (f : Keeper → Keeper) (h1 : (f s.keeper).noHush = s.keeper.noHush) (h2 : (f s.keeper).hbLost = s.keeper.hbLost) :
    EventKept s (s.onKeeper f) := ⟨rfl, rfl, h1, h2, fun _ _ => rfl⟩

theorem onFlyer_eventKept (s : State) (f : Flyer → Flyer) : EventKept s (s.onFlyer f) := ⟨rfl, rfl, rfl, rfl, fun _ _ => rfl⟩
theorem onSpindle_eventKept (s : State) (f : Spindle → Spindle) : EventKept s (s.onSpindle f) := ⟨rfl, rfl, rfl, rfl, fun _ _ => rfl⟩
theorem onDom_eventKept (s : State) (d : Domain) (f : DomSeq → DomSeq) : EventKept s (onDom s d f) := ⟨rfl, rfl, rfl, rfl, fun _ _ => rfl⟩
theorem used_eventKept (s : State) : EventKept s s.used := ⟨rfl, rfl, rfl, rfl, fun _ _ => rfl⟩

theorem sendTime_eventKept (s : State) : EventKept s (sendTime s) := (sbQueue_kept s .keeper _ _ _ (by decide)).event

theorem setDomNow_eventKept (s : State) (d : Domain) (c : Nat) : EventKept s (setDomNow s d c) :=
  .ite (onFlyer_eventKept s _) (put_eventKept s _ (by cases d <;> decide))

theorem beginExit_eventKept (s : State) (d : Domain) (src : Option Nat) : EventKept s (beginExit s d src) := by
  have h1 : EventKept s (if d = .core ∧ domNow s d = 1 then sendTime s else s) := .ite (sendTime_eventKept s) (.refl s)
  have h2 := h1.trans (setDomNow_eventKept _ d 4)
  unfold beginExit
  dsimp only
  cases src with
  | none => exact .ite (h2.trans (onSpindle_eventKept _ _)) h2
  | some n =>
    have h3 := h2.trans (put_eventKept _ (e := Ent.LAST_WAKE (domId d)) n (by cases d <;> decide))
    exact .ite (h3.trans (onSpindle_eventKept _ _)) h3

theorem refuse_eventKept (s : State) (d : Domain) (w n : Nat) : EventKept s (refuse s d w n) := by
  refine (((put_eventKept s _ ?_).trans (put_eventKept _ _ ?_)).trans (put_eventKept _ _ (by decide))).trans (raise_kept _ _).event <;>
    cases d <;> decide

theorem raiseDomain_eventKept (s : State) (src : Option Nat) (o d : Domain) : EventKept s (raiseDomain s src o d) := by
  unfold raiseDomain
  split
  · exact .ite (onDom_eventKept _ _ _) ((refuse_eventKept _ _ _ _).trans (beginExit_eventKept _ _ _))
  · exact beginExit_eventKept _ _ _
  · exact beginExit_eventKept _ _ _
  · exact .refl s

theorem releaseIfDue_eventKept (s : State) : EventKept s (releaseIfDue s) :=
  .ite (((onSpindle_eventKept s _).trans (onKeeper_eventKept _ _ rfl rfl)).trans (sendTime_eventKept _)) (.refl s)

theorem leaveOff_eventKept (s : State) : EventKept s (leaveOff s) :=
  ((put_eventKept s _ (by decide)).trans (put_eventKept _ _ (by decide))).trans (releaseIfDue_eventKept _)

theorem wakeDomain_eventKept (s : State) (src : Nat) (o d : Domain) : EventKept s (wakeDomain s src o d) :=
  .ite ((raiseDomain_eventKept s _ _ _).trans (leaveOff_eventKept _)) (raiseDomain_eventKept s _ _ _)

theorem wake_eventKept (s : State) (src : Nat) (more : List Domain) : EventKept s (wake s src more) := by
  unfold wake
  split
  · exact .refl s
  · split
    · exact .refl s
    · exact .foldl (fun s d => wakeDomain_eventKept s src _ d) _ s

/-! ### The backstop's report (R136) -/

/-- The payload bits of BACKSTOP_ALARM as the keeper stores them. -/
def kindsStored (s : State) (kinds : Nat) (noHush : Bool) : State := (s.put Ent.BS_ALARM kinds).onKeeper fun k => { k with noHush := noHush }

theorem bumpTrips_eventKept (s : State) (i : Nat) (h : i < 3) : EventKept s (s.bump (Ent.BS_TRIPS (i + 1))) := by
  refine put_eventKept s _ ?_
  interval_cases i <;> decide

theorem countTrips_eventKept (s : State) (n : Nat) :
    EventKept s ([0, 1, 2].foldl (fun s i => if bit n i then s.bump (Ent.BS_TRIPS (i + 1)) else s) s) :=
  ((EventKept.ite (bumpTrips_eventKept s 0 (by decide)) (.refl s)).trans (.ite (bumpTrips_eventKept _ 1 (by decide)) (.refl _))).trans
    (.ite (bumpTrips_eventKept _ 2 (by decide)) (.refl _))

theorem backstopEvents_eventKept (s : State) : EventKept s (afterEvent (alarmEnds (backstopCheck s)) 0x45) :=
  ((backstopCheck_kept s).event.trans (alarmEnds_kept _).event).trans (afterEvent_eventKept _ _)

/-- The kinds and the no-hush level of BACKSTOP_ALARM are stored before anything follows from them. -/
theorem takeKinds_eventKept (s : State) (kinds : Nat) (noHush : Bool) : EventKept (kindsStored s kinds noHush) (takeKinds s kinds noHush) := by
  unfold takeKinds
  rw [← kindsStored]
  generalize kindsStored s kinds noHush = u
  have hr : EventKept u (if s.get Ent.BS_ALARM = 0 ∧ kinds ≠ 0 then raise u 0 else u) := .ite (raise_kept u 0).event (.refl u)
  have ht := hr.trans (countTrips_eventKept _ (clearBits kinds (s.get Ent.BS_ALARM)))
  refine .trans ?_ (backstopEvents_eventKept _)
  exact .ite ht (ht.trans (logKeeper_kept _ _ _ _).event)

/-- A backstop event comes at its position of R82, before the relayed line. -/
theorem modeEvents_backstop (s : State) (b : Nat) (on : Bool) : modeEvents s [.backstop b, .relayedIc on] =
    refreshRelayed ((takeKinds s (b % 8) (bit b 3)).onKeeper fun x => { x with relIc := on }) := by
  have hr : List.range 12 = [0, 1, 2, 3, 4, 5, 6, 7, 8, 9, 10, 11] := by decide
  simp [modeEvents, hr, applyAt, eventPos, modeEvent]

theorem icLine_eventKept (s : State) (on : Bool) : EventKept s (s.onKeeper fun x => { x with relIc := on }) := onKeeper_eventKept s _ rfl rfl

theorem takeBackstop_eventKept (s : State) (m : SbMsg) :
    EventKept (kindsStored (sbLift s .keeper) ((m.payload.getD 0 0).toNat % 8) (bit (m.payload.getD 0 0).toNat 3)) (takeBackstop s m) := by
  unfold takeBackstop
  dsimp only
  rw [modeEvents_backstop]
  have h := ((takeKinds_eventKept (sbLift s .keeper) ((m.payload.getD 0 0).toNat % 8) (bit (m.payload.getD 0 0).toNat 3)).trans
    (icLine_eventKept _ (bit (m.payload.getD 0 0).toNat 6))).trans (refreshRelayed_eventKept _)
  split
  · exact h.trans (wake_eventKept _ _ _)
  · exact h

end Sys2Proof.Machine
end

section
/-! SUPPORT. HEARTBEAT, the shadow copy and LOG_WRITE at the keeper (R20, R21, R39, R40, R121, R134, R310). -/
namespace Sys2Proof.Machine
variable {s t u : State}

/-! ### HEARTBEAT -/

/-- The two entries of a HEARTBEAT that nothing after it writes. -/
def reportStored (s : State) (p : Bytes) : State :=
  (s.put Ent.BS_STATUS (leNat ((p.drop 0).take 2))).put Ent.SB_CRC_ERR_FLY (leNat ((p.drop 4).take 2))

theorem reportStored_get (s : State) (p : Bytes) : (reportStored s p).get Ent.BS_STATUS = leNat (p.take 2) ∧
    (reportStored s p).get Ent.SB_CRC_ERR_FLY = leNat ((p.drop 4).take 2) := by
  simp (disch := decide) [reportStored, State.get_put_ne]

theorem bumpBy_eventKept (s : State) {e : Nat} (n : Nat) (h : e ∉ reportEntries) : EventKept s (s.bumpBy e n) := put_eventKept s _ h

theorem heartbeatEntries_eventKept (s : State) (p : Bytes) : EventKept (reportStored s p) (heartbeatEntries s p) := by
  unfold heartbeatEntries
  dsimp only
  rw [← reportStored]
  generalize reportStored s p = u
  have h3 : ∀ a b c, EventKept u (((u.put Ent.HORN_STATE a).put Ent.HORN_VBOOST_MEAS b).put Ent.PAD_STATE c) := fun _ _ _ =>
    ((put_eventKept u _ (by decide)).trans (put_eventKept _ _ (by decide))).trans (put_eventKept _ _ (by decide))
  refine .trans ?_ (onKeeper_eventKept _ _ rfl rfl)
  split
  · exact (h3 _ _ _).trans (bumpBy_eventKept _ _ (by decide))
  · exact h3 _ _ _

theorem sendShadow_eventKept (s : State) : EventKept s (sendShadow s) :=
  .foldl (fun s _ => (sbQueue_kept s .keeper _ _ _ (by decide)).event) _ s

theorem judgeShadow_eventKept (s : State) (crc : Nat) : EventKept s (judgeShadow s crc) := by
  unfold judgeShadow
  split
  · exact onKeeper_eventKept s _ rfl rfl
  · split
    · exact (onKeeper_eventKept s _ rfl rfl).trans (clearFault_eventKept _ _)
    · have hc : EventKept s (s.onKeeper fun k => { k with hbCrc := crc, shadowOk := false }) := onKeeper_eventKept s _ rfl rfl
      exact .ite hc (hc.trans (sendShadow_eventKept _))

theorem judgeSupply_eventKept (s : State) (raw count : Nat) : EventKept s (judgeSupply s raw count) := by
  unfold judgeSupply
  split
  · exact .refl s
  · have hj : ∀ b, EventKept s (s.onKeeper fun k => { k with judged := some count, supplyLow := b }) := fun _ => onKeeper_eventKept s _ rfl rfl
    dsimp only
    split
    · refine .trans ?_ (setFault_eventKept _ _ _)
      exact .ite (hj _) (((hj _).trans (put_eventKept _ _ (by decide))).trans (raise_kept _ _).event)
    · exact (hj _).trans (clearFault_eventKept _ _)

/-- The keeper has the HEARTBEAT's entries and knows of no loss, before it judges the copy and the supply. -/
def heartbeatNoted (s : State) (p : Bytes) : State := (heartbeatEntries s p).onKeeper fun k => { k with hbLost := false }

theorem takeHeartbeat_eventKept (s : State) (m : SbMsg) :
    EventKept (heartbeatNoted (sbLift s .keeper) (fitBytes 14 m.payload)) (takeHeartbeat s m) := by
  unfold takeHeartbeat
  dsimp only
  rw [← heartbeatNoted]
  refine .trans ?_ (releaseIfDue_eventKept _)
  refine .trans ?_ (onKeeper_eventKept _ _ rfl rfl)
  exact ((clearFault_eventKept _ _).trans (judgeShadow_eventKept _ _)).trans (judgeSupply_eventKept _ _ _)

/-! ### The loss of HEARTBEAT and of the shadow copy -/

theorem sendReset_keeper (s : State) : (sendReset s).keeper = s.keeper := by simp [sendReset]

theorem sendReset_fault (s : State) : (sendReset s).get Ent.FAULT_CAUSE = s.get Ent.FAULT_CAUSE := by
  rw [sendReset, State.used_get, sbQueue_get _ (by decide) (by decide)]

theorem sendShadow_keeper (s : State) : (sendShadow s).keeper = s.keeper := foldl_same s _ fun s _ => by simp

theorem setFault_shadowBad (s : State) (b src : Nat) : (setFault s b src).keeper.shadowBad = s.keeper.shadowBad := by
  unfold setFault
  split
  · rfl
  · rw [(afterEvent_kept (s.setBits Ent.FAULT_CAUSE (2 ^ b)) src).keeper, State.put_keeper, State.setBits_eq, State.put_keeper]

/-- A shadow copy found not to check, once for each loss. -/
def shadowLost (s : State) : State :=
  if s.keeper.shadowBad then s
  else
    let s := s.onKeeper fun k => { k with shadowBad := true }
    setFault (logKeeper s 0x50 0x43 (2 :: leBytes 2 s.keeper.hbCrc ++ leBytes 2 (s.get Ent.BS_SHADOW_CRC))) 2 0x43

theorem shadowLost_bad (s : State) : (shadowLost s).keeper.shadowBad = true := by
  unfold shadowLost
  split
  · assumption
  · dsimp only
    rw [setFault_shadowBad, logKeeper_keeper]
    rfl

theorem shadowResend_bad (hv : s.keeper.vddValid = true) (hw : backstopSetWritten s = true) (ho : s.keeper.shadowOk = false) :
    (shadowResend s).keeper.shadowBad = true := by
  unfold shadowResend
  dsimp only
  rw [if_neg (by simp [hv, hw, ho]), ← shadowLost]
  split
  · exact shadowLost_bad s
  · rw [sendShadow_keeper]
    exact shadowLost_bad s

/-! ### ACKs -/

/-- The ACK that a die owes stands in its slots. -/
theorem sbAck_mem (s : State) (d : Die) (m : SbMsg) (code : Nat) : ⟨4, d, dieNum m.src, [byte m.ty, byte code]⟩ ∈ (sbDie (sbAck s d m code) d).acks := by
  rw [sbAck, State.onSbDie_sbDie]
  simp

/-- The message that is taken has the command's type. -/
theorem sbArrived_ty {ty : Nat} {d : Die} {m : SbMsg} (h : sbArrived s ty d = some m) : m.ty = ty := by
  unfold sbArrived at h
  grind

end Sys2Proof.Machine
end

section
/-! CLAIMS. Messages at the keeper, and what it sends (R19 to R21, R36 to R40, R121, R136, R257, R310, R312). -/
namespace Sys2Proof.Machine
variable {s : State} {m : SbMsg}

/-! ## From the flyer -/

theorem kindsStored_sb (s : State) (kinds : Nat) (noHush : Bool) : (kindsStored s kinds noHush).sb = s.sb := rfl
theorem kindsStored_noHush (s : State) (kinds : Nat) (noHush : Bool) : (kindsStored s kinds noHush).keeper.noHush = noHush := rfl

theorem backstopAlarm_taken (hm : sbArrived s 1 .keeper = some m) :
    Answers .backstopAlarm s fun t =>
      Taken s t .keeper ∧ t.get Ent.BS_ALARM = (m.payload.getD 0 0).toNat % 8 ∧ t.keeper.noHush = bit (m.payload.getD 0 0).toNat 3 := by
  have h := takeBackstop_eventKept s m
  refine answers_next rfl ?_
  rw [onArrival_some hm]
  refine ⟨⟨?_, ?_⟩, ?_, ?_⟩
  · rw [h.wire, kindsStored_sb]
  · rw [sbDie_keeper, h.rxq, kindsStored_sb, sbDie_keeper]
  · rw [h.get _ (by decide), kindsStored, State.onKeeper_get, State.get_put_self]
  · rw [h.noHush, kindsStored_noHush]

theorem backstopAlarmRepeat_repeats (hu : s.flyer.up = true) (hk : s.flyer.bs.kinds ≠ 0) (hr : roomFor s .flyer) :
    Answers .backstopAlarmRepeat s fun t => Queued t .flyer 1 3 [byte (backstopBits s.flyer)] := by
  refine answers_next rfl ?_
  rw [if_pos (by simp [hu, hk])]
  exact sbQueue_queued hr _ _ _

theorem heartbeat_taken (hm : sbArrived s 2 .keeper = some m) :
    Answers .heartbeat s fun t =>
      Taken s t .keeper ∧ t.keeper.hbLost = false ∧ t.get Ent.BS_STATUS = leNat ((fitBytes 14 m.payload).take 2) ∧
      t.get Ent.SB_CRC_ERR_FLY = leNat (((fitBytes 14 m.payload).drop 4).take 2) := by
  have h := takeHeartbeat_eventKept s m
  have he := heartbeatEntries_eventKept (sbLift s .keeper) (fitBytes 14 m.payload)
  obtain ⟨hb, hc⟩ := reportStored_get (sbLift s .keeper) (fitBytes 14 m.payload)
  refine answers_next rfl ?_
  rw [onArrival_some hm]
  refine ⟨⟨h.wire.trans he.wire, h.rxq.trans he.rxq⟩, h.hbLost, ?_, ?_⟩
  · rw [h.get _ (by decide), heartbeatNoted, State.onKeeper_get, he.get _ (by decide), hb]
  · rw [h.get _ (by decide), heartbeatNoted, State.onKeeper_get, he.get _ (by decide), hc]

theorem heartbeatSendTimer_sends (hu : s.flyer.up = true) (hn : s.flyer.res.supplyN ≠ 0) (hr : roomFor s .flyer) :
    Answers .heartbeatSendTimer s fun t =>
      Queued t .flyer 2 0 (heartbeatPayload t.flyer) ∧ t.flyer.bs.armed = shadowChecks s.flyer.bs := by
  refine answers_next rfl ?_
  unfold sendHeartbeat
  dsimp only
  rw [if_neg (by simp [hu, hn]), sbQueue_flyer]
  exact ⟨sbQueue_queued (d := .flyer) (s := s.onBs fun b => { b with armed := shadowChecks b }) hr _ _ _, rfl⟩

/-- The keeper knows that HEARTBEAT stays out, and has recorded it. -/
def lossNoted (s : State) : State :=
  let s := s.onKeeper fun k => { k with hbLost := true }
  logKeeper s 0x50 0x43 (1 :: leBytes 2 s.keeper.hbCrc ++ leBytes 2 (s.get Ent.BS_SHADOW_CRC))

theorem heartbeatTimeout_faults (hv : s.keeper.vddValid = true) (hl : s.keeper.hbLost = false) :
    Answers .heartbeatTimeout s fun t =>
      t.keeper.hbLost = true ∧ bit (t.get Ent.FAULT_CAUSE) 1 = true ∧ faultOut t = true := by
  have he : heartbeatLost s = sendReset (setFault (lossNoted s) 1 0x43) := if_neg (by simp [hv, hl])
  have hlost : (heartbeatLost s).keeper.hbLost = true := by
    rw [he, sendReset_keeper, (setFault_eventKept _ _ _).hbLost, lossNoted, logKeeper_keeper]
    rfl
  refine answers_next rfl ⟨hlost, ?_, ?_⟩
  · rw [he, sendReset_fault]
    exact setFault_bit _ _ _
  · simp only [faultOut, hlost, Bool.or_true, Bool.true_or]

theorem flyerResetRepeat_sends (hl : s.keeper.hbLost = true) (hv : s.keeper.vddValid = true) (hr : roomFor s .keeper) :
    Answers .flyerResetRepeat s fun t => ∃ b, Queued t .keeper 6 1 [b] := by
  refine answers_next rfl ⟨byte (openCause s), ?_⟩
  rw [if_pos (by simp [hl, hv])]
  exact sbQueue_queued hr _ _ _

/-! ## LOG_WRITE -/

theorem logWrite_queued (hm : sbArrived s 3 .keeper = some m) (ht : (dieTypes m.src).contains (m.payload.getD 0 0).toNat = true)
    (h49 : (m.payload.getD 0 0).toNat ≠ 0x49) (hq : (s.log.queue.filter fun r => !r.keeper).length < 12) :
    Answers .logWrite s fun t =>
      t.log.queue = s.log.queue ++ [⟨(m.payload.getD 0 0).toNat, (m.payload.getD 1 0).toNat, fitBytes 12 (m.payload.drop 2), false⟩] ∧
        ⟨4, .keeper, dieNum m.src, [3, 0]⟩ ∈ t.sb.keeper.acks := by
  have hty := sbArrived_ty hm
  have hr : takeLogWrite (sbLift s .keeper) m = (notePeak ((sbLift s .keeper).onLog fun l => { l with queue := l.queue ++
      [⟨(m.payload.getD 0 0).toNat, (m.payload.getD 1 0).toNat, fitBytes 12 (m.payload.drop 2), false⟩] }) 2 (s.log.queue.length + 1), Sc.ok) := by
    unfold takeLogWrite
    dsimp only
    rw [if_neg (by rw [ht]; decide), if_neg (by rw [beq_eq_false_iff_ne.2 h49, Bool.false_and]; decide), if_pos (by rw [sbLift_log]; exact hq), if_neg h49,
      sbLift_log]
  refine answers_next rfl ?_
  rw [onArrival_some hm, takeLog, hr]
  constructor
  · simp [sbAck]
  · have ha := sbAck_mem (notePeak ((sbLift s .keeper).onLog fun l => { l with queue := l.queue ++
      [⟨(m.payload.getD 0 0).toNat, (m.payload.getD 1 0).toNat, fitBytes 12 (m.payload.drop 2), false⟩] }) 2 (s.log.queue.length + 1)) .keeper m Sc.ok
    rw [hty] at ha
    exact ha

theorem logWrite_rejected (hm : sbArrived s 3 .keeper = some m) (ht : (dieTypes m.src).contains (m.payload.getD 0 0).toNat = false) :
    Answers .logWrite s fun t =>
      t.log = s.log ∧ Counted s t Ent.LOG_REJECTED ∧ ⟨4, .keeper, dieNum m.src, [3, 10]⟩ ∈ t.sb.keeper.acks := by
  have hr : takeLogWrite (sbLift s .keeper) m = ((sbLift s .keeper).bump Ent.LOG_REJECTED, Sc.integrity) := by
    unfold takeLogWrite
    dsimp only
    rw [if_pos (by rw [ht]; decide)]
  refine answers_next rfl ?_
  rw [onArrival_some hm, takeLog, hr]
  refine ⟨by simp [sbAck], ?_, ?_⟩
  · rw [Counted, sbAck, onSbDie_get, State.bump_get_self, sbLift_get]
  · have ha := sbAck_mem ((sbLift s .keeper).bump Ent.LOG_REJECTED) .keeper m Sc.integrity
    rw [sbArrived_ty hm] at ha
    exact ha

/-! ## HELLO of the spindle die -/

theorem askClose_open (h : s.get Ent.LOG_NEXT < 3069) : askClose s = s := by
  have hs : logState s ≠ 2 := by unfold logState; dsimp only; split_ifs <;> omega
  exact if_neg fun hc => hs hc.1

theorem flushNotices_sb (s : State) : (flushNotices s).sb = s.sb := setNotices_sb _ _

theorem flushNotices_get (s : State) {e : Nat} (h : e ≠ Ent.NOTICE_PENDING) : (flushNotices s).get e = s.get e := setNotices_get _ h

theorem flushNotices_keeper (s : State) : (flushNotices s).keeper = { s.keeper with notices := 0 } := by simp [flushNotices]

theorem hello_answered (hm : sbArrived s 7 .keeper = some m) (hs : m.src = .spindle) (hr : roomFor s .keeper) (hn : s.get Ent.LOG_NEXT < 3069) :
    Answers .hello s fun t =>
      t.keeper.helloSeen = true ∧ t.keeper.notices = 0 ∧ Queued t .keeper 8 1 [1] ∧ ⟨4, .keeper, 2, [7, 0]⟩ ∈ t.sb.keeper.acks := by
  have htake : sbTake s .keeper m = sbAck (sbLift s .keeper) .keeper m Sc.ok := if_pos (by rw [sbArrived_ty hm]; decide)
  have hack := sbAck_mem (sbLift s .keeper) .keeper m Sc.ok
  rw [sbArrived_ty hm, hs] at hack
  have hroom : roomFor ((sbAck (sbLift s .keeper) .keeper m Sc.ok).onKeeper fun k => { k with helloSeen := true }) .keeper := by
    show (sbDie (sbAck (sbLift s .keeper) .keeper m Sc.ok) .keeper).txq.length < 8
    rw [sbAck, State.onSbDie_sbDie, sbLift_sbDie]
    exact hr
  have hopen : (flushNotices (sbQueue ((sbAck (sbLift s .keeper) .keeper m Sc.ok).onKeeper fun k => { k with helloSeen := true })
      .keeper 8 1 [1])).get Ent.LOG_NEXT < 3069 := by
    rw [flushNotices_get _ (by decide), sbQueue_get _ (by decide) (by decide), State.onKeeper_get, sbAck, onSbDie_get, sbLift_get]
    exact hn
  refine answers_next rfl ?_
  rw [onArrival_some hm, takeHello, if_pos hs, htake, askClose_open hopen]
  refine ⟨?_, ?_, ?_, ?_⟩
  · rw [flushNotices_keeper, sbQueue_keeper]
    rfl
  · rw [flushNotices_keeper]
  · show (flushNotices _).sb.keeper.txq.getLast? = _
    rw [flushNotices_sb]
    exact sbQueue_queued hroom _ _ _
  · rw [flushNotices_sb, ← sbDie_keeper, sbQueue_sbDie]
    exact hack

/-! ## What the keeper sends -/

theorem modeRepeatTimer_sends (hr : roomFor s .keeper) :
    Answers .modeRepeatTimer s fun t => Queued t .keeper 0xB 3 (leBytes 4 (s.get Ent.MODE)) :=
  answers_next rfl (sbQueue_queued hr _ _ _)

theorem calShadowResend_faults (hv : s.keeper.vddValid = true) (hw : backstopSetWritten s = true) (ho : s.keeper.shadowOk = false) :
    Answers .calShadowResend s fun t => t.keeper.shadowBad = true ∧ faultOut t = true := by
  have hbad := shadowResend_bad hv hw ho
  exact answers_next rfl ⟨hbad, by simp only [faultOut, hbad, Bool.or_true]⟩

theorem sendDomain_domSeq {d d' : Domain} (h : domNum d ≠ domNum d') (r : Nat) : domSeq (sendDomain s d r) d' = domSeq s d' := by
  simp [sendDomain, domSeq, onDom, h]

/-- A rest state that is owed is sent again, unless it is on its way. -/
def resendDomain (s : State) (d : Domain) : State :=
  match (domSeq s d).owed with
  | none => s
  | some r =>
    let m := [byte (domId d), byte r]
    if (s.sb.keeper.txq.any fun x => x.ty == 5 && x.payload == m) || (s.sb.keeper.wait.any fun w => w.1.ty == 5 && w.1.payload == m) then s
    else sendDomain s d r

theorem resendDomains_eq (s : State) : resendDomains s = flyerDomains.foldl resendDomain s := rfl

theorem resendDomain_settled {ds : List Domain} (h : ∀ d ∈ ds, (domSeq s d).owed = none) : ds.foldl resendDomain s = s := by
  induction ds with
  | nil => rfl
  | cons d ds ih =>
    have hd : resendDomain s d = s := by simp only [resendDomain, h d List.mem_cons_self]
    rw [List.foldl_cons, hd]
    exact ih fun d' hd' => h d' (List.mem_cons_of_mem _ hd')

/-- With HORN's message alone owed, and none on its way, the keeper sends that one again. -/
theorem resendDomains_horn {r : Nat} (hd : ∀ d ∈ flyerDomains, (domSeq s d).owed = if d = .horn then some r else none) (ht : s.sb.keeper.txq = [])
    (hw : s.sb.keeper.wait = []) : resendDomains s = sendDomain s .horn r := by
  have hother : ∀ d ∈ flyerDomains, d ≠ .horn → (domSeq s d).owed = none := fun d hm hn => (hd d hm).trans (if_neg hn)
  have hhorn : resendDomain s .horn = sendDomain s .horn r := by
    simp [resendDomain, hd .horn (by decide), ht, hw]
  have hbefore : ∀ d ∈ [Domain.opt, .heat, .gas], (domSeq s d).owed = none := fun d hm =>
    hother d (by revert hm; revert d; decide) (by revert hm; revert d; decide)
  have hafter : ∀ d ∈ [Domain.ind, .plyF, .backstop], (domSeq (sendDomain s .horn r) d).owed = none := fun d hm => by
    rw [sendDomain_domSeq (by revert hm; revert d; decide)]
    exact hother d (by revert hm; revert d; decide) (by revert hm; revert d; decide)
  have hsplit : flyerDomains = [Domain.opt, .heat, .gas] ++ .horn :: [Domain.ind, .plyF, .backstop] := rfl
  rw [resendDomains_eq, hsplit, List.foldl_append, resendDomain_settled hbefore, List.foldl_cons, hhorn, resendDomain_settled hafter]

theorem domainResend_sends (r : Nat) (hd : ∀ d ∈ flyerDomains, (domSeq s d).owed = if d = .horn then some r else none) (ht : s.sb.keeper.txq = [])
    (hw : s.sb.keeper.wait = []) : Answers .domainResend s fun t => Queued t .keeper 5 1 [byte (domId .horn), byte r] := by
  refine answers_next rfl ?_
  rw [resendDomains_horn hd ht hw]
  refine sbQueue_queued ?_ _ _ _
  show s.sb.keeper.txq.length < 8
  rw [ht]
  decide

/-- Settles O14, clause by clause. -/
theorem messagesToKeeper : Obligations.MessagesToKeeper := fun _ _ =>
  ⟨backstopAlarm_taken, backstopAlarmRepeat_repeats, heartbeat_taken, heartbeatSendTimer_sends, heartbeatTimeout_faults, flyerResetRepeat_sends,
    logWrite_queued, logWrite_rejected, hello_answered, modeRepeatTimer_sends, calShadowResend_faults, domainResend_sends⟩

end Sys2Proof.Machine
end

section
/-! SUPPORT. Wakes and broadcasts at the dies (R19, R161, R165, R170). -/
namespace Sys2Proof.Machine
variable {s : State} {m : SbMsg}

/-! ### A flyer domain follows its rest state (R161, R177) -/

theorem isFlyerDom_ne {d : Domain} (hd : isFlyerDom d = true) : d ≠ .core ∧ d ≠ .code ∧ d ≠ .data := by
  revert hd; cases d <;> decide

/-- A flyer domain that a wake reaches begins its exit, unless it is up. -/
theorem raiseDomain_flyer {d : Domain} (hd : isFlyerDom d = true) (n : Nat) (o : Domain) :
    (raiseDomain s (some n) o d).sb = s.sb ∧
    (raiseDomain s (some n) o d).flyer = if domNow s d < 2 ∨ domNow s d = 3 then (onFlyDom s d fun x => { x with state := 4 }).flyer else s.flyer := by
  obtain ⟨h1, h2, h3⟩ := isFlyerDom_ne hd
  have hexit : ∀ u : State, (beginExit u d (some n)).sb = u.sb ∧ (beginExit u d (some n)).flyer = (onFlyDom u d fun x => { x with state := 4 }).flyer :=
    fun u => by rw [beginExit_flyer u hd]; exact ⟨rfl, rfl⟩
  unfold raiseDomain
  split
  case _ h =>
    rw [if_neg (by simp [h1, h2, h3]), if_pos (Or.inr h)]
    obtain ⟨hs, hf⟩ := hexit (refuse s d (domId o) (domSeq s d).target)
    exact ⟨by rw [hs, refuse_sb], by rw [hf]; simp only [onFlyDom, State.onFlyer_flyer, refuse_flyer]⟩
  case _ h => rw [if_pos (Or.inl (by omega))]; exact hexit s
  case _ h => rw [if_pos (Or.inl (by omega))]; exact hexit s
  case _ n3 n1 n0 =>
    have hn : ¬(domNow s d < 2 ∨ domNow s d = 3) := by
      have : domNow s d ≠ 3 ∧ domNow s d ≠ 1 ∧ domNow s d ≠ 0 := ⟨n3, n1, n0⟩
      omega
    rw [if_neg hn]
    exact ⟨rfl, rfl⟩

/-- A wake that one flyer domain asks for reaches that domain. -/
theorem wake_flyer {d : Domain} (hd : isFlyerDom d = true) : wake s 0x0F [d] = raiseDomain s (some 0x0F) d d := by
  have hc := (isFlyerDom_ne hd).1
  have hn : withNeeds [d] = [d] := if_neg (by simpa using hc.symm)
  unfold wake
  rw [if_neg (by simp [wakeLost])]
  simp only [raisedBy, hn, List.foldl, wakeDomain, hc, false_and, if_false]

theorem restRaised_flyer {d : Domain} (hd : isFlyerDom d = true) (r : Nat) :
    (restRaised s d r).sb = s.sb ∧
    (restRaised s d r).flyer = if domNow s d < 2 ∧ domNow s d < r ∨ domNow s d = 3 ∧ (domSeq s d).target < r
      then (onFlyDom s d fun x => { x with state := 4 }).flyer else s.flyer := by
  unfold restRaised
  split
  · rename_i h
    rw [wake_flyer hd]
    obtain ⟨hs, hf⟩ := raiseDomain_flyer (s := s) hd 0x0F d
    exact ⟨hs, hf.trans (if_pos (by omega))⟩
  · exact ⟨rfl, rfl⟩

/-! ### A wake of domains of the spindle die that are at rest (R165, R170) -/

/-- Domains of the spindle die whose exit writes their own two entries alone. -/
def plainDom (d : Domain) : Bool := isSpindleDom d && d != .net

/-- What the wakes of one source leave: the line and the spindle die's transmitter, and the state of every other domain. -/
structure WokenOnly (s t : State) (ds : List Domain) : Prop where
  wire : t.sb.wire = s.sb.wire
  spindle : t.sb.spindle = s.sb.spindle
  other : ∀ d, d ∉ ds → domState t d = domState s d ∧ t.get (Ent.LAST_WAKE (domId d)) = s.get (Ent.LAST_WAKE (domId d))

theorem domNum_le (d : Domain) : domNum d ≤ 18 := by cases d <;> decide
theorem domNum_inj {d d' : Domain} (h : d ≠ d') : domNum d ≠ domNum d' := by revert h; cases d <;> cases d' <;> decide

theorem sendTime_sb (s : State) : (sendTime s).sb.wire = s.sb.wire ∧ (sendTime s).sb.spindle = s.sb.spindle := by
  refine ⟨sbQueue_wire _ _ _ _ _, ?_⟩
  rcases sbQueue_sb s .keeper 0xC 3 (leBytes 4 (now s)) with h | h
  · rw [sendTime, h]
  · rw [sendTime, h]
    rfl

/-- A spindle domain at rest that is not NET begins its exit, and notes the source. -/
theorem wakeDomain_plain {d : Domain} (hd : plainDom d = true) (h : domState s d = 1) (src : Nat) (o : Domain) :
    wakeDomain s src o d = (setDomState (if d = .core then sendTime s else s) d 4).put (Ent.LAST_WAKE (domId d)) src := by
  obtain ⟨hf, hn⟩ : isFlyerDom d = false ∧ d ≠ .net := by revert hd; cases d <;> decide
  have hnow : domNow s d = 1 := by simp only [domNow, hf, Bool.false_eq_true, if_false, h]
  have hoff : ¬(d = .core ∧ domState s .core = 0) := by rintro ⟨rfl, h0⟩; omega
  unfold wakeDomain
  dsimp only
  rw [if_neg hoff, raiseDomain_rest s (by omega)]
  simp only [beginExit, hnow, and_true, if_neg hn, setDomNow, hf, Bool.false_eq_true, if_false]

theorem wakeDomain_rest {d : Domain} (hd : plainDom d = true) (h : domState s d = 1) (src : Nat) (o : Domain) :
    WokenOnly s (wakeDomain s src o d) [d] ∧ domState (wakeDomain s src o d) d = 4 ∧ (wakeDomain s src o d).get (Ent.LAST_WAKE (domId d)) = src := by
  have hsb : ∀ u, u = s ∨ u = sendTime s → u.sb.wire = s.sb.wire ∧ u.sb.spindle = s.sb.spindle ∧
      ∀ e, e < 0x120000 → u.get e = s.get e := by
    rintro u (rfl | rfl)
    · exact ⟨rfl, rfl, fun _ _ => rfl⟩
    · exact ⟨(sendTime_sb s).1, (sendTime_sb s).2, fun e he => sbQueue_get _ (by simp only [Ent.Q_PEAK]; omega) (by simp only [Ent.Q_FULL]; omega)⟩
  rw [wakeDomain_plain hd h]
  obtain ⟨hw, hs, hg⟩ := hsb (if d = .core then sendTime s else s) (by split <;> simp)
  generalize (if d = .core then sendTime s else s) = u at hw hs hg
  have hle := domNum_le d
  refine ⟨⟨hw, hs, fun d' hd' => ?_⟩, ?_, State.get_put_self _ _ _⟩
  · have hne := domNum_inj (d := d') (d' := d) (by simpa using hd')
    have hle' := domNum_le d'
    simp only [domState, setDomState, Ent.DOMAIN_STATE, Ent.LAST_WAKE, domId]
    constructor
    · rw [State.get_put_ne _ (by omega), State.get_put_ne _ (by omega), hg _ (by omega)]
    · rw [State.get_put_ne _ (by omega), State.get_put_ne _ (by omega), hg _ (by omega)]
  · simp only [domState, setDomState, Ent.DOMAIN_STATE, Ent.LAST_WAKE, domId]
    rw [State.get_put_ne _ (by omega), State.get_put_self]

/-- Every domain of a list begins its exit, for one source. -/
theorem wakeDomain_foldl (src : Nat) (o : Domain) {ds : List Domain} (hd : ∀ d ∈ ds, plainDom d = true) (hn : ds.Nodup)
    (h : ∀ d ∈ ds, domState s d = 1) :
    WokenOnly s (ds.foldl (fun s d => wakeDomain s src o d) s) ds ∧
      ∀ d ∈ ds, domState (ds.foldl (fun s d => wakeDomain s src o d) s) d = 4 ∧
        (ds.foldl (fun s d => wakeDomain s src o d) s).get (Ent.LAST_WAKE (domId d)) = src := by
  induction ds generalizing s with
  | nil => exact ⟨⟨rfl, rfl, fun _ _ => ⟨rfl, rfl⟩⟩, by simp⟩
  | cons d ds ih =>
    obtain ⟨hnot, hn⟩ := List.nodup_cons.1 hn
    obtain ⟨hone, h4, hsrc⟩ := wakeDomain_rest (hd d List.mem_cons_self) (h d List.mem_cons_self) src o
    have hrest : ∀ d' ∈ ds, domState (wakeDomain s src o d) d' = 1 := fun d' hd' => by
      rw [(hone.other d' (by simp only [List.mem_singleton]; rintro rfl; exact hnot hd')).1, h d' (List.mem_cons_of_mem _ hd')]
    obtain ⟨hall, hset⟩ := ih (fun d' hd' => hd d' (List.mem_cons_of_mem _ hd')) hn hrest
    simp only [List.foldl_cons]
    refine ⟨⟨hall.wire.trans hone.wire, hall.spindle.trans hone.spindle, fun d' hd' => ?_⟩, fun d' hd' => ?_⟩
    · rw [List.mem_cons, not_or] at hd'
      obtain ⟨ha, hb⟩ := hall.other d' hd'.2
      obtain ⟨hc, he⟩ := hone.other d' (by simpa using hd'.1)
      exact ⟨ha.trans hc, hb.trans he⟩
    · rcases List.mem_cons.1 hd' with rfl | hmem
      · obtain ⟨ha, hb⟩ := hall.other d' hnot
        exact ⟨ha.trans h4, hb.trans hsrc⟩
      · exact hset d' hmem

/-! ### A broadcast of the keeper (R19) -/

/-- A broadcast has ended good, and both dies hold it. -/
def broadcastLanded (s : State) (m : SbMsg) : State :=
  sbClear (onSbDie (onSbDie s .flyer fun x => { x with rxq := x.rxq ++ [m] }) .spindle fun x => { x with rxq := x.rxq ++ [m] })

theorem landOf_broadcast (hw : s.sb.wire = some m) (hs : m.src = .keeper) (h1 : m.ty ≠ 1) (hd : m.dst = 3) (hf : s.sb.flyer.rxq = [])
    (hsp : s.sb.spindle.rxq = []) (hu : s.flyer.up = true) (ha : s.spindle.alive = true) : landOf s m.ty = broadcastLanded s m := by
  have hty : (s.sb.wire.any fun x => x.ty == m.ty) = true := by simp [hw]
  rw [landOf, if_pos hty]
  unfold sbLand
  simp [hw, sbTargets_both hs hd h1, sbPush, sbTakes, hu, ha, hf, hsp, broadcastLanded, sbClear, onSbDie]

end Sys2Proof.Machine
end

section
/-! CLAIMS. Messages at the flyer and the spindle die (R20, R33, R37, R38, R90, R134, R161, R170, R188). -/
namespace Sys2Proof.Machine
variable {s : State} {m : SbMsg}

theorem onFlyerArrival_up {ty : Nat} (hu : s.flyer.up = true) (hm : sbArrived s ty .flyer = some m) (f : State → SbMsg → State) :
    onFlyerArrival s ty f = f s m := by
  rw [onFlyerArrival, onArrival_some hm, if_pos hu]

/-! ## DOMAIN -/

theorem sbTake_acked (h : ackedType m.ty = true) (d : Die) : sbTake s d m = sbAck (sbLift s d) d m Sc.ok := if_pos h

theorem sbAck_taken (s : State) (d : Die) (m : SbMsg) (code : Nat) : Taken s (sbAck (sbLift s d) d m code) d := by
  refine ⟨?_, ?_⟩
  · rw [sbAck, onSbDie_wire]
  · rw [sbAck, State.onSbDie_sbDie]

/-- DOMAIN as the flyer's sequencer takes it, for a payload that names a flyer domain. -/
theorem takeDomain_follows {d : Domain} {r : Nat} (hd : isFlyerDom d = true) (hr : r < 3) (hp : m.payload = [byte (domId d), byte r]) :
    takeDomain s m = restRaised (onFlyDom (sbTake s .flyer m) d fun x => { x with rest := r }) d r := by
  have hb : (byte r).toNat = r := by simp only [byte, BitVec.toNat_ofNat]; omega
  simp only [takeDomain, hp, List.getD_cons_zero, List.getD_cons_succ, domOf_domId, hb, hd, if_true]

/-- Whatever DOMAIN names, the sideband is as the flyer's ACK leaves it. -/
theorem takeDomain_sb (s : State) (m : SbMsg) : (takeDomain s m).sb = (sbTake s .flyer m).sb := by
  unfold takeDomain
  dsimp only
  split
  · split
    · rename_i hd
      rw [(restRaised_flyer hd _).1]
      rfl
    · rfl
  · rfl

/-- A flyer domain has the rest state that it is given, and comes up where it is below it. -/
theorem restFollowed {u : State} {d : Domain} (hd : isFlyerDom d = true) (hb : domNum d - 9 < s.flyer.doms.length) (hf : u.flyer = s.flyer)
    (hq : u.doms = s.doms) (r : Nat) : restNow (restRaised (onFlyDom u d fun x => { x with rest := r }) d r) d = r ∧
      domNow (restRaised (onFlyDom u d fun x => { x with rest := r }) d r) d =
        if domNow s d < 2 ∧ domNow s d < r ∨ domNow s d = 3 ∧ (domSeq s d).target < r then 4 else domNow s d := by
  have hdom : ∀ v : State, domNow v d = (flyDom v d).state := fun v => by rw [domNow, if_pos hd]
  have hrest : flyDom (onFlyDom u d fun x => { x with rest := r }) d = { flyDom s d with rest := r } := by
    rw [onFlyDom_flyDom u (by rw [hf]; exact hb), flyDom, flyDom, hf]
  have hseq : domSeq (onFlyDom u d fun x => { x with rest := r }) d = domSeq s d := congrArg (fun l => l.getD (domNum d) {}) hq
  have hnow : domNow (onFlyDom u d fun x => { x with rest := r }) d = domNow s d := by rw [hdom, hdom, hrest]
  have hfly := (restRaised_flyer (s := onFlyDom u d fun x => { x with rest := r }) hd r).2
  have hlen : domNum d - 9 < (onFlyDom u d fun x => { x with rest := r }).flyer.doms.length := by simp [onFlyDom, hf, hb]
  generalize restRaised (onFlyDom u d fun x => { x with rest := r }) d r = t at hfly ⊢
  rw [hnow, hseq] at hfly
  rw [restNow, if_pos hd, hdom t]
  split at hfly
  · have ht : flyDom t d = { flyDom s d with rest := r, state := 4 } := by
      rw [flyDom, hfly, ← flyDom, onFlyDom_flyDom _ hlen, hrest]
    rename_i hc
    exact ⟨by rw [ht], by rw [ht, if_pos hc]⟩
  · have ht : flyDom t d = { flyDom s d with rest := r } := by rw [flyDom, hfly, ← flyDom, hrest]
    rename_i hc
    exact ⟨by rw [ht], by rw [ht, if_neg hc, hdom]⟩

theorem domain_followed (hu : s.flyer.up = true) (hm : sbArrived s 5 .flyer = some m) :
    Answers .domain s fun t =>
      Taken s t .flyer ∧ ⟨4, .flyer, dieNum m.src, [5, 0]⟩ ∈ t.sb.flyer.acks ∧
      ∀ d r, isFlyerDom d = true → r < 3 → s.flyer.doms.length = 7 → m.payload = [byte (domId d), byte r] →
        restNow t d = r ∧ domNow t d = if domNow s d < 2 ∧ domNow s d < r ∨ domNow s d = 3 ∧ (domSeq s d).target < r then 4 else domNow s d := by
  have hack := sbTake_acked (s := s) (m := m) (by rw [sbArrived_ty hm]; decide) .flyer
  refine answers_next rfl ?_
  rw [onFlyerArrival_up hu hm]
  refine ⟨?_, ?_, fun d r hd hr hl hp => ?_⟩
  · have h := sbAck_taken s .flyer m Sc.ok
    rw [← hack] at h
    rw [Taken, sbDie_flyer, takeDomain_sb]
    exact h
  · have h := sbAck_mem (sbLift s .flyer) .flyer m Sc.ok
    rw [← hack, sbArrived_ty hm] at h
    rw [takeDomain_sb]
    exact h
  · have hb : domNum d - 9 < s.flyer.doms.length := by
      simp only [isFlyerDom, Bool.and_eq_true, decide_eq_true_eq] at hd
      omega
    rw [takeDomain_follows hd hr hp, hack]
    exact restFollowed hd hb (by simp [sbAck]) (by simp [sbAck]) r

/-! ## RESET -/

theorem reset_restarts (hu : s.flyer.up = true) (hm : sbArrived s 6 .flyer = some m) :
    Answers .reset s fun t =>
      t.sb.wire = (sbLift s .flyer).sb.wire ∧ t.flyer = { flyerFresh with sense := { pulse := (pulseCut s.flyer.sense).pulse } } ∧
      t.sb.flyer = { txq := [⟨7, .flyer, 0, [1, m.payload.getD 0 0]⟩] } := by
  have hb : byte (m.payload.getD 0 0).toNat = m.payload.getD 0 0 := by simp [byte]
  refine answers_next rfl ?_
  rw [onFlyerArrival_up hu hm]
  refine ⟨?_, ?_, ?_⟩
  · simp [restartFlyer, startFlyer, sendHello, dropFlyer]
  · simp [restartFlyer, flyerFresh]
  · have hq : (sbDie ((dropFlyer (sbLift s .flyer)).onFlyer fun _ => flyerFresh) .flyer) = {} := by simp [dropFlyer, onSbDie]
    show sbDie (sbQueue ((dropFlyer (sbLift s .flyer)).onFlyer fun _ => flyerFresh) .flyer 7 0
      [byte (dieNum .flyer), byte (m.payload.getD 0 0).toNat]) .flyer = _
    rw [sbQueue_room _ (by rw [hq]; decide), hq, hb]
    rfl

/-! ## PEER_RESET -/

/-- The flyer starts no new burst, and has forgotten queue 01 and said so (R38, R192). -/
def burstsHeld (s : State) : State :=
  formReport ((s.onFlyer fun f => { f with mayBurst := false }).onHorn fun h => { h with queue := [], removed := 0, discarded := 0 })

theorem burstsHeld_sb (s : State) : (burstsHeld s).sb = s.sb := rfl
theorem burstsHeld_plyState (s : State) : plyState (burstsHeld s) = plyState s := rfl
theorem burstsHeld_flyer (s : State) : (burstsHeld s).flyer.mayBurst = false ∧ (burstsHeld s).flyer.horn.queue = [] := ⟨rfl, rfl⟩

theorem peerReset_held (hu : s.flyer.up = true) (hm : sbArrived s 8 .flyer = some m) (hp : m.payload = [0]) :
    Answers .peerReset s fun t =>
      t.flyer.mayBurst = false ∧ t.flyer.horn.queue = [] ∧ (plyState s = 0 → roomFor s .flyer → Queued t .flyer 9 0 []) ∧
        ⟨4, .flyer, dieNum m.src, [8, 0]⟩ ∈ t.sb.flyer.acks := by
  have hack := sbAck_mem (sbLift s .flyer) .flyer m Sc.ok
  rw [sbArrived_ty hm] at hack
  have hply : plyState (sbAck (sbLift s .flyer) .flyer m Sc.ok) = plyState s := by simp [plyState, sbAck]
  have hroom : roomFor s .flyer → roomFor (burstsHeld (sbAck (sbLift s .flyer) .flyer m Sc.ok)) .flyer := fun h => by
    rw [roomFor, sbDie_flyer, burstsHeld_sb, ← sbDie_flyer, sbAck, State.onSbDie_sbDie, sbLift_sbDie]
    exact h
  refine answers_next rfl ?_
  rw [onFlyerArrival_up hu hm]
  unfold takePeerReset
  dsimp only
  rw [if_pos (by rw [hp]; rfl), sbTake_acked (by rw [sbArrived_ty hm]; decide), ← burstsHeld, burstsHeld_plyState, hply]
  generalize sbAck (sbLift s .flyer) .flyer m Sc.ok = u at hack hroom ⊢
  obtain ⟨hb, hq⟩ := burstsHeld_flyer u
  split
  · refine ⟨?_, ?_, fun _ hr => sbQueue_queued (hroom hr) _ _ _, ?_⟩
    · rw [sbQueue_flyer, hb]
    · rw [sbQueue_flyer, hq]
    · rw [← sbDie_flyer, sbQueue_sbDie]
      exact hack
  · rename_i hn
    exact ⟨hb, hq, fun h0 => absurd h0 hn, hack⟩

theorem peerReset_freed (hu : s.flyer.up = true) (hm : sbArrived s 8 .flyer = some m) (hp : m.payload = [1]) :
    Answers .peerReset s fun t => t.flyer.mayBurst = true ∧ t.flyer.quietOwed = false ∧ t.flyer.horn = s.flyer.horn := by
  refine answers_next rfl ?_
  rw [onFlyerArrival_up hu hm]
  unfold takePeerReset
  dsimp only
  rw [if_neg (by rw [hp]; decide), sbTake_acked (by rw [sbArrived_ty hm]; decide)]
  refine ⟨rfl, rfl, ?_⟩
  simp [sbAck]

/-! ## CAPTURE_READY -/

theorem captureReady_wakes (hm : sbArrived s 0xA .spindle = some m) (h : ∀ d ∈ [Domain.core, .code, .data, .capt, .plyS], domState s d = 1) :
    Answers .captureReady s fun t =>
      Taken s t .spindle ∧ (∀ d ∈ [Domain.core, .code, .data, .capt, .plyS], domState t d = 4) ∧ t.get (Ent.LAST_WAKE (domId .core)) = 0x0B := by
  have hperm : ∀ d, d ∈ [Domain.core, .code, .data, .capt, .plyS] ↔ d ∈ [Domain.core, .capt, .plyS, .code, .data] := by
    intro d; cases d <;> decide
  have hrest : ∀ d ∈ [Domain.core, .capt, .plyS, .code, .data], domState (sbLift s .spindle) d = 1 := fun d hd => by
    rw [domState, sbLift_get]
    exact h d ((hperm d).2 hd)
  obtain ⟨hkept, hset⟩ := wakeDomain_foldl 0x0B .core (by decide) (by decide) hrest
  have hw : wake (sbLift s .spindle) 0x0B [.core, .capt, .plyS] =
      [Domain.core, .capt, .plyS, .code, .data].foldl (fun s d => wakeDomain s 0x0B .core d) (sbLift s .spindle) := if_neg Bool.false_ne_true
  refine answers_next rfl ?_
  rw [onArrival_some hm, hw]
  exact ⟨⟨hkept.wire, congrArg SbDie.rxq hkept.spindle⟩, fun d hd => (hset d ((hperm d).1 hd)).1, (hset .core (by decide)).2⟩

/-! ## MODE and TIME -/

theorem broadcastLanded_wire (s : State) (m : SbMsg) : (broadcastLanded s m).sb.wire = none := rfl
theorem broadcastLanded_flyer (h : s.sb.flyer.rxq = []) : (broadcastLanded s m).sb.flyer.rxq = [m] := by simp [broadcastLanded, sbClear, onSbDie, h]
theorem broadcastLanded_spindle (h : s.sb.spindle.rxq = []) : (broadcastLanded s m).sb.spindle.rxq = [m] := by
  simp [broadcastLanded, sbClear, onSbDie, h]

theorem sbLift_front {d : Die} {x : SbMsg} {xs : List SbMsg} (h : (sbDie s d).rxq = x :: xs) : sbLift s d = onSbDie s d fun y => { y with rxq := xs } := by
  simp only [sbLift, h]

theorem sbLift_sbDie_ne {d d' : Die} (h : d' ≠ d) : sbDie (sbLift s d) d' = sbDie s d' := by
  unfold sbLift
  split
  · exact onSbDie_sbDie_ne s h _
  · cases d' <;> rfl

/-- Taking a message leaves a free line free. -/
theorem sbLift_wire_free (h : s.sb.wire = none) (d : Die) : (sbLift s d).sb.wire = none := by
  unfold sbLift
  split
  · rw [onSbDie_wire, h]
  · rfl

/-- A broadcast of the keeper that both dies hold is taken by the flyer and then by the spindle die. -/
theorem onBroadcast_both {f : State → Die → SbMsg → State} {k : State} (hl : landOf s m.ty = broadcastLanded s m)
    (hk : takeOldest f m.ty (broadcastLanded s m) .keeper = k) (hf : k.sb.flyer.rxq = [m]) (hsp : (f k .flyer m).sb.spindle.rxq = [m]) :
    onBroadcast s m.ty f = f (f k .flyer m) .spindle m := by
  simp only [onBroadcast, hl, List.foldl, hk]
  rw [takeOldest_front (s := k) (d := .flyer) hf, takeOldest_front (s := f k .flyer m) (d := .spindle) hsp]

/-- A keeper that takes a MODE of its own buffer leaves the other dies and the line as they are. -/
theorem takeMode_keeper (s : State) (ty : Nat) :
    (takeOldest takeMode ty s .keeper).sb = { s.sb with keeper := (takeOldest takeMode ty s .keeper).sb.keeper } := by
  unfold takeOldest
  split
  · rename_i x xs hx
    split
    · unfold takeMode
      dsimp only
      rw [sbLift_front hx]
      cases modeOf (leNat x.payload) <;> rfl
    · rfl
  · rfl

theorem setCodeLock_mode (s : State) (b : Bool) : (setCodeLock s b).spindle.mode = s.spindle.mode := by
  unfold setCodeLock; split <;> rfl

theorem spindleMode_mode (s : State) (k : Mode) : (spindleMode s k).spindle.mode = some k := by
  unfold spindleMode
  dsimp only
  split
  · rw [setCodeLock_mode]
    rfl
  · rfl

theorem setCodeLock_flyer (s : State) (b : Bool) : (setCodeLock s b).flyer = s.flyer ∧ (setCodeLock s b).sb = s.sb := by
  unfold setCodeLock; split <;> exact ⟨rfl, rfl⟩

theorem spindleMode_flyer (s : State) (k : Mode) : (spindleMode s k).flyer = s.flyer ∧ (spindleMode s k).sb = s.sb := by
  unfold spindleMode
  dsimp only
  split
  · exact setCodeLock_flyer _ _
  · exact ⟨rfl, rfl⟩

theorem takeMode_flyer {k : Mode} (hk : modeOf (leNat m.payload) = some k) (s : State) :
    takeMode s .flyer m = (sbLift s .flyer).onFlyer fun f => flyerMode f k := by simp only [takeMode, hk]

theorem takeMode_spindle {k : Mode} (hk : modeOf (leNat m.payload) = some k) (s : State) :
    takeMode s .spindle m = spindleMode (sbLift s .spindle) k := by simp only [takeMode, hk]

theorem mode_taken (hu : s.flyer.up = true) (k : Mode) (hw : s.sb.wire = some m) (hs : m.src = .keeper) (ht : m.ty = 0xB) (hd : m.dst = 3)
    (hf : s.sb.flyer.rxq = []) (hsp : s.sb.spindle.rxq = []) (ha : s.spindle.alive = true) (hk : modeOf (leNat m.payload) = some k) :
    Answers .mode s fun t => t.sb.wire = none ∧ t.flyer.mode = some k ∧ t.spindle.mode = some k := by
  have hland := landOf_broadcast hw hs (by omega) hd hf hsp hu ha
  have hkeep := takeMode_keeper (broadcastLanded s m) m.ty
  generalize hkt : takeOldest takeMode m.ty (broadcastLanded s m) .keeper = u at hkeep
  have hwire : u.sb.wire = none := by rw [hkeep]; rfl
  have hfly : u.sb.flyer.rxq = [m] := by rw [hkeep]; exact broadcastLanded_flyer hf
  have hspin : (sbDie (sbLift u .flyer) .spindle).rxq = [m] := by
    rw [sbLift_sbDie_ne (by decide), sbDie_spindle, hkeep]
    exact broadcastLanded_spindle hsp
  refine answers_next (t := onBroadcast s m.ty takeMode) (by rw [ht]; rfl) ?_
  rw [onBroadcast_both hland hkt hfly (by rw [takeMode_flyer hk]; exact hspin), takeMode_spindle hk, takeMode_flyer hk]
  refine ⟨?_, ?_, spindleMode_mode _ k⟩
  · rw [(spindleMode_flyer _ k).2]
    exact sbLift_wire_free (s := (sbLift u .flyer).onFlyer fun f => flyerMode f k) (sbLift_wire_free hwire .flyer) .spindle
  · rw [(spindleMode_flyer _ k).1, sbLift_flyer]
    rfl

theorem takeTime_flyer (s : State) (m : SbMsg) :
    takeTime s .flyer m = (sbLift s .flyer).onFlyer fun f => { f with rtc := some (leNat m.payload) } := rfl

theorem takeTime_spindle (s : State) (m : SbMsg) :
    takeTime s .spindle m = (sbLift s .spindle).onSpindle fun x => { x with rtc := some (leNat m.payload) } := rfl

theorem time_taken (hu : s.flyer.up = true) (hw : s.sb.wire = some m) (hs : m.src = .keeper) (ht : m.ty = 0xC) (hd : m.dst = 3)
    (hk : s.sb.keeper.rxq = []) (hf : s.sb.flyer.rxq = []) (hsp : s.sb.spindle.rxq = []) (ha : s.spindle.alive = true) :
    Answers .time s fun t =>
      t.sb.wire = none ∧ t.flyer = { s.flyer with rtc := some (leNat m.payload) } ∧ t.spindle = { s.spindle with rtc := some (leNat m.payload) } := by
  have hland := landOf_broadcast hw hs (by omega) hd hf hsp hu ha
  have hkeeper : takeOldest takeTime m.ty (broadcastLanded s m) .keeper = broadcastLanded s m := takeOldest_empty (s := broadcastLanded s m) hk
  have hspin : (sbDie (sbLift (broadcastLanded s m) .flyer) .spindle).rxq = [m] := by
    rw [sbLift_sbDie_ne (by decide)]
    exact broadcastLanded_spindle hsp
  have hwire := sbLift_wire_free (broadcastLanded_wire s m) .flyer
  refine answers_next (t := onBroadcast s m.ty takeTime) (by rw [ht]; rfl) ?_
  rw [onBroadcast_both hland hkeeper (broadcastLanded_flyer hf) (by rw [takeTime_flyer]; exact hspin), takeTime_spindle, takeTime_flyer]
  refine ⟨sbLift_wire_free (s := (sbLift (broadcastLanded s m) .flyer).onFlyer _) hwire .spindle, ?_, ?_⟩
  · rw [State.onSpindle_flyer, sbLift_flyer, State.onFlyer_flyer, sbLift_flyer]
    rfl
  · rw [State.onSpindle_spindle, sbLift_spindle, State.onFlyer_spindle, sbLift_spindle]
    rfl

/-! ## CAL_SHADOW -/

theorem calShadow_taken (hu : s.flyer.up = true) (hm : sbArrived s 0xD .flyer = some m) (_ : (m.payload.getD 0 0).toNat < s.flyer.bs.blocks.length) :
    Answers .calShadow s fun t =>
      t.flyer.bs.blocks = s.flyer.bs.blocks.set (m.payload.getD 0 0).toNat (some (fitBytes 24 (m.payload.drop 1))) ∧
      t.flyer.bs.armed = shadowChecks t.flyer.bs ∧ ⟨4, .flyer, dieNum m.src, [0xD, 0]⟩ ∈ t.sb.flyer.acks := by
  have hack := sbTake_acked (s := s) (m := m) (by rw [sbArrived_ty hm]; decide) .flyer
  refine answers_next rfl ?_
  rw [onFlyerArrival_up hu hm]
  refine ⟨?_, rfl, ?_⟩
  · simp [takeShadow, hack, sbAck]
  · have h := sbAck_mem (sbLift s .flyer) .flyer m Sc.ok
    rw [← hack, sbArrived_ty hm] at h
    exact h

/-- Settles O15, clause by clause. -/
theorem messagesToDies : Obligations.MessagesToDies := fun _ _ hu =>
  ⟨domain_followed hu, reset_restarts hu, peerReset_held hu, peerReset_freed hu, captureReady_wakes, fun k => mode_taken hu k, time_taken hu,
    calShadow_taken hu⟩

end Sys2Proof.Machine
end

section
/-! SUPPORT. Entries outside given indices are as before, and so are the N writes in progress: the operations of the dictionary
engine and of a waiting reader of which this is all that a statement needs. -/
namespace Sys2Proof.Machine
variable {s t r : State} {idx more : List Nat}

/-- Every entry whose index is not listed, for every user, and the N writes in progress are as before. -/
structure DictKept (idx : List Nat) (s t : State) : Prop where
  get : ∀ e, e / 256 ∉ idx → t.get e = s.get e
  getU : ∀ e u, e / 256 ∉ idx → t.getU e u = s.getU e u
  jobs : t.keeper.jobs = s.keeper.jobs

theorem DictKept.refl (s : State) : DictKept idx s s := ⟨fun _ _ => rfl, fun _ _ _ => rfl, rfl⟩

theorem DictKept.trans (h : DictKept idx s t) (g : DictKept idx t r) : DictKept idx s r :=
  ⟨fun e he => (g.get e he).trans (h.get e he), fun e u he => (g.getU e u he).trans (h.getU e u he), g.jobs.trans h.jobs⟩

theorem DictKept.mono (h : DictKept idx s t) (hs : idx ⊆ more) : DictKept more s t :=
  ⟨fun e he => h.get e fun hm => he (hs hm), fun e u he => h.getU e u fun hm => he (hs hm), h.jobs⟩

theorem DictKept.ite {a b : State} {c : Prop} [Decidable c] (ha : DictKept idx s a) (hb : DictKept idx s b) :
    DictKept idx s (if c then a else b) := by
  split <;> assumption

theorem DictKept.foldl {α : Type} {f : State → α → State} (h : ∀ s x, DictKept idx s (f s x)) (l : List α) (s : State) :
    DictKept idx s (l.foldl f s) := by
  induction l generalizing s with
  | nil => exact .refl s
  | cons x l ih => exact (h s x).trans (ih _)

/-- Without a store, entries are as before. -/
theorem dictKept_of_ent (he : t.ent = s.ent) (hj : t.keeper.jobs = s.keeper.jobs) : DictKept idx s t :=
  ⟨fun e _ => by simp only [State.get, he], fun e u _ => by simp only [State.getU, he], hj⟩

/-! ### Stores -/

theorem put_dictKept (s : State) {e : Nat} (v : Nat) (h : e / 256 ∈ idx) : DictKept idx s (s.put e v) where
  get _ he := State.get_put_ne s (by rintro rfl; exact he h) v
  getU _ u he := State.getU_put_ne s (by rintro rfl; exact he h) u v
  jobs := rfl

theorem putU_dictKept (s : State) {e : Nat} (u : User) (v : Nat) (h : e / 256 ∈ idx) : DictKept idx s (s.putU e u v) where
  get _ he := State.get_putU_ne s (by rintro rfl; exact he h) u v
  getU _ _ he := State.getU_putU_ne s (.inl (by rintro rfl; exact he h)) v
  jobs := rfl

theorem notePeak_dictKept (s : State) (q n : Nat) (h : Ent.Q_PEAK q / 256 ∈ idx) : DictKept idx s (notePeak s q n) :=
  .ite (put_dictKept s n h) (.refl s)

theorem noteFull_dictKept (s : State) (q : Nat) (h : Ent.Q_FULL q / 256 ∈ idx) : DictKept idx s (noteFull s q) :=
  .ite (put_dictKept s _ h) (.refl s)

/-! ### Notices (R71) -/

theorem setNotices_dictKept (s : State) (m : Nat) : DictKept [0x100E] s (setNotices s m) :=
  (DictKept.foldl (fun s u => putU_dictKept s u _ (by decide)) users s).trans
    (dictKept_of_ent (noticed_ent _ _) (congrArg Keeper.jobs (noticed_keeper _ _)))

theorem raise_dictKept (s : State) (k : Nat) : DictKept [0x100E] s (raise s k) :=
  .ite (setNotices_dictKept s _) (.ite (.refl s) (dictKept_of_ent rfl rfl))

/-! ### Responses (R57, R58, R73) -/

theorem deniedCount_div (u : User) : Ent.DENIED_COUNT (userNum u + 1) / 256 = 0x1012 := by
  have := userNum_lt u
  unfold Ent.DENIED_COUNT
  omega

theorem countDenied_dictKept (s : State) (q : Request) : DictKept [0x1012, 0x1013] s (countDenied s q) :=
  (put_dictKept s _ (by rw [deniedCount_div]; decide)).trans (put_dictKept _ _ (by decide))

theorem noteStatus_dictKept (s : State) (q : Request) (c : Nat) : DictKept [0x100B, 0x1012, 0x1013] s (noteStatus s q c) := by
  have hd : DictKept [0x100B, 0x1012, 0x1013] s (if c = Sc.denied then countDenied s q else s) :=
    .ite ((countDenied_dictKept s q).mono (by decide)) (.refl s)
  exact .ite hd (hd.trans (putU_dictKept _ _ _ (by decide)))

theorem setResponses_dictKept (s : State) (u : User) (l : List Response) : DictKept [0x120D] s (setResponses s u l) := by
  have hq : DictKept [0x120D] s (s.onDict fun d => { d with resps := d.resps.set u l }) := dictKept_of_ent rfl rfl
  exact hq.trans (notePeak_dictKept _ 11 _ (by decide))

theorem answer_dictKept (s : State) (q : Request) (c : Nat) (v : Bytes) : DictKept [0x120D] s (answer s q c v) :=
  .ite (.refl s) (.ite (setResponses_dictKept s _ _) (dictKept_of_ent rfl rfl))

/-- The indices of LAST_STATUS, DENIED_COUNT, LAST_DENIED and Q_PEAK. -/
abbrev responseIdx : List Nat := [0x100B, 0x1012, 0x1013, 0x120D]

/-- A response writes LAST_STATUS, DENIED_COUNT, LAST_DENIED and Q_PEAK and no other entry. -/
theorem respond_dictKept (s : State) (q : Request) (c : Nat) (v : Bytes) :
    DictKept responseIdx s (respond s q c v) := by
  have hl : DictKept responseIdx s (servedLast s q.user) := dictKept_of_ent rfl rfl
  have hn : DictKept responseIdx s (noteStatus (servedLast s q.user) q c) := hl.trans ((noteStatus_dictKept _ q c).mono (by decide))
  exact hn.trans ((answer_dictKept _ q c v).mono (by decide))

theorem respondJob_dictKept (s : State) (q : Request) (c : Nat) (v : Bytes) :
    DictKept responseIdx s (respondJob s q c v) := by
  have hn : DictKept responseIdx s (noteStatus s q c) := (noteStatus_dictKept s q c).mono (by decide)
  exact .ite (.refl s) (.ite (hn.trans ((answer_dictKept _ q c v).mono (by decide))) (hn.trans (dictKept_of_ent rfl rfl)))

/-! ### A domain brought up on demand (R168, R169) -/

/-- The indices of what a domain's exit or an aborted entry may write. -/
def demandIdx : List Nat := [0x100E, 0x1101, 0x1102, 0x1103, 0x1107, 0x120D, 0x120E]

theorem sbQueue_dictKept (s : State) (d : Die) (ty dst : Nat) (p : Bytes) : DictKept demandIdx s (sbQueue s d ty dst p) := by
  have hq : DictKept demandIdx s (onSbDie s d fun x => { x with txq := x.txq ++ [⟨ty, d, dst, p⟩] }) :=
    dictKept_of_ent (State.onSbDie_ent _ _ _) (congrArg Keeper.jobs (State.onSbDie_keeper _ _ _))
  have hp : Ent.Q_PEAK 4 / 256 ∈ demandIdx := by decide
  exact .ite (hq.trans (.ite (.refl _) (notePeak_dictKept _ 4 _ hp))) (noteFull_dictKept s 4 (by decide))

theorem setDomNow_dictKept (s : State) (d : Domain) (c : Nat) : DictKept demandIdx s (setDomNow s d c) :=
  .ite (dictKept_of_ent rfl rfl) (put_dictKept s c (by cases d <;> decide))

theorem beginExit_dictKept (s : State) (d : Domain) : DictKept demandIdx s (beginExit s d none) := by
  have ht : DictKept demandIdx s (if d = .core ∧ domNow s d = 1 then sendTime s else s) := .ite (sbQueue_dictKept s _ _ _ _) (.refl s)
  have hx := ht.trans (setDomNow_dictKept _ d 4)
  exact .ite (hx.trans (dictKept_of_ent rfl rfl)) hx

theorem refuse_dictKept (s : State) (d : Domain) (w n : Nat) : DictKept demandIdx s (refuse s d w n) :=
  (((put_dictKept s _ (by cases d <;> decide)).trans (put_dictKept _ _ (by cases d <;> decide))).trans (put_dictKept _ _ (by decide))).trans
    ((raise_dictKept _ _).mono (by decide))

theorem demand_dictKept (s : State) (d : Domain) : DictKept demandIdx s (demand s d) := by
  unfold demand raiseDomain
  split
  · exact .ite (dictKept_of_ent rfl rfl) ((refuse_dictKept _ _ _ _).trans (beginExit_dictKept _ _))
  · exact beginExit_dictKept s d
  · exact beginExit_dictKept s d
  · exact .refl s

/-! ### The answer of a waiting reader's command (R376, R381) -/

theorem onTag_dictKept (s : State) (f : Tag → Tag) : DictKept idx s (s.onTag f) := dictKept_of_ent rfl rfl
theorem used_dictKept (s : State) : DictKept idx s s.used := dictKept_of_ent rfl rfl

/-- The indices of what an APDU's answer may write. -/
def apduIdx : List Nat := demandIdx ++ [0x5208, 0x520B]

theorem apduAnswer_dictKept (s : State) (data : Bytes) (sw : Nat) : DictKept apduIdx s (apduAnswer s data sw) := by
  have h1 : DictKept apduIdx s (s.bump Ent.TAG_APDUS) := put_dictKept s _ (by decide)
  have h2 : DictKept apduIdx s ((s.bump Ent.TAG_APDUS).put Ent.TAG_LAST_SW sw) := h1.trans (put_dictKept _ _ (by decide))
  unfold apduAnswer
  dsimp only
  split
  · exact h2.trans (dictKept_of_ent rfl rfl)
  · exact h2.trans (dictKept_of_ent rfl rfl)

theorem writeAnswer_dictKept (s : State) (c : Nat) : DictKept apduIdx s (writeAnswer s c) := by
  have hd : DictKept apduIdx s (demand s .crypto) := (demand_dictKept s .crypto).mono (by decide)
  unfold writeAnswer
  dsimp only
  split
  · exact (hd.trans (onTag_dictKept _ _)).trans (apduAnswer_dictKept _ _ _)
  · exact ((hd.trans (onTag_dictKept _ _)).trans (used_dictKept _)).trans (apduAnswer_dictKept _ _ _)

/-- What a response owes a waiting reader. -/
theorem deliverT_dictKept (s : State) : DictKept apduIdx s (deliverT s) := by
  unfold deliverT
  split
  · refine .trans ?_ (.ite (apduAnswer_dictKept _ _ _) (writeAnswer_dictKept _ _))
    exact dictKept_of_ent rfl rfl
  · exact .refl s

end Sys2Proof.Machine
end

section
/-! CLAIMS. Responses (R53, R54, R57, R73). -/
namespace Sys2Proof.Machine
variable {s : State} {q : Request} {c : Nat} {v : Bytes} {u : User}

/-! ## LAST_STATUS and the denials (R73) -/

theorem noteStatus_lastStatus (h : q.op ≠ 1 ∨ entAt q.idx q.sub ≠ Ent.LAST_STATUS) : (noteStatus s q c).getU Ent.LAST_STATUS q.user = c := by
  unfold noteStatus
  rw [if_neg fun hx => h.elim (· hx.1) (· hx.2)]
  exact State.getU_putU_self _ _ _ _

theorem noteStatus_lastStatus_ne (hu : u ≠ q.user) : (noteStatus s q c).getU Ent.LAST_STATUS u = s.getU Ent.LAST_STATUS u := by
  have hd : (if c = Sc.denied then countDenied s q else s).getU Ent.LAST_STATUS u = s.getU Ent.LAST_STATUS u := by
    split
    · exact (countDenied_dictKept s q).getU _ u (by decide)
    · rfl
  unfold noteStatus
  dsimp only
  split
  · exact hd
  · rw [State.getU_putU_ne _ (.inr hu), hd]

theorem respond_lastStatus (h : q.op ≠ 1 ∨ entAt q.idx q.sub ≠ Ent.LAST_STATUS) : (respond s q c v).getU Ent.LAST_STATUS q.user = c :=
  ((answer_dictKept _ q c v).getU _ _ (by decide)).trans (noteStatus_lastStatus h)

theorem respond_lastStatus_ne (hu : u ≠ q.user) : (respond s q c v).getU Ent.LAST_STATUS u = s.getU Ent.LAST_STATUS u :=
  ((answer_dictKept _ q c v).getU _ _ (by decide)).trans (noteStatus_lastStatus_ne hu)

theorem respond_get_noteStatus {e : Nat} (h : e / 256 ≠ 0x120D) : (respond s q c v).get e = (noteStatus (servedLast s q.user) q c).get e :=
  (answer_dictKept _ q c v).get e (by simpa using h)

theorem noteStatus_denied {e : Nat} (h : e ≠ Ent.LAST_STATUS) : (noteStatus s q Sc.denied).get e = (countDenied s q).get e := by
  unfold noteStatus
  rw [if_pos rfl]
  split
  · rfl
  · exact State.get_putU_ne _ h _ _

theorem deniedCount_ne (u : User) {e : Nat} (h : e / 256 ≠ 0x1012) : Ent.DENIED_COUNT (userNum u + 1) ≠ e := by
  rintro rfl
  exact h (deniedCount_div u)

theorem respond_denied :
    Counted s (respond s q Sc.denied v) (Ent.DENIED_COUNT (userNum q.user + 1)) ∧
      (respond s q Sc.denied v).get Ent.LAST_DENIED = userId q.user + 256 * (q.sub % 256) + 65536 * (q.idx % 65536) := by
  have hd : ∀ e, e / 256 ≠ 0x120D → e ≠ Ent.LAST_STATUS → (respond s q Sc.denied v).get e = (countDenied (servedLast s q.user) q).get e :=
    fun e hp hl => (respond_get_noteStatus hp).trans (noteStatus_denied hl)
  constructor
  · rw [Counted, hd _ (by rw [deniedCount_div]; decide) (deniedCount_ne _ (by decide)), countDenied,
      State.get_put_ne _ (deniedCount_ne _ (by decide)), State.bump_get_self]
    rfl
  · rw [hd _ (by decide) (by decide), countDenied, State.get_put_self]

/-! ## The place of a response (R57, R58) -/

theorem queues_noted : queues (noteStatus (servedLast s q.user) q c) q = queues s q := by
  unfold queues
  split <;> simp [servedLast]

theorem respond_reply (hd : q.dropped = false) (hq : queues s q = false) : (respond s q c v).spindle.dict.reply = (c, v) := by
  simp only [respond, answer, hd, queues_noted, hq, Bool.false_eq_true, if_false]
  rfl

theorem respond_resps (hd : q.dropped = false) (hq : queues s q = true) :
    (respond s q c v).spindle.dict.resps.get q.user = s.spindle.dict.resps.get q.user ++ [⟨q, c, v⟩] := by
  simp only [respond, answer, hd, queues_noted, hq, Bool.false_eq_true, if_false, if_true, setResponses, notePeak_spindle, noteStatus_spindle]
  exact PerUser.get_set _ _ _

/-! ## What a response leaves alone -/

/-- The engine's queues and replies after an answer. -/
theorem answer_dict : ∃ l r, (answer s q c v).spindle = { s.spindle with dict := { s.spindle.dict with resps := l, reply := r } } := by
  unfold answer
  split_ifs
  · exact ⟨_, _, rfl⟩
  · exact ⟨_, s.spindle.dict.reply, by rw [setResponses, notePeak_spindle]; rfl⟩
  · exact ⟨s.spindle.dict.resps, _, rfl⟩

theorem respond_spindle : (respond s q c v).spindle =
    { s.spindle with dict := { s.spindle.dict with
      last := q.user, resps := (respond s q c v).spindle.dict.resps, reply := (respond s q c v).spindle.dict.reply } } := by
  obtain ⟨l, r, h⟩ := answer_dict (s := noteStatus (servedLast s q.user) q c) (q := q) (c := c) (v := v)
  rw [noteStatus_spindle] at h
  rw [respond, h]
  rfl

/-- A response leaves every part of the device alone but its entries, the engine's queues and its reply. -/
theorem respond_eq : respond s q c v = { s with ent := (respond s q c v).ent, spindle := (respond s q c v).spindle } := by
  rw [State.mk.injEq]
  simp

/-- Settles O47, clause by clause. -/
theorem responses : Obligations.Responses := by
  intro s q c v
  refine ⟨fun h => respond_lastStatus (.inr h), fun u hu => respond_lastStatus_ne hu, ?_, respond_reply, respond_resps, fun e he => ?_, ?_⟩
  · rintro rfl
    exact respond_denied
  · have h := respond_dictKept s q c v
    exact ⟨h.get e he, fun u => h.getU e u he⟩
  · rintro t rfl
    rw [← respond_spindle]
    exact respond_eq

end Sys2Proof.Machine
end

section
/-! SUPPORT. Increments of counters, claims and notices at the dictionary engine (R69 to R72, R323): the rows of their entries, what
their writes come to, and the commit of an N write. -/
namespace Sys2Proof.Machine
variable {s : State} {u w : User} {e n g v : Nat}

/-! ### Requests by address -/

theorem numReq_entAt : entAt (numReq u e v).idx (numReq u e v).sub = e := entAt_div_mod e

/-- The number written, where it fits the entry. -/
theorem numReq_value (h : v < 256 ^ entrySize e) : leNat (numReq u e v).value = v := (leNat_leBytes _ v).trans (Nat.mod_eq_of_lt h)

/-- The entries whose writes start work of a crypto engine. -/
def engineEntries : List Nat := [Ent.KDF_DERIVE, Ent.AES_START, Ent.AES_IN, Ent.SHA_INIT, Ent.SHA_DATA, Ent.SHA_LAST]

theorem engineOf_numReq (h : e ∉ engineEntries) : engineOf (numReq u e v) = none := by
  simp only [engineEntries, List.mem_cons, List.not_mem_nil, or_false, not_or] at h
  obtain ⟨h1, h2, h3, h4, h5, h6⟩ := h
  have ho : (numReq u e v).op ≠ 1 := Nat.succ_ne_self 1
  simp only [engineOf, numReq_entAt, ho, h1, h2, h3, h4, h5, h6, or_false, if_false]

/-- The engine is in service for a user whose write it accepts (R61). -/
theorem accepts_engineUp {q : Request} (h : accepts s q = true) : engineUp s = true := by
  obtain ⟨-, hu, -⟩ := accepts_parts h
  simp only [unserved, Bool.or_eq_false_iff, Bool.not_eq_false'] at hu
  exact hu.1.1

theorem numReq_user : (numReq u e v).user = u := rfl

theorem rowAt_findRow {idx sub : Nat} {r : EntryRow} (h : rowAt idx sub = some r) : findRow (entAt idx sub) = some r := by
  unfold rowAt at h
  split at h
  · cases h
  · exact h

/-- What holds of the row of an entry holds of the row that a request finds. -/
theorem row_of_findRow {α : Type} {f : EntryRow → α} {a : α} (h : (findRow e).map f = some a) (r : EntryRow)
    (hr : rowAt (e / 256) (e % 256) = some r) : f r = a := by
  have hf := rowAt_findRow hr
  rw [entAt_div_mod] at hf
  rwa [hf, Option.map_some, Option.some.injEq] at h

/-- An accepted write that is judged and done is answered with its status (R55). -/
theorem access_done {q : Request} {t : State} {c : Nat} (hx : q.ext = true) (h : accepts s q = true) (hw : writeAccess s q = .done t c)
    (he : engineOf q = none) : access s q = respond t q c [] := by
  obtain ⟨ho, hu, hb, hn, -⟩ := accepts_parts h
  rw [access_served hu hb hn, ← perform_plain (s := s) (t, c, []) he]
  simp [serve, hx, ho, hw]

/-- An accepted write of one entry that the keeper commits is handed to it, its place in the response queue claimed (R59, R191). -/
theorem access_handed {q : Request} {x : Nat} (hx : q.ext = true) (h : accepts s q = true) (hw : writeAccess s q = .writes s [(e, x)] false)
    (hn : isN e = true) : access s q = claimPlace (s.onKeeper fun k => { k with jobs := k.jobs ++ [nvmJob q e x] }) q := by
  obtain ⟨ho, hu, hb, hs, -⟩ := accepts_parts h
  rw [access_served hu hb hs]
  simp [serve, hx, ho, hw, hn]

/-- An accepted write of an action entry runs its action; an increment that can be made is left to the keeper (R59). -/
theorem writeAccess_action (h : accepts s (numReq u e v) = true) (ha : (findRow e).map (·.action) = some true) (hc : e ≠ Ent.COMMIT) :
    writeAccess s (numReq u e v) =
      if isMono e && (action s u e (numReq u e v).value).2 == Sc.ok then .writes s [(e, leNat (numReq u e v).value)] false
      else .done (action s u e (numReq u e v).value).1 (action s u e (numReq u e v).value).2 := by
  obtain ⟨-, -, -, -, r, hr, hs, hg⟩ := accepts_parts h
  rw [numReq_entAt] at hs hg
  simp only [writeAccess, hr, numReq_entAt, hs, hc, row_of_findRow ha r hr, actionAccess, hg, ne_eq, not_true_eq_false, if_true, if_false]
  rfl

/-! ### Monotonic counters (R323) -/

theorem monoInc_action (h : 1 ≤ n ∧ n ≤ 8) : (findRow (Ent.MONO_INC n)).map (·.action) = some true := by
  obtain ⟨h1, h8⟩ := h
  interval_cases n <;> decide +kernel

theorem monoInc_size (h : 1 ≤ n ∧ n ≤ 8) : entrySize (Ent.MONO_INC n) = 1 := by
  obtain ⟨h1, h8⟩ := h
  interval_cases n <;> decide +kernel

theorem action_MONO_INC (h : 1 ≤ n ∧ n ≤ 8) (b : Bytes) : action s u (Ent.MONO_INC n) b = monoInc s u n := by
  obtain ⟨h1, h8⟩ := h
  interval_cases n <;> rfl

theorem monoInc_class (h : 1 ≤ n ∧ n ≤ 8) : isMono (Ent.MONO_INC n) = true ∧ Ent.MONO_INC n ≠ Ent.COMMIT ∧ Ent.MONO_INC n ∉ engineEntries := by
  obtain ⟨h1, h8⟩ := h
  interval_cases n <;> decide

/-- An increment that can be made is the keeper's. -/
theorem access_monoInc (h : accepts s (numReq u (Ent.MONO_INC n) v) = true) (hn : 1 ≤ n ∧ n ≤ 8) (hv : v < 256) (hc : s.get (Ent.MONO n) < 65535) :
    access s (numReq u (Ent.MONO_INC n) v) =
      claimPlace (s.onKeeper fun k => { k with jobs := k.jobs ++ [nvmJob (numReq u (Ent.MONO_INC n) v) (Ent.MONO_INC n) v] })
        (numReq u (Ent.MONO_INC n) v) := by
  obtain ⟨hm, hne, -⟩ := monoInc_class hn
  have hok : (monoInc s u n).2 = Sc.ok := by simp [monoInc, Nat.not_le.2 hc]
  refine access_handed rfl h ?_ (by simp [isN, hm])
  rw [writeAccess_action h (monoInc_action hn) hne, action_MONO_INC hn, hm, hok, numReq_value (by rwa [monoInc_size hn])]
  rfl

/-- At its end a counter is left (R323). -/
theorem access_monoInc_end (h : accepts s (numReq u (Ent.MONO_INC n) v) = true) (hn : 1 ≤ n ∧ n ≤ 8) (hc : 65535 ≤ s.get (Ent.MONO n)) :
    access s (numReq u (Ent.MONO_INC n) v) = respond s (numReq u (Ent.MONO_INC n) v) Sc.exhausted [] := by
  obtain ⟨hm, hne, he⟩ := monoInc_class hn
  have hx : monoInc s u n = (s, Sc.exhausted) := by simp [monoInc, hc]
  refine access_done rfl h ?_ (engineOf_numReq he)
  rw [writeAccess_action h (monoInc_action hn) hne, action_MONO_INC hn, hx, hm]
  rfl

/-- The keeper's commit of an increment (R323). -/
theorem applyWrite_monoInc (hn : 1 ≤ n ∧ n ≤ 8) : applyWrite s u (Ent.MONO_INC n) v = (monoInc s u n).1 := by
  obtain ⟨h1, h8⟩ := hn
  interval_cases n <;> rfl

theorem monoInc_counted (hc : s.get (Ent.MONO n) < 65535) (hn : n < 256) :
    (monoInc s u n).1.get (Ent.MONO n) = s.get (Ent.MONO n) + 1 ∧ (monoInc s u n).1.getU Ent.MONO_LAST u = s.get (Ent.MONO n) + 1 ∧
      (s.get (Ent.MONO n) + 1 = 65535 → bit ((monoInc s u n).1.get Ent.MONO_FLAGS) (n - 1) = true) := by
  have h1 : Ent.MONO n ≠ Ent.MONO_LAST := by unfold Ent.MONO Ent.MONO_LAST; omega
  have h2 : Ent.MONO n ≠ Ent.MONO_FLAGS := by unfold Ent.MONO Ent.MONO_FLAGS; omega
  simp only [monoInc, Nat.not_le.2 hc, if_false]
  split
  · refine ⟨?_, ?_, fun _ => ?_⟩
    · rw [State.setBits_get _ h2, State.get_putU_ne _ h1, State.get_put_self]
    · rw [State.setBits_eq, State.getU_put_ne _ (by decide), State.getU_putU_self]
    · simp [bit]
  · refine ⟨?_, ?_, fun h => absurd h ‹_›⟩
    · rw [State.get_putU_ne _ h1, State.get_put_self]
    · rw [State.getU_putU_self]

/-! ### The commit of an N write (R58, R59) -/

/-- The indices of what the answer to a committed write may write. -/
def commitIdx : List Nat := responseIdx ++ apduIdx

theorem responseIdx_commit : responseIdx ⊆ commitIdx := List.subset_append_left _ _
theorem apduIdx_commit : apduIdx ⊆ commitIdx := List.subset_append_right _ _

theorem respondJob_lastStatus {q : Request} {c : Nat} {b : Bytes} (h0 : q.op ≠ 0) (h1 : q.op ≠ 1) :
    (respondJob s q c b).getU Ent.LAST_STATUS q.user = c := by
  have hn : (noteStatus s q c).getU Ent.LAST_STATUS q.user = c := noteStatus_lastStatus (.inl h1)
  unfold respondJob
  rw [if_neg h0]
  dsimp only
  split
  · exact ((answer_dictKept _ q c b).getU _ _ (by decide)).trans hn
  · exact hn

/-- The state in which the keeper applies its oldest N write. -/
abbrev jobTaken (s : State) (rest : List NvmJob) : State := s.onKeeper fun k => { k with jobs := rest }

/-- A committed write of one entry is applied, and its answer leaves all but the entries of responses as they are then. -/
theorem commits_of_kept {q : Request} {p : State → Prop} (hq : q.op = 2) (hd : isDelta e = false)
    (hj : ∀ rest, (applyWrite (jobTaken s rest) q.user e v).keeper.jobs = rest)
    (hp : ∀ rest t, DictKept commitIdx (applyWrite (jobTaken s rest) q.user e v) t → p t) : Commits s q e v p := by
  intro rest hs
  have hc : jobComplete s = respondJob (applyWrite (jobTaken s rest) q.user e v) q Sc.ok [] := by
    rw [jobComplete_front hs, applied, applyWrites_one _ _ _ _ hd]
    rfl
  have hr := (respondJob_dictKept (applyWrite (jobTaken s rest) q.user e v) q Sc.ok []).mono responseIdx_commit
  have ht := hr.trans ((deliverT_dictKept _).mono apduIdx_commit)
  refine answers_next (t := deliverT (jobComplete s)) rfl ?_
  rw [hc]
  exact ⟨ht.jobs.trans (hj rest), ((deliverT_dictKept _).getU _ _ (by decide)).trans (respondJob_lastStatus (by omega) (by omega)), hp rest _ ht⟩

/-! ### Notices (R71) -/

theorem noticesFold_getU (m : Nat) (l : List User) (hl : l.Nodup) (s : State) :
    (l.foldl (fun s u => s.putU Ent.NOTICE_PENDING u (s.getU Ent.NOTICE_PENDING u ||| m)) s).getU Ent.NOTICE_PENDING w =
      if w ∈ l then s.getU Ent.NOTICE_PENDING w ||| m else s.getU Ent.NOTICE_PENDING w := by
  induction l generalizing s with
  | nil => rfl
  | cons x l ih =>
    obtain ⟨hx, hl⟩ := List.nodup_cons.1 hl
    rw [List.foldl_cons, ih hl]
    by_cases hw : w = x
    · subst hw
      simp [hx]
    · simp [hw, State.getU_putU_ne s (.inr hw)]

theorem setNotices_getU (s : State) (m : Nat) : (setNotices s m).getU Ent.NOTICE_PENDING w = s.getU Ent.NOTICE_PENDING w ||| m := by
  have hf := noticesFold_getU (w := w) m users (by decide) s
  rw [if_pos (by cases w <;> decide)] at hf
  rw [← hf, setNotices, State.getU, noticed_ent]
  rfl

/-- While the engine is in service every user is told of an event. -/
theorem raise_told (h : engineUp s = true) (k : Nat) (w : User) : bit ((raise s k).getU Ent.NOTICE_PENDING w) k = true := by
  rw [raise, if_pos h, setNotices_getU, bit, Nat.testBit_or, Nat.testBit_two_pow_self, Bool.or_true]

/-! ### Claims (R69, R70) -/

theorem claim_row : ∀ g ∈ claimGroups, (findRow (Ent.CLAIM g)).map (·.action) = some true ∧ entrySize (Ent.CLAIM g) = 4 ∧
    isMono (Ent.CLAIM g) = false ∧ Ent.CLAIM g ≠ Ent.COMMIT ∧ Ent.CLAIM g ∉ engineEntries ∧ Ent.CLAIM g / 256 = 0x100F := by decide +kernel

theorem action_CLAIM (hg : g ∈ claimGroups) (b : Bytes) : action s u (Ent.CLAIM g) b = claimWrite s u g (leNat b) := by
  fin_cases hg <;> rfl

/-- An accepted write of CLAIM is answered as R70 judges it. -/
theorem access_claim (h : accepts s (numReq u (Ent.CLAIM g) v) = true) (hg : g ∈ claimGroups) (hv : v < 2 ^ 32) :
    access s (numReq u (Ent.CLAIM g) v) = respond (claimWrite s u g v).1 (numReq u (Ent.CLAIM g) v) (claimWrite s u g v).2 [] := by
  obtain ⟨ha, hz, hm, hne, he, -⟩ := claim_row g hg
  refine access_done rfl h ?_ (engineOf_numReq he)
  rw [writeAccess_action h ha hne, action_CLAIM hg, hm, numReq_value (by rw [hz]; exact hv)]
  rfl

/-- A claim that changes hands: its entry, and every user told. -/
theorem claimPut_told (hg : g ∈ claimGroups) (v : Nat) :
    (raise (s.put (Ent.CLAIM g) v) 12).get (Ent.CLAIM g) = v ∧
      (engineUp s = true → ∀ w, bit ((raise (s.put (Ent.CLAIM g) v) 12).getU Ent.NOTICE_PENDING w) 12 = true) := by
  obtain ⟨-, -, -, -, -, hx⟩ := claim_row g hg
  have hup : engineUp (s.put (Ent.CLAIM g) v) = engineUp s := by
    have hd : domState (s.put (Ent.CLAIM g) v) .core = domState s .core :=
      State.get_put_ne s (by intro hh; rw [← hh] at hx; revert hx; decide) v
    rw [engineUp, engineUp, hd]
    rfl
  exact ⟨((raise_dictKept _ 12).get _ (by rw [hx]; decide)).trans (State.get_put_self _ _ _), fun h w => raise_told (hup.trans h) 12 w⟩

end Sys2Proof.Machine
end

section
/-! CLAIMS. Counters, notices, claims, probing (R69 to R74, R323). -/
namespace Sys2Proof.Machine
variable {s : State} {u : User} {n g v : Nat}

/-! ## Counters -/

theorem mono_committed (hn : 1 ≤ n ∧ n ≤ 8) (hc : s.get (Ent.MONO n) < 65535) :
    Commits s (numReq u (Ent.MONO_INC n) v) (Ent.MONO_INC n) v fun t =>
      t.get (Ent.MONO n) = s.get (Ent.MONO n) + 1 ∧ t.getU Ent.MONO_LAST u = s.get (Ent.MONO n) + 1 ∧
        (s.get (Ent.MONO n) + 1 = 65535 → bit (t.get Ent.MONO_FLAGS) (n - 1) = true) := by
  have hd : isDelta (Ent.MONO_INC n) = false := by
    obtain ⟨h1, h8⟩ := hn
    interval_cases n <;> decide
  refine commits_of_kept rfl hd (fun rest => ?_) fun rest t ht => ?_
  · rw [applyWrite_monoInc hn, monoInc_keeper]
    rfl
  · rw [applyWrite_monoInc hn] at ht
    obtain ⟨hm, hl, hf⟩ := monoInc_counted (s := jobTaken s rest) (u := u) hc (by omega)
    have hx : Ent.MONO n / 256 = 0x4110 := by unfold Ent.MONO; omega
    refine ⟨?_, ?_, fun h => ?_⟩
    · rw [ht.get _ (by rw [hx]; decide)]
      exact hm
    · rw [ht.getU _ _ (by decide)]
      exact hl
    · rw [ht.get _ (by decide)]
      exact hf h

/-! ## Notices -/

theorem answers_responded {c : Instr} {q : Request} {t : State} {st : Nat} {b : Bytes} {p : State → Prop} (hx : exec c s = .next (access s q))
    (ha : access s q = respond t q st b) (hp : p (respond t q st b)) : Answers c s p := answers_next (hx.trans (congrArg _ ha)) hp

theorem numReq_status {e c : Nat} {b : Bytes} : (respond s (numReq u e v) c b).getU Ent.LAST_STATUS u = c :=
  respond_lastStatus (.inl (Nat.succ_ne_self 1))

theorem applyWrite_noticePending :
    applyWrite s u Ent.NOTICE_PENDING v = s.putU Ent.NOTICE_PENDING u (clearBits (s.getU Ent.NOTICE_PENDING u) v) := rfl

theorem access_noticePending (h : accepts s (numReq u Ent.NOTICE_PENDING v) = true) (hv : v < 2 ^ 32) :
    access s (numReq u Ent.NOTICE_PENDING v) =
      respond (s.putU Ent.NOTICE_PENDING u (clearBits (s.getU Ent.NOTICE_PENDING u) v)) (numReq u Ent.NOTICE_PENDING v) Sc.ok [] := by
  have hr : (findRow Ent.NOTICE_PENDING).map (·.action) = some false := by decide +kernel
  have hn : isN Ent.NOTICE_PENDING = false := by decide +kernel
  have hz : entrySize Ent.NOTICE_PENDING = 4 := by decide +kernel
  rw [access_store rfl h (row_of_findRow hr) (by rw [numReq_entAt]; decide) (by rw [numReq_entAt]; exact hn), numReq_entAt, numReq_user,
    numReq_value (by rw [hz]; exact hv), applyWrites_one _ _ _ _ (by decide), applyWrite_noticePending]

theorem notice_cleared (h : accepts s (numReq u Ent.NOTICE_PENDING v) = true) (hv : v < 2 ^ 32) : Answers (.noticeClear u v) s fun t =>
    t.getU Ent.NOTICE_PENDING u = clearBits (s.getU Ent.NOTICE_PENDING u) v ∧ t.getU Ent.LAST_STATUS u = Sc.ok ∧
      ∀ w ∈ users, w ≠ u → t.getU Ent.NOTICE_PENDING w = s.getU Ent.NOTICE_PENDING w := by
  refine answers_responded rfl (access_noticePending h hv) ⟨?_, numReq_status, fun w _ hw => ?_⟩
  · rw [(respond_dictKept _ _ _ _).getU _ _ (by decide), State.getU_putU_self]
  · rw [(respond_dictKept _ _ _ _).getU _ _ (by decide), State.getU_putU_ne _ (.inr hw)]

/-! ## Claims -/

theorem claimWrite_free (hf : claimHolder s g = 0x80) (hv : 1 ≤ v ∧ v ≤ 3600) :
    claimWrite s u g v = (raise (s.put (Ent.CLAIM g) (userId u + 256 * v)) 12, Sc.ok) := by
  simp [claimWrite, hf, Nat.not_lt.2 hv.2, Nat.one_le_iff_ne_zero.1 hv.1]

theorem claimWrite_own (hf : claimHolder s g ≠ 0x80) (ho : claimHolder s g = userId u) (hv : 1 ≤ v ∧ v ≤ 3600) :
    claimWrite s u g v = (s.put (Ent.CLAIM g) (userId u + 256 * v), Sc.ok) := by
  simp [claimWrite, ← ho, hf, Nat.not_lt.2 hv.2, Nat.one_le_iff_ne_zero.1 hv.1]

theorem claimWrite_other (hf : claimHolder s g ≠ 0x80) (ho : claimHolder s g ≠ userId u) (hv : 1 ≤ v ∧ v ≤ 3600) :
    claimWrite s u g v = (s, Sc.state) := by
  simp [claimWrite, ho, hf, Nat.not_lt.2 hv.2, Nat.one_le_iff_ne_zero.1 hv.1]

theorem claimWrite_release (hf : claimHolder s g ≠ 0x80) :
    claimWrite s u g 0 = if claimHolder s g = userId u ∨ u = .M then (claimFree s g, Sc.ok) else (s, Sc.state) := by
  simp [claimWrite, hf]

section
variable {lease : Nat} (hg : g ∈ claimGroups)
include hg

/-- The answer to a write of CLAIM leaves the claim, and the notices that it raised. -/
theorem claim_answered {q : Request} {c : Nat} {b : Bytes} :
    (respond s q c b).get (Ent.CLAIM g) = s.get (Ent.CLAIM g) ∧
      ∀ w, (respond s q c b).getU Ent.NOTICE_PENDING w = s.getU Ent.NOTICE_PENDING w := by
  obtain ⟨-, -, -, -, -, hx⟩ := claim_row g hg
  have hr := respond_dictKept s q c b
  exact ⟨hr.get _ (by rw [hx]; decide), fun w => hr.getU _ w (by decide)⟩

theorem claim_taken (h : accepts s (numReq u (Ent.CLAIM g) lease) = true) (hl : 1 ≤ lease ∧ lease ≤ 3600) :
    Answers (.claimTake u g lease) s fun t =>
      if claimHolder s g = 0x80 ∨ claimHolder s g = userId u then t.get (Ent.CLAIM g) = userId u + 256 * lease ∧ t.getU Ent.LAST_STATUS u = Sc.ok ∧
        ∀ w ∈ users, if claimHolder s g = 0x80 then bit (t.getU Ent.NOTICE_PENDING w) 12 = true
          else t.getU Ent.NOTICE_PENDING w = s.getU Ent.NOTICE_PENDING w
      else t.get (Ent.CLAIM g) = s.get (Ent.CLAIM g) ∧ t.getU Ent.LAST_STATUS u = Sc.state := by
  refine answers_responded rfl (access_claim h hg (by omega)) ?_
  obtain ⟨hc, hn⟩ := claim_answered hg (s := (claimWrite s u g lease).1) (q := numReq u (Ent.CLAIM g) lease)
    (c := (claimWrite s u g lease).2) (b := [])
  rw [hc, numReq_status]
  simp only [hn]
  by_cases hf : claimHolder s g = 0x80
  · obtain ⟨hp, ht⟩ := claimPut_told hg (s := s) (userId u + 256 * lease)
    rw [if_pos (.inl hf), claimWrite_free hf hl]
    exact ⟨hp, rfl, fun w _ => by rw [if_pos hf]; exact ht (accepts_engineUp h) w⟩
  · by_cases ho : claimHolder s g = userId u
    · rw [if_pos (.inr ho), claimWrite_own hf ho hl]
      obtain ⟨-, -, -, -, -, hx⟩ := claim_row g hg
      refine ⟨State.get_put_self _ _ _, rfl, fun w _ => ?_⟩
      rw [if_neg hf]
      exact State.getU_put_ne _ (by intro hh; rw [← hh] at hx; revert hx; decide) _ _
    · rw [if_neg (not_or.2 ⟨hf, ho⟩), claimWrite_other hf ho hl]
      exact ⟨rfl, rfl⟩

theorem claim_released (h : accepts s (numReq u (Ent.CLAIM g) 0) = true) (hf : claimHolder s g ≠ 0x80) : Answers (.claimRelease u g) s fun t =>
    if claimHolder s g = userId u ∨ u = .M then t.get (Ent.CLAIM g) = 0x80 ∧ t.getU Ent.LAST_STATUS u = Sc.ok ∧
      ∀ w ∈ users, bit (t.getU Ent.NOTICE_PENDING w) 12 = true
    else t.get (Ent.CLAIM g) = s.get (Ent.CLAIM g) ∧ t.getU Ent.LAST_STATUS u = Sc.state := by
  refine answers_responded rfl (access_claim h hg (by decide)) ?_
  obtain ⟨hc, hn⟩ := claim_answered hg (s := (claimWrite s u g 0).1) (q := numReq u (Ent.CLAIM g) 0) (c := (claimWrite s u g 0).2) (b := [])
  rw [hc, numReq_status]
  simp only [hn]
  rw [claimWrite_release hf]
  split
  · obtain ⟨hp, ht⟩ := claimPut_told hg (s := s) 0x80
    exact ⟨hp, rfl, fun w _ => ht (accepts_engineUp h) w⟩
  · exact ⟨rfl, rfl⟩

theorem claim_expired (ha : s.spindle.alive = true) (hf : claimHolder s g ≠ 0x80) : Answers (.claimLeaseExpiry g) s fun t =>
    t.get (Ent.CLAIM g) = 0x80 ∧ (domState s .core ≠ 0 → ∀ w ∈ users, bit (t.getU Ent.NOTICE_PENDING w) 12 = true) := by
  have he : (s.spindle.alive && claimGroups.contains g && claimHolder s g != 0x80) = true := by simp [ha, hg, hf]
  obtain ⟨hp, ht⟩ := claimPut_told hg (s := s) 0x80
  have hx : exec (.claimLeaseExpiry g) s = .next (claimFree s g) := congrArg Host.Outcome.next (if_pos he)
  exact answers_next hx ⟨hp, fun hd w _ => ht (by simp [engineUp, ha, hd]) w⟩

end

/-! ## Probing (R74) -/

/-- A read on which no crypto engine works is answered as it is served. -/
theorem access_read_plain {e c : Nat} {t : State} {b : Bytes} (h : readable s (readReq u (e / 256) (e % 256)) = true) (he : e ≠ Ent.EXP_KEY)
    (hr : readAccess s u (e / 256) (e % 256) = (t, c, b)) :
    access s (readReq u (e / 256) (e % 256)) = respond t (readReq u (e / 256) (e % 256)) c b := by
  have hn : engineOf (readReq u (e / 256) (e % 256)) = none := by simp [engineOf, readReq, Request.mk', entAt_div_mod, he]
  rw [access_read rfl h, perform_plain _ hn]
  exact congrArg (fun x => respond x.1 _ x.2.1 x.2.2) hr

theorem readAccess_probeDesc (h : readable s (readReq u (Ent.PROBE_DESC / 256) (Ent.PROBE_DESC % 256)) = true) :
    readAccess s u (Ent.PROBE_DESC / 256) (Ent.PROBE_DESC % 256) =
      (s, if (rowAt (s.getU Ent.PROBE_TARGET u / 256) (s.getU Ent.PROBE_TARGET u % 256)).isSome then Sc.ok else Sc.noEntry,
        ((rowAt (s.getU Ent.PROBE_TARGET u / 256) (s.getU Ent.PROBE_TARGET u % 256)).map
          fun r => leBytes 4 (probeDesc s u r (s.getU Ent.PROBE_TARGET u))).getD []) := by
  obtain ⟨-, -, -, -, r, hr, hs⟩ := readable_parts h
  have hj : jobStatuses.contains (entAt (Ent.PROBE_DESC / 256) (Ent.PROBE_DESC % 256)) = false := by decide
  have hx : readStatus s u r (entAt (Ent.PROBE_DESC / 256) (Ent.PROBE_DESC % 256)) = Sc.ok := hs
  have hq : rowAt (Ent.PROBE_DESC / 256) (Ent.PROBE_DESC % 256) = some r := hr
  simp only [readAccess, hq, hx, hj, if_true, Bool.false_eq_true, and_false, if_false]
  cases ht : rowAt (s.getU Ent.PROBE_TARGET u / 256) (s.getU Ent.PROBE_TARGET u % 256) with
  | none => simp [readEntry, entAt_div_mod, ht]
  | some r' => simp [readEntry, entAt_div_mod, ht]

theorem probeDesc_read (h : readable s (readReq u (Ent.PROBE_DESC / 256) (Ent.PROBE_DESC % 256)) = true) :
    Serves (.probeDescRead u) s (readReq u (Ent.PROBE_DESC / 256) (Ent.PROBE_DESC % 256)) s
      (if (rowAt (s.getU Ent.PROBE_TARGET u / 256) (s.getU Ent.PROBE_TARGET u % 256)).isSome then Sc.ok else Sc.noEntry)
      (((rowAt (s.getU Ent.PROBE_TARGET u / 256) (s.getU Ent.PROBE_TARGET u % 256)).map
        fun r => leBytes 4 (probeDesc s u r (s.getU Ent.PROBE_TARGET u))).getD []) := by
  exact congrArg Host.Outcome.next (access_read_plain h (by decide) (readAccess_probeDesc h))

/-- Settles O49, clause by clause. -/
theorem countersAndClaims : Obligations.CountersAndClaims := by
  intro s u g
  refine ⟨fun n v h hv hn hc => congrArg _ (access_monoInc h hn hv hc), ?_, fun n v h hn hc => congrArg _ (access_monoInc_end h hn hc),
    fun v h hv => notice_cleared h hv, fun lease h hg hl => claim_taken hg h hl, fun h hg hf => claim_released hg h hf,
    fun ha hg hf => claim_expired hg ha hf, ?_⟩
  · rintro n v _ hn rfl hc
    exact mono_committed hn hc
  · rintro _ h rfl
    exact probeDesc_read h

end Sys2Proof.Machine
end

section
/-! CLAIMS. Refutations: a load from the scalar window behind an older response of its user (R64), and a refused write behind work of its
user that waits for a crypto engine (R278). -/
namespace Sys2Proof.Machine

/-- A part after handover, everything else as at reset. -/
def handedOver : State := State.reset.onSpindle fun x => { x with alive := true, handed := true }

/-! ## The core -/

/-- The core stands at LW x1, 0(x1), with the window address of MODE in x1. In user M's response queue a response of 7 stands already. -/
def olderResponse : State :=
  ((handedOver.onMem fun m => { m with code := m.code.putAll 0 [0x83, 0xA0, 0, 0] }).onCore fun c => c.setX 1 0x40406000).onDict fun d =>
    { d with resps := d.resps.set .M [⟨readReq .M 0x1018 0, Sc.ok, [7, 0, 0, 0]⟩] }

/-- The load takes the response at the head of the queue, not the one that the engine has put behind it. -/
theorem olderResponse_loaded : (coreCommand olderResponse .windowLoad).spindle.core.x 1 = 7 := by decide +kernel

/-- What the engine answers is the mode, FACTORY. -/
theorem olderResponse_read :
    scalarWord .c32 (readAccess (fillQueue olderResponse 4) .M 0x1018 0).2.2 = BitVec.ofNat 32 (modeCode .factory) := by decide +kernel

/-- Refutes O34: with an older response in the user's queue, a load from the scalar window gives rd that response's value, not what the engine answers
to the load. The clause asks for room in the response queue, and not that it be empty. -/
theorem not_coreLoadsStores : ¬ Obligations.CoreLoadsStores := by
  intro h
  obtain ⟨_, _, _, _, _, hload, _⟩ := h olderResponse 0xA083 4 2 1 1 0 0 0x40406000 false (by decide +kernel) (by decide +kernel)
  obtain ⟨t, ht, hx, _⟩ := hload .c32 (by decide +kernel) (by decide +kernel) (by decide +kernel) (by decide +kernel) (by decide +kernel) rfl
    (by decide +kernel) (by decide +kernel) rfl (by decide +kernel) (by decide)
  have hl : t = coreCommand olderResponse .windowLoad := (Host.Outcome.next.inj ht).symm
  rw [hl, olderResponse_loaded] at hx
  exact absurd (hx.trans olderResponse_read) (by decide)

/-! ## The engine -/

/-- A chunk of port A waits as a job of the AES engine, whose domain rests. -/
def chunkWaits : State := handedOver.onPage .A fun p => { p with jobs := [.req (octReq .A Ent.AES_IN (zeros 16))] }

/-- A chunk of no bytes, whose code is TYPE, joins the queue behind it: no status is given. -/
theorem chunkWaits_unanswered : (access chunkWaits (writeReq .A 0x3006 0 [])).getU Ent.LAST_STATUS .A = 0 := by decide +kernel

/-- Refutes O48: a write of AES_IN that the length check refuses is not answered at once where an earlier chunk of the user waits for the engine; it
waits as a job behind it (R278). -/
theorem not_engineService : ¬ Obligations.EngineService := by
  intro h
  obtain ⟨hrefused, _⟩ := h chunkWaits .A Sc.type
  have ht : access chunkWaits (writeReq .A 0x3006 0 []) = respond chunkWaits (writeReq .A 0x3006 0 []) Sc.type [] :=
    Host.Outcome.next.inj (hrefused 0x3006 0 [] (by decide +kernel) (by decide +kernel) (by decide +kernel) (by decide +kernel) (by decide))
  have hs : (access chunkWaits (writeReq .A 0x3006 0 [])).getU Ent.LAST_STATUS .A = Sc.type := by
    rw [ht]
    exact respond_lastStatus (.inr (by decide))
  exact absurd (chunkWaits_unanswered.symm.trans hs) (by decide)

end Sys2Proof.Machine
end

section
/-! CLAIMS. The code words of modes and life-cycle states (R76, R79), the state after reset (R47, R96, R384). -/
namespace Sys2Proof.Machine

/-! ## Code words -/

theorem modeVal_lt (m : Mode) : modeVal m < 16 := by cases m <;> decide
theorem lcVal_lt (l : Lc) : lcVal l < 16 := by cases l <;> decide

/-- The word's number is that of one byte, at each of its four places. -/
theorem wideCode_byte : ∀ v, v < 16 → ∀ i, i < 4 → wideCode v / 256 ^ i % 256 = v * 16 + (15 - v) := by decide

theorem wideCode_lt {v : Nat} (hv : v < 16) : wideCode v < 2 ^ 32 := by unfold wideCode; omega

theorem modeVal_inj {m n : Mode} (h : modeVal m = modeVal n) : m = n := by revert h; cases m <;> cases n <;> decide
theorem lcVal_inj {k l : Lc} (h : lcVal k = lcVal l) : k = l := by revert h; cases k <;> cases l <;> decide

theorem wideCode_inj {v w : Nat} (hv : v < 16) (hw : w < 16) (h : wideCode v = wideCode w) : v = w := by unfold wideCode at h; omega

theorem modeCode_inj {m n : Mode} (h : modeCode m = modeCode n) : m = n := modeVal_inj (wideCode_inj (modeVal_lt m) (modeVal_lt n) h)
theorem lcCode_inj {k l : Lc} (h : lcCode k = lcCode l) : k = l := lcVal_inj (wideCode_inj (lcVal_lt k) (lcVal_lt l) h)

theorem modeOf_modeCode (m : Mode) : modeOf (modeCode m) = some m := by cases m <;> decide
theorem lcOf_lcCode (l : Lc) : lcOf (lcCode l) = some l := by cases l <;> decide

theorem modeOf_eq_some {w : Nat} {m : Mode} : modeOf w = some m ↔ w = modeCode m :=
  ⟨fun h => (beq_iff_eq.1 (List.find?_some (p := fun m => modeCode m == w) h)).symm, fun h => h ▸ modeOf_modeCode m⟩

theorem lcOf_eq_some {w : Nat} {l : Lc} : lcOf w = some l ↔ w = lcCode l :=
  ⟨fun h => (beq_iff_eq.1 (List.find?_some (p := fun l => lcCode l == w) h)).symm, fun h => h ▸ lcOf_lcCode l⟩

/-- Settles O1: the distance of two words is checked for the 16 values, the rest follows from the word's byte. -/
theorem codeWords : Obligations.CodeWords :=
  ⟨fun m => ⟨modeVal m, modeVal_lt m, rfl⟩, fun l => ⟨lcVal l, lcVal_lt l, rfl⟩, fun _ hv => ⟨wideCode_lt hv, wideCode_byte _ hv⟩,
    by decide +kernel, fun _ _ => modeOf_eq_some, fun _ _ => lcOf_eq_some, fun _ _ => modeCode_inj, fun _ _ => lcCode_inj⟩

/-! ## The state after reset -/

/-- Settles O6: the entry store of the state after reset lists nothing, so every entry reads its default. -/
theorem resetValues : Obligations.ResetValues :=
  ⟨fun _ _ => ⟨rfl, rfl⟩, rfl, rfl, rfl, rfl, rfl, by decide, by decide⟩

end Sys2Proof.Machine
end

section
/-! CLAIMS. Refutations: TIME_SET in the cycle of a second tick (R187), and a life-cycle code while a change to BLANK stands armed (R96 to R98). -/
namespace Sys2Proof.Machine

/-! ## TIME_SET -/

/-- The time is 5 s, and the second has ended in this cycle of CLK_AON. -/
def justTicked : State := (handedOver.put Ent.RTC_TIME 5).onKeeper fun k => { k with tickAt := some k.aon }

/-- The tick of the cycle is discarded, the set is judged against 4 s: a nudge. -/
theorem justTicked_nudges : (access justTicked (numReq .M Ent.TIME_SET 5)).get Ent.TIME_NUDGES = 1 := by decide +kernel

/-- Refutes O25: a TIME_SET at the time is a nudge, and is counted, where the second has ended in the same cycle of CLK_AON, since that tick is
discarded (R187). -/
theorem not_timeKeeping : ¬ Obligations.TimeKeeping := by
  intro h
  obtain ⟨-, -, -, hsame, -⟩ := h justTicked .M 5
  have ht : access justTicked (numReq .M Ent.TIME_SET 5) = respond justTicked (numReq .M Ent.TIME_SET 5) Sc.ok [] :=
    Host.Outcome.next.inj (hsame (by decide +kernel) (by decide +kernel))
  have hn : (access justTicked (numReq .M Ent.TIME_SET 5)).get Ent.TIME_NUDGES = 0 := by
    rw [ht, (respond_dictKept _ _ _ _).get _ (by decide)]
    decide +kernel
  exact absurd (justTicked_nudges.symm.trans hn) (by decide)

/-! ## LC_REQUEST -/

/-- A MAKER part in which a change to BLANK stands armed: a state that no request leads to, as no row of R97 leads to BLANK. -/
def blankArmed : State :=
  handedOver.onKeeper fun k => { k with lcRows := [lcCode .blank, lcCode .maker, 0, 0, 0], oem0 := true, lcArmed := some (.M, lcRow .blank) }

/-- FIELD's code is the complement of BLANK's, so it confirms what stands armed; VDD_IN is too low for that. -/
theorem blankArmed_refuses : (access blankArmed (numReq .M Ent.LC_REQUEST (lcCode .field))).getU Ent.LAST_STATUS .M = Sc.state := by decide +kernel

/-- Refutes O26: the code of FIELD arms no change where one to BLANK stands armed, whose complement it is. The clause asks nothing of what is armed. -/
theorem not_lifecycleCommands : ¬ Obligations.LifecycleCommands := by
  intro h
  obtain ⟨harm, -⟩ := h blankArmed .M (lcCode .field) .field
  have ht : access blankArmed (numReq .M Ent.LC_REQUEST (lcCode .field)) =
      respond (blankArmed.onKeeper fun k => { k with lcArmed := some (.M, lcRow .field) }) (numReq .M Ent.LC_REQUEST (lcCode .field)) Sc.ok [] :=
    Host.Outcome.next.inj (harm (by decide +kernel) rfl (by decide +kernel) (by decide +kernel) rfl (by decide +kernel))
  have hs : (access blankArmed (numReq .M Ent.LC_REQUEST (lcCode .field))).getU Ent.LAST_STATUS .M = Sc.ok := by
    rw [ht]
    exact numReq_status
  exact absurd (blankArmed_refuses.symm.trans hs) (by decide)

end Sys2Proof.Machine
end

section
/-! SUPPORT. The mode as a word, and what a mode change writes (R83, R84, R90, R94, R140, R150). -/
namespace Sys2Proof.Machine
variable {s t : State} {m k : Mode} {ms : List Mode} {e src : Nat} {u : User}

/-! ### The mode as a word -/

theorem modeIs_iff : modeIs s m = true ↔ s.get Ent.MODE = modeCode m := beq_iff_eq

theorem modeNow_of (h : s.get Ent.MODE = modeCode m) : modeNow s = some m := modeOf_eq_some.2 h

/-- Where the mode is known, every question about it is decided. -/
theorem modeIs_of (h : s.get Ent.MODE = modeCode m) (k : Mode) : modeIs s k = (m == k) := by
  rw [Bool.eq_iff_iff, modeIs_iff, h, beq_iff_eq]
  exact ⟨modeCode_inj, congrArg modeCode⟩

theorem modeIn_of (h : s.get Ent.MODE = modeCode m) (ms : List Mode) : modeIn s ms = ms.any (m == ·) := by
  rw [modeIn, funext (modeIs_of h)]

theorem modeIn_iff : modeIn s ms = true ↔ ∃ m ∈ ms, s.get Ent.MODE = modeCode m := by
  simp only [modeIn, List.any_eq_true, modeIs_iff]

/-- The modes that the base mode can be (R83). -/
abbrev baseModes : List Mode := [.supervise, .fault, .endOfLife]

theorem baseMode_mem (s : State) : baseMode s ∈ baseModes := by
  unfold baseMode
  split_ifs <;> decide

/-- The entries that the base mode is formed of (R83, R95). -/
theorem baseMode_congr (hf : t.get Ent.FAULT_CAUSE = s.get Ent.FAULT_CAUSE) (hc : t.get Ent.COMMISSIONED_AT = s.get Ent.COMMISSIONED_AT)
    (hd : t.get Ent.EOL_DAYS = s.get Ent.EOL_DAYS) (hs : t.get Ent.SERVICE_SECONDS = s.get Ent.SERVICE_SECONDS) : baseMode t = baseMode s := by
  unfold baseMode eolReached
  rw [hf, hc, hd, hs]

/-! ### The record, the notice and the message of a mode change -/

/-- The indices that a record, a notice and a message of the keeper may write. -/
def recordIdx : List Nat := [0x100E, 0x120D, 0x120E, 0x4106, 0x2602]

theorem logKeeper_recorded (s : State) (ty src : Nat) (d : Bytes) : DictKept recordIdx s (logKeeper s ty src d) := by
  have hsum : DictKept recordIdx (noteFull s 2) (countSummary (noteFull s 2) ty (fitBytes 12 d)) := by
    have hs : DictKept recordIdx (noteFull s 2) (stSigned (noteFull s 2) ty) := .ite (put_dictKept _ _ (by decide)) (.refl _)
    refine hs.trans (.ite (.refl _) (put_dictKept _ _ ?_))
    have hr : recClass ty (fitBytes 12 d) < 6 := by unfold recClass; dsimp only; split_ifs <;> omega
    have hi : Ent.LOG_SUMMARY (recClass ty (fitBytes 12 d)) / 256 = 0x4106 := by unfold Ent.LOG_SUMMARY; omega
    rw [hi]
    decide
  refine .ite ?_ ((noteFull_dictKept s 2 (by decide)).trans hsum)
  have hp : Ent.Q_PEAK 2 / 256 ∈ recordIdx := by decide
  have hq : DictKept recordIdx s (s.onLog fun l => { l with queue := l.queue ++ [⟨ty, src, fitBytes 12 d, true⟩] }) := dictKept_of_ent rfl rfl
  exact hq.trans (notePeak_dictKept _ 2 _ hp)

theorem raise_recorded (s : State) (n : Nat) : DictKept recordIdx s (raise s n) := (raise_dictKept s n).mono (by decide)

theorem sendMode_recorded (s : State) : DictKept recordIdx s (sendMode s) := by
  have hq : DictKept recordIdx s (onSbDie s .keeper fun x => { x with txq := x.txq ++ [⟨0xB, .keeper, 3, leBytes 4 (s.get Ent.MODE)⟩] }) :=
    dictKept_of_ent rfl rfl
  exact .ite (hq.trans (.ite (.refl _) (notePeak_dictKept (idx := recordIdx) _ 4 _ (by decide)))) (noteFull_dictKept s 4 (by decide))

/-! ### A mode change -/

/-- A mode change before its record, its last notice and its message. -/
def modeChanged (s : State) (m : Mode) : State := arriveMode (writeMode (leaveMode s (modeNow s)) m) m

theorem enterMode_same (h : s.get Ent.MODE = modeCode m) (src : Nat) : enterMode s m src = s := if_pos h

theorem enterMode_changed (h : s.get Ent.MODE ≠ modeCode m) (src : Nat) :
    enterMode s m src = sendMode (logMode (alarmEndNotice (modeChanged s m) (modeNow s) m) m (modeNow s) src) := if_neg h

theorem enterMode_recorded (h : s.get Ent.MODE ≠ modeCode m) (src : Nat) : DictKept recordIdx (modeChanged s m) (enterMode s m src) := by
  rw [enterMode_changed h]
  have hn : DictKept recordIdx (modeChanged s m) (alarmEndNotice (modeChanged s m) (modeNow s) m) := .ite (raise_recorded _ 1) (.refl _)
  exact (hn.trans (.ite (logKeeper_recorded _ _ _ _) (.refl _))).trans (sendMode_recorded _)

/-- The indices that a change between modes of no further effect may write: LISTEN_ONLY, MODE, BASE_MODE, MODE_SINCE, MODE_CHANGES and those of its
record. -/
def changeIdx : List Nat := [0x5003, 0x1018, 0x101A, 0x101B, 0x101C] ++ recordIdx

theorem raise_changeKept (s : State) (n : Nat) : DictKept changeIdx s (raise s n) := (raise_recorded s n).mono (by decide)

theorem writeMode_changeKept (s : State) (m : Mode) : DictKept changeIdx s (writeMode s m) :=
  ((((put_dictKept s _ (by decide)).trans (put_dictKept _ _ (by decide))).trans (put_dictKept _ _ (by decide))).trans
    (put_dictKept _ _ (by decide))).trans (raise_changeKept _ 3)

/-- A mode that no effect of its own is left by (R84). -/
theorem leaveMode_plain (hm : s.get Ent.MODE = modeCode m) (hl : m ≠ .commission ∧ m ≠ .hush ∧ m ≠ .selftest) : leaveMode s (modeNow s) = s := by
  obtain ⟨hc, hh, hs⟩ := hl
  rw [modeNow_of hm]
  cases m
  case commission => exact absurd rfl hc
  case hush => exact absurd rfl hh
  case selftest => exact absurd rfl hs
  all_goals rfl

/-- The indices that entering a mode writes beside the change itself. -/
def arriveIdx : Mode → List Nat
  | .alarm => [0x2407, 0x2412, 0x2413] ++ recordIdx
  | .echo => 0x2408 :: recordIdx
  | .hush => [0x2409, 0x240B] ++ recordIdx
  | _ => recordIdx

theorem arriveMode_arrived (s : State) (hm : m ≠ .retired) : DictKept (arriveIdx m) s (arriveMode s m) := by
  have hr : ∀ (t : State) (n : Nat) {idx}, recordIdx ⊆ idx → DictKept idx t (raise t n) := fun t n _ hi => (raise_recorded t n).mono hi
  cases m
  case retired => contradiction
  case alarm =>
    have hc : DictKept (arriveIdx .alarm) s (s.onCan fun c => { c with held := false }) := dictKept_of_ent rfl rfl
    exact (((hc.trans (put_dictKept _ _ (by decide))).trans (put_dictKept _ _ (by decide))).trans (put_dictKept _ _ (by decide))).trans
      (hr _ 0 (by decide))
  case echo => exact (put_dictKept s _ (by decide)).trans (hr _ 0 (by decide))
  case hush =>
    have hk : DictKept (arriveIdx .hush) s (s.onKeeper fun k => { k with hushEntry := s.get Ent.BS_ALARM ||| s.get Ent.ALARM_FW }) :=
      dictKept_of_ent rfl rfl
    exact (hk.trans (put_dictKept _ _ (by decide))).trans (put_dictKept _ _ (by decide))
  case fault => exact hr s 2 (by decide)
  all_goals exact .refl s

/-- The base modes are entered without a further effect on entries. -/
theorem arriveMode_base (s : State) (h : m ∈ baseModes) : DictKept changeIdx s (arriveMode s m) :=
  (arriveMode_arrived s (by rintro rfl; exact absurd h (by decide))).mono (by fin_cases h <;> decide)

theorem writeMode_since (s : State) (m : Mode) : (writeMode s m).get Ent.MODE_SINCE = now s := by
  rw [writeMode, (raise_recorded _ 3).get _ (by decide), State.bump_eq, State.get_put_ne _ (by decide), State.get_put_self]

/-- The time of a change (R90). -/
theorem enterMode_since (h : s.get Ent.MODE ≠ modeCode m) (hm : m ≠ .retired) (src : Nat) : (enterMode s m src).get Ent.MODE_SINCE = now s := by
  have hl : now (leaveMode s (modeNow s)) = now s := (leaveMode_kept s (modeNow s)).get _ (by decide)
  rw [(enterMode_recorded h src).get _ (by decide), modeChanged, (arriveMode_arrived _ hm).get _ (by cases m <;> decide), writeMode_since, hl]

/-- Where the time of the last change is the present, it stays so. -/
theorem enterMode_since_of (h : s.get Ent.MODE_SINCE = now s) (hm : m ≠ .retired) (src : Nat) :
    (enterMode s m src).get Ent.MODE_SINCE = now s := by
  by_cases hs : s.get Ent.MODE = modeCode m
  · rw [enterMode_same hs, h]
  · exact enterMode_since hs hm src

/-- A change from a mode without an effect of its own to a base mode. -/
theorem enterMode_base (hm : s.get Ent.MODE = modeCode m) (hl : m ≠ .commission ∧ m ≠ .hush ∧ m ≠ .selftest) (hk : k ∈ baseModes) (src : Nat) :
    DictKept changeIdx s (enterMode s k src) := by
  by_cases hs : s.get Ent.MODE = modeCode k
  · rw [enterMode_same hs]
    exact .refl s
  · have hc : DictKept changeIdx s (modeChanged s k) := by
      rw [modeChanged, leaveMode_plain hm hl]
      exact (writeMode_changeKept s k).trans (arriveMode_base _ hk)
    exact hc.trans ((enterMode_recorded hs src).mono (by decide))

/-! ### What follows an event -/

theorem put_base_get (s : State) (v : Nat) (he : e ≠ Ent.BASE_MODE) : (s.put Ent.BASE_MODE v).get e = s.get e := State.get_put_ne s he v

theorem modeIs_putBase (s : State) (v : Nat) (m : Mode) : modeIs (s.put Ent.BASE_MODE v) m = modeIs s m := by
  rw [modeIs, put_base_get s v (by decide), modeIs]

theorem modeIn_putBase (s : State) (v : Nat) (ms : List Mode) : modeIn (s.put Ent.BASE_MODE v) ms = modeIn s ms := by
  rw [modeIn, funext (modeIs_putBase s v), modeIn]

theorem backstopHolds_putBase (s : State) (v : Nat) : backstopHolds (s.put Ent.BASE_MODE v) = backstopHolds s := by
  rw [backstopHolds, modeIs_putBase, modeIn_putBase, put_base_get s v (by decide), backstopHolds]
  rfl

theorem clearBits_zero (n : Nat) : clearBits 0 n = 0 := by simp [clearBits]

/-- No backstop row of R84 holds without a backstop alarm and its no-hush level in HUSH. -/
theorem backstopHolds_clear (hb : s.get Ent.BS_ALARM = 0) (hn : modeIs s .hush = true → s.keeper.noHush = false) : backstopHolds s = false := by
  rw [backstopHolds, hb, clearBits_zero]
  cases hh : modeIs s .hush
  · rfl
  · rw [hn hh]
    rfl

/-- In ALARM no backstop row holds. -/
theorem backstopHolds_alarm (h : s.get Ent.MODE = modeCode .alarm) : backstopHolds s = false := by
  rw [backstopHolds, modeIs_of h, modeIn_of h]
  simp

/-- Between events in a mode that is no base mode, BASE_MODE alone is formed again. -/
theorem afterEvent_off (hm : modeIn s baseModes = false) (hb : backstopHolds s = false) (src : Nat) :
    afterEvent s src = s.put Ent.BASE_MODE (modeCode (baseMode s)) := by
  rw [afterEvent, settle]
  simp only [modeIn_putBase, hm, Bool.false_eq_true, if_false]
  rw [backstopCheck, backstopHolds_putBase, hb, if_neg Bool.false_ne_true]

/-- A base mode follows the base mode (R83). -/
theorem afterEvent_on (hm : modeIn s baseModes = true) (hb : backstopHolds s = false) (src : Nat) :
    afterEvent s src = enterMode (s.put Ent.BASE_MODE (modeCode (baseMode s))) (baseMode s) src := by
  have hz : s.get Ent.BS_ALARM = 0 := by
    obtain ⟨m, hmem, hm⟩ := modeIn_iff.1 hm
    rw [backstopHolds, modeIn_of hm] at hb
    simp only [Bool.or_eq_false_iff, Bool.and_eq_false_iff] at hb
    have hz := hb.1.resolve_right (by fin_cases hmem <;> decide)
    simpa using hz
  rw [afterEvent, settle]
  simp only [modeIn_putBase, hm, if_true, baseMode_put]
  rw [backstopCheck, if_neg]
  have hmode := enterMode_mode (s.put Ent.BASE_MODE (modeCode (baseMode s))) (baseMode s) src
  have hkept := enterMode_kept (s.put Ent.BASE_MODE (modeCode (baseMode s))) (baseMode s) src (baseMode_ne_retired s)
  rw [backstopHolds_clear ((hkept.get _ (by decide)).trans ((put_base_get s _ (by decide)).trans hz)) fun hh => ?_]
  · exact Bool.false_ne_true
  · rw [modeIs_of hmode] at hh
    have := baseMode_mem s
    simp_all

/-- After an event without a backstop alarm to follow, the mode. -/
theorem afterEvent_mode (hb : backstopHolds s = false) (src : Nat) :
    (afterEvent s src).get Ent.MODE = if modeIn s baseModes then modeCode (baseMode s) else s.get Ent.MODE := by
  split
  next hm => rw [afterEvent_on hm hb, enterMode_mode]
  next hm => rw [afterEvent_off (Bool.eq_false_iff.2 hm) hb, put_base_get s _ (by decide)]

theorem afterEvent_baseMode (s : State) (src : Nat) : (afterEvent s src).get Ent.BASE_MODE = modeCode (baseMode s) :=
  ((afterEvent_kept s src).get _ (by decide)).trans (State.get_put_self _ _ _)

/-- What an event changes stands after it, where no backstop alarm follows it. -/
theorem afterEvent_changeKept (hb : backstopHolds s = false) (src : Nat) : DictKept changeIdx s (afterEvent s src) := by
  have hp : DictKept changeIdx s (s.put Ent.BASE_MODE (modeCode (baseMode s))) := put_dictKept s _ (by decide)
  cases hm : modeIn s baseModes
  · rw [afterEvent_off hm hb]
    exact hp
  · rw [afterEvent_on hm hb]
    obtain ⟨m, hmem, hmode⟩ := modeIn_iff.1 hm
    refine hp.trans (enterMode_base ((put_base_get s _ (by decide)).trans hmode) ?_ (baseMode_mem s) src)
    fin_cases hmem <;> decide

/-- A time of change that is the present stays so after the event. -/
theorem afterEvent_since (h : s.get Ent.MODE_SINCE = now s) (hb : backstopHolds s = false) (src : Nat) :
    (afterEvent s src).get Ent.MODE_SINCE = now s := by
  have hs : (s.put Ent.BASE_MODE (modeCode (baseMode s))).get Ent.MODE_SINCE = now s := (put_base_get s _ (by decide)).trans h
  cases hm : modeIn s baseModes
  · rw [afterEvent_off hm hb, hs]
  · have hn : now (s.put Ent.BASE_MODE (modeCode (baseMode s))) = now s := put_base_get s _ (by decide)
    rw [afterEvent_on hm hb, ← hn]
    exact enterMode_since_of (hs.trans hn.symm) (baseMode_ne_retired s) src

end Sys2Proof.Machine
end

section
/-! CLAIMS. Requests for a mode (R82 to R90, R138, R140, R151). -/
namespace Sys2Proof.Machine
variable {s t : State} {m k : Mode} {g : ModeTarget} {e src n : Nat} {u : User}

/-! ## An accepted request -/

theorem modeRequest_value (u : User) (m : Mode) : leNat (numReq u Ent.MODE_REQUEST (modeCode m)).value = modeCode m := by
  have hz : entrySize Ent.MODE_REQUEST = 4 := by decide +kernel
  exact numReq_value (by rw [hz]; exact wideCode_lt (modeVal_lt m))

/-- Its user is a requester of some row for the target (R84, R85). -/
theorem accepts_mayTarget (h : accepts s (numReq u Ent.MODE_REQUEST (modeCode m)) = true) (hg : targetOf m = some g) : mayTarget u g = true := by
  obtain ⟨-, -, -, -, r, -, hs, -⟩ := accepts_parts h
  have hd : valueDenied u Ent.MODE_REQUEST (modeCode m) = false := by
    by_contra hx
    rw [numReq_entAt, writeStatus, modeRequest_value, numReq_user, Bool.eq_true_of_not_eq_false hx, Bool.or_true, if_pos rfl] at hs
    exact absurd hs (by decide)
  simpa [valueDenied, modeOf_modeCode, hg] using hd

theorem modeRequest_judged (hu : mayTarget u g = true) (hg : targetOf m = some g) (hm : modeIs s m = false) :
    modeRequest s u (modeCode m) = (takeRequest s u g, if (requestTo s u g).isSome then Sc.ok else Sc.state) := by
  rw [modeRequest, modeOf_modeCode]
  dsimp only
  rw [hg]
  dsimp only
  rw [modeRequestTo, hu, hm, Bool.not_true, if_neg Bool.false_ne_true, if_neg Bool.false_ne_true]
  cases (requestTo s u g).isSome
  · rw [if_neg Bool.false_ne_true, if_neg Bool.false_ne_true]
  · rw [if_pos rfl, if_pos rfl]

theorem access_modeRequest (h : accepts s (numReq u Ent.MODE_REQUEST (modeCode m)) = true) (hg : targetOf m = some g) (hm : modeIs s m = false) :
    access s (numReq u Ent.MODE_REQUEST (modeCode m)) =
      respond (takeRequest s u g) (numReq u Ent.MODE_REQUEST (modeCode m)) (if (requestTo s u g).isSome then Sc.ok else Sc.state) [] := by
  have ha : (findRow Ent.MODE_REQUEST).map (·.action) = some true := by decide +kernel
  have hn : isMono Ent.MODE_REQUEST = false := by decide
  have hr := modeRequest_judged (accepts_mayTarget h hg) hg hm
  refine access_done rfl h ?_ (engineOf_numReq (by decide))
  rw [writeAccess_action h ha (by decide), action_MODE_REQUEST, modeRequest_value, hr, hn, Bool.false_and, if_neg Bool.false_ne_true]

/-- An accepted request that a row of R84 allows, from another mode, is answered OK with the effect of the row. -/
theorem answers_modeRequest {c : Instr} {p : State → Prop} (h : accepts s (numReq u Ent.MODE_REQUEST (modeCode m)) = true)
    (hx : exec c s = .next (access s (numReq u Ent.MODE_REQUEST (modeCode m)))) (hg : targetOf m = some g) (hm : modeIs s m = false)
    (hr : requestTo s u g = some k)
    (hp : ∀ t, DictKept responseIdx (takeRequest s u g) t → t.keeper = (takeRequest s u g).keeper → t.getU Ent.LAST_STATUS u = Sc.ok → p t) :
    Answers c s p := by
  refine answers_responded hx (access_modeRequest h hg hm) (hp _ (respond_dictKept _ _ _ _) (respond_keeper _ _ _ _) ?_)
  rw [numReq_status, hr]
  rfl

theorem takeRequest_enters (h : requestTo s u g = some m) (hg : g ≠ .selftest) :
    takeRequest s u g = afterEvent (enterMode s m (userId u)) (userId u) := by
  rw [takeRequest, h]
  dsimp only
  rw [if_neg hg]

/-! ## The mode that a request leads to -/

/-- No backstop alarm follows a mode change that is made while none is present. -/
theorem enterMode_clear (hb : s.get Ent.BS_ALARM = 0) (hm : m ≠ .retired) (hn : m = .hush → s.keeper.noHush = false) (src : Nat) :
    backstopHolds (enterMode s m src) = false := by
  have hk := enterMode_kept s m src hm
  refine backstopHolds_clear ((hk.get _ (by decide)).trans hb) fun hh => ?_
  rw [modeIs_of (enterMode_mode s m src), beq_iff_eq] at hh
  rw [hk.keeper]
  exact hn hh

theorem entered_mode (hb : s.get Ent.BS_ALARM = 0) (hm : m ≠ .retired) (hn : m = .hush → s.keeper.noHush = false) (hk : m ∉ baseModes) (src : Nat) :
    (afterEvent (enterMode s m src) src).get Ent.MODE = modeCode m := by
  have hoff : modeIn (enterMode s m src) baseModes = false := by
    rw [Bool.eq_false_iff]
    intro h
    rw [modeIn_of (enterMode_mode s m src), List.any_eq_true] at h
    obtain ⟨k, hmem, hk'⟩ := h
    exact hk (beq_iff_eq.1 hk' ▸ hmem)
  rw [afterEvent_mode (enterMode_clear hb hm hn src), hoff, if_neg Bool.false_ne_true, enterMode_mode]

theorem entered_since (hb : s.get Ent.BS_ALARM = 0) (hm : m ≠ .retired) (hn : m = .hush → s.keeper.noHush = false)
    (hs : s.get Ent.MODE ≠ modeCode m) (src : Nat) : (afterEvent (enterMode s m src) src).get Ent.MODE_SINCE = now s := by
  have hnow : now (enterMode s m src) = now s := (enterMode_kept s m src hm).get _ (by decide)
  rw [afterEvent_since ((enterMode_since hs hm src).trans hnow.symm) (enterMode_clear hb hm hn src), hnow]

/-- A change to the base mode leads to the base mode then (R83). -/
theorem entered_base (hb : s.get Ent.BS_ALARM = 0) (hk : m ∈ baseModes) (src : Nat) :
    (afterEvent (enterMode s m src) src).get Ent.MODE = modeCode (baseMode (enterMode s m src)) := by
  have hon : modeIn (enterMode s m src) baseModes = true := modeIn_iff.2 ⟨m, hk, enterMode_mode s m src⟩
  have hm : m ≠ .retired ∧ m ≠ .hush := by fin_cases hk <;> decide
  rw [afterEvent_mode (enterMode_clear hb hm.1 (fun h => absurd h hm.2) src), hon, if_pos rfl]

/-! ## Where a row of R84 leads from -/

theorem modeIn_excludes {ms : List Mode} (h : modeIn s ms = true) (hm : m ∉ ms) : modeIs s m = false := by
  obtain ⟨k, hk, hmode⟩ := modeIn_iff.1 h
  rw [modeIs_of hmode, beq_eq_false_iff_ne]
  rintro rfl
  exact hm hk

theorem modeIs_excludes (h : modeIs s k = true) (hm : k ≠ m) : modeIs s m = false := by rw [modeIs_of (modeIs_iff.1 h), beq_eq_false_iff_ne]; exact hm

/-- No row but that of SUPERVISE is for the mode that it names (R84). -/
theorem requestTo_differs (h : requestTo s u g = some m) (hg : g ≠ .supervise) : modeIs s m = false := by
  cases g <;> simp only [requestTo, Option.ite_none_right_eq_some, Option.some.injEq, Bool.and_eq_true, Bool.or_eq_true] at h
  case supervise => contradiction
  case factory =>
    obtain ⟨hc | ⟨hi, -⟩, rfl⟩ := h
    · exact modeIs_excludes hc (by decide)
    · exact modeIn_excludes hi (by decide)
  case calibrate =>
    obtain ⟨⟨hf, -⟩, rfl⟩ := h
    exact modeIs_excludes hf (by decide)
  case verify =>
    obtain ⟨hi, rfl⟩ := h
    exact modeIn_excludes hi (by decide)
  case selftest =>
    obtain ⟨hi, rfl⟩ := h
    exact modeIn_excludes hi (by decide)
  all_goals
    obtain ⟨⟨hi, -⟩, rfl⟩ := h
    exact modeIn_excludes hi (by decide)

theorem afterAlarm_mem (s : State) : afterAlarm s ∈ [.alarm, .echo] ++ baseModes := by
  unfold afterAlarm
  split_ifs
  · decide
  · decide
  · exact List.mem_append_right _ (baseMode_mem s)

/-- The row of SUPERVISE (R84): from HUSH it leads where the alarms do, from the other modes to the base mode. -/
theorem requestTo_supervise (h : requestTo s u .supervise = some k) :
    (modeIs s .hush = true ∧ k = afterAlarm s) ∨ (modeIn s [.factory, .commission, .verify] = true ∧ k = baseMode s) := by
  simp only [requestTo] at h
  split at h
  next hf =>
    rw [Bool.and_eq_true] at hf
    exact .inr ⟨modeIn_iff.2 ⟨.factory, by decide, modeIs_iff.1 hf.1⟩, (Option.some.inj h).symm⟩
  next =>
    split at h
    next hc =>
      rw [Bool.or_eq_true, Bool.and_eq_true] at hc
      rcases hc with hc | ⟨hv, -⟩
      · exact .inr ⟨modeIn_iff.2 ⟨.commission, by decide, modeIs_iff.1 hc⟩, (Option.some.inj h).symm⟩
      · exact .inr ⟨modeIn_iff.2 ⟨.verify, by decide, modeIs_iff.1 hv⟩, (Option.some.inj h).symm⟩
    next =>
      rw [Option.ite_none_right_eq_some] at h
      exact .inl ⟨h.1, (Option.some.inj h.2).symm⟩

/-! ## The end of ALARM and HUSH -/

/-- Only the end of COMMISSION writes what the base mode is formed of (R83, R94). -/
theorem enterMode_baseMode (hm : s.get Ent.MODE = modeCode m) (hl : m ≠ .commission ∧ m ≠ .selftest) (hk : k ≠ .retired) (src : Nat) :
    baseMode (enterMode s k src) = baseMode s := by
  by_cases hs : s.get Ent.MODE = modeCode k
  · rw [enterMode_same hs]
  have hleave : DictKept ([0x240B] ++ changeIdx) s (leaveMode s (modeNow s)) := by
    by_cases hh : m = .hush
    · subst hh
      rw [modeNow_of hm]
      exact (put_dictKept s 0 (by decide)).trans ((raise_changeKept _ 10).mono (by decide))
    · rw [leaveMode_plain hm ⟨hl.1, hh, hl.2⟩]
      exact .refl s
  have hw : DictKept ([0x240B] ++ changeIdx) s (writeMode (leaveMode s (modeNow s)) k) :=
    hleave.trans ((writeMode_changeKept _ k).mono (by decide))
  have hget : ∀ e, e / 256 ∉ [0x240B] ++ changeIdx → e / 256 ∉ arriveIdx k → (enterMode s k src).get e = s.get e := fun e he ha =>
    ((enterMode_recorded hs src).get e fun hx => he (List.mem_append_right _ (List.mem_append_right _ hx))).trans
      (((arriveMode_arrived _ hk).get e ha).trans (hw.get e he))
  exact baseMode_congr (hget _ (by decide) (by cases k <;> decide)) (hget _ (by decide) (by cases k <;> decide))
    (hget _ (by decide) (by cases k <;> decide)) (hget _ (by decide) (by cases k <;> decide))

theorem afterAlarm_ne (s : State) : afterAlarm s ≠ .retired ∧ afterAlarm s ≠ .hush := by
  have hmem := afterAlarm_mem s
  constructor <;> (intro hx; rw [hx] at hmem; exact absurd hmem (by decide))

/-- ALARM and HUSH end where the alarms lead (R84). -/
theorem alarms_lead (hm : s.get Ent.MODE = modeCode m) (hl : m ≠ .commission ∧ m ≠ .selftest) (hb : s.get Ent.BS_ALARM = 0) (src : Nat) :
    (afterEvent (enterMode s (afterAlarm s) src) src).get Ent.MODE = modeCode (afterAlarm s) := by
  by_cases hk : afterAlarm s ∈ baseModes
  · have hbase : afterAlarm s = baseMode s := by
      unfold afterAlarm at hk ⊢
      split_ifs at hk ⊢
      · exact absurd hk (by decide)
      · exact absurd hk (by decide)
      · rfl
    rw [entered_base hb hk, hbase, enterMode_baseMode hm hl (baseMode_ne_retired s)]
  · obtain ⟨hr, hh⟩ := afterAlarm_ne s
    exact entered_mode hb hr (fun h => absurd h hh) hk src

/-! ## Each request -/

/-- A request for a mode that is no base mode, by a row of R84. -/
theorem request_enters {c : Instr} {p : State → Prop} (hx : exec c s = .next (access s (numReq u Ent.MODE_REQUEST (modeCode m))))
    (hb : s.get Ent.BS_ALARM = 0) (hg : targetOf m = some g) (hs : g ≠ .supervise ∧ g ≠ .selftest) (hm : m ∉ .retired :: baseModes)
    (hn : m = .hush → s.keeper.noHush = false) (h : accepts s (numReq u Ent.MODE_REQUEST (modeCode m)) = true) (hr : requestTo s u g = some m)
    (hp : ∀ t, DictKept responseIdx (afterEvent (enterMode s m (userId u)) (userId u)) t → t.get Ent.MODE = modeCode m →
      t.getU Ent.LAST_STATUS u = Sc.ok → t.get Ent.MODE_SINCE = now s → p t) : Answers c s p := by
  rw [List.mem_cons, not_or] at hm
  have hd := requestTo_differs hr hs.1
  refine answers_modeRequest h hx hg hd hr fun t hk _ hst => ?_
  rw [takeRequest_enters hr hs.2] at hk
  have hs' : s.get Ent.MODE ≠ modeCode m := fun hh => absurd (modeIs_iff.2 hh) (Bool.eq_false_iff.1 hd)
  exact hp t hk ((hk.get _ (by decide)).trans (entered_mode hb hm.1 hn hm.2 _)) hst
    ((hk.get _ (by decide)).trans (entered_since hb hm.1 hn hs' _))

theorem request_supervises (hb : s.get Ent.BS_ALARM = 0) (h : accepts s (numReq u Ent.MODE_REQUEST (modeCode .supervise)) = true)
    (hm : modeIs s .supervise = false) (hr : requestTo s u .supervise = some k) : Answers (.modeRequestSupervise u) s fun t =>
      t.getU Ent.LAST_STATUS u = Sc.ok ∧ t.get Ent.MODE_SINCE = now s ∧
      (if modeIs s .hush then t.get Ent.MODE = modeCode (afterAlarm s) else t.get Ent.MODE = t.get Ent.BASE_MODE) := by
  refine answers_modeRequest h rfl rfl hm hr fun t hk _ hst => ?_
  rw [takeRequest_enters hr (by decide)] at hk
  have hmode : t.get Ent.MODE = _ := hk.get _ (by decide)
  have hsince : t.get Ent.MODE_SINCE = _ := hk.get _ (by decide)
  rw [hmode, hsince]
  rcases requestTo_supervise hr with ⟨hh, rfl⟩ | ⟨hi, rfl⟩
  · have hne := afterAlarm_ne s
    refine ⟨hst, entered_since hb hne.1 (fun h => absurd h hne.2) ?_ _, ?_⟩
    · rw [modeIs_iff.1 hh]
      exact fun hx => hne.2 (modeCode_inj hx).symm
    · rw [if_pos hh, alarms_lead (modeIs_iff.1 hh) (by decide) hb]
  · have hne : baseMode s ≠ .hush := fun hx => absurd (hx ▸ baseMode_mem s) (by decide)
    refine ⟨hst, entered_since hb (baseMode_ne_retired s) (fun h => absurd h hne) ?_ _, ?_⟩
    · intro hx
      obtain ⟨m, hmem, hm'⟩ := modeIn_iff.1 hi
      have hmm := baseMode_mem s
      rw [← modeCode_inj (hm'.symm.trans hx)] at hmm
      fin_cases hmem <;> exact absurd hmm (by decide)
    · rw [if_neg (Bool.eq_false_iff.1 (modeIn_excludes hi (by decide))), entered_base hb (baseMode_mem s), hk.get _ (by decide), afterEvent_baseMode]

/-! ## ALARM and HUSH are counted as they are entered (R140, R150) -/

/-- ALARM is counted as it is entered from a mode that has no effect of its own at its end. -/
theorem alarm_counted (hm : s.get Ent.MODE = modeCode m) (hl : m ≠ .commission ∧ m ≠ .hush ∧ m ≠ .selftest) (ha : m ≠ .alarm) (src : Nat) :
    Counted s (enterMode s .alarm src) Ent.ALARM_COUNT := by
  have hs : s.get Ent.MODE ≠ modeCode .alarm := fun hx => ha (modeCode_inj (hm.symm.trans hx))
  rw [Counted, (enterMode_recorded hs src).get _ (by decide), modeChanged, leaveMode_plain hm hl, arriveMode, (raise_recorded _ 0).get _ (by decide),
    State.bump_get_self, State.get_put_ne _ (by decide), State.get_put_ne _ (by decide)]
  exact congrArg (fun n => min (n + 1) _) ((writeMode_changeKept s .alarm).get Ent.ALARM_COUNT (by decide))

/-- HUSH is counted, and its time set. -/
theorem hush_counted (hm : s.get Ent.MODE = modeCode m) (hl : m ≠ .commission ∧ m ≠ .hush ∧ m ≠ .selftest) (src : Nat) :
    (enterMode s .hush src).get Ent.HUSH_LEFT = 600 ∧ Counted s (enterMode s .hush src) Ent.HUSH_COUNT := by
  have hs : s.get Ent.MODE ≠ modeCode .hush := fun hx => hl.2.1 (modeCode_inj (hm.symm.trans hx))
  have hr := enterMode_recorded hs src
  rw [Counted, hr.get _ (by decide), hr.get _ (by decide), modeChanged, leaveMode_plain hm hl, arriveMode, State.get_put_self,
    State.get_put_ne _ (by decide), State.bump_get_self]
  exact ⟨rfl, congrArg (fun n => min (n + 1) _) ((writeMode_changeKept s .hush).get Ent.HUSH_COUNT (by decide))⟩

theorem request_alarms (hb : s.get Ent.BS_ALARM = 0) (h : accepts s (numReq u Ent.MODE_REQUEST (modeCode .alarm)) = true)
    (hr : requestTo s u .alarm = some .alarm) : Answers (.modeRequestAlarm u) s fun t =>
      t.get Ent.MODE = modeCode .alarm ∧ t.getU Ent.LAST_STATUS u = Sc.ok ∧ t.get Ent.MODE_SINCE = now s ∧ Counted s t Ent.ALARM_COUNT := by
  refine request_enters rfl hb rfl (by decide) (by decide) nofun h hr fun t hk hm hst hs => ⟨hm, hst, hs, ?_⟩
  simp only [requestTo, Option.ite_none_right_eq_some, Bool.and_eq_true] at hr
  obtain ⟨k, hmem, hk'⟩ := modeIn_iff.1 hr.1.1
  rw [Counted, hk.get _ (by decide), (afterEvent_changeKept (enterMode_clear (m := .alarm) hb (by decide) nofun _) _).get _ (by decide)]
  fin_cases hmem
  · exact alarm_counted hk' (by decide) (by decide) _
  · exact alarm_counted hk' (by decide) (by decide) _

theorem noHush_of_allowed (h : hushRefused s = false) : s.keeper.noHush = false := by
  rw [hushRefused, Bool.or_eq_false_iff] at h
  exact h.1

theorem request_hushes (hb : s.get Ent.BS_ALARM = 0) (h : accepts s (numReq u Ent.MODE_REQUEST (modeCode .hush)) = true)
    (hr : requestTo s u .hush = some .hush) : Answers (.modeRequestHush u) s fun t =>
      t.get Ent.MODE = modeCode .hush ∧ t.getU Ent.LAST_STATUS u = Sc.ok ∧ t.get Ent.HUSH_LEFT = 600 ∧ Counted s t Ent.HUSH_COUNT := by
  have hr' := hr
  simp only [requestTo, Option.ite_none_right_eq_some, Bool.and_eq_true, Bool.not_eq_true'] at hr'
  have hn := noHush_of_allowed hr'.1.2
  obtain ⟨k, hmem, hk'⟩ := modeIn_iff.1 hr'.1.1
  refine request_enters rfl hb rfl (by decide) (by decide) (fun _ => hn) h hr fun t hk hm hst _ => ⟨hm, hst, ?_⟩
  have hkept := afterEvent_changeKept (enterMode_clear (m := .hush) (src := userId u) hb (by decide) (fun _ => hn)) (userId u)
  rw [Counted, hk.get _ (by decide), hk.get _ (by decide), hkept.get _ (by decide), hkept.get _ (by decide)]
  fin_cases hmem
  · exact hush_counted hk' (by decide) _
  · exact hush_counted hk' (by decide) _

/-- A refused hush is counted and answers STATE (R140). -/
theorem request_hushRefused (h : accepts s (numReq u Ent.MODE_REQUEST (modeCode .hush)) = true) (hm : modeIn s [.alarm, .echo] = true)
    (hr : hushRefused s = true) :
    Serves (.modeRequestHush u) s (numReq u Ent.MODE_REQUEST (modeCode .hush)) (s.bump Ent.HUSH_REFUSED) Sc.state := by
  have hnone : requestTo s u .hush = none := by simp [requestTo, hr]
  have hx := access_modeRequest h rfl (modeIn_excludes hm (by decide))
  rw [takeRequest, hnone] at hx
  dsimp only at hx
  rw [if_pos ⟨rfl, hm⟩, Option.isSome_none, if_neg Bool.false_ne_true] at hx
  exact congrArg _ hx

/-! ## SELFTEST (R151 to R153) -/

/-- The indices that a test's start may write. -/
def stStartIdx : List Nat := [0x2602, 0x2606] ++ demandIdx

theorem stStart_dictKept (s : State) (trigger src : Nat) : DictKept stStartIdx s (stStart s trigger src) := by
  have ht : ∀ (t : State) (f : SelfTest → SelfTest), DictKept stStartIdx t (t.onSelfTest f) := fun _ _ => dictKept_of_ent rfl rfl
  exact ((((ht s _).trans (put_dictKept _ _ (by decide))).trans (ht _ _)).trans (put_dictKept _ _ (by decide))).trans
    ((sbQueue_dictKept _ _ _ _ _).mono (by decide))

theorem stStart_keeper (s : State) (trigger src : Nat) : (stStart s trigger src).keeper =
    { s.keeper with st := { trigger := trigger, source := src, waiting := s.keeper.st.waiting && trigger != 0, step := 1 } } := by
  rw [stStart, stBegin]
  exact sbQueue_keeper _ _ _ _ _

theorem stStart_counted (s : State) (trigger src : Nat) : Counted s (stStart s trigger src) Ent.ST_RUNS := by
  rw [Counted, stStart, stBegin]
  rw [if_neg (by decide), (sbQueue_dictKept _ _ _ _ _).get _ (by decide), State.get_put_ne _ (by decide)]
  exact State.bump_get_self _ _

/-- A test has begun: the mode is SELFTEST, step 1 runs. -/
theorem enterSelftest_begins (s : State) (trigger src : Nat) :
    (enterSelftest s trigger src).get Ent.MODE = modeCode .selftest ∧ (enterSelftest s trigger src).keeper.st.step = 1 ∧
      (enterSelftest s trigger src).keeper.st.trigger = trigger ∧ Counted s (enterSelftest s trigger src) Ent.ST_RUNS := by
  have hk := stStart_keeper (enterMode s .selftest src) trigger src
  refine ⟨((stStart_dictKept _ _ _).get _ (by decide)).trans (enterMode_mode _ _ _), ?_, ?_, ?_⟩
  · rw [enterSelftest, hk]
  · rw [enterSelftest, hk]
  · rw [Counted, enterSelftest, stStart_counted, (enterMode_kept s .selftest src (by decide)).get _ (by decide)]

/-- What follows an event changes no test that has begun, while no backstop alarm is present. -/
theorem selftest_stands (hb : s.get Ent.BS_ALARM = 0) (trigger src : Nat) :
    afterEvent (enterSelftest s trigger src) src =
      (enterSelftest s trigger src).put Ent.BASE_MODE (modeCode (baseMode (enterSelftest s trigger src))) := by
  obtain ⟨hm, -⟩ := enterSelftest_begins s trigger src
  refine afterEvent_off (by rw [modeIn_of hm]; decide) (backstopHolds_clear ?_ fun hh => ?_) src
  · exact ((stStart_dictKept _ _ _).get _ (by decide)).trans (((enterMode_kept s .selftest src (by decide)).get _ (by decide)).trans hb)
  · rw [modeIs_of hm] at hh
    exact absurd hh (by decide)

theorem request_tests (hb : s.get Ent.BS_ALARM = 0) (h : accepts s (numReq u Ent.MODE_REQUEST (modeCode .selftest)) = true)
    (hr : requestTo s u .selftest = some .selftest) : Answers (.modeRequestSelftest u) s fun t =>
      t.get Ent.MODE = modeCode .selftest ∧ t.getU Ent.LAST_STATUS u = Sc.ok ∧ t.keeper.st.step = 1 ∧ t.keeper.st.trigger = 2 ∧
        Counted s t Ent.ST_RUNS := by
  have ht : takeRequest s u .selftest = afterEvent (enterSelftest s 2 (userId u)) (userId u) := by
    rw [takeRequest, hr]
    dsimp only
    rw [if_pos rfl]
  refine answers_modeRequest h rfl rfl (requestTo_differs hr (by decide)) hr fun t hk hkeeper hst => ?_
  obtain ⟨hm, hstep, htrig, hruns⟩ := enterSelftest_begins s 2 (userId u)
  rw [ht, selftest_stands hb] at hk hkeeper
  rw [hkeeper, State.put_keeper, Counted, hk.get _ (by decide), hk.get _ (by decide)]
  exact ⟨(put_base_get _ _ (by decide)).trans hm, hst, hstep, htrig, (put_base_get _ _ (by decide)).trans hruns⟩

/-- Settles O22, request by request. -/
theorem modeRequests : Obligations.ModeRequests := fun _ _ hb =>
  ⟨fun h hr => request_enters rfl hb rfl (by decide) (by decide) nofun h hr fun _ _ hm hst hs => ⟨hm, hst, hs⟩,
    fun h hr => request_enters rfl hb rfl (by decide) (by decide) nofun h hr fun _ _ hm hst hs => ⟨hm, hst, hs⟩,
    fun _ h hm hr => request_supervises hb h hm hr,
    fun h hr => request_enters rfl hb rfl (by decide) (by decide) nofun h hr fun _ _ hm hst hs => ⟨hm, hst, hs⟩,
    fun h hr => request_enters rfl hb rfl (by decide) (by decide) nofun h hr fun _ _ hm hst hs => ⟨hm, hst, hs⟩,
    request_alarms hb, request_hushes hb, request_hushRefused, request_tests hb⟩

end Sys2Proof.Machine
end

section
/-! CLAIMS. The button, the time limits, end of life, scheduled tests (R82 to R87, R94, R95, R140, R141, R151). -/
namespace Sys2Proof.Machine
variable {s t : State} {m k : Mode} {e src v : Nat} {u : User}

/-! ## HUSH by the button -/

theorem clearBits_or (a b : Nat) : clearBits a (a ||| b) = 0 := by
  have h : a &&& (a ||| b) = a := Nat.eq_of_testBit_eq fun i => by simp only [Nat.testBit_and, Nat.testBit_or]; cases a.testBit i <;> simp
  rw [clearBits, h, Nat.sub_self]

theorem logMode_keeper (s : State) (m : Mode) (old : Option Mode) (src : Nat) : (logMode s m old src).keeper = s.keeper := by
  unfold logMode
  split
  · exact logKeeper_keeper _ _ _ _
  · rfl

/-- The kinds present as HUSH is entered are those that it hushes (R140). -/
theorem enterMode_hushEntry (hs : s.get Ent.MODE ≠ modeCode .hush) (src : Nat) :
    (enterMode s .hush src).keeper.hushEntry = s.get Ent.BS_ALARM ||| s.get Ent.ALARM_FW := by
  have hk : ModeKept s (writeMode (leaveMode s (modeNow s)) .hush) := (leaveMode_kept _ _).trans (writeMode_kept _ _)
  have hn : (alarmEndNotice (modeChanged s .hush) (modeNow s) .hush).keeper.hushEntry = (modeChanged s .hush).keeper.hushEntry := by
    unfold alarmEndNotice
    split
    · rw [raise_keeper']
    · rfl
  rw [enterMode_changed hs, sendMode_keeper, logMode_keeper, hn, ← hk.get Ent.BS_ALARM (by decide), ← hk.get Ent.ALARM_FW (by decide)]
  rfl

/-- HUSH stands after its entry where the no-hush level does not (R84). -/
theorem hush_stands (hs : s.get Ent.MODE ≠ modeCode .hush) (hn : s.keeper.noHush = false) (src : Nat) :
    backstopHolds (enterMode s .hush src) = false := by
  have hk := enterMode_kept s .hush src (by decide)
  have hm := enterMode_mode s .hush src
  have hno : (enterMode s .hush src).keeper.noHush = false := by rw [hk.keeper]; exact hn
  rw [backstopHolds, modeIn_of hm, modeIs_of hm, hno, enterMode_hushEntry hs, hk.get _ (by decide), clearBits_or]
  simp

theorem button_hushes (hm : modeIn s [.alarm, .echo] = true) (hr : hushRefused s = false) :
    (buttonPress s).get Ent.MODE = modeCode .hush ∧ (buttonPress s).get Ent.HUSH_LEFT = 600 ∧ Counted s (buttonPress s) Ent.HUSH_COUNT := by
  have hx : buttonPress s = afterEvent (enterMode s .hush 0x43) 0x43 := by
    rw [buttonPress, if_pos hm, hr, if_neg Bool.false_ne_true]
  obtain ⟨k, hmem, hk⟩ := modeIn_iff.1 hm
  have hl : k ≠ .commission ∧ k ≠ .hush ∧ k ≠ .selftest := by fin_cases hmem <;> decide
  have hs : s.get Ent.MODE ≠ modeCode .hush := fun h => hl.2.1 (modeCode_inj (hk.symm.trans h))
  have hb := hush_stands hs (noHush_of_allowed hr) 0x43
  have hkept := afterEvent_changeKept hb 0x43
  rw [hx, Counted, afterEvent_mode hb, modeIn_of (enterMode_mode _ _ _), enterMode_mode, hkept.get Ent.HUSH_LEFT (by decide),
    hkept.get Ent.HUSH_COUNT (by decide)]
  exact ⟨if_neg (by decide), hush_counted hk hl _⟩

theorem button_refused (hm : modeIn s [.alarm, .echo] = true) (hr : hushRefused s = true) :
    (buttonPress s).get Ent.MODE = s.get Ent.MODE ∧ Counted s (buttonPress s) Ent.HUSH_REFUSED ∧ (buttonPress s).flyer.horn.refused = some 0 := by
  rw [buttonPress, if_pos hm, if_pos hr]
  exact ⟨State.get_put_ne _ (by decide) _, State.bump_get_self _ _, rfl⟩

theorem button_tests (hm : modeIn s baseModes = true) (hb : s.get Ent.BS_ALARM = 0) :
    (buttonPress s).get Ent.MODE = modeCode .selftest ∧ (buttonPress s).keeper.st.step = 1 ∧ (buttonPress s).keeper.st.trigger = 1 := by
  have hn : modeIn s [.alarm, .echo] = false := by
    obtain ⟨k, hmem, hk⟩ := modeIn_iff.1 hm
    rw [modeIn_of hk]
    fin_cases hmem <;> decide
  obtain ⟨hmode, hstep, htrig, -⟩ := enterSelftest_begins s 1 0x43
  have hx : buttonPress s = afterEvent (enterSelftest s 1 0x43) 0x43 := by
    rw [buttonPress, hn, if_neg Bool.false_ne_true]
    exact if_pos hm
  rw [hx, selftest_stands hb, State.put_keeper]
  exact ⟨(put_base_get _ _ (by decide)).trans hmode, hstep, htrig⟩

theorem button_commissions (hm : modeIn s [.supervise, .fault] = true) (hl : lcNow s = .owned ∨ lcNow s = .field) (hb : s.get Ent.BS_ALARM = 0) :
    (buttonHold s).get Ent.MODE = modeCode .commission := by
  have hc : (modeIn s [.supervise, .fault] && (lcNow s == .owned || lcNow s == .field)) = true := by
    rw [hm]
    rcases hl with h | h <;> rw [h] <;> rfl
  rw [buttonHold, if_pos hc]
  exact entered_mode (m := .commission) hb (by decide) nofun (by decide) _

/-! ## The time limits -/

theorem verify_ends (hm : modeIs s .verify = true) (hb : s.get Ent.BS_ALARM = 0) : (verifyEnds s).get Ent.MODE = modeCode (baseMode s) := by
  rw [verifyEnds, if_pos hm, entered_base hb (baseMode_mem s), enterMode_baseMode (modeIs_iff.1 hm) (by decide) (baseMode_ne_retired s)]

/-- The first end of COMMISSION (R94). -/
theorem commission_first (hm : modeIs s .commission = true) (hl : lcNow s = .owned ∨ lcNow s = .field) (hc : s.get Ent.COMMISSIONED_AT = 0)
    (hk : k ∈ baseModes) (src : Nat) :
    (enterMode s k src).get Ent.COMMISSIONED_AT = now s ∧ (enterMode s k src).get Ent.SERVICE_SECONDS = 0 := by
  have hmode := modeIs_iff.1 hm
  have hs : s.get Ent.MODE ≠ modeCode k := fun h => by rw [← modeCode_inj (hmode.symm.trans h)] at hk; exact absurd hk (by decide)
  have hleave : leaveMode s (modeNow s) = (s.put Ent.COMMISSIONED_AT (now s)).put Ent.SERVICE_SECONDS 0 := by
    rw [modeNow_of hmode]
    refine if_pos ?_
    rw [hc]
    rcases hl with h | h <;> rw [h] <;> rfl
  have hkept : DictKept changeIdx (leaveMode s (modeNow s)) (enterMode s k src) :=
    ((writeMode_changeKept _ k).trans (arriveMode_base _ hk)).trans ((enterMode_recorded hs src).mono (by decide))
  rw [hkept.get _ (by decide), hkept.get _ (by decide), hleave, State.get_put_self, State.get_put_ne _ (by decide), State.get_put_self]
  exact ⟨rfl, rfl⟩

theorem commission_ends (hm : modeIs s .commission = true) (hb : s.get Ent.BS_ALARM = 0) :
    (commissionEnds s).get Ent.MODE = (commissionEnds s).get Ent.BASE_MODE ∧
      (lcNow s = .owned ∨ lcNow s = .field → s.get Ent.COMMISSIONED_AT = 0 →
        (commissionEnds s).get Ent.COMMISSIONED_AT = now s ∧ (commissionEnds s).get Ent.SERVICE_SECONDS = 0) := by
  have hk := baseMode_mem s
  have hne : baseMode s ≠ .hush := fun h => absurd (h ▸ hk) (by decide)
  have hkept := afterEvent_changeKept (enterMode_clear (src := 0x43) hb (baseMode_ne_retired s) (fun h => absurd h hne)) 0x43
  rw [commissionEnds, if_pos hm, entered_base hb hk, afterEvent_baseMode, hkept.get _ (by decide), hkept.get _ (by decide)]
  exact ⟨rfl, fun hl hc => commission_first hm hl hc hk _⟩

theorem arriveIdx_hushLeft (hk : k ≠ .hush) : Ent.HUSH_LEFT / 256 ∉ arriveIdx k := by
  cases k
  case hush => contradiction
  all_goals decide

/-- The end of HUSH clears its time (R140). -/
theorem hush_cleared (hm : modeIs s .hush = true) (hk : k ≠ .retired ∧ k ≠ .hush) (src : Nat) : (enterMode s k src).get Ent.HUSH_LEFT = 0 := by
  have hs : s.get Ent.MODE ≠ modeCode k := fun h => hk.2 (modeCode_inj ((modeIs_iff.1 hm).symm.trans h)).symm
  have hleave : (leaveMode s (modeNow s)).get Ent.HUSH_LEFT = 0 := by
    rw [modeNow_of (modeIs_iff.1 hm), leaveMode, (raise_changeKept _ 10).get Ent.HUSH_LEFT (by decide), State.get_put_self]
  have ha := arriveIdx_hushLeft hk.2
  rw [(enterMode_recorded hs src).get _ (by decide), modeChanged, (arriveMode_arrived _ hk.1).get _ ha, (writeMode_changeKept _ k).get _ (by decide), hleave]

theorem hush_ends (hm : modeIs s .hush = true) :
    (hushEnds s).get Ent.MODE = modeCode (afterAlarm s) ∧ (hushEnds s).get Ent.HUSH_LEFT = 0 := by
  rw [hushEnds, if_pos hm]
  obtain ⟨hr, hh⟩ := afterAlarm_ne s
  by_cases hb : s.get Ent.BS_ALARM = 0
  · rw [alarms_lead (modeIs_iff.1 hm) (by decide) hb, (afterEvent_changeKept (enterMode_clear hb hr (fun h => absurd h hh) _) _).get _ (by decide)]
    exact ⟨rfl, hush_cleared hm ⟨hr, hh⟩ _⟩
  · have ha : afterAlarm s = .alarm := by simp [afterAlarm, localAlarm, hb]
    have hmode := enterMode_mode s (afterAlarm s) 0x43
    rw [ha] at hmode hr hh ⊢
    have hoff := backstopHolds_alarm hmode
    rw [afterEvent_mode hoff, modeIn_of hmode, hmode, (afterEvent_changeKept hoff _).get _ (by decide)]
    exact ⟨if_neg (by decide), hush_cleared hm ⟨hr, hh⟩ _⟩

/-! ## End of life, scheduled tests -/

theorem endOfLife_reached (he : eolReached s = true) (hm : modeIs s .supervise = true) (hf : s.get Ent.FAULT_CAUSE = 0)
    (hb : s.get Ent.BS_ALARM = 0) :
    (endOfLife s).get Ent.MODE = modeCode .endOfLife ∧ (endOfLife s).get Ent.BASE_MODE = modeCode .endOfLife := by
  have hr := raise_recorded s 11
  have hbase : baseMode (raise s 11) = .endOfLife := by
    rw [baseMode_congr (hr.get _ (by decide)) (hr.get _ (by decide)) (hr.get _ (by decide)) (hr.get _ (by decide)), baseMode, hf, he]
    rfl
  have hmode : (raise s 11).get Ent.MODE = modeCode .supervise := (hr.get _ (by decide)).trans (modeIs_iff.1 hm)
  have hoff : backstopHolds (raise s 11) = false := backstopHolds_clear ((hr.get _ (by decide)).trans hb) fun hh => by
    rw [modeIs_of hmode] at hh
    exact absurd hh (by decide)
  rw [endOfLife, if_pos he, afterEvent_mode hoff, modeIn_of hmode, hbase, afterEvent_baseMode, hbase]
  exact ⟨if_pos (by decide), rfl⟩

theorem execSelftestDue_due (hc : s.get Ent.COMMISSIONED_AT ≠ 0) (hd : s.get Ent.ST_NEXT_DUE ≤ s.get Ent.SERVICE_SECONDS) :
    execSelftestDue s = .next (selftestDue s) := by
  have hx : (commissioned s && s.get Ent.ST_NEXT_DUE ≤ s.get Ent.SERVICE_SECONDS) = true := by simp [commissioned, hc, hd]
  rw [execSelftestDue, if_pos hx]

theorem selftest_due :
    if modeIn s baseModes then
      (selftestDue s).get Ent.MODE = modeCode .selftest ∧ (selftestDue s).keeper.st.step = 1 ∧ (selftestDue s).keeper.st.trigger = 0
    else (selftestDue s).get Ent.MODE = s.get Ent.MODE ∧ (selftestDue s).keeper.st.waiting = true := by
  have hm : ∀ v, modeIn (s.put Ent.ST_NEXT_DUE v) selftestModes = modeIn s baseModes := fun v => by
    have hi : ∀ m, modeIs (s.put Ent.ST_NEXT_DUE v) m = modeIs s m := fun m => by rw [modeIs, State.get_put_ne s (by decide), modeIs]
    rw [modeIn, funext hi]
    rfl
  rw [selftestDue]
  rw [hm]
  split
  · exact (enterSelftest_begins _ 0 0x46).imp_right fun ⟨hstep, htrig, _⟩ => ⟨hstep, htrig⟩
  · have h1 : Ent.MODE ≠ Ent.ST_STATE := by decide
    have h2 : Ent.MODE ≠ Ent.ST_NEXT_DUE := by decide
    rw [State.get_put_ne _ h1, State.onSelfTest_get, State.get_put_ne _ h2]
    exact ⟨rfl, rfl⟩

/-! ## FAULT_CAUSE (R92) -/

theorem faultCause_size : entrySize Ent.FAULT_CAUSE = 2 := by decide +kernel

theorem faultCause_starts (hv : v < 65536) (h : accepts s (numReq u Ent.FAULT_CAUSE v) = true) :
    Starts (.faultCauseClear u v) s (numReq u Ent.FAULT_CAUSE v) Ent.FAULT_CAUSE v := by
  have hr : (findRow Ent.FAULT_CAUSE).map (·.action) = some false := by decide +kernel
  have hn : isN Ent.FAULT_CAUSE = true := by decide +kernel
  have hx := access_commits rfl h (row_of_findRow hr) (by rw [numReq_entAt]; decide) (by rw [numReq_entAt]; exact hn)
  rw [numReq_entAt, numReq_value (by rw [faultCause_size]; exact hv)] at hx
  exact congrArg _ hx

theorem clearFault_cleared (s : State) (mask : Nat) : (clearFault s mask).get Ent.FAULT_CAUSE = clearBits (s.get Ent.FAULT_CAUSE) mask := by
  unfold clearFault
  split
  next h => rw [clearBits, h, Nat.sub_zero]
  next => rw [(afterEvent_kept _ _).get _ (by decide), State.get_put_ne _ (by decide), State.get_put_self]

theorem clearFault_jobs (s : State) (mask : Nat) : (clearFault s mask).keeper.jobs = s.keeper.jobs := by
  unfold clearFault
  split
  · rfl
  · rw [(afterEvent_kept _ _).keeper, State.put_keeper, State.put_keeper]

/-- A stored entry of class V or N that is not per-user is written by the branch of its own (R47). -/
theorem applyWrite_plain {r : EntryRow} (hr : findRow e = some r) (hf : decide (r.cls = .f) = false) (hp : r.perUser = false)
    (hd : isDelta e = false) (hm : isMono e = false) (hn : e ≠ Ent.NOTICE_PENDING ∧ e ≠ Ent.NOTICE_MASK) :
    (e = Ent.FAULT_CAUSE → applyWrite s u e v = clearFault s v) ∧
      (e = Ent.ALARM_FW → isCleared e = false → applyWrite s u e v = setAlarmFw s v) := by
  have hx : applyWrite s u e v = if e = Ent.FAULT_CAUSE then clearFault s v
      else if isCleared e then s.put e (newValue s e v)
      else if e = Ent.ALARM_FW then setAlarmFw s v
      else if 0x1300 ≤ e / 256 ∧ e / 256 ≤ 0x1304 then arbHold s e v
      else if e = Ent.HP_BAUD then baudWritten (s.put e v) u (s.get e)
      else afterStore (s.put e v) e (s.get e) v := by
    rw [applyWrite, hr]
    dsimp only
    rw [hd, hm, if_neg Bool.false_ne_true, if_neg Bool.false_ne_true, if_neg (of_decide_eq_false hf), if_neg hn.1, if_neg hn.2, hp,
      if_neg Bool.false_ne_true]
  rw [hx]
  refine ⟨fun h => if_pos h, fun h hc => ?_⟩
  rw [if_neg (by rw [h]; decide), hc, if_neg Bool.false_ne_true, if_pos h]

theorem applyWrite_faultCause : applyWrite s u Ent.FAULT_CAUSE v = clearFault s v := by
  have hrow : ((findRow Ent.FAULT_CAUSE).map fun r => (decide (r.cls = .f), r.perUser)) = some (false, false) := by decide +kernel
  obtain ⟨r, hr, hx⟩ := Option.map_eq_some_iff.1 hrow
  obtain ⟨hf, hp⟩ := Prod.mk.inj hx
  exact (applyWrite_plain hr hf hp (by decide) (by decide) (by decide)).1 rfl

theorem faultCause_commits : Commits s (numReq u Ent.FAULT_CAUSE v) Ent.FAULT_CAUSE v fun t =>
    t.get Ent.FAULT_CAUSE = clearBits (s.get Ent.FAULT_CAUSE) v := by
  refine commits_of_kept rfl (by decide) (fun rest => ?_) fun rest t ht => ?_
  · rw [applyWrite_faultCause, clearFault_jobs]
    rfl
  · rw [applyWrite_faultCause] at ht
    exact (ht.get _ (by decide)).trans (clearFault_cleared _ _)

theorem faultRequest_sets (h : accepts s (numReq u Ent.FAULT_REQUEST v) = true) : Answers (.faultRequest u v) s fun t =>
    bit (t.get Ent.FAULT_CAUSE) 6 = true ∧ t.getU Ent.LAST_STATUS u = Sc.ok := by
  have hr : (findRow Ent.FAULT_REQUEST).map (·.action) = some true := by decide +kernel
  have hm : isMono Ent.FAULT_REQUEST = false := by decide
  have hw : writeAccess s (numReq u Ent.FAULT_REQUEST v) = .done (setFault s 6 (userId u)) Sc.ok := by
    rw [writeAccess_action h hr (by decide), action_FAULT_REQUEST, hm, Bool.false_and, if_neg Bool.false_ne_true]
  refine answers_responded rfl (access_done rfl h hw (engineOf_numReq (by decide))) ⟨?_, numReq_status⟩
  rw [(respond_dictKept _ _ _ _).get _ (by decide)]
  exact setFault_bit s 6 _

/-! ## ALARM_FW, the relayed kinds, the flyer's suppression (R139, R141, R142) -/

theorem setAlarmFw_get (s : State) (v : Nat) : (setAlarmFw s v).get Ent.ALARM_FW = v := by
  rw [setAlarmFw, (afterEvent_kept _ _).get _ (by decide), State.get_put_ne _ (by decide), (alarmEnds_kept _).get _ (by decide), State.get_put_self]

/-- ALARM ends where firmware's alarm was the last (R82, R84). -/
theorem setAlarmFw_ends (hm : modeIs s .alarm = true) (hb : s.get Ent.BS_ALARM = 0) :
    (setAlarmFw s 0).get Ent.MODE = modeCode (afterAlarm (s.put Ent.ALARM_FW 0)) := by
  have hb' : (s.put Ent.ALARM_FW 0).get Ent.BS_ALARM = 0 := (State.get_put_ne s (by decide) 0).trans hb
  have hm' : (s.put Ent.ALARM_FW 0).get Ent.MODE = modeCode .alarm := (State.get_put_ne s (by decide) 0).trans (modeIs_iff.1 hm)
  have hl : localAlarm (s.put Ent.ALARM_FW 0) = false := by rw [localAlarm, hb', State.get_put_self]; rfl
  rw [setAlarmFw, alarmEnds, modeIs_of hm', hl, if_pos (by decide)]
  exact alarms_lead hm' (by decide) hb' _

theorem applyWrite_alarmFw : applyWrite s u Ent.ALARM_FW v = setAlarmFw s v := by
  have hrow : ((findRow Ent.ALARM_FW).map fun r => (decide (r.cls = .f), r.perUser)) = some (false, false) := by decide +kernel
  obtain ⟨r, hr, hx⟩ := Option.map_eq_some_iff.1 hrow
  obtain ⟨hf, hp⟩ := Prod.mk.inj hx
  exact (applyWrite_plain hr hf hp (by decide) (by decide) (by decide)).2 rfl (by decide)

theorem alarmFw_written (hv : v < 256) (h : accepts s (numReq u Ent.ALARM_FW v) = true) : Answers (.alarmFwWrite u v) s fun t =>
    t.get Ent.ALARM_FW = v ∧ t.getU Ent.LAST_STATUS u = Sc.ok ∧
      (modeIs s .alarm = true → s.get Ent.BS_ALARM = 0 → v = 0 → t.get Ent.MODE = modeCode (afterAlarm (s.put Ent.ALARM_FW 0))) := by
  have hr : (findRow Ent.ALARM_FW).map (·.action) = some false := by decide +kernel
  have hn : isN Ent.ALARM_FW = false := by decide +kernel
  have hz : entrySize Ent.ALARM_FW = 1 := by decide +kernel
  have hx := access_store rfl h (row_of_findRow hr) (by rw [numReq_entAt]; decide) (by rw [numReq_entAt]; exact hn)
  rw [numReq_entAt, numReq_user, numReq_value (by rw [hz]; exact hv), applyWrites_one _ _ _ _ (by decide), applyWrite_alarmFw] at hx
  refine answers_responded rfl hx ?_
  have hk := respond_dictKept (setAlarmFw s v) (numReq u Ent.ALARM_FW v) Sc.ok []
  rw [hk.get _ (by decide), hk.get _ (by decide)]
  refine ⟨setAlarmFw_get s v, numReq_status, fun hm hb hz => ?_⟩
  rw [hz]
  exact setAlarmFw_ends hm hb

/-- The relayed kinds take their value, whatever mode change it brings (R142). -/
theorem refreshRelayed_value (s : State) :
    (refreshRelayed s).keeper.relCan = s.keeper.relCan ∧ (refreshRelayed s).get Ent.ALARM_RELAYED = relayedValue s := by
  have hput : (s.put Ent.ALARM_RELAYED (relayedValue s)).get Ent.ALARM_RELAYED = relayedValue s := State.get_put_self _ _ _
  have hstep : ∀ t src, ModeKept (s.put Ent.ALARM_RELAYED (relayedValue s)) t →
      (afterEvent t src).keeper.relCan = s.keeper.relCan ∧ (afterEvent t src).get Ent.ALARM_RELAYED = relayedValue s := fun t src hk => by
    have hafter := afterEvent_kept t src
    rw [hafter.keeper, State.put_keeper, hk.keeper, hafter.get _ (by decide), put_base_get _ _ (by decide), hk.get _ (by decide), hput]
    exact ⟨rfl, rfl⟩
  unfold refreshRelayed
  dsimp only
  split_ifs
  · exact hstep _ _ (enterMode_kept _ _ _ (by decide))
  · exact hstep _ _ (.refl _)
  · exact hstep _ _ (enterMode_kept _ _ _ (baseMode_ne_retired _))
  · exact hstep _ _ (.refl _)
  · exact ⟨rfl, hput⟩

/-- Settles O23, event by event. -/
theorem modeEvents_hold : Obligations.ModeEvents := by
  intro s u v
  refine ⟨fun hm hr => answers_next rfl ?_, fun hm hr => answers_next rfl ?_, fun hm hb => answers_next rfl ?_, fun hm hl hb => answers_next rfl ?_,
    fun hm hb => answers_next rfl ?_, fun hm hb => answers_next rfl ?_, fun hm => answers_next rfl ?_, fun he hm hf hb => answers_next rfl ?_,
    fun hc hd => ?_, faultCause_starts, fun _ => faultCause_commits, faultRequest_sets, alarmFw_written, answers_next rfl ?_, fun hh => ?_⟩
  · exact button_hushes hm hr
  · exact button_refused hm hr
  · exact button_tests hm hb
  · exact button_commissions hm hl hb
  · exact verify_ends hm hb
  · exact commission_ends hm hb
  · exact hush_ends hm
  · exact endOfLife_reached he hm hf hb
  · exact answers_next (execSelftestDue_due hc hd) selftest_due
  · exact refreshRelayed_value _
  · exact answers_next (t := s.onBs endSuppression) (congrArg _ (if_pos hh)) ⟨rfl, rfl⟩

end Sys2Proof.Machine
end

section
/-! SUPPORT. One cycle of CLK_AON (R80, R82): what its checks and its events leave of the counts, of the keeper and of the entries. -/
namespace Sys2Proof.Machine
variable {s t r : State} {m k : Mode} {e src n : Nat} {d : Domain} {u : User}

/-! ### The counts of CLK_AON -/

/-- The keeper's count of CLK_AON and the registers of the core, with its own count, stand. -/
structure AonKept (s t : State) : Prop where
  aon : t.keeper.aon = s.keeper.aon
  core : t.spindle.core = s.spindle.core

theorem AonKept.refl (s : State) : AonKept s s := ⟨rfl, rfl⟩
theorem AonKept.trans (h : AonKept s t) (g : AonKept t r) : AonKept s r := ⟨g.aon.trans h.aon, g.core.trans h.core⟩

theorem AonKept.ite {a b : State} {c : Prop} [Decidable c] (ha : AonKept s a) (hb : AonKept s b) : AonKept s (if c then a else b) := by
  split <;> assumption

theorem AonKept.foldl {α : Type} {f : State → α → State} (h : ∀ s x, AonKept s (f s x)) (l : List α) (s : State) : AonKept s (l.foldl f s) := by
  induction l generalizing s with
  | nil => exact .refl s
  | cons x l ih => exact (h s x).trans (ih _)

theorem ModeKept.aon (h : ModeKept s t) : AonKept s t := ⟨by rw [h.keeper], by rw [h.spindle]⟩

theorem put_aonKept (s : State) (e v : Nat) : AonKept s (s.put e v) := ⟨rfl, rfl⟩
theorem onHorn_aonKept (s : State) (f : Horn → Horn) : AonKept s (s.onHorn f) := ⟨rfl, rfl⟩

theorem onKeeper_aonKept (s : State) (f : Keeper → Keeper) (h : (f s.keeper).aon = s.keeper.aon) : AonKept s (s.onKeeper f) := ⟨h, rfl⟩

theorem aonKept_of (hk : t.keeper = s.keeper) (hs : t.spindle = s.spindle) : AonKept s t := ⟨by rw [hk], by rw [hs]⟩

/-- Every mode is entered with the counts as they are. -/
theorem enterMode_aonKept (s : State) (m : Mode) (src : Nat) : AonKept s (enterMode s m src) := by
  by_cases hm : m = .retired
  · subst hm
    have hleave : AonKept s (writeMode (leaveMode s (modeNow s)) .retired) := ((leaveMode_kept _ _).trans (writeMode_kept _ _)).aon
    have harrive : AonKept (writeMode (leaveMode s (modeNow s)) .retired) (modeChanged s .retired) := by
      refine aonKept_of ?_ ?_
      · show (retireBackstop _).keeper = _
        unfold retireBackstop
        dsimp only
        split <;> simp
      · show (retireBackstop _).spindle = _
        unfold retireBackstop
        dsimp only
        split <;> simp
    exact .ite (.refl s) ((hleave.trans harrive).trans
      (((alarmEndNotice_kept _ _ _).trans (logMode_kept _ _ _ _)).trans (sendMode_kept _)).aon)
  · exact (enterMode_kept s m src hm).aon

theorem afterEvent_aonKept (s : State) (src : Nat) : AonKept s (afterEvent s src) :=
  (put_aonKept s _ _).trans (afterEvent_kept s src).aon

theorem enters_aonKept (s : State) (m : Mode) (src src' : Nat) : AonKept s (afterEvent (enterMode s m src) src') :=
  (enterMode_aonKept s m src).trans (afterEvent_aonKept _ _)

theorem enterSelftest_aonKept (s : State) (trigger src : Nat) : AonKept s (enterSelftest s trigger src) := by
  refine (enterMode_aonKept s .selftest src).trans ⟨by rw [enterSelftest, stStart_keeper], ?_⟩
  rw [enterSelftest, stStart, stBegin]
  exact congrArg Spindle.core (sbQueue_spindle _ _ _ _ _)

theorem setFault_aonKept (s : State) (b src : Nat) : AonKept s (setFault s b src) :=
  .ite (.refl s) ((put_aonKept s _ _).trans (afterEvent_aonKept _ _))

theorem clearFault_aonKept (s : State) (mask : Nat) : AonKept s (clearFault s mask) :=
  .ite (.refl s) ((put_aonKept s _ _).trans (afterEvent_aonKept _ _))

/-! ### Each event of a cycle -/

theorem takeKinds_aonKept (s : State) (kinds : Nat) (noHush : Bool) : AonKept s (takeKinds s kinds noHush) := by
  have htrip : ∀ (f : Nat) (t : State) (i : Nat), AonKept t (if bit f i then t.bump (Ent.BS_TRIPS (i + 1)) else t) :=
    fun _ _ _ => .ite (put_aonKept _ _ _) (.refl _)
  refine .trans ?_ (afterEvent_aonKept _ _)
  refine .trans ?_ ((backstopCheck_kept _).trans (alarmEnds_kept _)).aon
  refine .trans ?_ (.ite (.refl _) (logKeeper_kept _ _ _ _).aon)
  refine .trans ?_ (.foldl (htrip _) _ _)
  refine .trans ?_ (.ite (raise_kept _ _).aon (.refl _))
  exact (put_aonKept s _ _).trans (onKeeper_aonKept _ _ rfl)

theorem setAlarmFw_aonKept (s : State) (kinds : Nat) : AonKept s (setAlarmFw s kinds) :=
  ((put_aonKept s _ _).trans (alarmEnds_kept _).aon).trans (afterEvent_aonKept _ _)

theorem refreshRelayed_aonKept (s : State) : AonKept s (refreshRelayed s) := by
  have hput : AonKept s (s.put Ent.ALARM_RELAYED (relayedValue s)) := put_aonKept s _ _
  exact .ite ((hput.trans (.ite (enterMode_aonKept _ _ _) (.refl _))).trans (afterEvent_aonKept _ _))
    (.ite ((hput.trans (.ite (enterMode_aonKept _ _ _) (.refl _))).trans (afterEvent_aonKept _ _)) hput)

theorem takeRequest_aonKept (s : State) (u : User) (g : ModeTarget) : AonKept s (takeRequest s u g) := by
  unfold takeRequest
  split
  · exact AonKept.trans (.ite (enterSelftest_aonKept _ _ _) (enterMode_aonKept _ _ _)) (afterEvent_aonKept _ _)
  · exact .ite (put_aonKept s _ _) (.refl s)

theorem buttonPress_aonKept (s : State) : AonKept s (buttonPress s) :=
  .ite (.ite ((put_aonKept s _ _).trans (onHorn_aonKept _ _)) (enters_aonKept _ _ _ _)) (.ite ((enterSelftest_aonKept _ _ _).trans (afterEvent_aonKept _ _)) (.refl s))

theorem selftestDue_aonKept (s : State) : AonKept s (selftestDue s) := by
  have hput := put_aonKept s Ent.ST_NEXT_DUE (s.get Ent.ST_NEXT_DUE - (s.get Ent.ST_NEXT_DUE - 86400) % 604800 + 604800)
  rw [selftestDue]
  exact hput.trans (.ite (enterSelftest_aonKept _ _ _) ((onSelfTest_kept _ _).aon.trans (put_aonKept _ _ _)))

theorem selftestDone_aonKept (s : State) : AonKept s (selftestDone s) := by
  refine .trans ?_ (afterEvent_aonKept _ _)
  refine .trans ?_ (.ite (enterMode_aonKept _ _ _) (.refl _))
  refine .trans ?_ (.ite ((onKeeper_aonKept _ _ rfl).trans (setFault_aonKept _ _ _))
    (.ite ((onKeeper_aonKept _ _ rfl).trans (clearFault_aonKept _ _)) (.refl _)))
  exact .trans (.ite (onHorn_aonKept s _) (.refl s)) (stEnd_kept _ _).aon

theorem modeEvent_aonKept (s : State) (ev : ModeEvent) : AonKept s (modeEvent s ev) := by
  cases ev
  case lcRetired => exact .ite (enters_aonKept _ _ _ _) (.refl s)
  case backstop b => exact takeKinds_aonKept _ _ _
  case alarmFw k => exact setAlarmFw_aonKept _ _
  case firmwareAlarm => exact takeRequest_aonKept _ _ _
  case relayedCan k => exact (onKeeper_aonKept s _ rfl).trans (refreshRelayed_aonKept _)
  case relayedIc on => exact (onKeeper_aonKept s _ rfl).trans (refreshRelayed_aonKept _)
  case hushExpiry => exact .ite (enters_aonKept _ _ _ _) (.refl s)
  case hushRequest u => exact takeRequest_aonKept _ _ _
  case hushEnd u => exact .ite (takeRequest_aonKept _ _ _) (.refl s)
  case faultSet b => exact setFault_aonKept _ _ _
  case faultClear b => exact clearFault_aonKept _ _
  case endOfLife => exact .ite ((raise_kept s 11).aon.trans (afterEvent_aonKept _ _)) (.refl s)
  case selftestDue => exact selftestDue_aonKept s
  case selftestDone => exact .ite (selftestDone_aonKept s) (.refl s)
  case request u g => exact takeRequest_aonKept _ _ _
  case verifyTimeout => exact .ite (enters_aonKept _ _ _ _) (.refl s)
  case commissionTimeout => exact .ite (enters_aonKept _ _ _ _) (.refl s)
  case buttonPress => exact buttonPress_aonKept s
  case buttonHold => exact .ite (enters_aonKept _ _ _ _) (.refl s)

theorem applyAt_aonKept (p : Nat) (evs : List ModeEvent) (s : State) : AonKept s (applyAt p evs s).1 := by
  induction evs generalizing s with
  | nil => exact .refl s
  | cons ev evs ih =>
    unfold applyAt
    split
    · exact (modeEvent_aonKept s ev).trans (ih _)
    · exact ih s

theorem standing_aonKept (s : State) (p : Nat) : AonKept s (standing s p) := by
  unfold standing
  split
  · exact (backstopCheck_kept s).aon
  · exact .foldl (fun s b => setFault_aonKept s b 0x43) _ s
  · exact .ite (enterSelftest_aonKept _ _ _) (.refl s)
  · exact .refl s

theorem modeCycle_aonKept (s : State) (evs : List ModeEvent) : AonKept s (modeCycle s evs) := by
  have h : ∀ (l : List Nat) (q : State × List ModeEvent), AonKept q.1 (l.foldl (fun r p => applyAt p r.2 (standing r.1 p)) q).1 := by
    intro l
    induction l with
    | nil => exact fun q => .refl q.1
    | cons p l ih => exact fun q => ((standing_aonKept q.1 p).trans (applyAt_aonKept p q.2 _)).trans (ih _)
  exact h _ (s, evs)

end Sys2Proof.Machine
end

section
/-! SUPPORT. The words that a cycle checks, and what their checks find (R80, R96, R162). -/
namespace Sys2Proof.Machine
variable {s t r : State} {m k : Mode} {e src n : Nat} {d : Domain} {u : User}

/-! ### What passes before the events -/

/-- The parts of the keeper and the counts that a rest word, a word not waited for, and a rewritten word leave. -/
structure CycleKept (s t : State) : Prop extends AonKept s t where
  waiting : t.keeper.st.waiting = s.keeper.st.waiting
  lcRows : t.keeper.lcRows = s.keeper.lcRows
  lcReported : t.keeper.lcReported = s.keeper.lcReported

theorem CycleKept.refl (s : State) : CycleKept s s := ⟨.refl s, rfl, rfl, rfl⟩

theorem CycleKept.trans (h : CycleKept s t) (g : CycleKept t r) : CycleKept s r :=
  ⟨h.toAonKept.trans g.toAonKept, g.waiting.trans h.waiting, g.lcRows.trans h.lcRows, g.lcReported.trans h.lcReported⟩

theorem CycleKept.ite {a b : State} {c : Prop} [Decidable c] (ha : CycleKept s a) (hb : CycleKept s b) : CycleKept s (if c then a else b) := by
  split <;> assumption

theorem CycleKept.foldl {α : Type} {f : State → α → State} (h : ∀ s x, CycleKept s (f s x)) (l : List α) (s : State) :
    CycleKept s (l.foldl f s) := by
  induction l generalizing s with
  | nil => exact .refl s
  | cons x l ih => exact (h s x).trans (ih _)

theorem cycleKept_of (hk : t.keeper = s.keeper) (hs : t.spindle.core = s.spindle.core) : CycleKept s t :=
  ⟨⟨by rw [hk], by rw [hs]⟩, by rw [hk], by rw [hk], by rw [hk]⟩

theorem put_cycleKept (s : State) (e v : Nat) : CycleKept s (s.put e v) := cycleKept_of rfl rfl
theorem onDom_cycleKept (s : State) (d : Domain) (f : DomSeq → DomSeq) : CycleKept s (onDom s d f) := cycleKept_of rfl rfl
theorem onFlyer_cycleKept (s : State) (f : Flyer → Flyer) : CycleKept s (s.onFlyer f) := cycleKept_of rfl rfl

theorem sbQueue_cycleKept (s : State) (d : Die) (ty dst : Nat) (p : Bytes) : CycleKept s (sbQueue s d ty dst p) :=
  cycleKept_of (sbQueue_keeper _ _ _ _ _) (by rw [sbQueue_spindle])

theorem raise_cycleKept (s : State) (n : Nat) : CycleKept s (raise s n) :=
  ⟨(raise_kept s n).aon, by rw [raise_keeper'], by rw [raise_keeper'], by rw [raise_keeper']⟩

/-! ### A rest word rewritten as ON (R162) -/

theorem setDomNow_cycleKept (s : State) (d : Domain) (n : Nat) : CycleKept s (setDomNow s d n) := .ite (onFlyer_cycleKept s _) (put_cycleKept s _ _)

theorem beginExit_cycleKept (s : State) (d : Domain) (source : Option Nat) : CycleKept s (beginExit s d source) := by
  have hn : ∀ t : State, CycleKept t (t.onSpindle fun x => { x with xoFail := false, can := { x.can with joined := false, held := x.can.held && !(domNow s d == 0) } }) :=
    fun _ => cycleKept_of rfl rfl
  have hx : CycleKept s (setDomNow (if d = .core ∧ domNow s d = 1 then sendTime s else s) d 4) :=
    .trans (.ite (sbQueue_cycleKept _ _ _ _ _) (.refl s)) (setDomNow_cycleKept _ _ _)
  unfold beginExit
  cases source with
  | none => exact .ite (hx.trans (hn _)) hx
  | some n => exact .ite ((hx.trans (put_cycleKept _ _ _)).trans (hn _)) (hx.trans (put_cycleKept _ _ _))

theorem refuse_cycleKept (s : State) (d : Domain) (w n : Nat) : CycleKept s (refuse s d w n) :=
  (((put_cycleKept s _ _).trans (put_cycleKept _ _ _)).trans (put_cycleKept _ _ _)).trans (raise_cycleKept _ _)

theorem raiseDomain_cycleKept (s : State) (source : Option Nat) (o d : Domain) : CycleKept s (raiseDomain s source o d) := by
  unfold raiseDomain
  split
  · exact .ite (onDom_cycleKept _ _ _) ((refuse_cycleKept _ _ _ _).trans (beginExit_cycleKept _ _ _))
  · exact beginExit_cycleKept _ _ _
  · exact beginExit_cycleKept _ _ _
  · exact .refl s

theorem leaveOff_cycleKept (s : State) : CycleKept s (leaveOff s) := by
  have hc : CycleKept s (countReset s 5) := (put_cycleKept s _ _).trans (put_cycleKept _ _ _)
  have hr : CycleKept (countReset s 5) (releaseSpindle (countReset s 5)) :=
    ⟨⟨by rw [releaseSpindle_keeper], by rw [releaseSpindle_spindle]⟩, by rw [releaseSpindle_keeper], by rw [releaseSpindle_keeper], by rw [releaseSpindle_keeper]⟩
  exact hc.trans (.ite hr (.refl _))

theorem wakeDomain_cycleKept (s : State) (source : Nat) (o d : Domain) : CycleKept s (wakeDomain s source o d) :=
  .ite ((raiseDomain_cycleKept _ _ _ _).trans (leaveOff_cycleKept _)) (raiseDomain_cycleKept _ _ _ _)

theorem wake_cycleKept (s : State) (source : Nat) (more : List Domain) : CycleKept s (wake s source more) := by
  unfold wake
  refine .ite (.refl s) ?_
  split
  · exact .refl s
  · exact .foldl (fun s d => wakeDomain_cycleKept s _ _ d) _ s

theorem setRest_cycleKept (s : State) (d : Domain) (n : Nat) : CycleKept s (setRest s d n) :=
  (put_cycleKept s _ _).trans (.ite ((onDom_cycleKept _ _ _).trans (sbQueue_cycleKept _ _ _ _ _)) (.ite (wake_cycleKept _ _ _) (.refl _)))

/-- The indices that a rest word and the wake of its domain may write. -/
def restIdx : List Nat := [0x1100, 0x1106, 0x1501, 0x1502] ++ demandIdx

theorem demandIdx_rest : demandIdx ⊆ restIdx := by decide

theorem beginExit_restKept (s : State) (d : Domain) (source : Option Nat) : DictKept restIdx s (beginExit s d source) := by
  cases source with
  | none => exact (beginExit_dictKept s d).mono (by decide)
  | some n =>
    have hx : DictKept restIdx s (setDomNow (if d = .core ∧ domNow s d = 1 then sendTime s else s) d 4) :=
      (DictKept.trans (.ite (sbQueue_dictKept _ _ _ _ _) (.refl s)) (setDomNow_dictKept _ _ _)).mono demandIdx_rest
    have hw := hx.trans (put_dictKept _ (e := Ent.LAST_WAKE (domId d)) n (by cases d <;> decide))
    exact .ite (hw.trans (dictKept_of_ent rfl rfl)) hw

theorem raiseDomain_restKept (s : State) (source : Option Nat) (o d : Domain) : DictKept restIdx s (raiseDomain s source o d) := by
  unfold raiseDomain
  split
  · exact .ite (dictKept_of_ent rfl rfl) (((refuse_dictKept _ _ _ _).mono demandIdx_rest).trans (beginExit_restKept _ _ _))
  · exact beginExit_restKept _ _ _
  · exact beginExit_restKept _ _ _
  · exact .refl s

theorem releaseSpindle_restKept (s : State) : DictKept restIdx s (releaseSpindle s) := by
  have hk : DictKept restIdx s ((s.onSpindle fun x => { x with alive := true, mode := modeNow s, loader := {} }).onKeeper
      fun k => { k with seq := .released, attempt := true }) := dictKept_of_ent rfl rfl
  exact hk.trans ((sbQueue_dictKept _ _ _ _ _).mono demandIdx_rest)

theorem leaveOff_restKept (s : State) : DictKept restIdx s (leaveOff s) := by
  have hc : DictKept restIdx s (countReset s 5) := (put_dictKept s _ (by decide)).trans (put_dictKept _ _ (by decide))
  exact hc.trans (.ite (releaseSpindle_restKept _) (.refl _))

theorem wakeDomain_restKept (s : State) (source : Nat) (o d : Domain) : DictKept restIdx s (wakeDomain s source o d) :=
  .ite ((raiseDomain_restKept _ _ _ _).trans (leaveOff_restKept _)) (raiseDomain_restKept _ _ _ _)

theorem wake_restKept (s : State) (source : Nat) (more : List Domain) : DictKept restIdx s (wake s source more) := by
  unfold wake
  refine .ite (.refl s) ?_
  split
  · exact .refl s
  · exact .foldl (fun s d => wakeDomain_restKept s _ _ d) _ s

theorem setRest_restKept (s : State) (d : Domain) (n : Nat) : DictKept restIdx s (setRest s d n) := by
  have hput : DictKept restIdx s (s.put (Ent.REST (domId d)) (wideCode (n + 1))) := put_dictKept s _ (by cases d <;> decide)
  have hsend : ∀ t : State, DictKept restIdx t (sendDomain t d n) := fun t => by
    have hd : DictKept restIdx t (onDom t d fun q => { q with owed := some n }) := dictKept_of_ent rfl rfl
    exact hd.trans ((sbQueue_dictKept _ _ _ _ _).mono demandIdx_rest)
  exact hput.trans (.ite (hsend _) (.ite (wake_restKept _ _ _) (.refl _)))

/-! ### A word that has not come (R297, R370) -/

/-- The indices of the self-test's spread and of the sideband's queue. -/
def wordsIdx : List Nat := [0x2600, 0x2601, 0x120D, 0x120E]

theorem sendWords_wordsKept (s : State) : DictKept wordsIdx s (sendWords s) := by
  have hq : DictKept wordsIdx s (s.onKeeper fun k => { k with wordsAt := k.aon }) := dictKept_of_ent rfl rfl
  have hs : ∀ t : State, DictKept wordsIdx t (sbQueue t .keeper 0xE 2 [0x20, 4]) := fun t => by
    have hd : DictKept wordsIdx t (onSbDie t .keeper fun x => { x with txq := x.txq ++ [⟨0xE, .keeper, 2, [0x20, 4]⟩] }) := dictKept_of_ent rfl rfl
    have hp : Ent.Q_PEAK 4 / 256 ∈ wordsIdx := by decide
    exact .ite (hd.trans (.ite (.refl _) (notePeak_dictKept _ 4 _ hp))) (noteFull_dictKept t 4 (by decide))
  exact .ite (.refl s) (hq.trans (hs _))

theorem wordsGone_wordsKept (s : State) (w : WordUse) : DictKept wordsIdx s (wordsGone s w) := by
  cases w
  · exact (put_dictKept s _ (by decide)).trans (put_dictKept _ _ (by decide))
  · exact .refl s
  · exact dictKept_of_ent rfl rfl

theorem wordsLost_wordsKept (n : Nat) (s : State) : DictKept wordsIdx s (wordsLost n s) := by
  induction n generalizing s with
  | zero => exact .refl s
  | succ n ih =>
    unfold wordsLost
    split
    · exact .refl s
    next w ws _ =>
      have hd : DictKept wordsIdx s (s.onKeeper fun k => { k with words := ws }) := dictKept_of_ent rfl rfl
      exact .ite (.refl s) (((hd.trans (wordsGone_wordsKept _ _)).trans (sendWords_wordsKept _)).trans (ih _))

theorem sendWords_cycleKept (s : State) : CycleKept s (sendWords s) := by
  have hk : CycleKept s (s.onKeeper fun k => { k with wordsAt := k.aon }) := ⟨⟨rfl, rfl⟩, rfl, rfl, rfl⟩
  exact .ite (.refl s) (hk.trans (sbQueue_cycleKept _ _ _ _ _))

theorem wordsGone_cycleKept (s : State) (w : WordUse) : CycleKept s (wordsGone s w) := by
  cases w
  · exact (put_cycleKept s _ _).trans (put_cycleKept _ _ _)
  · exact .refl s
  · exact ⟨⟨rfl, rfl⟩, rfl, rfl, rfl⟩

theorem dropWords_cycleKept (s : State) (ws : List WordUse) : CycleKept s (s.onKeeper fun k => { k with words := ws }) := ⟨⟨rfl, rfl⟩, rfl, rfl, rfl⟩

theorem wordsLost_cycleKept (n : Nat) (s : State) : CycleKept s (wordsLost n s) := by
  induction n generalizing s with
  | zero => exact .refl s
  | succ n ih =>
    unfold wordsLost
    split
    · exact .refl s
    · exact .ite (.refl s) ((((dropWords_cycleKept s _).trans (wordsGone_cycleKept _ _)).trans (sendWords_cycleKept _)).trans (ih _))

theorem wordsExpire_cycleKept (s : State) : CycleKept s (wordsExpire s) := by
  have hf : ∀ (t : State) p, CycleKept t (rngForget t p) := fun _ _ => cycleKept_of rfl rfl
  unfold wordsExpire
  split
  · exact .refl s
  · refine .ite (.refl s) (.trans ?_ (wordsLost_cycleKept _ _))
    exact (((dropWords_cycleKept s _).trans (hf _ _)).trans (wordsGone_cycleKept _ _)).trans (sendWords_cycleKept _)

theorem wordsExpire_wordsKept (s : State) : DictKept wordsIdx s (wordsExpire s) := by
  unfold wordsExpire
  split
  · exact .refl s
  next w ws _ =>
    have hf : DictKept wordsIdx s (rngForget (s.onKeeper fun k => { k with words := ws }) fun x => x == .pool) := dictKept_of_ent rfl rfl
    exact .ite (.refl s) (((hf.trans (wordsGone_wordsKept _ _)).trans (sendWords_wordsKept _)).trans (wordsLost_wordsKept _ _))

/-! ### The count of the cycle (R186) -/

/-- The indices of the time, and of the words of a cycle. -/
def cycleIdx : List Nat := [0x1200, 0x1202, 0x1203] ++ wordsIdx

theorem secondTick_cycleKept (s : State) : CycleKept s (secondTick s) := by
  have ht : CycleKept s ((s.put Ent.RTC_TIME (now s + 1)).onKeeper fun k => { k with tickAt := some k.aon }) := ⟨⟨rfl, rfl⟩, rfl, rfl, rfl⟩
  have ha : ∀ t : State, CycleKept t (advanceCopies t) := fun t => by
    unfold advanceCopies
    exact .ite (cycleKept_of rfl rfl) (cycleKept_of rfl rfl)
  exact ((CycleKept.ite ht (.refl s)).trans (.ite (put_cycleKept _ _ _) (.refl _))).trans (ha _)

theorem secondTick_dictKept (s : State) : DictKept cycleIdx s (secondTick s) := by
  have ht : DictKept cycleIdx s ((s.put Ent.RTC_TIME (now s + 1)).onKeeper fun k => { k with tickAt := some k.aon }) :=
    (put_dictKept s _ (by decide)).trans (dictKept_of_ent rfl rfl)
  have ha : ∀ t : State, DictKept cycleIdx t (advanceCopies t) := fun t => by
    unfold advanceCopies
    exact .ite (dictKept_of_ent rfl rfl) (dictKept_of_ent rfl rfl)
  exact ((DictKept.ite ht (.refl s)).trans (.ite (put_dictKept _ _ (by decide)) (.refl _))).trans (ha _)

/-- The state in which a cycle checks its words. -/
def cycleStart (s : State) : State := wordsExpire (countAon s)

theorem cycleStart_counts (s : State) : CycleKept (passCycles s 1) (cycleStart s) := by
  refine .trans ?_ (wordsExpire_cycleKept _)
  refine .trans (t := (passCycles s 1).onKeeper fun k => { k with trimAcc := trimRest ((passCycles s 1).keeper.trimAcc + rtcTrim (passCycles s 1)) })
    ⟨⟨rfl, rfl⟩, rfl, rfl, rfl⟩ ?_
  exact .ite (put_cycleKept _ _ _) ((put_cycleKept _ _ _).trans (secondTick_cycleKept _))

theorem passCycles_counts (s : State) :
    (passCycles s 1).keeper.aon = s.keeper.aon + 1 ∧ (s.spindle.alive = true → (passCycles s 1).spindle.core.aontime = s.spindle.core.aontime + 1) := by
  cases ha : s.spindle.alive
  · simp [passCycles, ha]
  · simp only [passCycles, State.onKeeper_spindle, ha, if_true]
    exact ⟨rfl, fun _ => rfl⟩

theorem passCycles_same (s : State) : (passCycles s 1).keeper.st = s.keeper.st ∧ (passCycles s 1).keeper.lcRows = s.keeper.lcRows ∧
    (passCycles s 1).keeper.lcReported = s.keeper.lcReported := by
  cases ha : s.spindle.alive <;> simp [passCycles, ha]

theorem cycleStart_dictKept (s : State) : DictKept cycleIdx s (cycleStart s) := by
  have hp : DictKept cycleIdx s (passCycles s 1) := by
    unfold passCycles
    exact .ite (dictKept_of_ent rfl rfl) (dictKept_of_ent rfl rfl)
  have ht : DictKept cycleIdx (passCycles s 1)
      ((passCycles s 1).onKeeper fun k => { k with trimAcc := trimRest ((passCycles s 1).keeper.trimAcc + rtcTrim (passCycles s 1)) }) :=
    dictKept_of_ent rfl rfl
  refine .trans ?_ ((wordsExpire_wordsKept _).mono (by decide))
  exact (hp.trans ht).trans (.ite (put_dictKept _ _ (by decide)) ((put_dictKept _ _ (by decide)).trans (secondTick_dictKept _)))

end Sys2Proof.Machine
end

section
/-! CLAIMS. One CLK_AON cycle of the keeper (R80, R82 to R84, R92, R179, R186, R220). -/
namespace Sys2Proof.Machine
variable {s t r : State} {m k : Mode} {e src n which word dom : Nat} {d : Domain} {u : User}

/-! ## An invalid word (R80) -/

/-- The indices that an alert and its record may write. -/
def alertIdx : List Nat := [0x4000, 0x4001, 0x4002, 0x4003, 0x4004] ++ recordIdx

/-- The alert of an invalid word, with its record, and the fault (R80, R92). -/
def wordAlert (s : State) (which word dom : Nat) : State :=
  (alertRecord (alertFlags s 0x40 which 0) .keeper 0x40 (if which = 5 then 0x20 else 0x30)
    fun _ => [byte which] ++ leBytes 4 word ++ [byte dom]).setBits Ent.FAULT_CAUSE 1

theorem wordAlert_cycleKept (s : State) (which word dom : Nat) : CycleKept s (wordAlert s which word dom) := by
  have hf : CycleKept s (alertFlags s 0x40 which 0) :=
    ((((put_cycleKept s _ _).trans (put_cycleKept _ _ _)).trans (put_cycleKept _ _ _)).trans (put_cycleKept _ _ _)).trans (raise_cycleKept _ _)
  exact (hf.trans (cycleKept_of (alertRecord_keeper _ _ _ _ _) (by rw [alertRecord_spindle]))).trans (put_cycleKept _ _ _)

theorem alertRecord_alertKept (s : State) (src : Nat) (f : Nat → Bytes) : DictKept alertIdx s (alertRecord s .keeper 0x40 src f) := by
  have hl : ∀ (g : LogUnit → LogUnit), DictKept alertIdx s (s.onLog g) := fun _ => dictKept_of_ent rfl rfl
  have hr : ∀ (t : State) (data : Bytes), DictKept alertIdx t (record t .keeper 0x40 src data) := fun t data =>
    (logKeeper_recorded t 0x40 src data).mono (by decide)
  exact .ite ((hl _).trans (put_dictKept _ _ (by decide))) (.ite ((hl _).trans (hr _ _)) ((hl _).trans (hr _ _)))

theorem wordAlert_dictKept (s : State) (which word dom : Nat) : DictKept (0x101D :: alertIdx) s (wordAlert s which word dom) := by
  have hf : DictKept alertIdx s (alertFlags s 0x40 which 0) :=
    ((((put_dictKept s _ (by decide)).trans (put_dictKept _ _ (by decide))).trans (put_dictKept _ _ (by decide))).trans
      (put_dictKept _ _ (by decide))).trans ((raise_recorded _ 4).mono (by decide))
  exact ((hf.trans (alertRecord_alertKept _ _ _)).mono (by decide)).trans (put_dictKept _ _ (by decide))

theorem wordAlert_cause (s : State) (which word dom : Nat) : bit ((wordAlert s which word dom).get Ent.FAULT_CAUSE) 0 = true := by
  rw [wordAlert, State.setBits_eq, State.get_put_self, bit, Nat.testBit_or]
  exact Bool.or_true _

/-- The mode that an invalid word leads to (R80). -/
def wordTarget (s : State) : Mode := if modeIs s .retired || lcIsRetired s then .retired else .fault

theorem lcIsRetired_of_rows (h : t.keeper.lcRows = s.keeper.lcRows) : lcIsRetired t = lcIsRetired s := by
  rw [lcIsRetired, lcValid_of_rows h, lcNow_of_rows h, lcIsRetired]

theorem wordAlert_target (s : State) (which word dom : Nat) : wordTarget (wordAlert s which word dom) = wordTarget s := by
  rw [wordTarget, lcIsRetired_of_rows (wordAlert_cycleKept s which word dom).lcRows, modeIs, (wordAlert_dictKept s which word dom).get _ (by decide)]
  rfl

/-- The change that an invalid word brings, and BASE_MODE after it. -/
def wordChange (s : State) : State := if s.get Ent.MODE = modeCode (wordTarget s) then sendMode s else enterMode s (wordTarget s) 0x43

theorem invalidWord_eq (s : State) (which word dom : Nat) : invalidWord s .keeper which word dom =
    (wordChange (wordAlert s which word dom)).put Ent.BASE_MODE (modeCode (baseMode (wordChange (wordAlert s which word dom)))) := rfl

theorem wordChange_mode (s : State) : (wordChange s).get Ent.MODE = modeCode (wordTarget s) := by
  unfold wordChange
  split
  next h => rw [(sendMode_recorded s).get _ (by decide), h]
  next => rw [enterMode_mode]

theorem invalidWord_mode (s : State) (which word dom : Nat) : (invalidWord s .keeper which word dom).get Ent.MODE = modeCode (wordTarget s) := by
  rw [invalidWord_eq, put_base_get _ _ (by decide), wordChange_mode, wordAlert_target]

theorem invalidWord_aonKept (s : State) (which word dom : Nat) : AonKept s (invalidWord s .keeper which word dom) := by
  have hc : AonKept (wordAlert s which word dom) (wordChange (wordAlert s which word dom)) := .ite (sendMode_kept _).aon (enterMode_aonKept _ _ _)
  exact ((wordAlert_cycleKept s which word dom).toAonKept.trans hc).trans (put_aonKept _ _ _)

/-! ## The words' checks -/

theorem checkModeWords_aonKept (s : State) : AonKept s (checkModeWords s) :=
  .trans (.ite (invalidWord_aonKept _ _ _ _) (.refl s)) (.ite (invalidWord_aonKept _ _ _ _) (.refl _))

theorem checkLcWord_aonKept (s : State) : AonKept s (checkLcWord s) :=
  .ite (.refl s) ((onKeeper_aonKept s _ rfl).trans (invalidWord_aonKept _ _ _ _))

theorem checkRestWord_aonKept (s : State) (d : Domain) : AonKept s (checkRestWord s d) :=
  .ite ((invalidWord_aonKept s _ _ _).trans (setRest_cycleKept _ _ _).toAonKept) (.refl s)

theorem checkWords_aonKept (s : State) : AonKept s (checkWords s) :=
  ((checkModeWords_aonKept s).trans (checkLcWord_aonKept _)).trans (.foldl checkRestWord_aonKept _ _)

/-- A cycle counts, whatever its words and events are. -/
theorem cycle_counts (s : State) (evs : List ModeEvent) : (aonCycle s evs).keeper.aon = s.keeper.aon + 1 ∧
    (s.spindle.alive = true → (aonCycle s evs).spindle.core.aontime = s.spindle.core.aontime + 1) := by
  obtain ⟨haon, htime⟩ := passCycles_counts s
  have h : AonKept (passCycles s 1) (aonCycle s evs) :=
    ((cycleStart_counts s).toAonKept.trans (checkWords_aonKept _)).trans (modeCycle_aonKept _ evs)
  rw [h.aon, h.core]
  exact ⟨haon, htime⟩

/-! ## FAULT after an invalid mode word -/

/-- The device is in FAULT for an invalid word, and nothing but words and causes moves it. -/
structure Faulted (s : State) : Prop where
  mode : s.get Ent.MODE = modeCode .fault
  cause : bit (s.get Ent.FAULT_CAUSE) 0 = true
  base : s.get Ent.BASE_MODE = modeCode .fault
  clear : s.get Ent.BS_ALARM = 0
  waiting : s.keeper.st.waiting = false
  serves : lcIsRetired s = false

theorem baseMode_fault (h : bit (s.get Ent.FAULT_CAUSE) n = true) : baseMode s = .fault := by
  refine if_pos fun hz => ?_
  rw [hz, bit, Nat.zero_testBit] at h
  exact Bool.false_ne_true h

theorem raise_st (s : State) (n : Nat) : (raise s n).keeper.st = s.keeper.st := by rw [raise_keeper']

/-- The way into FAULT from any mode but SELFTEST leaves the self-test alone. -/
theorem enterFault_st (hm : modeIs s .selftest = false) (src : Nat) : (enterMode s .fault src).keeper.st = s.keeper.st := by
  by_cases hs : s.get Ent.MODE = modeCode .fault
  · rw [enterMode_same hs]
  have hleave : (leaveMode s (modeNow s)).keeper.st = s.keeper.st := by
    unfold leaveMode
    split
    · split <;> rfl
    · exact raise_st _ _
    next hold =>
      rw [modeIs, modeOf_eq_some.1 hold, beq_self_eq_true] at hm
      exact absurd hm (by decide)
    · rfl
  have hchange : (modeChanged s .fault).keeper.st = s.keeper.st := (raise_st _ 2).trans ((raise_st _ 3).trans hleave)
  have hnotice : (alarmEndNotice (modeChanged s .fault) (modeNow s) .fault).keeper.st = (modeChanged s .fault).keeper.st := by
    unfold alarmEndNotice
    split
    · exact raise_st _ _
    · rfl
  rw [enterMode_changed hs, sendMode_keeper, logMode_keeper, hnotice, hchange]

theorem wordChange_faulted (hc : bit (s.get Ent.FAULT_CAUSE) 0 = true) (hb : s.get Ent.BS_ALARM = 0) (hw : s.keeper.st.waiting = false)
    (hm : modeIs s .selftest = false) (hr : modeIs s .retired = false) (hl : lcIsRetired s = false) :
    Faulted ((wordChange s).put Ent.BASE_MODE (modeCode (baseMode (wordChange s)))) := by
  have ht : wordTarget s = .fault := by rw [wordTarget, hr, hl]; rfl
  have hkept : ModeKept s (wordChange s) := by
    unfold wordChange
    rw [ht]
    exact .ite (sendMode_kept s) (enterMode_kept s .fault _ (by decide))
  have hcause : bit ((wordChange s).get Ent.FAULT_CAUSE) 0 = true := by rw [hkept.get _ (by decide)]; exact hc
  have hst : (wordChange s).keeper.st = s.keeper.st := by
    unfold wordChange
    rw [ht]
    split
    · rw [sendMode_keeper]
    · exact enterFault_st hm _
  refine ⟨?_, ?_, ?_, ?_, ?_, ?_⟩
  · rw [put_base_get _ _ (by decide), wordChange_mode, ht]
  · rw [put_base_get _ _ (by decide)]
    exact hcause
  · rw [State.get_put_self, baseMode_fault hcause]
  · rw [put_base_get _ _ (by decide), hkept.get _ (by decide), hb]
  · rw [State.put_keeper, hst, hw]
  · rw [lcIsRetired_of_rows (s := s) (by rw [State.put_keeper, hkept.keeper]), hl]

theorem invalidWord_faults (hb : s.get Ent.BS_ALARM = 0) (hw : s.keeper.st.waiting = false) (hm : modeIs s .selftest = false)
    (hr : modeIs s .retired = false) (hl : lcIsRetired s = false) (which word dom : Nat) : Faulted (invalidWord s .keeper which word dom) := by
  have hk := wordAlert_cycleKept s which word dom
  have hd := wordAlert_dictKept s which word dom
  have hmode : ∀ m, modeIs (wordAlert s which word dom) m = modeIs s m := fun m => by rw [modeIs, hd.get _ (by decide), modeIs]
  rw [invalidWord_eq]
  exact wordChange_faulted (wordAlert_cause _ _ _ _) ((hd.get _ (by decide)).trans hb) (hk.waiting.trans hw) ((hmode _).trans hm) ((hmode _).trans hr)
    ((lcIsRetired_of_rows hk.lcRows).trans hl)

theorem Faulted.again (h : Faulted s) (which word dom : Nat) : Faulted (invalidWord s .keeper which word dom) :=
  invalidWord_faults h.clear h.waiting (by rw [modeIs_of h.mode]; decide) (by rw [modeIs_of h.mode]; decide) h.serves which word dom

theorem Faulted.of_kept {idx : List Nat} (h : Faulted s) (hk : CycleKept s t) (hd : DictKept idx s t)
    (hi : ∀ i ∈ [0x1018, 0x101A, 0x101D, 0x2400], i ∉ idx) : Faulted t where
  mode := (hd.get _ (hi _ (by decide))).trans h.mode
  cause := by rw [hd.get _ (hi _ (by decide))]; exact h.cause
  base := (hd.get _ (hi _ (by decide))).trans h.base
  clear := (hd.get _ (hi _ (by decide))).trans h.clear
  waiting := hk.waiting.trans h.waiting
  serves := (lcIsRetired_of_rows hk.lcRows).trans h.serves

theorem Faulted.checkLc (h : Faulted s) : Faulted (checkLcWord s) := by
  have hr : Faulted (s.onKeeper fun k => { k with lcReported := true }) := ⟨h.mode, h.cause, h.base, h.clear, h.waiting, h.serves⟩
  unfold checkLcWord
  split
  · exact h
  · exact hr.again _ _ _

theorem Faulted.checkRest (h : Faulted s) (d : Domain) : Faulted (checkRestWord s d) := by
  unfold checkRestWord
  dsimp only
  split
  · exact (h.again _ _ _).of_kept (setRest_cycleKept _ _ _) (setRest_restKept _ _ _) (by decide)
  · exact h

theorem Faulted.foldl {α : Type} {f : State → α → State} (hf : ∀ s x, Faulted s → Faulted (f s x)) (h : Faulted s) (l : List α) :
    Faulted (l.foldl f s) := by
  induction l generalizing s with
  | nil => exact h
  | cons x l ih => exact ih (hf s x h)

theorem Faulted.holds (h : Faulted s) : backstopHolds s = false :=
  backstopHolds_clear h.clear fun hh => by
    rw [modeIs_of h.mode] at hh
    exact absurd hh (by decide)

/-- A cause that is set keeps the device in FAULT (R83, R92). -/
theorem Faulted.setFault (h : Faulted s) (b src : Nat) : Faulted (setFault s b src) := by
  unfold Machine.setFault
  split
  · exact h
  set x := s.setBits Ent.FAULT_CAUSE (2 ^ b) with hx
  have hget : ∀ e, e ≠ Ent.FAULT_CAUSE → x.get e = s.get e := fun e he => State.setBits_get _ he
  have hcause : bit (x.get Ent.FAULT_CAUSE) 0 = true := by
    rw [hx, State.setBits_eq, State.get_put_self, bit, Nat.testBit_or]
    exact Bool.or_eq_true_iff.2 (.inl h.cause)
  have hmode : x.get Ent.MODE = modeCode .fault := (hget _ (by decide)).trans h.mode
  have hoff : backstopHolds x = false := backstopHolds_clear ((hget _ (by decide)).trans h.clear) fun hh => by
    rw [modeIs_of hmode] at hh
    exact absurd hh (by decide)
  have hsame : afterEvent x src = x.put Ent.BASE_MODE (modeCode .fault) := by
    rw [afterEvent_on (by rw [modeIn_of hmode]; decide) hoff, baseMode_fault hcause, enterMode_same]
    exact (put_base_get _ _ (by decide)).trans hmode
  rw [hsame]
  exact ⟨(put_base_get _ _ (by decide)).trans hmode, by rw [put_base_get _ _ (by decide)]; exact hcause, State.get_put_self _ _ _,
    (put_base_get _ _ (by decide)).trans ((hget _ (by decide)).trans h.clear), h.waiting, h.serves⟩

theorem Faulted.standing (h : Faulted s) (p : Nat) : Faulted (standing s p) := by
  unfold Machine.standing
  split
  · rw [backstopCheck, h.holds, if_neg Bool.false_ne_true]
    exact h
  · exact h.foldl (fun _ b hx => hx.setFault b 0x43) _
  · rw [selftestWaiting, h.waiting, Bool.false_and, if_neg Bool.false_ne_true]
    exact h
  · exact h

/-- A cycle without events is its standing conditions. -/
theorem modeCycle_nil (s : State) : modeCycle s [] = (List.range 12).foldl standing s := by
  have h : ∀ (l : List Nat) (s : State), l.foldl (fun r p => applyAt p r.2 (standing r.1 p)) (s, []) = (l.foldl standing s, []) := by
    intro l
    induction l with
    | nil => exact fun _ => rfl
    | cons p l ih => exact fun s => ih _
  rw [modeCycle, h]

/-- An invalid mode word leads to FAULT (R80). -/
theorem cycle_faults (hm : modeOf (s.get Ent.MODE) = none) (hl : lcIsRetired s = false) (hb : s.get Ent.BS_ALARM = 0)
    (hw : s.keeper.st.waiting = false) : Faulted (aonCycle s []) := by
  have hd := cycleStart_dictKept s
  obtain ⟨hst, hrows, -⟩ := passCycles_same s
  have hk := cycleStart_counts s
  have hmode : modeOf ((cycleStart s).get Ent.MODE) = none := by rw [hd.get _ (by decide)]; exact hm
  have hnot : ∀ m, modeIs (cycleStart s) m = false := fun m => by
    rw [modeIs, beq_eq_false_iff_ne]
    intro hx
    rw [hx, modeOf_modeCode] at hmode
    exact absurd hmode (by simp)
  have hfault : Faulted (invalidWord (cycleStart s) .keeper 1 ((cycleStart s).get Ent.MODE) 0x80) :=
    invalidWord_faults ((hd.get _ (by decide)).trans hb) (hk.waiting.trans (by rw [hst, hw])) (hnot _) (hnot _)
      ((lcIsRetired_of_rows (hk.lcRows.trans hrows)).trans hl) _ _ _
  have hwords : Faulted (checkModeWords (cycleStart s)) := by
    unfold checkModeWords
    dsimp only
    rw [hmode, Option.isNone_none, if_pos rfl, hfault.base, modeOf_modeCode, Option.isNone_some, if_neg Bool.false_ne_true]
    exact hfault
  have hcheck : Faulted (checkWords (cycleStart s)) := hwords.checkLc.foldl (fun _ d hx => hx.checkRest d) _
  have hcycle : aonCycle s [] = modeCycle (checkWords (cycleStart s)) [] := rfl
  rw [hcycle, modeCycle_nil]
  exact hcheck.foldl (fun _ p hx => hx.standing p) _

end Sys2Proof.Machine
end

section
/-! CLAIMS. A backstop alarm and a hush request in one cycle (R82, R84, R140). -/
namespace Sys2Proof.Machine
variable {s t : State} {n : Nat} {d : Domain} {u : User}

/-! ## Words that are valid are left -/

/-- An invalid word was found: the mode is FAULT or RETIRED. -/
abbrev foundInvalid (s : State) : Bool := modeIn s [.fault, .retired]

theorem invalidWord_found (s : State) (which word dom : Nat) : foundInvalid (invalidWord s .keeper which word dom) = true := by
  refine modeIn_iff.2 ⟨wordTarget s, ?_, invalidWord_mode s which word dom⟩
  unfold wordTarget
  split <;> decide

theorem foundInvalid_of_mode (h : t.get Ent.MODE = s.get Ent.MODE) : foundInvalid t = foundInvalid s := by
  have hi : ∀ m, modeIs t m = modeIs s m := fun m => by rw [modeIs, h, modeIs]
  rw [foundInvalid, modeIn, funext hi]
  rfl

theorem checkLcWord_found (h : foundInvalid s = true) : foundInvalid (checkLcWord s) = true := by
  unfold checkLcWord
  split
  · exact h
  · exact invalidWord_found _ _ _ _

theorem restWord_found (s : State) (d : Domain) (which word dom : Nat) :
    foundInvalid (setRest (invalidWord s .keeper which word dom) d 2) = true := by
  rw [foundInvalid_of_mode ((setRest_restKept _ d 2).get _ (by decide))]
  exact invalidWord_found s which word dom

theorem checkRestWord_found (h : foundInvalid s = true) (d : Domain) : foundInvalid (checkRestWord s d) = true := by
  unfold checkRestWord
  dsimp only
  split
  · exact restWord_found _ _ _ _ _
  · exact h

theorem checkRestWords_found (l : List Domain) (h : foundInvalid s = true) : foundInvalid (l.foldl checkRestWord s) = true := by
  induction l generalizing s with
  | nil => exact h
  | cons d l ih => exact ih (checkRestWord_found h d)

/-- The rest word of a domain is none (R162). -/
abbrev restInvalid (s : State) (d : Domain) : Bool := (restOf (s.get (Ent.REST (domId d)))).isNone

theorem checkRestWord_valid (h : restInvalid s d = false) : checkRestWord s d = s := if_neg (Bool.eq_false_iff.1 h)

theorem checkRestWords_valid {l : List Domain} (h : ∀ d ∈ l, restInvalid s d = false) : l.foldl checkRestWord s = s := by
  induction l with
  | nil => rfl
  | cons d l ih =>
    rw [List.foldl_cons, checkRestWord_valid (h d (by simp))]
    exact ih fun d' hd => h d' (List.mem_cons_of_mem _ hd)

/-- Where no invalid word was found, every rest word was valid. -/
theorem restWords_of_found {l : List Domain} (h : foundInvalid (l.foldl checkRestWord s) = false) : ∀ d ∈ l, restInvalid s d = false := by
  induction l with
  | nil => exact fun _ hd => absurd hd (by simp)
  | cons d l ih =>
    rw [List.foldl_cons] at h
    have hd : restInvalid s d = false := by
      by_contra hx
      have hfound : foundInvalid (checkRestWord s d) = true := by
        rw [checkRestWord, if_pos (Bool.eq_true_of_not_eq_false hx)]
        exact restWord_found _ _ _ _ _
      exact Bool.false_ne_true (h.symm.trans (checkRestWords_found l hfound))
    rw [checkRestWord_valid hd] at h
    exact List.forall_mem_cons.2 ⟨hd, ih h⟩

/-- The words of a cycle are valid; a life-cycle word that is not has been found. -/
structure WordsValid (s : State) : Prop where
  mode : (modeOf (s.get Ent.MODE)).isNone = false
  base : (modeOf (s.get Ent.BASE_MODE)).isNone = false
  lc : (lcValid s || s.keeper.lcReported) = true
  rest : ∀ d ∈ allDomains, restInvalid s d = false

theorem WordsValid.checkMode (hm : (modeOf (s.get Ent.MODE)).isNone = false) (hb : (modeOf (s.get Ent.BASE_MODE)).isNone = false) :
    checkModeWords s = s := by
  unfold checkModeWords
  dsimp only
  rw [hm, if_neg Bool.false_ne_true, hb, if_neg Bool.false_ne_true]

theorem WordsValid.check (h : WordsValid s) : checkWords s = s := by
  rw [checkWords, WordsValid.checkMode h.mode h.base, checkLcWord, h.lc, if_pos rfl, checkRestWords_valid h.rest]

/-- A mode word that is valid, and no invalid word found: every word was valid. -/
theorem wordsValid_of_check (hm : (modeOf (s.get Ent.MODE)).isNone = false) (h : foundInvalid (checkWords s) = false) : WordsValid s := by
  have hbase : (modeOf (s.get Ent.BASE_MODE)).isNone = false := by
    by_contra hx
    have hfound : foundInvalid (checkModeWords s) = true := by
      unfold checkModeWords
      dsimp only
      rw [hm, if_neg Bool.false_ne_true, if_pos (Bool.eq_true_of_not_eq_false hx)]
      exact invalidWord_found _ _ _ _
    exact Bool.false_ne_true (h.symm.trans (checkRestWords_found _ (checkLcWord_found hfound)))
  rw [checkWords, WordsValid.checkMode hm hbase] at h
  have hlc : (lcValid s || s.keeper.lcReported) = true := by
    by_contra hx
    have hfound : foundInvalid (checkLcWord s) = true := by
      rw [checkLcWord, if_neg hx]
      exact invalidWord_found _ _ _ _
    exact Bool.false_ne_true (h.symm.trans (checkRestWords_found _ hfound))
  rw [checkLcWord, if_pos hlc] at h
  exact ⟨hm, hbase, hlc, restWords_of_found h⟩

/-- The count of a cycle changes no word. -/
theorem WordsValid.start (h : WordsValid s) : WordsValid (cycleStart s) := by
  have hd := cycleStart_dictKept s
  obtain ⟨-, hrows, hrep⟩ := passCycles_same s
  have hk := cycleStart_counts s
  have hrest : ∀ d, Ent.REST (domId d) / 256 ∉ cycleIdx := fun d => by cases d <;> decide
  refine ⟨?_, ?_, ?_, fun d hmem => ?_⟩
  · rw [hd.get _ (by decide)]
    exact h.mode
  · rw [hd.get _ (by decide)]
    exact h.base
  · rw [lcValid_of_rows (hk.lcRows.trans hrows), hk.lcReported, hrep]
    exact h.lc
  · rw [restInvalid, hd.get _ (hrest d)]
    exact h.rest d hmem

/-! ## The order of the two events -/

/-- The standing conditions and the two events of a cycle in the order of R82. -/
theorem modeCycle_alarmAndHush (s : State) (u : User) : modeCycle s [.hushRequest u, .backstop 2] =
    selftestWaiting (resetFaults (takeRequest (takeKinds (backstopCheck s) 2 false) u .hush)) := by
  have hr : List.range 12 = [0, 1, 2, 3, 4, 5, 6, 7, 8, 9, 10, 11] := by decide
  have hb : bit 2 3 = false := by decide
  simp [modeCycle, hr, standing, applyAt, eventPos, modeEvent, hb]

/-- ALARM for smoke, with a count of refused requests. -/
structure SmokeAlarm (n : Nat) (s : State) : Prop where
  mode : s.get Ent.MODE = modeCode .alarm
  kinds : s.get Ent.BS_ALARM = 2
  refused : s.get Ent.HUSH_REFUSED = n

theorem SmokeAlarm.put {e v : Nat} (h : SmokeAlarm n s) (he : Ent.MODE ≠ e ∧ Ent.BS_ALARM ≠ e ∧ Ent.HUSH_REFUSED ≠ e) : SmokeAlarm n (s.put e v) :=
  ⟨(State.get_put_ne s he.1 v).trans h.mode, (State.get_put_ne s he.2.1 v).trans h.kinds, (State.get_put_ne s he.2.2 v).trans h.refused⟩

/-- Between events ALARM stands. -/
theorem SmokeAlarm.afterEvent (h : SmokeAlarm n s) (src : Nat) : SmokeAlarm n (afterEvent s src) := by
  rw [afterEvent_off (by rw [modeIn_of h.mode]; decide) (backstopHolds_alarm h.mode)]
  exact h.put (by decide)

theorem SmokeAlarm.resetFaults (h : SmokeAlarm n s) : SmokeAlarm n (resetFaults s) := by
  have hset : ∀ (l : List Nat) (s : State), SmokeAlarm n s → SmokeAlarm n (l.foldl (fun s b => setFault s b 0x43) s) := by
    intro l
    induction l with
    | nil => exact fun _ h => h
    | cons b l ih =>
      refine fun s h => ih _ ?_
      show SmokeAlarm n (setFault s b 0x43)
      unfold setFault
      split
      · exact h
      · exact SmokeAlarm.afterEvent (h.put (by decide)) _
  exact hset _ s h

/-- A hush is refused while smoke is present (R140). -/
theorem SmokeAlarm.hushRefused (h : SmokeAlarm n s) (u : User) :
    SmokeAlarm (min (n + 1) (256 ^ entrySize Ent.HUSH_REFUSED - 1)) (takeRequest s u .hush) := by
  have hm : modeIn s [.alarm, .echo] = true := by rw [modeIn_of h.mode]; decide
  have hr : Machine.hushRefused s = true := by
    rw [Machine.hushRefused, h.kinds, Bool.or_eq_true]
    refine .inr ?_
    rw [bit, Nat.testBit_or]
    exact Bool.or_eq_true_iff.2 (.inl (by decide))
  have hnone : requestTo s u .hush = none := by simp [requestTo, hr]
  have hx : takeRequest s u .hush = s.bump Ent.HUSH_REFUSED := by
    rw [takeRequest, hnone]
    exact if_pos ⟨rfl, hm⟩
  rw [hx]
  exact ⟨(State.get_put_ne _ (by decide) _).trans h.mode, (State.get_put_ne _ (by decide) _).trans h.kinds,
    (State.bump_get_self _ _).trans (by rw [h.refused])⟩

/-- The indices of what is stored and counted before a backstop event changes the mode. -/
def kindsIdx : List Nat := 0x2415 :: recordIdx

/-- What a backstop report stores, counts and logs before it changes the mode. -/
def kindsNoted (s : State) (kinds : Nat) (noHush : Bool) : State :=
  let fresh := clearBits kinds (s.get Ent.BS_ALARM)
  let x := if s.get Ent.BS_ALARM = 0 ∧ kinds ≠ 0 then raise (kindsStored s kinds noHush) 0 else kindsStored s kinds noHush
  let x := [0, 1, 2].foldl (fun s i => if bit fresh i then s.bump (Ent.BS_TRIPS (i + 1)) else s) x
  if fresh = 0 then x
  else logKeeper x 0x11 0x45 ([byte fresh, byte kinds, byte ((modeNow x).map modeVal |>.getD 0)] ++ leBytes 2 (x.get Ent.BS_STATUS))

theorem takeKinds_eq (s : State) (kinds : Nat) (noHush : Bool) :
    takeKinds s kinds noHush = afterEvent (alarmEnds (backstopCheck (kindsNoted s kinds noHush))) 0x45 := rfl

theorem countTrips_kept (s : State) (f : Nat) :
    DictKept kindsIdx s ([0, 1, 2].foldl (fun s i => if bit f i then s.bump (Ent.BS_TRIPS (i + 1)) else s) s) := by
  have htrip : ∀ (t : State) (i : Nat), i ∈ [0, 1, 2] → DictKept kindsIdx t (if bit f i then t.bump (Ent.BS_TRIPS (i + 1)) else t) :=
    fun t i hi => .ite (put_dictKept t _ (by fin_cases hi <;> decide)) (.refl t)
  exact ((htrip _ 0 (by decide)).trans (htrip _ 1 (by decide))).trans (htrip _ 2 (by decide))

theorem kindsNoted_kept (s : State) (kinds : Nat) (noHush : Bool) : DictKept kindsIdx (kindsStored s kinds noHush) (kindsNoted s kinds noHush) := by
  have hr : ∀ t : State, DictKept kindsIdx t (raise t 0) := fun t => (raise_recorded t 0).mono (by decide)
  have hl : ∀ (t : State) (data : Bytes), DictKept kindsIdx t (logKeeper t 0x11 0x45 data) := fun t data => (logKeeper_recorded t _ _ data).mono (by decide)
  exact .trans (.trans (.ite (hr _) (.refl _)) (countTrips_kept _ _)) (.ite (.refl _) (hl _ _))

theorem kindsStored_get (s : State) (kinds : Nat) (noHush : Bool) {e : Nat} (he : e ≠ Ent.BS_ALARM) :
    (kindsStored s kinds noHush).get e = s.get e := State.get_put_ne s he kinds

/-- A smoke alarm of the backstop leads from SUPERVISE to ALARM (R84). -/
theorem takeKinds_alarms (hm : s.get Ent.MODE = modeCode .supervise) : SmokeAlarm (s.get Ent.HUSH_REFUSED) (takeKinds s 2 false) := by
  have hk := kindsNoted_kept s 2 false
  have hmode : (kindsNoted s 2 false).get Ent.MODE = modeCode .supervise :=
    (hk.get _ (by decide)).trans ((kindsStored_get s 2 false (by decide)).trans hm)
  have hkinds : (kindsNoted s 2 false).get Ent.BS_ALARM = 2 := (hk.get _ (by decide)).trans (State.get_put_self s _ 2)
  have hrefused : (kindsNoted s 2 false).get Ent.HUSH_REFUSED = s.get Ent.HUSH_REFUSED :=
    (hk.get _ (by decide)).trans (kindsStored_get s 2 false (by decide))
  have hholds : backstopHolds (kindsNoted s 2 false) = true := by
    rw [backstopHolds, hkinds, modeIn_of hmode]
    exact Bool.or_eq_true_iff.2 (.inl (by decide))
  have hkept := enterMode_kept (kindsNoted s 2 false) .alarm 0x45 (by decide)
  have halarm : SmokeAlarm (s.get Ent.HUSH_REFUSED) (enterMode (kindsNoted s 2 false) .alarm 0x45) :=
    ⟨enterMode_mode _ _ _, (hkept.get _ (by decide)).trans hkinds, (hkept.get _ (by decide)).trans hrefused⟩
  have hlocal : localAlarm (enterMode (kindsNoted s 2 false) .alarm 0x45) = true := by rw [localAlarm, halarm.kinds]; rfl
  rw [takeKinds_eq, backstopCheck, hholds, if_pos rfl, alarmEnds, hlocal, Bool.not_true, Bool.and_false, if_neg Bool.false_ne_true]
  exact halarm.afterEvent _

/-- Of the two events the alarm acts first. -/
theorem cycle_alarmFirst (hw : checkWords s = s) (hm : modeIs s .supervise = true) (hb : s.get Ent.BS_ALARM = 0) (u : User) :
    SmokeAlarm (min (s.get Ent.HUSH_REFUSED + 1) (256 ^ entrySize Ent.HUSH_REFUSED - 1)) (aonCycle s [.hushRequest u, .backstop 2]) := by
  have hmode := modeIs_iff.1 hm
  have hvalid : WordsValid s := wordsValid_of_check (by rw [hmode, modeOf_modeCode]; rfl) (by rw [hw, foundInvalid, modeIn_of hmode]; decide)
  have hd := cycleStart_dictKept s
  have hmode' : (cycleStart s).get Ent.MODE = modeCode .supervise := (hd.get _ (by decide)).trans hmode
  have hoff : backstopHolds (cycleStart s) = false := backstopHolds_clear ((hd.get _ (by decide)).trans hb) fun hh => by
    rw [modeIs_of hmode'] at hh
    exact absurd hh (by decide)
  have hcycle : aonCycle s [.hushRequest u, .backstop 2] = modeCycle (checkWords (cycleStart s)) [.hushRequest u, .backstop 2] := rfl
  rw [hcycle, hvalid.start.check, modeCycle_alarmAndHush, backstopCheck, hoff, if_neg Bool.false_ne_true,
    ← hd.get Ent.HUSH_REFUSED (by decide)]
  have h := ((takeKinds_alarms hmode').hushRefused u).resetFaults
  have htests : modeIn (resetFaults (takeRequest (takeKinds (cycleStart s) 2 false) u .hush)) selftestModes = false := by
    rw [modeIn_of h.mode]
    decide
  rw [selftestWaiting, htests, Bool.and_false, if_neg Bool.false_ne_true]
  exact h

/-- Settles O24, clause by clause. -/
theorem keeperCycle : Obligations.KeeperCycle := by
  intro s
  refine ⟨fun evs => answers_next rfl (cycle_counts s evs), fun hm hl hb hw => answers_next rfl ?_, fun u hc hm _ hb _ _ => answers_next rfl ?_⟩
  · have h := cycle_faults hm hl hb hw
    exact ⟨h.mode, h.cause, h.base⟩
  · have h := cycle_alarmFirst hc hm hb u
    exact ⟨h.mode, h.kinds, h.refused⟩

end Sys2Proof.Machine
end

/-! SUPPORT. Nothing that an instruction does writes the program buffer: one lemma per function that a load, a store or a CSR instruction calls, in the
order of the model. -/
section
namespace Sys2Proof.Machine
variable (s : State)

@[simp] theorem raise_core (n : Nat) : (raise s n).spindle.core = s.spindle.core := (raise_kept s n).aon.core
@[simp] theorem takeRequest_core (u : User) (g : ModeTarget) : (takeRequest s u g).spindle.core = s.spindle.core := (takeRequest_aonKept s u g).core
@[simp] theorem setFault_core (b src : Nat) : (setFault s b src).spindle.core = s.spindle.core := (setFault_aonKept s b src).core
@[simp] theorem clearFault_core (mask : Nat) : (clearFault s mask).spindle.core = s.spindle.core := (clearFault_aonKept s mask).core
@[simp] theorem refreshRelayed_core : (refreshRelayed s).spindle.core = s.spindle.core := (refreshRelayed_aonKept s).core
@[simp] theorem setAlarmFw_core (kinds : Nat) : (setAlarmFw s kinds).spindle.core = s.spindle.core := (setAlarmFw_aonKept s kinds).core
@[simp] theorem afterEvent_core (src : Nat) : (afterEvent s src).spindle.core = s.spindle.core := (afterEvent_aonKept s src).core
@[simp] theorem raiseDomain_core (source : Option Nat) (o d : Domain) : (raiseDomain s source o d).spindle.core = s.spindle.core :=
  (raiseDomain_cycleKept s source o d).core
@[simp] theorem wake_core (source : Nat) (more : List Domain) : (wake s source more).spindle.core = s.spindle.core := (wake_cycleKept s source more).core
@[simp] theorem setRest_core (d : Domain) (n : Nat) : (setRest s d n).spindle.core = s.spindle.core := (setRest_cycleKept s d n).core
@[simp] theorem onSbDie_core (d : Die) (f : SbDie → SbDie) : (onSbDie s d f).spindle.core = s.spindle.core := by simp
@[simp] theorem refuse_core (d : Domain) (w n : Nat) : (refuse s d w n).spindle.core = s.spindle.core := (refuse_cycleKept s d w n).core

@[simp] theorem setCmderr_progbuf (a : Nat) : (setCmderr s a).spindle.core.progbuf = s.spindle.core.progbuf := rfl

@[simp] theorem setX_progbuf (c : Core) (r : Nat) (v : Word) : (c.setX r v).progbuf = c.progbuf := by
  unfold Core.setX
  split <;> rfl

@[simp] theorem setReg_progbuf (rd : Nat) (v : Word) : (setReg s rd v).spindle.core.progbuf = s.spindle.core.progbuf := setX_progbuf _ _ _

@[simp] theorem takeReply_progbuf (a : Request) : (takeReply s a).1.spindle.core.progbuf = s.spindle.core.progbuf := by
  unfold takeReply
  (repeat' split) <;> simp

@[simp] theorem stage_progbuf (a : User) (b : Nat) (c : Nat) (d : Bytes) : (stage s a b c d).1.spindle.core.progbuf = s.spindle.core.progbuf := by
  unfold stage
  dsimp only
  (repeat' split) <;> simp

@[simp] theorem respond_core (q : Request) (c : Nat) (v : Bytes) : (respond s q c v).spindle.core = s.spindle.core := by rw [respond_spindle]

@[simp] theorem badExtension_progbuf (q : Request) : (badExtension s q).spindle.core.progbuf = s.spindle.core.progbuf := by
  unfold badExtension
  split <;> rw [respond_core]

@[simp] theorem demand_progbuf (a : Domain) : (demand s a).spindle.core.progbuf = s.spindle.core.progbuf := by simp [demand]

@[simp] theorem servedLast_progbuf (a : User) : (servedLast s a).spindle.core.progbuf = s.spindle.core.progbuf := rfl

@[simp] theorem setResponses_progbuf (a : User) (b : List Response) : (setResponses s a b).spindle.core.progbuf = s.spindle.core.progbuf := by simp [setResponses]

@[simp] theorem claimPlace_progbuf (a : Request) : (claimPlace s a).spindle.core.progbuf = s.spindle.core.progbuf := by
  unfold claimPlace
  dsimp only
  split_ifs <;> simp

@[simp] theorem rngDeliver_progbuf (a : RngUser) (b : List Word) : (rngDeliver s a b).spindle.core.progbuf = s.spindle.core.progbuf := by
  unfold rngDeliver
  split <;> simp

@[simp] theorem rngServe_progbuf (n : Nat) : (rngServe n s).spindle.core.progbuf = s.spindle.core.progbuf := by
  induction n generalizing s with
  | zero => rfl
  | succ n ih =>
    unfold rngServe
    split
    · rw [ih, rngDeliver_progbuf, State.onRng_spindle]
    · rfl

@[simp] theorem rngAsk_progbuf (a : RngUser) (b : Nat) : (rngAsk s a b).spindle.core.progbuf = s.spindle.core.progbuf := by simp [rngAsk]

@[simp] theorem askMask_progbuf (a : User) : (askMask s a).spindle.core.progbuf = s.spindle.core.progbuf := by
  unfold askMask
  split <;> simp

@[simp] theorem shaPush_progbuf (a : ShaJob) : (shaPush s a).1.spindle.core.progbuf = s.spindle.core.progbuf := by
  unfold shaPush
  dsimp only
  split_ifs <;> simp

@[simp] theorem queueJob_progbuf (q : Request) (g : Engine) : (queueJob s q g).spindle.core.progbuf = s.spindle.core.progbuf := by
  unfold queueJob
  cases g <;> dsimp only <;> split_ifs <;> simp

/-- A request performed keeps the program buffer where the state that its check has left does. -/
theorem perform_progbuf (q : Request) (r : State × Nat × Bytes) (h : r.1.spindle.core.progbuf = s.spindle.core.progbuf) :
    (perform s q r).spindle.core.progbuf = s.spindle.core.progbuf := by
  unfold perform
  split
  · split
    · exact queueJob_progbuf _ _ _
    · rw [respond_core, h]
  · rw [respond_core, h]

@[simp] theorem modeRequestTo_progbuf (a : User) (b : ModeTarget) (c : Mode) : (modeRequestTo s a b c).1.spindle.core.progbuf = s.spindle.core.progbuf := by
  unfold modeRequestTo
  split_ifs <;> simp

@[simp] theorem modeRequest_progbuf (a : User) (b : Nat) : (modeRequest s a b).1.spindle.core.progbuf = s.spindle.core.progbuf := by
  unfold modeRequest
  (repeat' split) <;> simp

@[simp] theorem commitService_progbuf : (commitService s).spindle.core.progbuf = s.spindle.core.progbuf := rfl

@[simp] theorem lcConfirm_progbuf (a : User) (b : Lc) : (lcConfirm s a b).1.spindle.core.progbuf = s.spindle.core.progbuf := by
  unfold lcConfirm
  split_ifs <;> simp

@[simp] theorem lcArm_progbuf (a : User) (b : Lc) : (lcArm s a b).1.spindle.core.progbuf = s.spindle.core.progbuf := by
  unfold lcArm
  split_ifs <;> simp

@[simp] theorem lcRequest_progbuf (a : User) (b : Nat) : (lcRequest s a b).1.spindle.core.progbuf = s.spindle.core.progbuf := by
  unfold lcRequest
  (repeat' split) <;> simp

@[simp] theorem dbgNew_progbuf (a : Nat) : (dbgNew s a).1.spindle.core.progbuf = s.spindle.core.progbuf := by
  unfold dbgNew
  dsimp only
  split_ifs <;> simp

@[simp] theorem dbgRecord_progbuf (a : User) (b : Nat) : (dbgRecord s a b).spindle.core.progbuf = s.spindle.core.progbuf := by simp [dbgRecord]

@[simp] theorem dbgForget_progbuf : (dbgForget s).spindle.core.progbuf = s.spindle.core.progbuf := rfl

@[simp] theorem dbgSig_progbuf (a : User) (b : Bytes) : (dbgSig s a b).1.spindle.core.progbuf = s.spindle.core.progbuf := by
  unfold dbgSig
  split <;> simp

@[simp] theorem optRequest_progbuf : (optRequest s).1.spindle.core.progbuf = s.spindle.core.progbuf := by
  unfold optRequest
  dsimp only
  split_ifs <;> simp

@[simp] theorem rise_progbuf (a : Domain) : (rise s a).spindle.core.progbuf = s.spindle.core.progbuf := by simp [rise]

@[simp] theorem pulseStep_progbuf : (pulseStep s).spindle.core.progbuf = s.spindle.core.progbuf := by simp [pulseStep]

@[simp] theorem coPulse_progbuf : (coPulse s).1.spindle.core.progbuf = s.spindle.core.progbuf := by
  unfold coPulse
  split <;> simp

@[simp] theorem hornCmd_progbuf (a : Bytes) : (hornCmd s a).1.spindle.core.progbuf = s.spindle.core.progbuf := by
  unfold hornCmd
  split_ifs <;> simp

@[simp] theorem logKeeperFirst_progbuf (a : Nat) (b : Nat) (c : Bytes) : (logKeeperFirst s a b c).spindle.core.progbuf = s.spindle.core.progbuf := by
  unfold logKeeperFirst
  split <;> simp

@[simp] theorem changeTime_progbuf (a : Nat) : (changeTime s a).spindle.core.progbuf = s.spindle.core.progbuf := by simp [changeTime]

@[simp] theorem loggedSet_progbuf (a : User) (b : Nat) (c : Nat) : (loggedSet s a b c).spindle.core.progbuf = s.spindle.core.progbuf := by simp [loggedSet]

@[simp] theorem timeSet_progbuf (a : User) (b : Nat) : (timeSet s a b).1.spindle.core.progbuf = s.spindle.core.progbuf := by
  unfold timeSet
  dsimp only
  split_ifs <;> simp

@[simp] theorem wdtStart_progbuf : (wdtStart s).spindle.core.progbuf = s.spindle.core.progbuf := rfl

@[simp] theorem wdtKick_progbuf : (wdtKick s).spindle.core.progbuf = s.spindle.core.progbuf := by
  unfold wdtKick
  split <;> simp

@[simp] theorem rollbackCommit_progbuf (a : User) (b : Nat) : (rollbackCommit s a b).1.spindle.core.progbuf = s.spindle.core.progbuf := by
  unfold rollbackCommit
  dsimp only
  split_ifs <;> simp

@[simp] theorem rotRecord_progbuf (a : User) (b : Nat) : (rotRecord s a b).spindle.core.progbuf = s.spindle.core.progbuf := by simp [rotRecord]

@[simp] theorem rotSig_progbuf (a : User) (b : Bytes) : (rotSig s a b).1.spindle.core.progbuf = s.spindle.core.progbuf := by
  unfold rotSig
  split_ifs <;> simp

@[simp] theorem keyRevoke0_progbuf (a : User) (b : Nat) : (keyRevoke0 s a b).1.spindle.core.progbuf = s.spindle.core.progbuf := by
  unfold keyRevoke0
  split_ifs <;> simp

@[simp] theorem onFlBus_progbuf (a : List FlashTx) : (onFlBus s a).spindle.core.progbuf = s.spindle.core.progbuf := rfl

@[simp] theorem flOp_progbuf (a : Nat) : (flOp s a).1.spindle.core.progbuf = s.spindle.core.progbuf := by
  unfold flOp
  dsimp only
  split_ifs <;> simp

@[simp] theorem canRestart_progbuf : (canRestart s).spindle.core.progbuf = s.spindle.core.progbuf := rfl

/-- Every state that an optional result holds has the program buffer of `s`. -/
def ProgKept (o : Option (State × Nat)) : Prop := ∀ r, o = some r → r.1.spindle.core.progbuf = s.spindle.core.progbuf

theorem progKept_some {r : State × Nat} (h : r.1.spindle.core.progbuf = s.spindle.core.progbuf) : ProgKept s (some r) :=
  fun _ hr => Option.some.inj hr ▸ h

theorem progKept_none : ProgKept s none := fun _ h => (Option.some_ne_none _ h.symm).elim

theorem progKept_ite {c : Prop} [Decidable c] {a b : Option (State × Nat)} (ha : ProgKept s a) (hb : ProgKept s b) :
    ProgKept s (if c then a else b) := by
  split <;> assumption

theorem actDevice_progKept (u : User) (e : Nat) (v : Bytes) : ProgKept s (actDevice s u e v) := by
  unfold actDevice
  refine progKept_ite s (progKept_some s (modeRequest_progbuf s _ _)) ?_
  refine progKept_ite s (progKept_some s (congrArg Core.progbuf (setFault_core s _ _))) ?_
  refine progKept_ite s (progKept_some s (lcRequest_progbuf s _ _)) ?_
  refine progKept_ite s (progKept_some s (dbgNew_progbuf s _)) ?_
  refine progKept_ite s (progKept_some s (dbgSig_progbuf s _ _)) ?_
  refine progKept_ite s (progKept_some s (optRequest_progbuf s)) ?_
  refine progKept_ite s (progKept_some s (coPulse_progbuf s)) ?_
  refine progKept_ite s (progKept_some s (hornCmd_progbuf s _)) ?_
  refine progKept_ite s (progKept_some s (timeSet_progbuf s _ _)) ?_
  refine progKept_ite s (progKept_some s (wdtKick_progbuf s)) ?_
  refine progKept_ite s (progKept_some s (rollbackCommit_progbuf s _ _)) ?_
  refine progKept_ite s (progKept_some s (rotSig_progbuf s _ _)) ?_
  refine progKept_ite s (progKept_some s (keyRevoke0_progbuf s _ _)) ?_
  refine progKept_ite s (progKept_some s (flOp_progbuf s _)) ?_
  exact progKept_ite s (progKept_some s (canRestart_progbuf s)) (progKept_none s)

@[simp] theorem reseed_progbuf (a : User) (b : Nat) : (reseed s a b).spindle.core.progbuf = s.spindle.core.progbuf := by
  unfold reseed
  split <;> simp

@[simp] theorem kdfDerive_progbuf (a : User) : (kdfDerive s a).1.spindle.core.progbuf = s.spindle.core.progbuf := by
  unfold kdfDerive
  split <;> simp

@[simp] theorem countBlocks_progbuf (a : User) (b : Nat) : (countBlocks s a b).spindle.core.progbuf = s.spindle.core.progbuf := by
  unfold countBlocks
  split <;> simp

@[simp] theorem aesStart_progbuf (a : User) : (aesStart s a).1.spindle.core.progbuf = s.spindle.core.progbuf := by
  unfold aesStart
  dsimp only
  split_ifs <;> simp

@[simp] theorem pageEnd_progbuf (a : User) : (pageEnd s a).1.spindle.core.progbuf = s.spindle.core.progbuf := by
  unfold pageEnd
  dsimp only
  split_ifs <;> simp

@[simp] theorem feedChunk_progbuf (a : User) (b : Bytes) : (feedChunk s a b).1.spindle.core.progbuf = s.spindle.core.progbuf := by
  unfold feedChunk
  dsimp only
  split_ifs <;> simp

@[simp] theorem aesIn_progbuf (a : User) (b : Bytes) : (aesIn s a b).1.spindle.core.progbuf = s.spindle.core.progbuf := by
  unfold aesIn
  dsimp only
  split_ifs <;> simp

@[simp] theorem answer_progbuf (a : Request) (b : Nat) (c : Bytes) : (answer s a b c).spindle.core.progbuf = s.spindle.core.progbuf := by
  unfold answer
  split_ifs <;> simp

@[simp] theorem respondJob_progbuf (a : Request) (b : Nat) (c : Bytes) : (respondJob s a b c).spindle.core.progbuf = s.spindle.core.progbuf := by
  unfold respondJob
  dsimp only
  split_ifs <;> simp

@[simp] theorem endJobs_progbuf (u : User) (n : Nat) : (endJobs s u n).spindle.core.progbuf = s.spindle.core.progbuf :=
  foldl_same (g := fun s => s.spindle.core.progbuf) _ _ fun _ _ => respondJob_progbuf _ _ _ _

@[simp] theorem clearPage_progbuf (a : User) : (clearPage s a).spindle.core.progbuf = s.spindle.core.progbuf := by simp [clearPage]

@[simp] theorem aesClear_progbuf (a : User) : (aesClear s a).1.spindle.core.progbuf = s.spindle.core.progbuf := by simp [aesClear]

@[simp] theorem aesMemGo_progbuf : (aesMemGo s).1.spindle.core.progbuf = s.spindle.core.progbuf := by
  unfold aesMemGo
  dsimp only
  split_ifs <;> simp

@[simp] theorem shaInit_progbuf (a : User) : (shaInit s a).1.spindle.core.progbuf = s.spindle.core.progbuf := by
  unfold shaInit
  split <;> simp

@[simp] theorem shaData_progbuf (a : User) (b : Bytes) : (shaData s a b).1.spindle.core.progbuf = s.spindle.core.progbuf := by
  unfold shaData
  split_ifs <;> simp

@[simp] theorem shaLast_progbuf (a : User) (b : Bytes) : (shaLast s a b).1.spindle.core.progbuf = s.spindle.core.progbuf := by
  unfold shaLast
  split_ifs <;> simp

@[simp] theorem shaMemGo_progbuf : (shaMemGo s).1.spindle.core.progbuf = s.spindle.core.progbuf := by
  unfold shaMemGo
  dsimp only
  split_ifs <;> simp

@[simp] theorem bnGo_progbuf (a : User) : (bnGo s a).1.spindle.core.progbuf = s.spindle.core.progbuf := by
  unfold bnGo
  dsimp only
  split_ifs <;> simp

@[simp] theorem bnFeed_progbuf (a : User) (b : Bytes) : (bnFeed s a b).spindle.core.progbuf = s.spindle.core.progbuf := rfl

@[simp] theorem bnMsg_progbuf (a : User) (b : Bytes) : (bnMsg s a b).1.spindle.core.progbuf = s.spindle.core.progbuf := by
  unfold bnMsg
  split <;> simp

@[simp] theorem bnMemGo_progbuf : (bnMemGo s).1.spindle.core.progbuf = s.spindle.core.progbuf := by
  unfold bnMemGo
  dsimp only
  split_ifs <;> simp

@[simp] theorem bnClear_progbuf (a : User) : (bnClear s a).1.spindle.core.progbuf = s.spindle.core.progbuf := by
  unfold bnClear
  dsimp only
  split_ifs <;> simp

theorem actCrypto_progKept (u : User) (e : Nat) (v : Bytes) : ProgKept s (actCrypto s u e v) := by
  unfold actCrypto
  refine progKept_ite s (progKept_some s (kdfDerive_progbuf s _)) ?_
  refine progKept_ite s (progKept_some s (aesStart_progbuf s _)) ?_
  refine progKept_ite s (progKept_some s (aesIn_progbuf s _ _)) ?_
  refine progKept_ite s (progKept_some s (aesClear_progbuf s _)) ?_
  refine progKept_ite s (progKept_some s (aesMemGo_progbuf s)) ?_
  refine progKept_ite s (progKept_some s (shaInit_progbuf s _)) ?_
  refine progKept_ite s (progKept_some s (shaData_progbuf s _ _)) ?_
  refine progKept_ite s (progKept_some s (shaLast_progbuf s _ _)) ?_
  refine progKept_ite s (progKept_some s (shaMemGo_progbuf s)) ?_
  refine progKept_ite s (progKept_some s (bnGo_progbuf s _)) ?_
  refine progKept_ite s (progKept_some s (bnMsg_progbuf s _ _)) ?_
  refine progKept_ite s (progKept_some s (bnMemGo_progbuf s)) ?_
  exact progKept_ite s (progKept_some s (bnClear_progbuf s _)) (progKept_none s)

@[simp] theorem claimFree_progbuf (a : Nat) : (claimFree s a).spindle.core.progbuf = s.spindle.core.progbuf := by simp [claimFree]

@[simp] theorem claimWrite_progbuf (a : User) (b : Nat) (c : Nat) : (claimWrite s a b c).1.spindle.core.progbuf = s.spindle.core.progbuf := by
  unfold claimWrite
  dsimp only
  split_ifs <;> simp

@[simp] theorem monoInc_progbuf (a : User) (b : Nat) : (monoInc s a b).1.spindle.core.progbuf = s.spindle.core.progbuf := by
  unfold monoInc
  dsimp only
  split_ifs <;> simp

@[simp] theorem releaseClaims_progbuf (u : User) : (releaseClaims s u).spindle.core.progbuf = s.spindle.core.progbuf := by
  unfold releaseClaims
  generalize claimGroups = groups
  refine foldl_same (g := fun s => s.spindle.core.progbuf) s _ fun t x => ?_
  split <;> simp

@[simp] theorem dropStaged_progbuf (a : User) : (dropStaged s a).spindle.core.progbuf = s.spindle.core.progbuf := rfl

@[simp] theorem dropWaiting_progbuf (a : User) (b : (Request → Bool)) : (dropWaiting s a b).spindle.core.progbuf = s.spindle.core.progbuf := rfl

@[simp] theorem dropRequests_progbuf (a : User) : (dropRequests s a).spindle.core.progbuf = s.spindle.core.progbuf := rfl

@[simp] theorem portReset_progbuf (a : Port) : (portReset s a).spindle.core.progbuf = s.spindle.core.progbuf := by simp [portReset]

@[simp] theorem hpReset_progbuf (a : Port) : (hpReset s a).spindle.core.progbuf = s.spindle.core.progbuf := by simp [hpReset]

@[simp] theorem refuse_progbuf (a : Domain) (b : Nat) (c : Nat) : (refuse s a b c).spindle.core.progbuf = s.spindle.core.progbuf := by simp [refuse]

@[simp] theorem restWrite_progbuf (a : Domain) (b : Nat) : (restWrite s a b).1.spindle.core.progbuf = s.spindle.core.progbuf := by
  unfold restWrite
  (repeat' split) <;> simp

@[simp] theorem actIndexed_progbuf (a : User) (b : Nat) (c : Bytes) : (actIndexed s a b c).1.spindle.core.progbuf = s.spindle.core.progbuf := by
  unfold actIndexed
  (repeat' split) <;> simp

@[simp] theorem action_progbuf (u : User) (e : Nat) (v : Bytes) : (action s u e v).1.spindle.core.progbuf = s.spindle.core.progbuf := by
  unfold action
  split
  next h => exact actDevice_progKept s u e v _ h
  next =>
    split
    next h => exact actCrypto_progKept s u e v _ h
    next => exact actIndexed_progbuf _ _ _ _

@[simp] theorem expKey_progbuf (a : User) : (expKey s a).1.spindle.core.progbuf = s.spindle.core.progbuf := by
  unfold expKey
  dsimp only
  split_ifs <;> simp

@[simp] theorem aesOut_progbuf (a : User) : (aesOut s a).1.spindle.core.progbuf = s.spindle.core.progbuf := by
  unfold aesOut
  split <;> simp

@[simp] theorem rngTake_progbuf (a : User) (b : Nat) : (rngTake s a b).1.spindle.core.progbuf = s.spindle.core.progbuf := by
  unfold rngTake
  dsimp only
  split_ifs <;> simp

@[simp] theorem readEntry_progbuf (a : User) (b : EntryRow) (c : Nat) : (readEntry s a b c).1.spindle.core.progbuf = s.spindle.core.progbuf := by
  unfold readEntry
  dsimp only
  (repeat' split) <;> simp

@[simp] theorem readAccess_progbuf (a : User) (b : Nat) (c : Nat) : (readAccess s a b c).1.spindle.core.progbuf = s.spindle.core.progbuf := by
  unfold readAccess
  dsimp only
  (repeat' split) <;> simp

@[simp] theorem onArb_progbuf (a : Nat) (b : (ArbRes → ArbRes)) : (onArb s a b).spindle.core.progbuf = s.spindle.core.progbuf := rfl

@[simp] theorem arbHold_progbuf (a : Nat) (b : Nat) : (arbHold s a b).spindle.core.progbuf = s.spindle.core.progbuf := rfl

@[simp] theorem assumed_progbuf (a : User) (b : Nat) (c : Nat) : (assumed s a b c).spindle.core.progbuf = s.spindle.core.progbuf := by
  unfold assumed
  (repeat' split) <;> simp

@[simp] theorem setResult_progbuf (a : User) (b : Nat) (c : Nat) (d : Nat) : (setResult s a b c d).spindle.core.progbuf = s.spindle.core.progbuf := rfl

@[simp] theorem actionAccess_progbuf (a : User) (b : EntryRow) (c : Nat) (d : Bytes) : (actionAccess s a b c d).1.spindle.core.progbuf = s.spindle.core.progbuf := by
  unfold actionAccess
  split_ifs <;> simp

@[simp] theorem writeRows_progbuf (ws : List (Nat × Nat)) : (writeRows s ws).spindle.core.progbuf = s.spindle.core.progbuf := by
  refine foldl_same (g := fun s => s.spindle.core.progbuf) _ _ fun t x => ?_
  dsimp only
  split <;> rfl

@[simp] theorem burn_progbuf (a : Nat) (b : Nat) : (burn s a b).spindle.core.progbuf = s.spindle.core.progbuf := rfl

@[simp] theorem sendShadow_progbuf : (sendShadow s).spindle.core.progbuf = s.spindle.core.progbuf :=
  foldl_same (g := fun s => s.spindle.core.progbuf) _ _ fun t x => by rw [sbQueue_spindle]

@[simp] theorem backstopSetDone_progbuf : (backstopSetDone s).spindle.core.progbuf = s.spindle.core.progbuf := by simp [backstopSetDone]

@[simp] theorem coStart_progbuf : (coStart s).spindle.core.progbuf = s.spindle.core.progbuf := by simp [coStart]

@[simp] theorem coTick_progbuf : (coTick s).spindle.core.progbuf = s.spindle.core.progbuf := by
  unfold coTick
  split_ifs <;> simp

@[simp] theorem raiseGas_progbuf : (raiseGas s).spindle.core.progbuf = s.spindle.core.progbuf := by
  unfold raiseGas
  split <;> simp

@[simp] theorem coEnabled_progbuf (a : Nat) (b : Nat) : (coEnabled s a b).spindle.core.progbuf = s.spindle.core.progbuf := by
  unfold coEnabled
  split <;> simp

@[simp] theorem writeOnce_progbuf (a : Nat) (b : Nat) : (writeOnce s a b).spindle.core.progbuf = s.spindle.core.progbuf := by
  unfold writeOnce
  dsimp only
  split_ifs <;> simp

@[simp] theorem noticed_progbuf (t : State) : (noticed s t).spindle.core.progbuf = t.spindle.core.progbuf := by
  unfold noticed
  split <;> rfl

@[simp] theorem baudWritten_progbuf (a : User) (b : Nat) : (baudWritten s a b).spindle.core.progbuf = s.spindle.core.progbuf := by
  unfold baudWritten
  split <;> simp

@[simp] theorem auxStart_progbuf : (auxStart s).spindle.core.progbuf = s.spindle.core.progbuf := by simp [auxStart]

@[simp] theorem auxTick_progbuf : (auxTick s).spindle.core.progbuf = s.spindle.core.progbuf := by
  unfold auxTick
  split_ifs <;> simp

@[simp] theorem ainChanged_progbuf (a : Nat) (b : Nat) : (ainChanged s a b).spindle.core.progbuf = s.spindle.core.progbuf := by
  unfold ainChanged
  split_ifs <;> simp

@[simp] theorem nodeIdWritten_progbuf : (nodeIdWritten s).spindle.core.progbuf = s.spindle.core.progbuf := rfl

@[simp] theorem canEnableWritten_progbuf (a : Nat) : (canEnableWritten s a).spindle.core.progbuf = s.spindle.core.progbuf := by
  unfold canEnableWritten
  split <;> simp

@[simp] theorem afterStore_progbuf (a : Nat) (b : Nat) (c : Nat) : (afterStore s a b c).spindle.core.progbuf = s.spindle.core.progbuf := by
  unfold afterStore
  split_ifs <;> simp

@[simp] theorem applyWrite_progbuf (a : User) (b : Nat) (c : Nat) : (applyWrite s a b c).spindle.core.progbuf = s.spindle.core.progbuf := by
  unfold applyWrite
  (repeat' split) <;> simp

@[simp] theorem applyWrites_progbuf (u : User) (ws : List (Nat × Nat)) : (applyWrites s u ws).spindle.core.progbuf = s.spindle.core.progbuf := by
  rw [applyWrites, writeRows_progbuf]
  exact foldl_same (g := fun s => s.spindle.core.progbuf) _ _ fun _ _ => applyWrite_progbuf _ _ _ _

@[simp] theorem applied_progbuf (a : User) (b : List (Nat × Nat)) (c : Bool) : (applied s a b c).spindle.core.progbuf = s.spindle.core.progbuf := by
  unfold applied
  split <;> simp

/-- The state of a write's verdict. -/
def Verdict.state : Verdict → State
  | .done t _ => t
  | .writes t _ _ => t

theorem commitAccess_progbuf (u : User) (v : Nat) : (commitAccess s u v).state.spindle.core.progbuf = s.spindle.core.progbuf := by
  unfold commitAccess
  dsimp only
  split_ifs
  · exact dropStaged_progbuf s u
  · rfl
  · split
    · exact (setResult_progbuf _ _ _ _ _).trans (dropStaged_progbuf s u)
    · exact dropStaged_progbuf s u

theorem writeAccess_progbuf (q : Request) : (writeAccess s q).state.spindle.core.progbuf = s.spindle.core.progbuf := by
  unfold writeAccess
  split
  · rfl
  · dsimp only
    split_ifs
    · rfl
    · exact commitAccess_progbuf _ _ _
    · rfl
    · exact actionAccess_progbuf _ _ _ _ _
    · rfl

@[simp] theorem serve_progbuf (q : Request) : (serve s q).spindle.core.progbuf = s.spindle.core.progbuf := by
  unfold serve
  split_ifs
  · exact badExtension_progbuf s q
  · exact perform_progbuf s q _ (readAccess_progbuf _ _ _ _)
  · rw [respond_core, stage_progbuf]
  · have hw := writeAccess_progbuf s q
    split
    next t c h =>
      rw [h] at hw
      exact perform_progbuf s q _ hw
    next t ws batch h =>
      rw [h] at hw
      split
      · rw [claimPlace_progbuf]
        exact hw
      · rw [respond_core, applied_progbuf]
        exact hw

@[simp] theorem raiseCore_progbuf : (raiseCore s).spindle.core.progbuf = s.spindle.core.progbuf := by
  unfold raiseCore
  split <;> simp

@[simp] theorem enqueue_progbuf (a : Request) : (enqueue s a).1.spindle.core.progbuf = s.spindle.core.progbuf := by
  unfold enqueue
  dsimp only
  split_ifs <;> simp

@[simp] theorem coreAsk_progbuf (a : Request) : (coreAsk s a).1.spindle.core.progbuf = s.spindle.core.progbuf := by
  unfold coreAsk
  dsimp only
  (repeat' split) <;> simp

@[simp] theorem setXfer_progbuf (a : Bool) (b : Region) : (setXfer s a b).spindle.core.progbuf = s.spindle.core.progbuf := rfl

/-- The state of an access. -/
def Access.state : Access → State
  | .ok t _ => t
  | .bad t _ => t
  | .wait t => t

theorem windowLoad_progbuf (user : Bool) (a : Word) : (windowLoad s user a).state.spindle.core.progbuf = s.spindle.core.progbuf := by
  have hask := coreAsk_progbuf s (coreReq user 1 (windowIdx 0x40000000 a.toNat) (windowSub 0x40000000 a.toNat) [] true)
  unfold windowLoad
  dsimp only
  split <;> rename_i heq <;> rw [heq] at hask
  · exact hask
  · split
    · exact hask
    · split
      · exact (setXfer_progbuf _ _ _).trans hask
      · exact hask
      · exact hask

@[simp] theorem flRead_progbuf (a : Nat) : (flRead s a).spindle.core.progbuf = s.spindle.core.progbuf := rfl

@[simp] theorem readMem_progbuf (a : Bool) (b : Nat) (c : Nat) : (readMem s a b c).1.spindle.core.progbuf = s.spindle.core.progbuf := by
  unfold readMem
  (repeat' split) <;> simp

theorem coreLoad_progbuf (user : Bool) (n : Nat) (a : Word) : (coreLoad s user n a).state.spindle.core.progbuf = s.spindle.core.progbuf := by
  unfold coreLoad
  split
  · rfl
  · split
    · exact windowLoad_progbuf s user a
    · exact readMem_progbuf s user n a.toNat

/-- The state of an instruction's end; the state before it where it ends in a trigger or in debug mode. -/
def Done.state (s : State) : Done → State
  | .retire t _ => t
  | .counted t _ => t
  | .exc t _ => t
  | .wait t => t
  | .trigger _ => s
  | .debug => s

theorem runLoad_progbuf (f3 rd : Nat) (a next : Word) (dbg : Bool) :
    ((runLoad s f3 rd a next dbg).state s).spindle.core.progbuf = s.spindle.core.progbuf := by
  have hload := coreLoad_progbuf s (accessUser s dbg) (accessSize f3) a
  unfold runLoad
  split
  · rfl
  · split <;> rename_i heq <;> rw [heq] at hload
    · exact (setReg_progbuf _ _ _).trans hload
    · exact hload
    · exact hload

theorem windowStore_progbuf (user : Bool) (op base : Nat) (a v : Word) :
    (windowStore s user op base a v).state.spindle.core.progbuf = s.spindle.core.progbuf := by
  have hask := coreAsk_progbuf s (coreReq user op (windowIdx base a.toNat) (windowSub base a.toNat)
    (storedValue s user (windowIdx base a.toNat) (windowSub base a.toNat) v).1
    (storedValue s user (windowIdx base a.toNat) (windowSub base a.toNat) v).2)
  unfold windowStore
  dsimp only
  split <;> rename_i heq <;> rw [heq] at hask
  · exact hask
  · split <;> exact hask

@[simp] theorem snoop_progbuf (a : Nat) (b : Nat) : (snoop s a b).spindle.core.progbuf = s.spindle.core.progbuf := by
  unfold snoop
  dsimp only
  split_ifs <;> simp

@[simp] theorem writeMem_progbuf (a : Bool) (b : Nat) (c : Bytes) : (writeMem s a b c).spindle.core.progbuf = s.spindle.core.progbuf := by
  unfold writeMem
  split <;> simp

theorem coreStore_progbuf (user : Bool) (n : Nat) (a v : Word) : (coreStore s user n a v).state.spindle.core.progbuf = s.spindle.core.progbuf := by
  unfold coreStore
  split
  · rfl
  · split
    · exact windowStore_progbuf s user 2 _ a v
    · exact windowStore_progbuf s user 3 _ a v
    · exact writeMem_progbuf s user _ _

theorem runStore_progbuf (f3 : Nat) (a v next : Word) (dbg : Bool) :
    ((runStore s f3 a v next dbg).state s).spindle.core.progbuf = s.spindle.core.progbuf := by
  have hstore := coreStore_progbuf s (accessUser s dbg) (accessSize f3) a v
  unfold runStore
  split
  · rfl
  · split <;> rename_i heq <;> rw [heq] at hstore <;> exact hstore

@[simp] theorem countInstr_progbuf : (countInstr s).spindle.core.progbuf = s.spindle.core.progbuf := by
  unfold countInstr
  rw [State.onCore_spindle]
  dsimp only
  split <;> rfl

@[simp] theorem setCodeLock_progbuf (a : Bool) : (setCodeLock s a).spindle.core.progbuf = s.spindle.core.progbuf := by
  unfold setCodeLock
  split <;> simp

@[simp] theorem writeSvctl_progbuf (a : Word) : (writeSvctl s a).spindle.core.progbuf = s.spindle.core.progbuf := by
  unfold writeSvctl
  split <;> simp

@[simp] theorem writeMpu_progbuf (a : Nat) (b : Word) : (writeMpu s a b).spindle.core.progbuf = s.spindle.core.progbuf := by
  unfold writeMpu
  dsimp only
  split_ifs <;> simp

@[simp] theorem writeStatus_progbuf (c : Core) (v : Word) : (c.writeStatus v).progbuf = c.progbuf := by
  unfold Core.writeStatus
  rfl

@[simp] theorem csrWrite_progbuf (c : Core) (a : Nat) (v : Word) (dbg : Bool) : (c.csrWrite a v dbg).progbuf = c.progbuf := by
  unfold Core.csrWrite
  simp only [apply_ite Core.progbuf, writeStatus_progbuf, ite_self]

@[simp] theorem writeCsr_progbuf (a : Nat) (v : Word) (dbg : Bool) : (writeCsr s a v dbg).spindle.core.progbuf = s.spindle.core.progbuf := by
  unfold writeCsr
  split_ifs
  · exact writeSvctl_progbuf s v
  · exact writeMpu_progbuf s a v
  · exact csrWrite_progbuf _ _ _ _

theorem runCsr_progbuf (f3 rd rs1 a word : Nat) (next : Word) (dbg : Bool) :
    ((runCsr s f3 rd rs1 a word next dbg).state s).spindle.core.progbuf = s.spindle.core.progbuf := by
  unfold runCsr
  dsimp only
  split
  · rfl
  · refine (setReg_progbuf _ _ _).trans ?_
    split
    · exact (writeCsr_progbuf _ _ _ _).trans (countInstr_progbuf s)
    · exact countInstr_progbuf s

/-- An instruction leaves the program buffer. -/
theorem runInstr_progbuf (i : Rv) (word : Nat) (next : Word) (dbg : Bool) :
    ((runInstr s i word next dbg).state s).spindle.core.progbuf = s.spindle.core.progbuf := by
  cases i
  case load f3 rd rs1 off => exact runLoad_progbuf s _ _ _ _ _
  case store f3 rs1 rs2 off => exact runStore_progbuf s _ _ _ _ _
  case csr f3 rd rs1 a => exact runCsr_progbuf s _ _ _ _ _ _ _
  case ebreak =>
    show ((runEbreak s).state s).spindle.core.progbuf = _
    unfold runEbreak
    split <;> rfl
  case mret =>
    show ((runMret s word).state s).spindle.core.progbuf = _
    unfold runMret
    split <;> rfl
  case wfi =>
    show ((runWfi s word next).state s).spindle.core.progbuf = _
    unfold runWfi
    split_ifs <;> rfl
  case branch => rfl
  case fence => rfl
  case fenceI => rfl
  case ecall => rfl
  all_goals exact setReg_progbuf _ _ _

@[simp] theorem debugExc_progbuf (a : Exc) : (debugExc s a).spindle.core.progbuf = s.spindle.core.progbuf := by
  unfold debugExc
  split_ifs <;> simp

end Sys2Proof.Machine
end

/-! SUPPORT. The debug module: the program buffer through a run, what entering and leaving debug mode sets (R235). -/
section
namespace Sys2Proof.Machine
variable (s : State)

/-! ## The program buffer through its own run -/

theorem progRun_progbuf (hw : List Nat) (k i : Nat) : (progRun hw k i s).spindle.core.progbuf = s.spindle.core.progbuf := by
  induction k generalizing s i with
  | zero => rfl
  | succ k ih =>
    unfold progRun
    split
    · rfl
    · split
      · rfl
      · rfl
      · exact ih s _
      · split
        · rfl
        · have hrun := runInstr_progbuf s ‹Rv› 0 0 true
          split <;> (try rename_i heq; rw [heq] at hrun)
          · exact (ih _ _).trans ((countInstr_progbuf _).trans hrun)
          · exact (ih _ _).trans hrun
          · exact (debugExc_progbuf _ _).trans hrun
          · exact hrun
          · rfl

/-! ## Entering and leaving debug mode -/

@[simp] theorem enterDebug_halted (n : Nat) : (enterDebug s n).spindle.core.halted = true := by simp [enterDebug]

@[simp] theorem enterDebug_dpc (n : Nat) : (enterDebug s n).spindle.core.dpc = s.spindle.core.pc := by simp [enterDebug]

@[simp] theorem enterDebug_gpr (n : Nat) : (enterDebug s n).spindle.core.gpr = s.spindle.core.gpr := by simp [enterDebug]

theorem enterDebug_coreState (n : Nat) : (enterDebug s n).get Ent.CORE_STATE = 4 := State.get_put_self _ _ _

theorem enterDebug_counted (n : Nat) : Counted s (enterDebug s n) Ent.DEBUG_HALTS := by
  rw [Counted, enterDebug, State.get_put_ne _ (by decide), State.bump_get_self]
  rfl

/-- The state in which the debugger's step executes its one instruction: debug mode left with dcsr.step set. -/
def stepping : State := (leaveDebug s).onCore fun c => { c with dcsr := c.dcsr ||| 4 }

theorem leaveDebug_core : (leaveDebug s).spindle.core = { s.spindle.core with
    halted := false, pc := s.spindle.core.dpc, user := bits s.spindle.core.dcsr.toNat 1 0 == 0, queue := [] } := by simp [leaveDebug]

theorem stepping_core : (stepping s).spindle.core = { s.spindle.core with
    halted := false, pc := s.spindle.core.dpc, user := bits s.spindle.core.dcsr.toNat 1 0 == 0, queue := [], dcsr := s.spindle.core.dcsr ||| 4 } := by
  simp [stepping, leaveDebug]

theorem stepping_lockedUp : (stepping s).spindle.lockedUp = s.spindle.lockedUp := by simp [stepping, leaveDebug]

theorem stepping_step : (stepping s).spindle.core.dcsr.getLsbD 2 = true := by simp [stepping]

@[simp] theorem takeIrq_dcsr (cause : Nat) : (takeIrq s cause).spindle.core.dcsr = s.spindle.core.dcsr := by simp [takeIrq, Core.enterTrap]

/-- While dcsr.step is 1 the hart is halted after an instruction, or locked up. -/
theorem stepHalt_ends (h : s.spindle.core.dcsr.getLsbD 2 = true) :
    (stepHalt s).spindle.core.halted = true ∨ (stepHalt s).spindle.lockedUp = true := by
  unfold stepHalt
  split_ifs with hc
  · exact .inl (enterDebug_halted s 4)
  · cases hh : s.spindle.core.halted
    · exact .inr (by simpa [h, hh] using hc)
    · exact .inl rfl

/-- A held halt request and the step both end an instruction in debug mode, with the next pc in dpc and the registers as they are. -/
theorem stepHalt_serveHalt (hstep : s.spindle.core.dcsr.getLsbD 2 = true) (hh : s.spindle.core.halted = false) (hl : s.spindle.lockedUp = false) :
    ∃ n, stepHalt (serveHalt s) = enterDebug s n := by
  cases ho : s.spindle.core.haltOwed
  · exact ⟨4, by simp [serveHalt, stepHalt, ho, hstep, hh, hl]⟩
  · exact ⟨3, by simp [serveHalt, stepHalt, ho, hh]⟩

/-- Nothing of the program buffer waits: a debug command starts at once. -/
theorem progResume_none (h : s.spindle.core.progAt = none) : progResume s = s := by simp [progResume, h]

theorem debugIdle_iff : debugIdle s = true ↔ debugReaches s = true ∧ s.spindle.core.halted = true ∧ s.spindle.core.progAt = none := by
  simp [debugIdle, and_assoc]

theorem debugReaches_lockedUp (h : debugReaches s = true) : s.spindle.lockedUp = false := by
  simp only [debugReaches, Bool.and_eq_true, Bool.not_eq_true'] at h
  exact h.1.2

theorem singleStep_eq (hr : debugReaches s = true) (hh : s.spindle.core.halted = true) (hp : s.spindle.core.progAt = none) :
    singleStep s = match dueIrq (stepping s) with
      | some cause => stepHalt (takeIrq (stepping s) cause)
      | none =>
        let t := stepInstr (stepping s) (fun _ => true) true
        if t.spindle.core.halted || t.spindle.lockedUp || t.spindle.core.asked.isSome then t else enterDebug t 4 := by
  have hidle := (debugIdle_iff s).2 ⟨hr, hh, hp⟩
  simp only [singleStep, progResume_none s hp, hidle]
  rfl

theorem singleStep_ends (hr : debugReaches s = true) (hh : s.spindle.core.halted = true) (hp : s.spindle.core.progAt = none) :
    (singleStep s).spindle.core.halted = true ∨ (singleStep s).spindle.lockedUp = true ∨ (singleStep s).spindle.core.asked.isSome = true := by
  rw [singleStep_eq s hr hh hp]
  split
  next cause _ =>
    have hstep : (takeIrq (stepping s) cause).spindle.core.dcsr.getLsbD 2 = true := by rw [takeIrq_dcsr, stepping_step]
    exact (stepHalt_ends _ hstep).imp_right .inl
  next =>
    dsimp only
    split_ifs with hc
    · simpa [or_assoc] using hc
    · exact .inl (enterDebug_halted _ 4)

/-! ## `addi x1, x0, 5`, the instruction of the step and of the program buffer -/

theorem decode32_addi : decode32 0x00500093 = some (.opImm 0 1 0 5) := by decide

theorem runInstr_addi (word : Nat) (next : Word) (dbg : Bool) :
    runInstr s (.opImm 0 1 0 5) word next dbg = .retire (setReg s 1 5) next := rfl

theorem setX_one (c : Core) (v : Word) (h : c.gpr.length = 31) : (c.setX 1 v).x 1 = v := by
  simp [Core.setX, Core.x, h]

theorem fetch_addi (h0 : fetchHalf s s.spindle.core.pc = .ok 0x0093) (h1 : fetchHalf s (s.spindle.core.pc + 2) = .ok 0x0050) :
    fetch s = .ok ⟨some (.opImm 0 1 0 5), 0x00500093, 4⟩ := by
  unfold fetch
  rw [h0]
  dsimp only
  rw [if_neg (by decide), h1]
  exact congrArg (fun d => Except.ok (Fetched.mk d 0x00500093 4)) decode32_addi

/-- The step of `addi x1, x0, 5` ends in debug mode, with 5 in x1 and the next pc in dpc. -/
theorem stepInstr_addi {p : Rv → Bool} {front : Bool} (hp : p (.opImm 0 1 0 5) = true) (ht : triggerHit s.spindle.core 0 s.spindle.core.pc = none)
    (hf : fetch s = .ok ⟨some (.opImm 0 1 0 5), 0x00500093, 4⟩) :
    stepInstr s p front = stepHalt (serveHalt ((countInstr (setReg (fillQueue s 4) 1 5)).onCore fun c => c.goto (s.spindle.core.pc + 4))) := by
  unfold stepInstr
  rw [ht, hf]
  dsimp only
  rw [if_pos hp, runInstr_addi]
  rfl

/-- Counting an instruction changes no field of the core but minstret. -/
theorem countInstr_core : ∃ n, (countInstr s).spindle.core = { s.spindle.core with minstret := n } := by
  refine ⟨if s.spindle.core.mcountinhibit.getLsbD 2 then s.spindle.core.minstret else s.spindle.core.minstret + 1, ?_⟩
  rw [countInstr, State.onCore_spindle]
  dsimp only
  split <;> rfl

theorem countInstr_lockedUp : (countInstr s).spindle.lockedUp = s.spindle.lockedUp := by rw [countInstr, State.onCore_spindle]

/-- The step of `addi x1, x0, 5` ends in debug mode, with 5 in x1 and the next pc in dpc. -/
theorem stepInstr_addi_enters {p : Rv → Bool} {front : Bool} (hp : p (.opImm 0 1 0 5) = true)
    (ht : triggerHit s.spindle.core 0 s.spindle.core.pc = none) (hf : fetch s = .ok ⟨some (.opImm 0 1 0 5), 0x00500093, 4⟩)
    (hstep : s.spindle.core.dcsr.getLsbD 2 = true) (hh : s.spindle.core.halted = false) (hl : s.spindle.lockedUp = false)
    (hlen : s.spindle.core.gpr.length = 31) :
    (stepInstr s p front).spindle.core.halted = true ∧ (stepInstr s p front).spindle.core.dpc = s.spindle.core.pc + 4 ∧
      (stepInstr s p front).spindle.core.x 1 = 5 := by
  obtain ⟨c, hc⟩ := countInstr_core (setReg (fillQueue s 4) 1 5)
  obtain ⟨n, hn⟩ := stepHalt_serveHalt ((countInstr (setReg (fillQueue s 4) 1 5)).onCore fun c => c.goto (s.spindle.core.pc + 4))
    (by rw [State.onCore_spindle, hc]; exact hstep) (by rw [State.onCore_spindle, hc]; exact hh)
    (by rw [State.onCore_spindle]; exact (countInstr_lockedUp _).trans hl)
  rw [stepInstr_addi s hp ht hf, hn]
  refine ⟨enterDebug_halted _ n, ?_, ?_⟩
  · rw [enterDebug_dpc, State.onCore_spindle]
    rfl
  · rw [Core.x, enterDebug_gpr, State.onCore_spindle, hc]
    exact setX_one s.spindle.core 5 hlen

/-! ## The program buffer with `addi x1, x0, 5` first -/

theorem progInstr_addi (v : Word) : progInstr (progHalves 0x00500093 v) 0 = (some (.opImm 0 1 0 5), 2) := by
  simp [progInstr, progHalves, decode32_addi]

theorem progInstr_ebreak : progInstr (progHalves 0x00500093 0x00100073) 2 = (some .ebreak, 2) := by decide

/-- The first instruction of the program buffer is `addi x1, x0, 5`; the second word's halfwords follow. -/
theorem progRun_addi (v : Word) : progRun (progHalves 0x00500093 v) 4 0 s = progRun (progHalves 0x00500093 v) 3 2 (countInstr (setReg s 1 5)) := by
  rw [progRun, if_neg (by simp [progHalves]), progInstr_addi]
  rfl

/-- An ebreak as the second word ends the program buffer. -/
theorem progRun_ebreak : progRun (progHalves 0x00500093 0x00100073) 3 2 s = s := by
  rw [progRun, if_neg (by simp [progHalves]), progInstr_ebreak]

end Sys2Proof.Machine
end

/-! CLAIMS. The debug module and the TAP (O36). -/
section
namespace Sys2Proof.Machine
variable {s : State}

theorem debugHalt_halts (hr : debugReaches s = true) (hh : s.spindle.core.halted = false) (hi : s.spindle.core.inEntry = false)
    (ha : s.spindle.core.asked = none) : debugHalt s = enterDebug s 3 := by simp [debugHalt, hr, hh, hi, ha]

theorem debugHalt_held (hr : debugReaches s = true) (hh : s.spindle.core.halted = false)
    (h : s.spindle.core.inEntry = true ∨ s.spindle.core.asked.isSome = true) :
    debugHalt s = s.onCore fun c => { c with haltOwed := true } := by simp [debugHalt, hr, hh, h]

theorem debugResume_leaves (hr : debugReaches s = true) (hh : s.spindle.core.halted = true) (hp : s.spindle.core.progAt = none) :
    debugResume s = leaveDebug s := by
  rw [debugResume, progResume_none s hp, if_pos ((debugIdle_iff s).2 ⟨hr, hh, hp⟩)]

theorem singleStep_addi (hr : debugReaches s = true) (hh : s.spindle.core.halted = true) (hp : s.spindle.core.progAt = none)
    (hirq : dueIrq (stepping s) = none) (ht : triggerHit (stepping s).spindle.core 0 (stepping s).spindle.core.pc = none)
    (h0 : fetchHalf (stepping s) (stepping s).spindle.core.pc = .ok 0x0093)
    (h1 : fetchHalf (stepping s) ((stepping s).spindle.core.pc + 2) = .ok 0x0050) (hlen : s.spindle.core.gpr.length = 31) :
    (singleStep s).spindle.core.halted = true ∧ (singleStep s).spindle.core.dpc = s.spindle.core.dpc + 4 ∧ (singleStep s).spindle.core.x 1 = 5 := by
  have hf := fetch_addi (stepping s) h0 h1
  have hstep := stepInstr_addi_enters (stepping s) (p := fun _ => true) (front := true) rfl ht hf (stepping_step s)
    (by rw [stepping_core]) ((stepping_lockedUp s).trans (debugReaches_lockedUp s hr)) (by rw [stepping_core]; exact hlen)
  obtain ⟨hhalt, hdpc, hx⟩ := hstep
  have hsingle : singleStep s = stepInstr (stepping s) (fun _ => true) true := by
    rw [singleStep_eq s hr hh hp, hirq]
    simp only [hhalt, Bool.true_or, if_true]
  rw [hsingle]
  exact ⟨hhalt, hdpc.trans (by rw [stepping_core]), hx⟩

/-- On the idle hart with no error an abstract command has its effect. -/
theorem abstractCommand_runs {a : Abstract} (hi : debugIdle s = true) (he : s.spindle.core.cmderr = 0) (ha : a ≠ .clearError) :
    abstractCommand s a = abstractRun s a := by
  obtain ⟨hr, hh, hp⟩ := (debugIdle_iff s).1 hi
  simp [abstractCommand, progResume_none s hp, hr, hh, hp, he, ha]

theorem abstractCommand_running {a : Abstract} (hr : debugReaches s = true) (hh : s.spindle.core.halted = false) (hp : s.spindle.core.progAt = none)
    (he : s.spindle.core.cmderr = 0) (ha : a ≠ .clearError) : abstractCommand s a = setCmderr s 4 := by
  simp [abstractCommand, progResume_none s hp, hr, hh, hp, he, ha]

theorem abstractCommand_error {a : Abstract} (hr : debugReaches s = true) (hp : s.spindle.core.progAt = none) (he : s.spindle.core.cmderr ≠ 0)
    (ha : a ≠ .clearError) : abstractCommand s a = s := by
  simp [abstractCommand, progResume_none s hp, hr, he, ha]

theorem abstractCommand_clearError (hr : debugReaches s = true) : abstractCommand s .clearError = setCmderr s 0 := by simp [abstractCommand, hr]

/-- The program buffer with `addi x1, x0, 5` and `ebreak`: 5 in x1, debug mode kept. -/
theorem abstractRun_addi_ebreak (hlen : s.spindle.core.gpr.length = 31) :
    (abstractRun s (.runProgram 0x00500093 0x00100073)).spindle.core.x 1 = 5 ∧
      (abstractRun s (.runProgram 0x00500093 0x00100073)).spindle.core.halted = s.spindle.core.halted ∧
      (abstractRun s (.runProgram 0x00500093 0x00100073)).spindle.core.cmderr = s.spindle.core.cmderr := by
  obtain ⟨n, hn⟩ := countInstr_core (setReg (s.onCore fun c => { c with progbuf := [0x00500093, 0x00100073] }) 1 5)
  rw [abstractRun, progRun_addi, progRun_ebreak, hn]
  exact ⟨setX_one s.spindle.core 5 hlen, rfl, rfl⟩

theorem abstractRun_program_progbuf (w0 w1 : Word) : (abstractRun s (.runProgram w0 w1)).spindle.core.progbuf = [w0, w1] :=
  progRun_progbuf _ _ _ _

/-- Settles O36, clause by clause of R235: a halt request, a resume and a step as the hart's state decides, the abstract commands by what stops them
and by their effect, the program buffer by the frame of its run, and the TAP. -/
theorem debugCommands : Obligations.DebugCommands := by
  unfold Obligations.DebugCommands
  intro s
  refine ⟨?_, ?_, ?_, ?_, ?_, ?_, ?_, ?_, ?_, ?_, ?_, ?_, ?_, ?_⟩
  · intro hr hh hi ha
    refine answers_next rfl ?_
    rw [debugHalt_halts hr hh hi ha]
    exact ⟨enterDebug_halted s 3, enterDebug_dpc s 3, enterDebug_coreState s 3, enterDebug_counted s 3⟩
  · intro hr hh h
    exact answers_next rfl (debugHalt_held hr hh h)
  · intro hr hh hp
    refine answers_next rfl ?_
    rw [debugResume_leaves hr hh hp, leaveDebug_core]
    exact ⟨rfl, rfl, rfl, State.get_put_self _ _ _⟩
  · intro hr hh hp
    exact answers_next rfl (singleStep_ends s hr hh hp)
  · rintro r hr hh hp rfl hirq ht h0 h1 hlen
    exact answers_next rfl (singleStep_addi hr hh hp hirq ht h0 h1 hlen)
  · intro a hr hh hp he ha
    exact answers_next rfl (abstractCommand_running hr hh hp he ha)
  · intro a hr hp he ha
    exact answers_next rfl (abstractCommand_error hr hp he ha)
  · intro hr
    exact answers_next rfl (abstractCommand_clearError hr)
  · intro n hi he hn
    refine answers_next rfl ?_
    rw [abstractCommand_runs hi he (by simp), abstractRun, if_pos hn]
    rfl
  · intro n v hi he hn
    refine answers_next rfl ?_
    rw [abstractCommand_runs hi he (by simp), abstractRun, if_pos hn]
    rfl
  · intro n v hi he hv
    refine answers_next rfl ?_
    rw [abstractCommand_runs hi he (by simp), abstractRun, hv]
    rfl
  · intro n v hi he hv
    refine answers_next rfl ?_
    rw [abstractCommand_runs hi he (by simp), abstractRun, if_pos hv]
  · intro v hi he hlen
    refine answers_next rfl ?_
    rw [abstractCommand_runs hi he (by simp)]
    refine ⟨abstractRun_program_progbuf _ _, ?_⟩
    rintro rfl
    obtain ⟨hx, hh, hc⟩ := abstractRun_addi_ebreak hlen
    obtain ⟨-, hhalted, -⟩ := (debugIdle_iff s).1 hi
    exact ⟨hx, hh.trans hhalted, hc.trans he⟩
  · intro n ha
    refine answers_next rfl ?_
    rw [if_pos ha]
    rfl

end Sys2Proof.Machine
end

section
/-! SUPPORT. Frames by what a command forgets: the rest of the state is as before up to what a function wipes out, and every entry outside given
indices is as before. One lemma per shared operation, for every frame that forgets what the operation changes. -/
namespace Sys2Proof.Machine
variable {F : State → State} {idx : List Nat} {s t r : State}

/-- Up to what `F` wipes out and up to the entries the state is as before, and so is every entry whose index is not listed. -/
structure FrameKept (F : State → State) (idx : List Nat) (s t : State) : Prop where
  rest : F { t with ent := [] } = F { s with ent := [] }
  ents : DictKept idx s t

theorem FrameKept.refl (s : State) : FrameKept F idx s s := ⟨rfl, .refl s⟩

theorem FrameKept.trans (h : FrameKept F idx s t) (g : FrameKept F idx t r) : FrameKept F idx s r :=
  ⟨g.rest.trans h.rest, h.ents.trans g.ents⟩

theorem FrameKept.ite {a b : State} {c : Prop} [Decidable c] (ha : FrameKept F idx s a) (hb : FrameKept F idx s b) :
    FrameKept F idx s (if c then a else b) := by
  split <;> assumption

theorem FrameKept.foldl {α : Type} {f : State → α → State} (h : ∀ s x, FrameKept F idx s (f s x)) (l : List α) (s : State) :
    FrameKept F idx s (l.foldl f s) := by
  induction l generalizing s with
  | nil => exact .refl s
  | cons x l ih => exact (h s x).trans (ih _)

/-- A command that leads to a state of its frame. -/
theorem leaves_of_frameKept {c : Instr} (f : State → State) (hc : ∀ s, exec c s = .next (f s)) (h : ∀ s, FrameKept F idx s (f s)) : Leaves c F idx := by
  rintro s t - ht
  obtain rfl : f s = t := Host.Outcome.next.inj ((hc s).symm.trans ht)
  exact ⟨(h s).rest, fun e he => ⟨(h s).ents.get e he, fun u => (h s).ents.getU e u he⟩⟩

/-- Without a store. -/
theorem FrameKept.noStore (hr : F { t with ent := [] } = F { s with ent := [] }) (he : t.ent = s.ent) (hj : t.keeper.jobs = s.keeper.jobs) :
    FrameKept F idx s t := ⟨hr, dictKept_of_ent he hj⟩

theorem put_frameKept (s : State) {e : Nat} (v : Nat) (h : e / 256 ∈ idx) : FrameKept F idx s (s.put e v) := ⟨rfl, put_dictKept s v h⟩
theorem putS_frameKept (s : State) {e : Nat} (v : Int) (h : e / 256 ∈ idx) : FrameKept F idx s (s.putS e v) := put_frameKept s _ h
theorem bump_frameKept (s : State) {e : Nat} (h : e / 256 ∈ idx) : FrameKept F idx s (s.bump e) := put_frameKept s _ h
theorem bumpBy_frameKept (s : State) {e : Nat} (n : Nat) (h : e / 256 ∈ idx) : FrameKept F idx s (s.bumpBy e n) := put_frameKept s _ h

theorem notePeak_frameKept (s : State) (q n : Nat) (h : Ent.Q_PEAK q / 256 ∈ idx) : FrameKept F idx s (notePeak s q n) :=
  .ite (put_frameKept s n h) (.refl s)

theorem noteFull_frameKept (s : State) (q : Nat) (h : Ent.Q_FULL q / 256 ∈ idx) : FrameKept F idx s (noteFull s q) :=
  .ite (bump_frameKept s h) (.refl s)

/-! ### One part of the state -/

theorem onSense_frameKept (s : State) (f : Sensing → Sensing) (h : ∀ s, F (s.onSense f) = F s) : FrameKept F idx s (s.onSense f) :=
  .noStore (h { s with ent := [] }) rfl rfl

theorem onRes_frameKept (s : State) (f : Results → Results) (h : ∀ s, F (s.onRes f) = F s) : FrameKept F idx s (s.onRes f) :=
  .noStore (h { s with ent := [] }) rfl rfl

theorem onBs_frameKept (s : State) (f : Backstop → Backstop) (h : ∀ s, F (s.onBs f) = F s) : FrameKept F idx s (s.onBs f) :=
  .noStore (h { s with ent := [] }) rfl rfl

theorem onHorn_frameKept (s : State) (f : Horn → Horn) (h : ∀ s, F (s.onHorn f) = F s) : FrameKept F idx s (s.onHorn f) :=
  .noStore (h { s with ent := [] }) rfl rfl

theorem onSpindle_frameKept (s : State) (f : Spindle → Spindle) (h : ∀ s, F (s.onSpindle f) = F s) : FrameKept F idx s (s.onSpindle f) :=
  .noStore (h { s with ent := [] }) rfl rfl

/-! ### The sideband -/

section
/-- The frame forgets the sideband. -/
abbrev ForgetsSb (F : State → State) : Prop := ∀ s f, F (s.onSb f) = F s

variable (hsb : ForgetsSb F)
include hsb

theorem onSb_frameKept (s : State) (f : Sideband → Sideband) : FrameKept F idx s (s.onSb f) := .noStore (hsb { s with ent := [] } f) rfl rfl

theorem onSbDie_frameKept (s : State) (d : Die) (f : SbDie → SbDie) : FrameKept F idx s (onSbDie s d f) := by
  cases d
  · exact onSb_frameKept hsb s fun b => { b with keeper := f b.keeper }
  · exact onSb_frameKept hsb s fun b => { b with flyer := f b.flyer }
  · exact onSb_frameKept hsb s fun b => { b with spindle := f b.spindle }

theorem sbQueue_frameKept (s : State) (d : Die) (ty dst : Nat) (p : Bytes) (hp : 0x120D ∈ idx) (hf : 0x120E ∈ idx) :
    FrameKept F idx s (sbQueue s d ty dst p) :=
  .ite ((onSbDie_frameKept hsb s d _).trans (.ite (.refl _) (notePeak_frameKept _ 4 _ hp))) (noteFull_frameKept s 4 hf)

end

/-! ### Notices (R71) -/

/-- The frame forgets the notices owed. -/
abbrev ForgetsNotices (F : State → State) : Prop :=
  ∀ s n c, F ((s.onKeeper fun x => { x with notices := n }).onCan fun x => { x with notices := c }) = F s

theorem noticed_frameKept (hn : ForgetsNotices F) (s t : State) : FrameKept F idx t (noticed s t) :=
  .ite (.refl t) (.noStore (hn { t with ent := [] } t.keeper.notices _) rfl rfl)

theorem setNotices_frameKept (hn : ForgetsNotices F) (s : State) (m : Nat) (hi : 0x100E ∈ idx) : FrameKept F idx s (setNotices s m) := by
  have hu (s : State) (u : User) : FrameKept F idx s (s.putU Ent.NOTICE_PENDING u (s.getU Ent.NOTICE_PENDING u ||| m)) :=
    ⟨rfl, putU_dictKept s u _ hi⟩
  exact (FrameKept.foldl hu users s).trans (noticed_frameKept hn _ _)

theorem raise_frameKept (hn : ForgetsNotices F) (s : State) (k : Nat) (hi : 0x100E ∈ idx) : FrameKept F idx s (raise s k) :=
  .ite (setNotices_frameKept hn s _ hi) (.ite (.refl s) (.noStore (hn { s with ent := [] } _ s.spindle.can.notices) rfl rfl))

/-! ### A domain of the flyer rises (R168 to R170) -/

/-- The frame forgets the flyer's sequencers of its domains. -/
abbrev ForgetsFlyDoms (F : State → State) : Prop := ∀ s l, F (s.onFlyer fun x => { x with doms := l }) = F s

/-- The indices of what a wake of a flyer domain may write: NOTICE_PENDING, REFUSALS, LAST_REFUSER, LAST_REFUSAL, LAST_WAKE. -/
abbrev riseIdx : List Nat := [0x100E, 0x1102, 0x1103, 0x1106, 0x1107]

theorem rise_frameKept (hn : ForgetsNotices F) (hd : ForgetsFlyDoms F) (hi : riseIdx ⊆ idx) {d : Domain} (hf : isFlyerDom d = true) (s : State) :
    FrameKept F idx s (rise s d) := by
  have hx (s : State) : FrameKept F idx s (beginExit s d (some 0x0C)) := by
    have h : FrameKept F idx s (onFlyDom s d fun x => { x with state := 4 }) := .noStore (hd { s with ent := [] } _) rfl rfl
    rw [beginExit_flyer s hf]
    exact h.trans (put_frameKept _ _ (hi (by revert hf; cases d <;> decide)))
  have hr (s : State) (w n : Nat) : FrameKept F idx s (refuse s d w n) := by
    have h1 : FrameKept F idx s (s.bump (Ent.REFUSALS (domId d))) := bump_frameKept s (hi (by revert hf; cases d <;> decide))
    have h2 := h1.trans (put_frameKept _ (e := Ent.LAST_REFUSER (domId d)) w (hi (by revert hf; cases d <;> decide)))
    exact (h2.trans (put_frameKept _ _ (hi (by decide)))).trans (raise_frameKept hn _ _ (hi (by decide)))
  unfold rise raiseDomain
  split
  · obtain ⟨h1, h2, h3⟩ := isFlyerDom_ne hf
    rw [if_neg (by simp [h1, h2, h3])]
    exact (hr s _ _).trans (hx _)
  · exact hx s
  · exact hx s
  · exact .refl s

/-! ### BACKSTOP_ALARM (R136) -/

/-- The frame forgets which bits BACKSTOP_ALARM has sent. -/
abbrev ForgetsSentBits (F : State → State) : Prop := ∀ s n, F (s.onBs fun b => { b with lastSent := n }) = F s

section
variable (hsb : ForgetsSb F) (hl : ForgetsSentBits F) (hp : 0x120D ∈ idx) (hf : 0x120E ∈ idx)
include hsb hl hp hf

theorem sendBackstop_frameKept (s : State) : FrameKept F idx s (sendBackstop s) :=
  (sbQueue_frameKept hsb s .flyer 1 3 _ hp hf).trans (onBs_frameKept _ _ fun s => hl s _)

theorem backstopReport_frameKept (s : State) : FrameKept F idx s (backstopReport s) := .ite (.refl s) (sendBackstop_frameKept hsb hl hp hf s)

theorem backstopEvaluated_frameKept (ho : ∀ s, F (s.onBs fun b => { b with owed := false }) = F s) (s : State) :
    FrameKept F idx s (backstopEvaluated s) :=
  .ite ((sendBackstop_frameKept hsb hl hp hf s).trans (onBs_frameKept _ _ ho)) (backstopReport_frameKept hsb hl hp hf s)

end

/-! ### A monitor's alert (R304 to R306) -/

/-- The frame forgets the monitors' conditions, their records' times and the log write queue. -/
abbrev ForgetsAlerts (F : State → State) : Prop :=
  ∀ s a l q c, F (s.onLog fun x => { x with active := a, lastAt := l, queue := q, since := c }) = F s

/-- The indices of what an alert and its record may write. -/
abbrev monitorIdx : List Nat := [0x100E, 0x120D, 0x120E, 0x2602, 0x4000, 0x4001, 0x4002, 0x4003, 0x4004, 0x4106, 0x5309]

theorem monitorEnd_frameKept (ha : ForgetsAlerts F) (s : State) (ty inst : Nat) : FrameKept F idx s (monitorEnd s ty inst) :=
  .noStore (ha { s with ent := [] } _ s.log.lastAt s.log.queue s.log.since) rfl rfl

section
variable (hn : ForgetsNotices F) (hsb : ForgetsSb F) (ha : ForgetsAlerts F) (hi : monitorIdx ⊆ idx)
include hi

theorem countSummary_frameKept (s : State) (ty : Nat) (d : Bytes) : FrameKept F idx s (countSummary s ty d) := by
  have hs : FrameKept F idx s (stSigned s ty) := .ite (put_frameKept s _ (hi (by decide))) (.refl s)
  have hc : recClass ty d < 6 := by unfold recClass; dsimp only; split_ifs <;> omega
  have he : Ent.LOG_SUMMARY (recClass ty d) / 256 = 0x4106 := by unfold Ent.LOG_SUMMARY; omega
  exact .ite hs (hs.trans (bump_frameKept _ (hi (by rw [he]; decide))))

include hn in
theorem alertFlags_frameKept (s : State) {ty : Nat} (ht : ty ≤ 0x100) (inst kind : Nat) : FrameKept F idx s (alertFlags s ty inst kind) := by
  have h1 : FrameKept F idx s (s.setBits Ent.TAMPER_FLAGS (2 ^ (ty - 0x40))) := put_frameKept s _ (hi (by decide))
  have he : Ent.TAMPER_COUNT (ty - 0x40 + 1) / 256 = 0x4001 := by unfold Ent.TAMPER_COUNT; omega
  have h2 := h1.trans (bump_frameKept _ (e := Ent.TAMPER_COUNT (ty - 0x40 + 1)) (hi (by rw [he]; decide)))
  exact ((h2.trans (put_frameKept _ _ (hi (by decide)))).trans (put_frameKept _ _ (hi (by decide)))).trans (raise_frameKept hn _ _ (hi (by decide)))

include ha in
theorem logKeeper_frameKept (s : State) (ty src : Nat) (d : Bytes) : FrameKept F idx s (logKeeper s ty src d) := by
  have hq : FrameKept F idx s (s.onLog fun l => { l with queue := l.queue ++ [⟨ty, src, fitBytes 12 d, true⟩] }) :=
    .noStore (ha { s with ent := [] } s.log.active s.log.lastAt _ s.log.since) rfl rfl
  exact .ite (hq.trans (notePeak_frameKept _ 2 _ (hi (by decide))))
    ((noteFull_frameKept s 2 (hi (by decide))).trans (countSummary_frameKept hi _ _ _))

include hsb in
theorem logDie_frameKept (s : State) (d : Die) (ty src : Nat) (b : Bytes) : FrameKept F idx s (logDie s d ty src b) :=
  .ite ((onSbDie_frameKept hsb s d _).trans (.ite (.refl _) (notePeak_frameKept _ 5 _ (hi (by decide)))))
    ((noteFull_frameKept s 5 (hi (by decide))).trans (bump_frameKept _ (hi (by decide))))

include ha hsb

theorem record_frameKept (s : State) (d : Die) (ty src : Nat) (b : Bytes) : FrameKept F idx s (record s d ty src b) := by
  cases d
  · exact logKeeper_frameKept ha hi s ty src b
  · exact logDie_frameKept hsb hi s .flyer ty src b
  · exact logDie_frameKept hsb hi s .spindle ty src b

theorem alertRecord_frameKept (s : State) (d : Die) (ty src : Nat) (f : Nat → Bytes) : FrameKept F idx s (alertRecord s d ty src f) := by
  have hlog (a l c) : FrameKept F idx s (s.onLog fun x => { x with active := a, lastAt := l, since := c }) :=
    .noStore (ha { s with ent := [] } a l s.log.queue c) rfl rfl
  have hcount := hlog s.log.active s.log.lastAt (sparseSet 0 ty (sparseGet 0 ty s.log.since + 1) s.log.since)
  unfold alertRecord
  dsimp only
  split_ifs
  · exact hcount.trans (bump_frameKept _ (hi (by decide)))
  · exact hcount.trans (record_frameKept hsb ha hi _ d ty src _)
  · exact (hlog s.log.active _ _).trans (record_frameKept hsb ha hi _ d ty src _)

include hn

theorem monitorAlert_frameKept (s : State) (d : Die) {ty : Nat} (ht : ty ≤ 0x100) (inst kind src : Nat) (v w : Int) (z : Bool) :
    FrameKept F idx s (monitorAlert s d ty inst kind src v w z) := by
  have hb : FrameKept F idx s (s.onLog fun l => { l with active := l.active ++ [(ty, inst)] }) :=
    .noStore (ha { s with ent := [] } _ s.log.lastAt s.log.queue s.log.since) rfl rfl
  exact .ite (.refl s) ((hb.trans (alertFlags_frameKept hn hi _ ht _ _)).trans (alertRecord_frameKept hsb ha hi _ d ty src _))

theorem temperatureCheck_frameKept (s : State) (d : Die) (inst : Nat) (x : Int) : FrameKept F idx s (temperatureCheck s d inst x) :=
  .ite (monitorAlert_frameKept hn hsb ha hi s d (by decide) _ _ _ _ _ _)
    (.ite (monitorAlert_frameKept hn hsb ha hi s d (by decide) _ _ _ _ _ _) (monitorEnd_frameKept ha s _ _))

theorem clkFlyCheck_frameKept (s : State) (hz : Nat) : FrameKept F idx s (clkFlyCheck s hz) :=
  .ite (monitorAlert_frameKept hn hsb ha hi s _ (by decide) _ _ _ _ _ _)
    (.ite (monitorAlert_frameKept hn hsb ha hi s _ (by decide) _ _ _ _ _ _) (monitorEnd_frameKept ha s _ _))

end

/-! ### A STATUS flit (R25, R110) -/

/-- The frame forgets what the sending and the arrival of a flit change: the lanes, the results in flight with their mark, and the delivered measurement. -/
structure ForgetsDelivery (F : State → State) : Prop where
  lane : ∀ s l f, F (onLane s l f) = F s
  burst : ∀ s c w, F (s.onPly fun p => { p with carry := c, written := w }) = F s
  flights : ∀ s l m o, F (s.onRes fun r => { r with flight := l, mark := m, opt := o }) = F s
  buffer : ∀ s b, F (s.onSense fun x => { x with buf := b }) = F s

/-- Results that are acknowledged change the list of those in flight and the mark. -/
theorem ackFlights_eq (r : Results) (l : Lane) (n : Nat) :
    ackFlights r l n = { r with flight := (ackFlights r l n).flight, mark := (ackFlights r l n).mark } := by
  have hu (r : Results) (f : Flight) : unmark r f = { r with flight := (unmark r f).flight, mark := (unmark r f).mark } := by
    unfold unmark; split
    · split <;> rfl
    · rfl
  have hf (fs : List (Lane × Nat × Flight)) (r : Results) : fs.foldl (fun r x => unmark r x.2.2) r =
      { r with flight := (fs.foldl (fun r x => unmark r x.2.2) r).flight, mark := (fs.foldl (fun r x => unmark r x.2.2) r).mark } := by
    induction fs generalizing r with
    | nil => rfl
    | cons x fs ih => rw [List.foldl_cons, ih, hu]
  exact hf _ _

section
variable (hd : ForgetsDelivery F)
include hd

theorem onLane_frameKept (s : State) (l : Lane) (f : LaneState → LaneState) : FrameKept F idx s (onLane s l f) :=
  .noStore (hd.lane { s with ent := [] } l f) rfl rfl

theorem ackLane_frameKept (s : State) (l : Lane) (n : Nat) : FrameKept F idx s (ackLane s l n) := by
  have h := congrArg (fun r => (onLane s l (ackTo n)).onRes fun _ => r) (ackFlights_eq s.flyer.res l n)
  rw [ackLane_eq]
  exact (onLane_frameKept hd s l (ackTo n)).trans (.noStore ((congrArg (fun t => F { t with ent := [] }) h).trans
    (hd.flights { onLane s l (ackTo n) with ent := [] } _ _ s.flyer.res.opt)) rfl rfl)

theorem ackReverse_frameKept (s : State) (l : Lane) : FrameKept F idx s (ackReverse s l) := by
  cases l
  · exact ackLane_frameKept hd _ _ _
  · exact ackLane_frameKept hd _ _ _
  · exact (ackLane_frameKept hd _ _ _).trans (ackLane_frameKept hd _ _ _)

theorem releaseDelivered_frameKept (s : State) : FrameKept F idx s (releaseDelivered s) := by
  have hb : FrameKept F idx s (s.onPly fun p => { p with carry := false, written := false }) :=
    .noStore (hd.burst { s with ent := [] } false false) rfl rfl
  have hm := hb.trans (onSense_frameKept _ (fun x => { x with buf := none }) fun s => hd.buffer s none)
  exact .ite (hm.trans (.noStore (hd.flights { s with ent := [], ply := _, flyer := _ } s.flyer.res.flight s.flyer.res.mark _) rfl rfl)) (.refl s)

theorem arrive_frameKept (hi : 0x5300 ∈ idx) (s : State) (l : Lane) : FrameKept F idx s (arrive s l) := by
  have h1 := (onLane_frameKept hd s l fun x => { x with recv := x.recv + 1 }).trans (ackReverse_frameKept (idx := idx) hd _ l)
  exact (h1.trans (releaseDelivered_frameKept hd _)).trans (.ite (put_frameKept _ _ hi) (.refl _))

theorem sendFlit_frameKept (hi : 0x5305 ∈ idx) (s : State) (l : Lane) (g : SentFlit) : FrameKept F idx s (sendFlit s l g) := by
  have h (f : LaneState → LaneState) : FrameKept F idx s (onLane (s.bump Ent.PLY_FLITS) l f) := (bump_frameKept s hi).trans (onLane_frameKept hd _ l f)
  exact .ite ((h _).trans (ackLane_frameKept hd _ l _)) (h _)

/-- A STATUS flit of a kind leaves the frame of its result, where that forgets the kind's slot and what waits for the result unit. -/
theorem statusArrives_frameKept {kind : Nat} (hi : 0x5300 ∈ idx ∧ 0x5305 ∈ idx) (hq : ∀ s q, F (s.onSpindle fun x => { x with stq := q }) = F s)
    (hk : ∀ s x, takeResult s.flyer.res kind = some x → ∀ l, F (s.onRes fun _ => { x.1 with flight := l }) = F s)
    (hu : ∀ s p f, statusOf kind p = some f → FrameKept F idx s (resultUnit s f)) (s : State) (lane : Lane) :
    FrameKept F idx s (statusArrives s lane kind) := by
  have hs : ∀ t g, nextFlit s lane (.status kind) = some (t, g) → FrameKept F idx s t := by
    intro t g h
    unfold nextFlit at h
    dsimp only at h
    split at h
    · obtain ⟨rfl, -⟩ := Prod.mk.inj (Option.some.inj h)
      exact .refl s
    · have h := (Option.ite_none_right_eq_some.1 h).2
      unfold source at h
      obtain ⟨x, hx, h⟩ := Option.map_eq_some_iff.1 (Option.ite_none_left_eq_some.1 (Option.ite_none_left_eq_some.1 h).2).2
      obtain ⟨rfl, -⟩ := Prod.mk.inj h
      exact .noStore (hk { s with ent := [] } x hx _) rfl rfl
  have ht (s : State) (g : SentFlit) (hg : g.tag / 256 = kind) : FrameKept F idx s (takeStatus s g) := by
    unfold takeStatus
    split
    · rename_i f hf
      exact .ite (onSpindle_frameKept s _ fun s => hq s _) (hu s _ f (hg ▸ hf))
    · exact .refl s
  unfold statusArrives flitArrives
  split_ifs
  · exact .refl s
  · exact .refl s
  · split
    · rename_i t g hn
      split_ifs with hg
      · simp only [isOf, Bool.and_eq_true, beq_iff_eq] at hg
        exact (((hs t g hn).trans (sendFlit_frameKept hd hi.2 t lane g)).trans (arrive_frameKept hd hi.1 _ lane)).trans (ht _ g hg.2)
      · exact .refl s
    · exact .refl s

end

end Sys2Proof.Machine
end

section
/-! CLAIMS. What the sensing, horn and result commands leave unchanged (R22 to R36, R104 to R122, R143 to R149). -/
namespace Sys2Proof.Machine
variable {F : State → State} {idx : List Nat}

/-! ## Measurements and conversions -/

section
variable (hn : ForgetsNotices F) (hd : ForgetsFlyDoms F) (hi : riseIdx ⊆ idx)
include hn hd hi

theorem optTick_frameKept (hs : ∀ s o w r b, F (s.onSense fun x => { x with opt := o, optWaiting := w, reqAccepted := r, reqBegan := b }) = F s)
    (s : State) (mv : Nat) : FrameKept F idx s (optTick s mv) := by
  have hw : FrameKept F idx s (s.onSense fun x => { x with optWaiting := some mv }) :=
    .noStore (hs { s with ent := [] } s.flyer.sense.opt (some mv) s.flyer.sense.reqAccepted s.flyer.sense.reqBegan) rfl rfl
  have hr : FrameKept F idx s (rise s .opt) := rise_frameKept hn hd hi rfl s
  exact .ite (.refl s) (.ite hw (hr.trans (.noStore (hs { rise s .opt with ent := [] } _ (rise s .opt).flyer.sense.optWaiting _ _) rfl rfl)))

section
variable (hs : ∀ s v w, F (s.onSense fun x => { x with heat := v, heatWait := w }) = F s)
include hs

theorem heatStart_frameKept (s : State) : FrameKept F idx s (heatStart s) :=
  (rise_frameKept hn hd hi rfl s).trans (onSense_frameKept _ _ fun s => hs s _ _)

theorem heatTick_frameKept (s : State) : FrameKept F idx s (heatTick s) :=
  .ite (.refl s) (.ite (.noStore (hs { s with ent := [] } s.flyer.sense.heat true) rfl rfl) (heatStart_frameKept hn hd hi hs s))

theorem heatComplete_frameKept (hr : ∀ s v n, F (s.onRes fun r => { r with heat := v, heatN := n }) = F s) (hb : ∀ s f, F (s.onBs f) = F s)
    (hsb : ForgetsSb F) (hq : 0x120D ∈ idx ∧ 0x120E ∈ idx) (s : State) (code : Nat) : FrameKept F idx s (heatComplete s code) := by
  unfold heatComplete
  split
  · exact .refl s
  · have h (v) := (hs _ none s.flyer.sense.heatWait).trans (hr { s with ent := [] } v (s.flyer.res.heatN + 1))
    refine .trans ?_ (.ite (heatStart_frameKept hn hd hi hs _) (.refl _))
    refine .trans ?_ (backstopEvaluated_frameKept hsb (fun s _ => hb s _) hq.1 hq.2 (fun s => hb s _) _)
    refine .trans ?_ (onBs_frameKept _ _ fun s => hb s _)
    exact .noStore (h _) rfl rfl

end

section
variable (hs : ∀ s v w, F (s.onSense fun x => { x with co := v, coWait := w }) = F s)
include hs

theorem coStart_frameKept (s : State) : FrameKept F idx s (coStart s) :=
  (rise_frameKept hn hd hi rfl s).trans (onSense_frameKept _ _ fun s => hs s _ _)

theorem coTick_frameKept (s : State) : FrameKept F idx s (coTick s) :=
  .ite (.refl s) (.ite (.noStore (hs { s with ent := [] } s.flyer.sense.co true) rfl rfl) (coStart_frameKept hn hd hi hs s))

end

theorem coComplete_frameKept (hs : ∀ s v w p, F (s.onSense fun x => { x with co := v, coWait := w, pulseResult := p }) = F s)
    (hr : ∀ s v n, F (s.onRes fun r => { r with co := v, coN := n }) = F s) (hb : ∀ s f, F (s.onBs f) = F s)
    (hsb : ForgetsSb F) (hq : 0x120D ∈ idx ∧ 0x120E ∈ idx) (s : State) (code : Int) : FrameKept F idx s (coComplete s code) := by
  have hs' (s : State) (v w) : F (s.onSense fun x => { x with co := v, coWait := w }) = F s := hs s v w s.flyer.sense.pulseResult
  unfold coComplete
  split
  · exact .refl s
  · have h (v) := (hs _ none s.flyer.sense.coWait none).trans (hr { s with ent := [] } v (s.flyer.res.coN + 1))
    refine .trans ?_ (.ite (coStart_frameKept hn hd hi hs' _) (.refl _))
    refine .trans ?_ (backstopEvaluated_frameKept hsb (fun s _ => hb s _) hq.1 hq.2 (fun s => hb s _) _)
    refine .trans ?_ (onBs_frameKept _ _ fun s => hb s _)
    exact .noStore (h _) rfl rfl

section
variable (hs : ∀ s v w, F (s.onSense fun x => { x with aux := v, auxWait := w }) = F s)
include hs

theorem auxStart_frameKept (s : State) : FrameKept F idx s (auxStart s) :=
  (rise_frameKept hn hd hi rfl s).trans (onSense_frameKept _ _ fun s => hs s _ _)

theorem auxTick_frameKept (s : State) : FrameKept F idx s (auxTick s) :=
  .ite (.refl s) (.ite (.noStore (hs { s with ent := [] } s.flyer.sense.aux true) rfl rfl) (auxStart_frameKept hn hd hi hs s))

theorem auxComplete_frameKept (hr : ∀ s v n, F (s.onRes fun r => { r with aux := v, auxN := n }) = F s) (s : State) (code : Int) :
    FrameKept F idx s (auxComplete s code) := by
  unfold auxComplete
  split
  · exact .refl s
  · rename_i t _
    have h (v) := (hs _ none s.flyer.sense.auxWait).trans (hr { s with ent := [] } v (s.flyer.res.auxN + 1))
    refine .trans ?_ (.ite (auxStart_frameKept hn hd hi hs _) (.refl _))
    exact .noStore (h _) rfl rfl

end

end

/-! ## Die temperatures -/

theorem dieTempTick_frameKept (hn : ForgetsNotices F) (hsb : ForgetsSb F) (ha : ForgetsAlerts F)
    (hs : ∀ s a b, F (s.onSense fun x => { x with flyerT := a, keeperT := b }) = F s) (hi : monitorIdx ⊆ idx) (hi' : 0x120B ∈ idx ∧ 0x2304 ∈ idx)
    (s : State) (a f k : Int) (hz : Nat) : FrameKept F idx s (dieTempTick s a f k hz) := by
  have ht (s : State) (d : Die) (inst : Nat) (x : Int) : FrameKept F idx s (temperatureCheck s d inst x) :=
    temperatureCheck_frameKept hn hsb ha hi s d inst x
  have hx (s : State) (x y : Int) : FrameKept F idx s (s.onSense fun z => { z with flyerT := x, keeperT := y }) := onSense_frameKept s _ fun s => hs s x y
  unfold dieTempTick
  dsimp only
  refine (ht s .keeper 0x30 _).trans (FrameKept.trans (.ite ?_ (.refl _)) (.ite ?_ (.refl _)))
  · exact (((hx _ _ _).trans (ht _ .flyer 0x2F _)).trans (put_frameKept _ _ hi'.1)).trans (clkFlyCheck_frameKept hn hsb ha hi _ hz)
  · exact (putS_frameKept _ _ hi'.2).trans (ht _ .spindle 0x20 _)

/-! ## The horn -/

theorem riseHorn_frameKept (hn : ForgetsNotices F) (hd : ForgetsFlyDoms F) (hi : riseIdx ⊆ idx) (s : State) : FrameKept F idx s (riseHorn s) := by
  have hr (d : Domain) (hf : isFlyerDom d = true) (s : State) : FrameKept F idx s (rise s d) := rise_frameKept hn hd hi hf s
  have h : FrameKept F idx s (if s.flyer.horn.row = 1 ∨ s.flyer.horn.row = 9 then s else rise s .horn) := .ite (.refl s) (hr .horn rfl s)
  exact .ite h (h.trans (hr .ind rfl _))

theorem hornPhase_frameKept (hn : ForgetsNotices F) (hd : ForgetsFlyDoms F) (hsb : ForgetsSb F) (hl : ForgetsSentBits F) (hh : ∀ s f, F (s.onHorn f) = F s)
    (hi : riseIdx ⊆ idx) (hq : 0x120D ∈ idx ∧ 0x120E ∈ idx) (s : State) : FrameKept F idx s (hornPhase s) := by
  unfold hornPhase
  split
  · exact .refl s
  · split
    · exact .refl s
    · exact ((riseHorn_frameKept hn hd hi s).trans (onHorn_frameKept _ _ fun s => hh s _)).trans (backstopReport_frameKept hsb hl hq.1 hq.2 _)

theorem formReport_frameKept (hr : ∀ s q n, F (s.onRes fun r => { r with queues := q, queuesN := n }) = F s) (s : State) :
    FrameKept F idx s (formReport s) :=
  .noStore (hr { s with ent := [] } _ _) rfl rfl

theorem hornTake_frameKept (hsb : ForgetsSb F) (hl : ForgetsSentBits F) (hh : ∀ s f, F (s.onHorn f) = F s)
    (hr : ∀ s q n, F (s.onRes fun r => { r with queues := q, queuesN := n }) = F s) (hq : 0x120D ∈ idx ∧ 0x120E ∈ idx) (s : State) :
    FrameKept F idx s (hornTake s) :=
  .ite (((onHorn_frameKept s _ fun s => hh s _).trans (formReport_frameKept hr _)).trans (backstopReport_frameKept hsb hl hq.1 hq.2 _)) (.refl s)

theorem hornReady_frameKept (hh : ∀ s f, F (s.onHorn f) = F s) (s : State) (mv : Nat) : FrameKept F idx s (hornReady s mv) :=
  .ite (.refl s) (onHorn_frameKept s _ fun s => hh s _)

theorem hornFault_frameKept (hh : ∀ s f, F (s.onHorn f) = F s) (hi : 0x2507 ∈ idx) (s : State) : FrameKept F idx s (hornFault s) :=
  (onHorn_frameKept s _ fun s => hh s _).trans (bump_frameKept _ hi)

theorem icRelayed_frameKept (hsb : ForgetsSb F) (hl : ForgetsSentBits F) (hh : ∀ s b c, F (s.onHorn fun h => { h with icRelayed := b, icLevel := c }) = F s)
    (hq : 0x120D ∈ idx ∧ 0x120E ∈ idx) (s : State) (b : Bool) :
    FrameKept F idx s (backstopReport (s.onHorn fun h => { h with icRelayed := b, icLevel := b })) :=
  (onHorn_frameKept s _ fun s => hh s b b).trans (backstopReport_frameKept hsb hl hq.1 hq.2 _)

theorem stepHorn_frameKept (hsb : ForgetsSb F) (hh : ∀ s b, F (s.onHorn fun h => { h with check := b }) = F s) (hq : 0x120D ∈ idx ∧ 0x120E ∈ idx)
    (s : State) (m : SbMsg) (ohm r : Nat) (surge : Bool) : FrameKept F idx s (stepHorn s m ohm r surge) :=
  (onHorn_frameKept s _ fun s => hh s false).trans (sbQueue_frameKept hsb _ .flyer 0xE 0 _ hq.1 hq.2)

/-! ## A SELFTEST message (R153) -/

theorem sbLift_frameKept (hsb : ForgetsSb F) (s : State) (d : Die) : FrameKept F idx s (sbLift s d) := by
  unfold sbLift
  split
  · exact onSbDie_frameKept hsb s d _
  · exact onSb_frameKept hsb s _

theorem sbTake_frameKept (hsb : ForgetsSb F) (s : State) (d : Die) (m : SbMsg) : FrameKept F idx s (sbTake s d m) :=
  .ite ((sbLift_frameKept hsb s d).trans (onSbDie_frameKept hsb _ d _)) (sbLift_frameKept hsb s d)

theorem onSelftest_frameKept (hsb : ForgetsSb F) {f : State → SbMsg → State} (hf : ∀ s m, FrameKept F idx s (f s m)) (s : State) (d : Die) (codes : List Nat) :
    FrameKept F idx s (onSelftest s d codes f) := by
  unfold onSelftest
  split
  · exact .refl s
  · exact .ite ((sbTake_frameKept hsb s d _).trans (hf _ _)) (sbLift_frameKept hsb s d)

/-! ## Results (R115 to R122, R192) -/

theorem heatExtremes_frameKept (hi : 0x2105 ∈ idx) (s : State) (v : Int) : FrameKept F idx s (heatExtremes s v) := by
  have h : ∀ c : Bool, FrameKept F idx s (if c = true then s.putS Ent.HEAT_MIN v else s) := fun c => .ite (putS_frameKept s v hi) (.refl s)
  exact .ite ((h _).trans (putS_frameKept _ v hi)) (h _)

theorem heatResult_frameKept (hn : ForgetsNotices F) (hs : ∀ s l, F (s.onSpindle fun x => { x with temps := l }) = F s)
    (hi : [0x100E, 0x2100, 0x2101, 0x2102, 0x2103, 0x2104, 0x2105, 0x2106] ⊆ idx) (s : State) (r : CodeResult) : FrameKept F idx s (heatResult s r) := by
  unfold heatResult
  dsimp only
  refine .trans ?_ (raise_frameKept hn _ 9 (hi (by decide)))
  have h : FrameKept F idx s _ := (((put_frameKept s (e := Ent.HEAT_CODE) r.code.toNat (hi (by decide))).trans (put_frameKept _ (e := Ent.HEAT_TIME) r.tick (hi (by decide)))).trans
    (put_frameKept _ (e := Ent.HEAT_FLAGS) (heatFlags s r.code.toNat) (hi (by decide)))).trans (bump_frameKept _ (e := Ent.HEAT_COUNT) (hi (by decide)))
  split
  · exact h.trans (putS_frameKept _ _ (hi (by decide)))
  · rename_i t _
    refine h.trans ((putS_frameKept _ (e := Ent.HEAT_TEMP) (f32Of t) (hi (by decide))).trans ?_)
    exact ((heatExtremes_frameKept (hi (by decide)) _ _).trans (onSpindle_frameKept _ _ fun s => hs s _)).trans
      (putS_frameKept _ (e := Ent.HEAT_ROR) _ (hi (by decide)))

theorem coResult_frameKept (hn : ForgetsNotices F) (hi : [0x100E, 0x2201, 0x2202, 0x2203, 0x2204, 0x2205, 0x2206] ⊆ idx) (s : State) (r : CoResult) :
    FrameKept F idx s (coResult s r) := by
  unfold coResult
  dsimp only
  refine .trans ?_ (raise_frameKept hn _ 9 (hi (by decide)))
  have h : FrameKept F idx s _ := (((putS_frameKept s (e := Ent.CO_CODE) r.code (hi (by decide))).trans (putS_frameKept _ (e := Ent.CO_CURRENT) (f32Of (coCurrent r.code)) (hi (by decide)))).trans
    (putS_frameKept _ (e := Ent.CO_PPM) (f32Opt (coPpm s r.code)) (hi (by decide)))).trans
    ((put_frameKept _ (e := Ent.CO_TIME) r.tick (hi (by decide))).trans (put_frameKept _ (e := Ent.CO_FLAGS) (coFlags s r) (hi (by decide))))
  refine h.trans (.ite ?_ (.refl _))
  exact ((putS_frameKept _ (e := Ent.CO_PULSE_DI) _ (hi (by decide))).trans (put_frameKept _ (e := Ent.CO_PULSE_PASS) _ (hi (by decide)))).trans
    (put_frameKept _ (e := Ent.CO_PULSE_TIME) _ (hi (by decide)))

theorem auxResult_frameKept (hn : ForgetsNotices F) (hi : [0x100E, 0x220A, 0x220B, 0x220C, 0x220D] ⊆ idx) (s : State) (r : CodeResult) :
    FrameKept F idx s (auxResult s r) :=
  (((putS_frameKept s _ (hi (by decide))).trans (putS_frameKept _ _ (hi (by decide)))).trans
    ((put_frameKept _ _ (hi (by decide))).trans (put_frameKept _ _ (hi (by decide))))).trans (raise_frameKept hn _ 9 (hi (by decide)))

theorem supplyResult_frameKept (hn : ForgetsNotices F) (hi : [0x100E, 0x2300, 0x2303, 0x2304] ⊆ idx) (s : State) (r : SupplyResult) :
    FrameKept F idx s (supplyResult s r) :=
  (((put_frameKept s _ (hi (by decide))).trans (putS_frameKept _ _ (hi (by decide)))).trans
    ((putS_frameKept _ _ (hi (by decide))).trans (put_frameKept _ _ (hi (by decide))))).trans (raise_frameKept hn _ 9 (hi (by decide)))

theorem queueResult_frameKept (hs : ∀ s a b c, F (s.onSpindle fun x => { x with freed := a, placed := b, dropSeen := c }) = F s)
    (hi : [0x120C, 0x120D, 0x2501, 0x250C] ⊆ idx) (s : State) (r : QueueReport) : FrameKept F idx s (queueResult s r) := by
  have hl (s : State) (q n : Nat) (hq : Ent.Q_LEVEL q / 256 = 0x120C ∧ Ent.Q_PEAK q / 256 = 0x120D) : FrameKept F idx s (noteLevel s q n) :=
    (put_frameKept s _ (hi (by rw [hq.1]; decide))).trans (notePeak_frameKept _ _ _ (hi (by rw [hq.2]; decide)))
  have h1 (n : Nat) : FrameKept F idx s ((s.put Ent.HORN_QUEUE r.level).bumpBy Ent.HORN_CMD_DROPPED n) :=
    (put_frameKept s _ (hi (by decide))).trans (bumpBy_frameKept _ n (hi (by decide)))
  unfold queueResult
  dsimp only
  refine .trans (.trans ?_ (onSpindle_frameKept _ _ fun s => hs s _ _ _)) (((((hl _ 1 _ ⟨rfl, rfl⟩).trans (hl _ 6 _ ⟨rfl, rfl⟩)).trans
    (hl _ 7 _ ⟨rfl, rfl⟩)).trans (hl _ 4 _ ⟨rfl, rfl⟩)).trans (hl _ 5 _ ⟨rfl, rfl⟩))
  exact h1 _

/-- The frame of a STATUS flit's arrival: what its delivery changes, what waits for the result unit, and the slot of the flit's kind. -/
theorem delivers {F : State → State} (hl : ∀ s a b c w k, F (s.onPly fun p => { p with f2s0 := a, f2s1 := b, s2f := c, carry := w, written := k }) = F s)
    (hr : ∀ s l m o, F (s.onRes fun r => { r with flight := l, mark := m, opt := o }) = F s) (hb : ∀ s b, F (s.onSense fun x => { x with buf := b }) = F s) :
    ForgetsDelivery F where
  lane s l f := by
    cases l
    · exact hl s (f s.ply.f2s0) s.ply.f2s1 s.ply.s2f s.ply.carry s.ply.written
    · exact hl s s.ply.f2s0 (f s.ply.f2s1) s.ply.s2f s.ply.carry s.ply.written
    · exact hl s s.ply.f2s0 s.ply.f2s1 (f s.ply.s2f) s.ply.carry s.ply.written
  burst s := hl s s.ply.f2s0 s.ply.f2s1 s.ply.s2f
  flights := hr
  buffer := hb

/-- The command of a STATUS flit of a kind, whose results are `mk` of what the flit carries. -/
theorem statusLeaves {α : Type} {slot : Results → Option α} {clear : Results → Results} {mk : α → Flight} {parse : Bytes → α} {c : Instr} {kind : Nat}
    (lane : Lane) (hc : ∀ s, exec c s = .next (statusArrives s lane kind)) (ht : ∀ r, takeResult r kind = (slot r).map fun x => (clear r, mk x))
    (hp : ∀ p, statusOf kind p = some (mk (parse p))) (hd : ForgetsDelivery F) (hq : ∀ s q, F (s.onSpindle fun x => { x with stq := q }) = F s)
    (hk : ∀ s l, F (s.onRes fun r => { clear r with flight := l }) = F s) (hi : 0x5300 ∈ idx ∧ 0x5305 ∈ idx)
    (hu : ∀ s x, FrameKept F idx s (resultUnit s (mk x))) : Leaves c F idx := by
  refine leaves_of_frameKept (statusArrives · lane kind) hc fun s => statusArrives_frameKept hd hi hq ?_ ?_ s lane
  · intro s x hx l
    obtain ⟨v, -, rfl⟩ := Option.map_eq_some_iff.1 ((ht _).symm.trans hx)
    exact hk s l
  · intro s p f hf
    obtain rfl := Option.some.inj ((hp p).symm.trans hf)
    exact hu s _

/-- Settles O57, command by command. -/
theorem frameSensing : Obligations.FrameSensing := by
  unfold Obligations.FrameSensing
  refine ⟨fun mv => ?_, ?_, ?_, ?_, fun code => ?_, ?_, fun peak => ?_, fun code => ?_, fun code => ?_, fun a f k hz => ?_, ?_, ?_, fun mv => ?_, ?_, ?_, ?_, ?_,
    ?_, ?_, fun ohm rise surge => ?_, fun lane => ?_, fun lane => ?_, fun lane => ?_, fun lane => ?_, fun lane => ?_⟩
  · exact leaves_of_frameKept (optTick · mv) (fun _ => rfl) fun s => optTick_frameKept (fun _ _ _ => rfl) (fun _ _ => rfl) (by decide) (fun _ _ _ _ _ => rfl) s mv
  · exact leaves_of_frameKept heatTick (fun _ => rfl) fun s => heatTick_frameKept (fun _ _ _ => rfl) (fun _ _ => rfl) (by decide) (fun _ _ _ => rfl) s
  · exact leaves_of_frameKept coTick (fun _ => rfl) fun s => coTick_frameKept (fun _ _ _ => rfl) (fun _ _ => rfl) (by decide) (fun _ _ _ => rfl) s
  · exact leaves_of_frameKept auxTick (fun _ => rfl) fun s => auxTick_frameKept (fun _ _ _ => rfl) (fun _ _ => rfl) (by decide) (fun _ _ _ => rfl) s
  · exact leaves_of_frameKept (auxComplete · code) (fun _ => rfl) fun s => auxComplete_frameKept (fun _ _ _ => rfl) (fun _ _ => rfl) (by decide) (fun _ _ _ => rfl) (fun _ _ _ => rfl) s code
  · exact leaves_of_frameKept pulseSettled (fun _ => rfl) fun s => .ite (onSense_frameKept s _ fun _ => rfl) (.refl s)
  · refine leaves_of_frameKept (pulseRestore · peak) (fun _ => rfl) fun s => ?_
    unfold pulseRestore
    split
    · exact onSense_frameKept s _ fun _ => rfl
    · exact .refl s
  · exact leaves_of_frameKept (heatComplete · code) (fun _ => rfl) fun s => heatComplete_frameKept (fun _ _ _ => rfl) (fun _ _ => rfl) (by decide) (fun _ _ _ => rfl) (fun _ _ _ => rfl)
      (fun _ _ => rfl) (fun _ _ => rfl) (by decide) s code
  · exact leaves_of_frameKept (coComplete · code) (fun _ => rfl) fun s => coComplete_frameKept (fun _ _ _ => rfl) (fun _ _ => rfl) (by decide) (fun _ _ _ _ => rfl) (fun _ _ _ => rfl)
      (fun _ _ => rfl) (fun _ _ => rfl) (by decide) s code
  · exact leaves_of_frameKept (dieTempTick · a f k hz) (fun _ => rfl) fun s => dieTempTick_frameKept (fun _ _ _ => rfl) (fun _ _ => rfl) (fun _ _ _ _ _ => rfl) (fun _ _ _ => rfl)
      (by decide) (by decide) s a f k hz
  · exact leaves_of_frameKept hornPhase (fun _ => rfl) fun s => hornPhase_frameKept (fun _ _ _ => rfl) (fun _ _ => rfl) (fun _ _ => rfl) (fun _ _ => rfl) (fun _ _ => rfl)
      (by decide) (by decide) s
  · exact leaves_of_frameKept hornTake (fun _ => rfl) fun s => hornTake_frameKept (fun _ _ => rfl) (fun _ _ => rfl) (fun _ _ => rfl) (fun _ _ _ => rfl) (by decide) s
  · exact leaves_of_frameKept (hornReady · mv) (fun _ => rfl) fun s => hornReady_frameKept (fun _ _ => rfl) s mv
  · refine leaves_of_frameKept _ (fun _ => rfl) fun s => ?_
    exact .ite (onHorn_frameKept s _ fun _ => rfl) (.refl s)
  · refine leaves_of_frameKept _ (fun _ => rfl) fun s => ?_
    exact .ite (hornFault_frameKept (fun _ _ => rfl) (by decide) s) (.refl s)
  · refine leaves_of_frameKept _ (fun _ => rfl) fun s => ?_
    exact .ite (hornFault_frameKept (fun _ _ => rfl) (by decide) s) (.refl s)
  · refine leaves_of_frameKept _ (fun _ => rfl) fun s => ?_
    exact .ite (icRelayed_frameKept (fun _ _ => rfl) (fun _ _ => rfl) (fun _ _ _ => rfl) (by decide) s true) (.refl s)
  · refine leaves_of_frameKept _ (fun _ => rfl) fun s => ?_
    exact .ite (icRelayed_frameKept (fun _ _ => rfl) (fun _ _ => rfl) (fun _ _ _ => rfl) (by decide) s false) (.refl s)
  · refine leaves_of_frameKept _ (fun _ => rfl) fun s => ?_
    exact .ite (onBs_frameKept s _ fun _ => rfl) (.refl s)
  · exact leaves_of_frameKept (fun s => onSelftest s .flyer [2] fun s m => stepHorn s m ohm rise surge) (fun _ => rfl) fun s =>
      onSelftest_frameKept (fun _ _ => rfl) (fun s m => stepHorn_frameKept (fun _ _ => rfl) (fun _ _ => rfl) (by decide) s m ohm rise surge) s _ _
  · exact statusLeaves lane (fun _ => rfl) (fun _ => rfl) (fun _ => rfl) (delivers (fun _ _ _ _ _ _ => rfl) (fun _ _ _ _ => rfl) (fun _ _ => rfl))
      (fun _ _ => rfl) (fun _ _ => rfl) (by decide) fun s r => heatResult_frameKept (fun _ _ _ => rfl) (fun _ _ => rfl) (by decide) s r
  · exact statusLeaves lane (fun _ => rfl) (fun _ => rfl) (fun _ => rfl) (delivers (fun _ _ _ _ _ _ => rfl) (fun _ _ _ _ => rfl) (fun _ _ => rfl))
      (fun _ _ => rfl) (fun _ _ => rfl) (by decide) fun s r => coResult_frameKept (fun _ _ _ => rfl) (by decide) s r
  · exact statusLeaves lane (fun _ => rfl) (fun _ => rfl) (fun _ => rfl) (delivers (fun _ _ _ _ _ _ => rfl) (fun _ _ _ _ => rfl) (fun _ _ => rfl))
      (fun _ _ => rfl) (fun _ _ => rfl) (by decide) fun s r => auxResult_frameKept (fun _ _ _ => rfl) (by decide) s r
  · exact statusLeaves lane (fun _ => rfl) (fun _ => rfl) (fun _ => rfl) (delivers (fun _ _ _ _ _ _ => rfl) (fun _ _ _ _ => rfl) (fun _ _ => rfl))
      (fun _ _ => rfl) (fun _ _ => rfl) (by decide) fun s r => supplyResult_frameKept (fun _ _ _ => rfl) (by decide) s r
  · exact statusLeaves lane (fun _ => rfl) (fun _ => rfl) (fun _ => rfl) (delivers (fun _ _ _ _ _ _ => rfl) (fun _ _ _ _ => rfl) (fun _ _ => rfl))
      (fun _ _ => rfl) (fun _ _ => rfl) (by decide) fun s r => queueResult_frameKept (fun _ _ _ _ => rfl) (by decide) s r

end Sys2Proof.Machine
end

section
/-! SUPPORT. What a measurement's start and a monitor's check leave of the flyer, and what their entries hold afterwards. -/
namespace Sys2Proof.Machine
variable {s : State}

/-! ### Signed entries -/

theorem toSigned_ofSigned_sat {w : Nat} (hw : 0 < w) (i : Int) : toSigned w (ofSigned w (satSigned w i)) = satSigned w i := by
  obtain ⟨k, rfl⟩ : ∃ k, w = k + 1 := ⟨w - 1, by omega⟩
  have hp : (0 : Int) < 2 ^ k := by positivity
  have h2 : (2 : Int) ^ (k + 1) = 2 * 2 ^ k := by ring
  have hn : ((2 ^ (k + 1) : Nat) : Int) = 2 * 2 ^ k := by push_cast; ring
  have hk : ((2 ^ k : Nat) : Int) = 2 ^ k := by push_cast; ring
  set j := satSigned (k + 1) i with hj
  have hb : -(2 ^ k : Int) ≤ j ∧ j < 2 ^ k := by
    simp only [satSigned, Nat.add_sub_cancel] at hj
    omega
  have hm : (ofSigned (k + 1) j : Int) = j % (2 * 2 ^ k) := by
    rw [ofSigned, h2, Int.toNat_of_nonneg (Int.emod_nonneg _ (by omega))]
  have hl : ofSigned (k + 1) j % 2 ^ (k + 1) = ofSigned (k + 1) j := by
    refine Nat.mod_eq_of_lt (Int.ofNat_lt.1 ?_)
    rw [hn, hm]
    exact Int.emod_lt_of_pos _ (by omega)
  unfold toSigned
  simp only [hl, Nat.add_sub_cancel]
  by_cases h0 : 0 ≤ j
  · have : j % (2 * 2 ^ k) = j := Int.emod_eq_of_lt h0 (by omega)
    rw [if_pos (by omega)]; omega
  · have : j % (2 * 2 ^ k) = j + 2 * 2 ^ k := by
      rw [← Int.add_emod_right, Int.emod_eq_of_lt (by omega) (by omega)]
    rw [if_neg (by omega), h2]; omega

/-- What a signed entry of a size holds when a value has been stored: the value, limited to its range. -/
theorem State.getS_putS_self (s : State) {e n : Nat} (hn : 8 * entrySize e = n + 1) (v : Int) : (s.putS e v).getS e = satSigned (n + 1) v := by
  rw [← hn, State.getS, State.putS, State.get_put_self]
  exact toSigned_ofSigned_sat (by omega) v

theorem State.getS_congr {t : State} {e : Nat} (h : t.get e = s.get e) : t.getS e = s.getS e := congrArg (toSigned _) h

/-! ### A domain rises -/

/-- A flyer domain that rises changes the flyer in its sequencers only. -/
theorem rise_flyer (s : State) {d : Domain} (hd : isFlyerDom d = true) : ∃ l, (rise s d).flyer = { s.flyer with doms := l } := by
  rw [rise, (raiseDomain_flyer hd _ _).2]
  split_ifs
  · exact ⟨_, rfl⟩
  · exact ⟨s.flyer.doms, rfl⟩

theorem rise_sense (s : State) {d : Domain} (hd : isFlyerDom d = true) : (rise s d).flyer.sense = s.flyer.sense := by
  obtain ⟨l, h⟩ := rise_flyer s hd
  rw [h]

/-- A flyer domain at rest leaves its rest state. -/
theorem rise_wakes {d : Domain} (hd : isFlyerDom d = true) (h : domNow s d < 2) : domNow (rise s d) d = 4 := by
  have hl : domNum d - 9 < s.flyer.doms.length := by
    by_contra hl
    have h2 : domNow s d = 2 := by
      rw [domNow, if_pos hd, flyDom, List.getD_eq_getElem?_getD, List.getElem?_eq_none (by omega)]
      rfl
    omega
  rw [rise, domNow, if_pos hd, flyDom, (raiseDomain_flyer hd _ _).2, if_pos (.inl h)]
  exact congrArg FlyDom.state (onFlyDom_flyDom s hl fun x => { x with state := 4 })

end Sys2Proof.Machine
end

section
/-! CLAIMS. Measurements fall due (R104, R106, R108, R115, R118, R120, R122). -/
namespace Sys2Proof.Machine
variable {s : State}

/-! ## Ticks -/

theorem optTick_due (hs : schedules s = true) (mv : Nat) (h : s.flyer.sense.opt = none) : optTick s mv = optStart s mv := by
  simp [optTick, hs, h]

theorem optTick_waits (hs : schedules s = true) (mv : Nat) (h : s.flyer.sense.opt.isSome = true) :
    optTick s mv = s.onSense fun x => { x with optWaiting := some mv } := by
  simp [optTick, hs, h]

/-- An optical measurement takes an accepted request with it. -/
theorem optStart_sense (s : State) (mv : Nat) : (optStart s mv).flyer.sense = { s.flyer.sense with
    opt := some ⟨s.flyer.sense.reqAccepted, flyerTime s, mv⟩, reqAccepted := false,
    reqBegan := if s.flyer.sense.reqAccepted then some s.keeper.aon else s.flyer.sense.reqBegan } := by
  simp only [optStart, State.onSense, State.onFlyer_flyer, rise_sense s (d := .opt) rfl]

theorem heatStart_sense (s : State) : (heatStart s).flyer.sense = { s.flyer.sense with heat := some (flyerTime s), heatWait := false } := by
  simp only [heatStart, State.onSense, State.onFlyer_flyer, rise_sense s (d := .heat) rfl]

theorem coStart_sense (s : State) : (coStart s).flyer.sense = { s.flyer.sense with co := some (flyerTime s), coWait := false } := by
  simp only [coStart, State.onSense, State.onFlyer_flyer, rise_sense s (d := .gas) rfl]

theorem auxStart_sense (s : State) : (auxStart s).flyer.sense = { s.flyer.sense with aux := some (flyerTime s), auxWait := false } := by
  simp only [auxStart, State.onSense, State.onFlyer_flyer, rise_sense s (d := .gas) rfl]

theorem heatTick_of_schedules (hs : schedules s = true) :
    heatTick s = if s.flyer.sense.heat.isSome = true then s.onSense fun x => { x with heatWait := true } else heatStart s := by
  simp [heatTick, hs]

theorem coTick_of_on (hs : schedules s = true) (h : s.get Ent.CO_ENABLE = 1) :
    coTick s = if s.flyer.sense.co.isSome = true then s.onSense fun x => { x with coWait := true } else coStart s := by
  simp [coTick, coOn, hs, h]

theorem auxTick_of_period (hs : schedules s = true) (h : s.get Ent.AIN_PERIOD ≠ 0) :
    auxTick s = if s.flyer.sense.aux.isSome = true then s.onSense fun x => { x with auxWait := true } else auxStart s := by
  simp [auxTick, hs, h]

/-! ## Die temperatures -/

/-- A monitor's check leaves the flyer, the spindle die but for its notices, and the entries that no alert writes. -/
structure CheckKept (s t : State) : Prop where
  flyer : t.flyer = s.flyer
  alive : t.spindle.alive = s.spindle.alive
  get : ∀ e, e / 256 ∉ monitorIdx → t.get e = s.get e

theorem CheckKept.trans {s t r : State} (h : CheckKept s t) (g : CheckKept t r) : CheckKept s r :=
  ⟨g.flyer.trans h.flyer, g.alive.trans h.alive, fun e he => (g.get e he).trans (h.get e he)⟩

/-- What a frame says that forgets notices, the sideband and the conditions. -/
theorem checkKept_of_frame {t : State} (h : FrameKept (fun s => ((forgetNotices s).onSb fun _ => {}).onLog fun x =>
    { x with active := [], lastAt := [], queue := [], since := [] }) monitorIdx s t) : CheckKept s t := by
  have hf := congrArg State.flyer h.rest
  have ha := congrArg (·.spindle.alive) h.rest
  exact ⟨hf, ha, h.ents.get⟩

theorem temperatureCheck_kept (s : State) (d : Die) (inst : Nat) (x : Int) : CheckKept s (temperatureCheck s d inst x) :=
  checkKept_of_frame (temperatureCheck_frameKept (fun _ _ _ => rfl) (fun _ _ => rfl) (fun _ _ _ _ _ => rfl) (List.Subset.refl _) s d inst x)

theorem clkFlyCheck_kept (s : State) (hz : Nat) : CheckKept s (clkFlyCheck s hz) :=
  checkKept_of_frame (clkFlyCheck_frameKept (fun _ _ _ => rfl) (fun _ _ => rfl) (fun _ _ _ _ _ => rfl) (List.Subset.refl _) s hz)

theorem record_active (s : State) (d : Die) (ty src : Nat) (b : Bytes) : (record s d ty src b).log.active = s.log.active := by
  have hk : (logKeeper s ty src b).log.active = s.log.active := by
    unfold logKeeper
    split <;> simp
  cases d
  · exact hk
  · exact congrArg LogUnit.active (logDie_log s .flyer ty src b)
  · exact congrArg LogUnit.active (logDie_log s .spindle ty src b)

theorem alertRecord_active (s : State) (d : Die) (ty src : Nat) (f : Nat → Bytes) : (alertRecord s d ty src f).log.active = s.log.active := by
  unfold alertRecord
  dsimp only
  split_ifs
  · rfl
  · exact record_active _ _ _ _ _
  · exact record_active _ _ _ _ _

/-- After an alert the monitor's condition holds, and every other one as before. -/
theorem monitorAlert_active (s : State) (d : Die) (ty inst kind src : Nat) (v w : Int) (z : Bool) (c : Nat × Nat) :
    c ∈ (monitorAlert s d ty inst kind src v w z).log.active ↔ c ∈ s.log.active ∨ c = (ty, inst) := by
  unfold monitorAlert
  split
  · rename_i h
    have h : (ty, inst) ∈ s.log.active := by simpa [alertActive] using h
    exact ⟨.inl, fun hc => hc.elim id fun hc => hc ▸ h⟩
  · rw [alertRecord_active, alertFlags_log]
    simp

theorem monitorEnd_active {c : Nat × Nat} {ty inst : Nat} (hc : c ≠ (ty, inst)) (h : c ∈ s.log.active) : c ∈ (monitorEnd s ty inst).log.active := by
  simpa [monitorEnd] using ⟨h, hc⟩

theorem temperatureCheck_begins {x : Int} (h : x < -450 ∨ 1100 < x) (s : State) (d : Die) (inst : Nat) :
    (0x44, inst) ∈ (temperatureCheck s d inst x).log.active := by
  unfold temperatureCheck
  split_ifs
  · exact (monitorAlert_active ..).2 (.inr rfl)
  · exact (monitorAlert_active ..).2 (.inr rfl)
  · omega

theorem temperatureCheck_others {c : Nat × Nat} {inst : Nat} (hc : c ≠ (0x44, inst)) (h : c ∈ s.log.active) (d : Die) (x : Int) :
    c ∈ (temperatureCheck s d inst x).log.active := by
  unfold temperatureCheck
  split_ifs
  · exact (monitorAlert_active ..).2 (.inl h)
  · exact (monitorAlert_active ..).2 (.inl h)
  · exact monitorEnd_active hc h

theorem clkFlyCheck_others {c : Nat × Nat} (hc : c ≠ (0x43, 2)) (h : c ∈ s.log.active) (hz : Nat) : c ∈ (clkFlyCheck s hz).log.active := by
  unfold clkFlyCheck
  split_ifs
  · exact (monitorAlert_active ..).2 (.inl h)
  · exact (monitorAlert_active ..).2 (.inl h)
  · exact monitorEnd_active hc h

/-- The flyer's part of the second: the readings that its result will carry, its monitor, and its clock. -/
def flyerTempTick (s : State) (tf tk : Int) (hz : Nat) : State :=
  clkFlyCheck ((temperatureCheck (s.onSense fun x => { x with flyerT := tf, keeperT := tk }) .flyer 0x2F tf).put Ent.CLK_FLY_MEAS hz) hz

theorem flyerTempTick_flyer (s : State) (tf tk : Int) (hz : Nat) :
    (flyerTempTick s tf tk hz).flyer = (s.onSense fun x => { x with flyerT := tf, keeperT := tk }).flyer :=
  (clkFlyCheck_kept _ hz).flyer.trans (temperatureCheck_kept (s.onSense _) .flyer 0x2F tf).flyer

theorem flyerTempTick_alive (s : State) (tf tk : Int) (hz : Nat) : (flyerTempTick s tf tk hz).spindle.alive = s.spindle.alive :=
  (clkFlyCheck_kept _ hz).alive.trans (temperatureCheck_kept (s.onSense _) .flyer 0x2F tf).alive

theorem flyerTempTick_clock (s : State) (tf tk : Int) (hz : Nat) : (flyerTempTick s tf tk hz).get Ent.CLK_FLY_MEAS = hz :=
  ((clkFlyCheck_kept _ hz).get _ (by decide)).trans (State.get_put_self _ _ _)

theorem flyerTempTick_get (s : State) (tf tk : Int) (hz : Nat) {e : Nat} (he : e / 256 ∉ monitorIdx) (hc : e ≠ Ent.CLK_FLY_MEAS) :
    (flyerTempTick s tf tk hz).get e = s.get e :=
  (((clkFlyCheck_kept _ hz).get e he).trans (State.get_put_ne _ hc _)).trans ((temperatureCheck_kept (s.onSense _) .flyer 0x2F tf).get e he)

theorem flyerTempTick_others {c : Nat × Nat} (h1 : c ≠ (0x43, 2)) (h2 : c ≠ (0x44, 0x2F)) (h : c ∈ s.log.active) (tf tk : Int) (hz : Nat) :
    c ∈ (flyerTempTick s tf tk hz).log.active :=
  clkFlyCheck_others h1 (s := State.put _ _ _) (temperatureCheck_others (s := s.onSense _) h2 h .flyer tf) hz

/-- The keeper and the flyer have read their temperatures. -/
def keeperFlyerRead (s : State) (f k : Int) (hz : Nat) : State := flyerTempTick (temperatureCheck s .keeper 0x30 (dieReading s 3 k)) (dieReading s 2 f) (dieReading s 3 k) hz

theorem keeperFlyerRead_flyer (s : State) (f k : Int) (hz : Nat) :
    (keeperFlyerRead s f k hz).flyer = (s.onSense fun x => { x with flyerT := dieReading s 2 f, keeperT := dieReading s 3 k }).flyer := by
  rw [keeperFlyerRead, flyerTempTick_flyer, State.onSense, State.onFlyer_flyer, (temperatureCheck_kept s .keeper 0x30 _).flyer]
  rfl

theorem keeperFlyerRead_alive (s : State) (f k : Int) (hz : Nat) : (keeperFlyerRead s f k hz).spindle.alive = s.spindle.alive :=
  (flyerTempTick_alive _ _ _ _).trans (temperatureCheck_kept s .keeper 0x30 _).alive

theorem keeperFlyerRead_get (s : State) (f k : Int) (hz : Nat) {e : Nat} (he : e / 256 ∉ monitorIdx) (hc : e ≠ Ent.CLK_FLY_MEAS) :
    (keeperFlyerRead s f k hz).get e = s.get e :=
  (flyerTempTick_get _ _ _ _ he hc).trans ((temperatureCheck_kept s .keeper 0x30 _).get e he)

/-- While the flyer runs, the keeper and it read their temperatures, and then the spindle die, where CORE is ON. -/
theorem dieTempTick_eq (hu : s.flyer.up = true) (a f k : Int) (hz : Nat) :
    dieTempTick s a f k hz = if s.spindle.alive = true ∧ domState s .core = 2 then
      temperatureCheck ((keeperFlyerRead s f k hz).putS (Ent.DIE_TEMP 1) (tempF32 (dieReading s 1 a))) .spindle 0x20 (dieReading s 1 a)
    else keeperFlyerRead s f k hz := by
  have h1 := temperatureCheck_kept s .keeper 0x30 (dieReading s 3 k)
  have ho (d : Nat) (hd : d = 1 ∨ d = 2) (t : State) (ht : t.get (Ent.TEMP_OFFSET d) = s.get (Ent.TEMP_OFFSET d)) (x : Int) : dieReading t d x = dieReading s d x := by
    rw [dieReading, State.getS_congr ht, dieReading]
  have h2 : dieReading (temperatureCheck s .keeper 0x30 (dieReading s 3 k)) 2 f = dieReading s 2 f := ho 2 (.inr rfl) _ (h1.get _ (by decide)) f
  have h3 : dieReading (keeperFlyerRead s f k hz) 1 a = dieReading s 1 a := ho 1 (.inl rfl) _ (keeperFlyerRead_get s f k hz (by decide) (by decide)) a
  have h4 : domState (keeperFlyerRead s f k hz) .core = domState s .core := keeperFlyerRead_get s f k hz (by decide) (by decide)
  have hk : dieTempTick s a f k hz = if ((keeperFlyerRead s f k hz).spindle.alive && domState (keeperFlyerRead s f k hz) .core == 2) = true then
      temperatureCheck ((keeperFlyerRead s f k hz).putS (Ent.DIE_TEMP 1) (tempF32 (dieReading (keeperFlyerRead s f k hz) 1 a))) .spindle 0x20
        (dieReading (keeperFlyerRead s f k hz) 1 a)
      else keeperFlyerRead s f k hz := by
    unfold dieTempTick
    dsimp only
    rw [h1.flyer, if_pos hu, h2]
    rfl
  rw [hk, h3, h4, keeperFlyerRead_alive]
  simp only [Bool.and_eq_true, beq_iff_eq]

/-- The second's end leaves what the spindle die does not read as the keeper and the flyer left it. -/
theorem dieTempTick_kept (hu : s.flyer.up = true) (a f k : Int) (hz : Nat) :
    (dieTempTick s a f k hz).flyer = (keeperFlyerRead s f k hz).flyer ∧
    (∀ e, e / 256 ∉ monitorIdx → e ≠ Ent.DIE_TEMP 1 → (dieTempTick s a f k hz).get e = (keeperFlyerRead s f k hz).get e) ∧
    ∀ c ∈ (keeperFlyerRead s f k hz).log.active, c ≠ (0x44, 0x20) → c ∈ (dieTempTick s a f k hz).log.active := by
  rw [dieTempTick_eq hu]
  split_ifs
  · have h := temperatureCheck_kept ((keeperFlyerRead s f k hz).putS (Ent.DIE_TEMP 1) (tempF32 (dieReading s 1 a))) .spindle 0x20 (dieReading s 1 a)
    exact ⟨h.flyer, fun e he hd => (h.get e he).trans (State.get_put_ne _ hd _), fun c hc hne => temperatureCheck_others (s := State.putS _ _ _) hne hc _ _⟩
  · exact ⟨rfl, fun _ _ _ => rfl, fun _ hc _ => hc⟩

theorem dieTempTick_spindle (hu : s.flyer.up = true) (ha : s.spindle.alive = true) (hc : domState s .core = 2) (a f k : Int) (hz : Nat) :
    (dieTempTick s a f k hz).getS (Ent.DIE_TEMP 1) = satSigned 32 (tempF32 (dieReading s 1 a)) := by
  rw [dieTempTick_eq hu, if_pos ⟨ha, hc⟩]
  exact (State.getS_congr ((temperatureCheck_kept _ .spindle 0x20 _).get _ (by decide))).trans (State.getS_putS_self _ (by decide) _)

/-- Settles O19, clause by clause. -/
theorem measurementTicks : Obligations.MeasurementTicks := by
  unfold Obligations.MeasurementTicks
  intro s hs
  refine ⟨fun mv h => ?_, fun mv h => ?_, ?_, fun h => ?_, fun h => ?_, fun a f k hz hu => ?_⟩
  · refine answers_next (t := optTick s mv) rfl ?_
    rw [optTick_due hs mv h, optStart_sense]
    exact ⟨rfl, rfl, fun hr => if_pos hr, fun hd => rise_wakes (d := .opt) rfl hd⟩
  · refine answers_next (t := optTick s mv) rfl ?_
    rw [optTick_waits hs mv h]
    rfl
  · refine answers_next (t := heatTick s) rfl ?_
    rw [heatTick_of_schedules hs]
    split_ifs with h
    · rfl
    · exact ⟨heatStart_sense s, fun hd => rise_wakes (d := .heat) rfl hd⟩
  · refine answers_next (t := coTick s) rfl ?_
    rw [coTick_of_on hs h]
    split_ifs with h
    · rfl
    · exact coStart_sense s
  · refine answers_next (t := auxTick s) rfl ?_
    rw [auxTick_of_period hs h]
    split_ifs with h
    · rfl
    · exact auxStart_sense s
  · obtain ⟨hf, hg, hl⟩ := dieTempTick_kept hu a f k hz
    refine answers_next (t := dieTempTick s a f k hz) rfl ⟨?_, ?_, fun ha hc => dieTempTick_spindle hu ha hc a f k hz, fun hr => ?_⟩
    · exact (hg _ (by decide) (by decide)).trans (flyerTempTick_clock _ _ _ _)
    · rw [hf, keeperFlyerRead_flyer]
      rfl
    · refine hl _ ?_ (by decide)
      exact flyerTempTick_others (by decide) (by decide) (temperatureCheck_begins hr _ _ _) _ _ _

end Sys2Proof.Machine
end

section
/-! CLAIMS. Measurements end (R105, R110, R111, R115 to R121, R134 to R136). -/
namespace Sys2Proof.Machine
variable {s : State}

/-! ## The backstop's evaluation -/

/-- The end of an evaluation changes of the flyer what BACKSTOP_ALARM has told, at most. -/
theorem backstopEvaluated_flyer (s : State) : ∃ n o, (backstopEvaluated s).flyer = { s.flyer with bs := { s.flyer.bs with lastSent := n, owed := o } } := by
  have hb (s : State) : (sendBackstop s).flyer = { s.flyer with bs := { s.flyer.bs with lastSent := backstopBits s.flyer } } := by
    simp [sendBackstop, State.onBs]
  unfold backstopEvaluated backstopReport
  split_ifs
  · exact ⟨_, _, by rw [State.onBs, State.onFlyer_flyer, hb]⟩
  · exact ⟨_, _, rfl⟩
  · exact ⟨_, _, hb s⟩

theorem backstopEvaluated_get (s : State) {e : Nat} (h : e / 256 ∉ [0x120D, 0x120E]) : (backstopEvaluated s).get e = s.get e :=
  (backstopEvaluated_frameKept (F := fun s => (s.onSb fun _ => {}).onBs fun _ => {}) (idx := [0x120D, 0x120E]) (fun _ _ => rfl) (fun _ _ => rfl)
    (by decide) (by decide) (fun _ => rfl) s).ents.get e h

@[simp] theorem setKind_off (b : Backstop) (m : Nat) : (setKind b m).off = b.off := by
  unfold setKind
  dsimp only
  split_ifs <;> rfl

@[simp] theorem clearKind_off (b : Backstop) (m : Nat) : (clearKind b m).off = b.off := rfl

@[simp] theorem noHushCheck_off (b : Backstop) : (noHushCheck b).off = b.off := by
  unfold noHushCheck
  split_ifs <;> rfl

theorem evalOptical_off (b : Backstop) (g : Integrals) : (evalOptical b g).off = b.off := by
  unfold evalOptical
  dsimp only
  split_ifs <;> simp

theorem evalHeat_off (b : Backstop) (c : Nat) : (evalHeat b c).off = b.off := by
  unfold evalHeat
  dsimp only
  split_ifs <;> simp

theorem evalCo_off (b : Backstop) (c : Int) (h : Bool) : (evalCo b c h).off = b.off := by
  unfold evalCo
  dsimp only
  split_ifs <;> simp

/-! ## Optical -/

theorem bufferCaptures_flyer (s : State) (caps : Captures) : (bufferCaptures s caps).flyer =
    { s.flyer with sense := { s.flyer.sense with buf := some ⟨s.flyer.sense.tag, caps, captHeld s⟩ } } := by
  have hk : captHeld (s.bump Ent.PLY_OVERRUN) = captHeld s := by rw [captHeld, State.bump_get s (by decide), captHeld]
  unfold bufferCaptures
  dsimp only
  split_ifs
  · rw [hk]; rfl
  · rfl

@[simp] theorem sendCaptureReady_flyer (s : State) : (sendCaptureReady s).flyer = s.flyer := by
  unfold sendCaptureReady
  split <;> simp

theorem offerMeasurement_flyer (s : State) (caps : Captures) (r : OptResult) : (offerMeasurement s caps r).flyer = { s.flyer with
    sense := { s.flyer.sense with buf := some ⟨s.flyer.sense.tag, caps, captHeld s⟩ },
    res := { s.flyer.res with opt := some (if captHeld s then undelivered r else r) } } := by
  have h : ((bufferCaptures s caps).onRes fun x => { x with opt := some (if captHeld s then undelivered r else r) }).flyer = { s.flyer with
      sense := { s.flyer.sense with buf := some ⟨s.flyer.sense.tag, caps, captHeld s⟩ },
      res := { s.flyer.res with opt := some (if captHeld s then undelivered r else r) } } := by
    rw [State.onRes, State.onFlyer_flyer, bufferCaptures_flyer]
  have hi (b : Bool) (u : State) : (if b = true then u else sendCaptureReady u).flyer = u.flyer := by
    split
    · rfl
    · exact sendCaptureReady_flyer u
  exact (hi _ _).trans h

/-- A measurement's end as far as the backstop's evaluation. -/
def optEvaluated (s : State) (g : Integrals) (loaded : Nat) : State :=
  backstopOpticalStep (s.onSense fun x => { x with opt := none, loadedRaw := loaded, loadedCount := (x.loadedCount + 1) % 256 }) g

theorem optEvaluated_flyer (s : State) (g : Integrals) (loaded : Nat) : ∃ n o, (optEvaluated s g loaded).flyer = { s.flyer with
    sense := { s.flyer.sense with opt := none, loadedRaw := loaded, loadedCount := (s.flyer.sense.loadedCount + 1) % 256 },
    bs := { evalOptical s.flyer.bs g with lastSent := n, owed := o } } :=
  backstopEvaluated_flyer _

theorem optEvaluated_captHeld (s : State) (g : Integrals) (loaded : Nat) : captHeld (optEvaluated s g loaded) = captHeld s :=
  congrArg (· != 0) (backstopEvaluated_get _ (e := Ent.CAPT_HELD) (by decide))

/-- The flyer after the end of an optical measurement, from which nothing has started yet. -/
theorem optFinish_flyer (s : State) (run : OptRun) (caps : Captures) (led : Bool) (loaded : Nat) : ∃ n o q m,
    (optFinish s run caps led loaded).flyer = { s.flyer with
      sense := { s.flyer.sense with
        opt := none, loadedRaw := loaded, loadedCount := (s.flyer.sense.loadedCount + 1) % 256, tag := (s.flyer.sense.tag + 1) % 65536,
        buf := if optOffered s run.requested then some ⟨s.flyer.sense.tag, caps, captHeld s⟩ else s.flyer.sense.buf },
      bs := { evalOptical s.flyer.bs (integralsOf s caps) with lastSent := n, owed := o },
      res := { s.flyer.res with
        opt := some (if optOffered s run.requested && !captHeld s then formOpt s (integralsOf s caps) led run loaded
          else undelivered (formOpt s (integralsOf s caps) led run loaded)),
        supplyN := s.flyer.res.supplyN + 1,
        supply := some ⟨run.vdd, s.flyer.sense.flyerT, s.flyer.sense.keeperT, s.flyer.res.supplyN % 256, run.tick⟩,
        queues := q, queuesN := m } } := by
  obtain ⟨n, o, hf⟩ := optEvaluated_flyer s (integralsOf s caps) loaded
  have ho : optOffered (optEvaluated s (integralsOf s caps) loaded) run.requested = optOffered s run.requested := by
    rw [optOffered, hf]; rfl
  have he : optFinish s run caps led loaded = formReport (formSupply (
      (if optOffered (optEvaluated s (integralsOf s caps) loaded) run.requested
        then offerMeasurement (optEvaluated s (integralsOf s caps) loaded) caps (formOpt s (integralsOf s caps) led run loaded)
        else (optEvaluated s (integralsOf s caps) loaded).onRes fun x => { x with opt := some (undelivered (formOpt s (integralsOf s caps) led run loaded)) })
      |>.onSense fun x => { x with tag := (x.tag + 1) % 65536 }) run) := rfl
  refine ⟨n, o, (optFinish s run caps led loaded).flyer.res.queues, (optFinish s run caps led loaded).flyer.res.queuesN, ?_⟩
  rw [he, ho]
  by_cases h : optOffered s run.requested = true
  · rw [if_pos h, if_pos h, h]
    simp only [formReport, formSupply, State.onSense, State.onRes, State.onFlyer_flyer, offerMeasurement_flyer, optEvaluated_captHeld, hf]
    cases captHeld s <;> rfl
  · rw [Bool.not_eq_true] at h
    rw [h]
    simp only [formReport, formSupply, State.onSense, State.onRes, State.onFlyer_flyer, Bool.false_eq_true, if_false, hf]
    rfl

/-- What `optNext` starts where a measurement waited. -/
theorem optNext_flyer (s : State) : ∃ l w a b, (optNext s).flyer = { s.flyer with doms := l, sense := { s.flyer.sense with
    optWaiting := w, reqAccepted := a, reqBegan := b,
    opt := if schedules s then (s.flyer.sense.optWaiting.map fun v => ⟨s.flyer.sense.reqAccepted, flyerTime s, v⟩).or s.flyer.sense.opt
      else s.flyer.sense.opt } } := by
  unfold optNext
  split
  · rename_i v hv
    split_ifs with hs
    · obtain ⟨l, hl⟩ := rise_flyer (s.onSense fun x => { x with optWaiting := none }) (d := .opt) rfl
      refine ⟨l, none, false, if s.flyer.sense.reqAccepted then some s.keeper.aon else s.flyer.sense.reqBegan, ?_⟩
      rw [optStart, State.onSense, State.onFlyer_flyer, hl, hv]
      rfl
    · exact ⟨_, _, _, _, rfl⟩
  · rename_i hv
    have h (b : Bool) (f : Nat → OptRun) (x : Option OptRun) : (if b then (s.flyer.sense.optWaiting.map f).or x else x) = x := by
      rw [hv, Option.map_none, Option.none_or, ite_self]
    exact ⟨s.flyer.doms, s.flyer.sense.optWaiting, s.flyer.sense.reqAccepted, s.flyer.sense.reqBegan, by rw [h]⟩

theorem optComplete_answers (run : OptRun) (caps : Captures) (led : Bool) (mv : Nat) (h : s.flyer.sense.opt = some run) :
    Answers (.optMeasurementComplete caps led mv) s fun t =>
      t.flyer.res.opt = some (if optOffered s run.requested && !captHeld s then formOpt s (integralsOf s caps) led run mv
          else undelivered (formOpt s (integralsOf s caps) led run mv)) ∧
      (optOffered s run.requested = true → t.flyer.sense.buf = some ⟨s.flyer.sense.tag, caps, captHeld s⟩) ∧
      t.flyer.res.supply = some ⟨run.vdd, s.flyer.sense.flyerT, s.flyer.sense.keeperT, s.flyer.res.supplyN % 256, run.tick⟩ ∧
      t.flyer.sense.tag = (s.flyer.sense.tag + 1) % 65536 ∧ t.flyer.sense.loadedRaw = mv ∧
      t.flyer.bs.kinds = (evalOptical s.flyer.bs (integralsOf s caps)).kinds ∧
      t.flyer.sense.opt = if schedules s then s.flyer.sense.optWaiting.map (fun v => ⟨s.flyer.sense.reqAccepted, flyerTime s, v⟩) else none := by
  obtain ⟨n, o, q, m, hf⟩ := optFinish_flyer s run caps led mv
  obtain ⟨l, w, a, b, hn⟩ := optNext_flyer (optFinish s run caps led mv)
  have hs : schedules (optFinish s run caps led mv) = schedules s := by
    rw [schedules, hf, schedules]
    exact congrArg (s.flyer.up && !·) (evalOptical_off _ _)
  have ht : flyerTime (optFinish s run caps led mv) = flyerTime s := by rw [flyerTime, hf, flyerTime]
  have hc : optComplete s caps led mv = optNext (optFinish s run caps led mv) := by rw [optComplete, h]
  refine answers_next (t := optComplete s caps led mv) rfl ?_
  rw [hc, hn, hs, ht, hf]
  refine ⟨rfl, fun ho => if_pos ho, rfl, rfl, rfl, rfl, ?_⟩
  dsimp only
  rw [Option.or_none]

/-! ## Heat, CO and the auxiliary input -/

/-- The state of a channel after its result, as far as the backstop's evaluation. -/
theorem heatNext_flyer (s : State) : ∃ l w, (heatNext s).flyer = { s.flyer with doms := l, sense := { s.flyer.sense with
    heatWait := w, heat := if s.flyer.sense.heatWait && schedules s then some (flyerTime s) else s.flyer.sense.heat } } := by
  unfold heatNext
  split_ifs with h
  · obtain ⟨l, hl⟩ := rise_flyer s (d := .heat) rfl
    exact ⟨l, false, by rw [heatStart, State.onSense, State.onFlyer_flyer, hl]⟩
  · exact ⟨_, _, rfl⟩

theorem coNext_flyer (s : State) : ∃ l w, (coNext s).flyer = { s.flyer with doms := l, sense := { s.flyer.sense with
    coWait := w, co := if s.flyer.sense.coWait && schedules s && coOn s then some (flyerTime s) else s.flyer.sense.co } } := by
  unfold coNext
  split_ifs with h
  · obtain ⟨l, hl⟩ := rise_flyer s (d := .gas) rfl
    exact ⟨l, false, by rw [coStart, State.onSense, State.onFlyer_flyer, hl]⟩
  · exact ⟨_, _, rfl⟩

theorem auxNext_flyer (s : State) : ∃ l w, (auxNext s).flyer = { s.flyer with doms := l, sense := { s.flyer.sense with
    auxWait := w, aux := if s.flyer.sense.auxWait && schedules s then some (flyerTime s) else s.flyer.sense.aux } } := by
  unfold auxNext
  split_ifs with h
  · obtain ⟨l, hl⟩ := rise_flyer s (d := .gas) rfl
    exact ⟨l, false, by rw [auxStart, State.onSense, State.onFlyer_flyer, hl]⟩
  · exact ⟨_, _, rfl⟩

theorem heatComplete_answers (tick code : Nat) (h : s.flyer.sense.heat = some tick) : Answers (.heatConversionComplete code) s fun t =>
    t.flyer.res.heat = some ⟨code, (if 65000 ≤ code then 1 else 0) + (if code ≤ 1000 then 2 else 0), s.flyer.res.heatN % 256, tick⟩ ∧
    t.flyer.bs.heat = (evalHeat s.flyer.bs code).heat ∧ t.flyer.bs.kinds = (evalHeat s.flyer.bs code).kinds ∧
    t.flyer.sense.heat = if s.flyer.sense.heatWait && schedules s then some (flyerTime s) else none := by
  obtain ⟨u, hu⟩ : ∃ u, u = ((s.onRes fun r => { r with
    heatN := r.heatN + 1, heat := some ⟨code, (if 65000 ≤ code then 1 else 0) + (if code ≤ 1000 then 2 else 0), r.heatN % 256, tick⟩ }).onSense fun x => { x with heat := none }).onBs
    fun b => evalHeat b code := ⟨_, rfl⟩
  obtain ⟨n, o, hb⟩ := backstopEvaluated_flyer u
  obtain ⟨l, w, hn⟩ := heatNext_flyer (backstopEvaluated u)
  have hs : schedules (backstopEvaluated u) = schedules s := by
    rw [schedules, hb, schedules, hu]
    exact congrArg (s.flyer.up && !·) (evalHeat_off _ _)
  have ht : flyerTime (backstopEvaluated u) = flyerTime s := by rw [flyerTime, hb, flyerTime, hu]; rfl
  have hc : heatComplete s code = heatNext (backstopEvaluated u) := by rw [heatComplete, h, hu]
  refine answers_next (t := heatComplete s code) rfl ?_
  rw [hc, hn, hs, ht, hb, hu]
  exact ⟨rfl, rfl, rfl, rfl⟩

theorem coComplete_answers (tick : Nat) (code : Int) (h : s.flyer.sense.co = some tick) : Answers (.coConversionComplete code) s fun t =>
    t.flyer.res.co = some (formCo s code tick) ∧ t.flyer.sense.pulseResult = none ∧
    t.flyer.bs.dose = (if coOn s then (evalCo s.flyer.bs code (pulsing s)).dose else s.flyer.bs.dose) ∧
    t.flyer.sense.co = if s.flyer.sense.coWait && schedules s && coOn s then some (flyerTime s) else none := by
  obtain ⟨u, hu⟩ : ∃ u, u = ((s.onRes fun x => { x with coN := x.coN + 1, co := some (formCo s code tick) }).onSense fun x =>
    { x with co := none, pulseResult := none }).onBs fun b => if coOn s then evalCo b code (pulsing s) else b := ⟨_, rfl⟩
  obtain ⟨n, o, hb⟩ := backstopEvaluated_flyer u
  obtain ⟨l, w, hn⟩ := coNext_flyer (backstopEvaluated u)
  have hs : schedules (backstopEvaluated u) = schedules s := by
    rw [schedules, hb, schedules, hu]
    refine congrArg (s.flyer.up && !·) (?_ : (if coOn s then evalCo s.flyer.bs code (pulsing s) else s.flyer.bs).off = s.flyer.bs.off)
    split
    · exact evalCo_off _ _ _
    · rfl
  have hon : coOn (backstopEvaluated u) = coOn s := by
    rw [coOn, backstopEvaluated_get u (by decide), hu]
    rfl
  have ht : flyerTime (backstopEvaluated u) = flyerTime s := by rw [flyerTime, hb, flyerTime, hu]; rfl
  have hc : coComplete s code = coNext (backstopEvaluated u) := by rw [coComplete, h, hu]
  refine answers_next (t := coComplete s code) rfl ?_
  rw [hc, hn, hs, hon, ht, hb, hu]
  refine ⟨rfl, rfl, ?_, rfl⟩
  exact apply_ite Backstop.dose _ _ _

theorem auxComplete_answers (tick : Nat) (code : Int) (h : s.flyer.sense.aux = some tick) : Answers (.ainConversionComplete code) s fun t =>
    t.flyer.res.aux = some ⟨code, if code ≤ -8388608 ∨ 8388607 ≤ code then 1 else 0, s.flyer.res.auxN % 256, tick⟩ ∧
    t.flyer.sense.aux = if s.flyer.sense.auxWait && schedules s then some (flyerTime s) else none := by
  obtain ⟨u, hu⟩ : ∃ u, u = (s.onRes fun r => { r with
    auxN := r.auxN + 1, aux := some ⟨code, if code ≤ -8388608 ∨ 8388607 ≤ code then 1 else 0, r.auxN % 256, tick⟩ }).onSense fun x => { x with aux := none } := ⟨_, rfl⟩
  obtain ⟨l, w, hn⟩ := auxNext_flyer u
  have hc : auxComplete s code = auxNext u := by rw [auxComplete, h, hu]
  refine answers_next (t := auxComplete s code) rfl ?_
  rw [hc, hn, hu]
  exact ⟨rfl, rfl⟩

/-- Settles O20, clause by clause. -/
theorem measurementResults : Obligations.MeasurementResults := by
  unfold Obligations.MeasurementResults
  intro s
  refine ⟨optComplete_answers, heatComplete_answers, coComplete_answers, auxComplete_answers, fun tick peak h => ?_, fun h => ?_⟩
  · exact answers_next (t := pulseRestore s peak) rfl (by rw [pulseRestore, h]; rfl)
  · exact answers_next (t := pulseSettled s) rfl (by rw [pulseSettled, if_pos h]; rfl)

end Sys2Proof.Machine
end

section
/-! CLAIMS. STATUS flits and the result unit (R110 to R121, R148, R192, R196). -/
namespace Sys2Proof.Machine
variable {s u t : State} {lane : Lane}

/-! ## A new STATUS flit -/

/-- The state in which the result unit takes a flit: the entries but PLY_STATE and PLY_FLITS, the keeper and the spindle die are as before the flit, and so
are the flyer's pending results but for the one that it carries. -/
structure Brought (s u : State) (r : Results) : Prop where
  kept : FlitKept s u
  slots : ∀ l m o, { u.flyer.res with flight := l, mark := m, opt := o } = { r with flight := l, mark := m, opt := o }
  opt : r.opt = none → u.flyer.res.opt = none

variable {r : Results}

theorem statusTag_kind (n : Nat) (f : Flight) : statusTag n f / 256 = f.kind := by
  cases f <;> simp only [statusTag] <;> omega

theorem Brought.get (h : Brought s u r) {e : Nat} (h1 : e ≠ Ent.PLY_STATE) (h2 : e ≠ Ent.PLY_FLITS) : u.get e = s.get e := h.kept.get e h1 h2

theorem delivered_opt (g : SentFlit) (h : s.flyer.res.opt = none) : (arrive (sendFlit s lane g) lane).flyer.res.opt = none := by
  have hs : (sendFlit s lane g).flyer.res.opt = none := by
    unfold sendFlit
    dsimp only
    split_ifs
    · rw [ackLane_eq]
      exact (ackFlights_opt _ _ _).trans h
    · exact h
  have hd (s : State) (h : s.flyer.res.opt = none) : (releaseDelivered s).flyer.res.opt = none := by
    unfold releaseDelivered
    split_ifs
    · exact congrArg (Option.map fun o : OptResult => { o with offered := false }) h
    · exact h
  have hc (s : State) : (drainCheck s).flyer.res.opt = s.flyer.res.opt := by
    unfold drainCheck
    split
    · rfl
    · rfl
  exact (hc _).trans (hd _ ((ackReverse_opt _ lane).trans hs))

theorem delivered_res (s : State) (g : SentFlit) (l : List (Lane × Nat × Flight)) (m : Bool) (o : Option OptResult) :
    { (arrive (sendFlit s lane g) lane).flyer.res with flight := l, mark := m, opt := o } = { s.flyer.res with flight := l, mark := m, opt := o } := by
  have hd : ForgetsDelivery fun s => ((s.onSense fun x => { x with buf := none }).onRes fun r => { r with flight := l, mark := m, opt := o }).onPly fun _ => {} :=
    ⟨fun _ _ _ => rfl, fun _ _ _ => rfl, fun _ _ _ _ => rfl, fun _ _ => rfl⟩
  have h := (sendFlit_frameKept (idx := [0x5300, 0x5305]) hd (by decide) s lane g).trans (arrive_frameKept hd (by decide) _ lane)
  have hr := congrArg (·.flyer.res) h.rest
  exact hr

/-- A new STATUS flit of a kind on a fresh lane, whose fields fit, is taken by the result unit, where that is free. -/
theorem statusArrives_brings {kind : Nat} {r : Results} {f : Flight} (h : fresh s lane = true) (hl : lane ≠ .s2f) (hq : s.spindle.stq.length < 4)
    (hp : plyHolds s = false) (ht : takeResult s.flyer.res kind = some (r, f)) (hk : f.kind = kind) (hf : statusOf kind (statusPayload f) = some f) :
    ∃ u, statusArrives s lane kind = resultUnit u f ∧ Brought s u r := by
  obtain ⟨g, hg⟩ : ∃ g : SentFlit, g = ⟨4, statusTag s.flyer.sense.tag f, statusPayload f⟩ := ⟨_, rfl⟩
  obtain ⟨t, hst⟩ : ∃ t, t = s.onRes fun _ => { r with flight := r.flight ++ [(lane, (laneOf s.ply lane).sentTo, f)] } := ⟨_, rfl⟩
  have htag : g.tag / 256 = kind := by
    rw [hg]
    exact (statusTag_kind _ _).trans hk
  have hty : g.ty = 4 := by rw [hg]
  have hsrc : source s lane (.status kind) = some (t, g) := by
    obtain ⟨-, he, -⟩ := fresh_parts h
    unfold source
    rw [if_neg (by simp [he])]
    dsimp only
    rw [if_neg hl, sourceStatus, ht, hst, hg]
    rfl
  have hkept : FlitKept s (arrive (sendFlit t lane g) lane) :=
    (⟨by rw [hst]; rfl, by rw [hst]; rfl, by rw [hst]; rfl, by rw [hst]; rfl, by rw [hst]; rfl, by rw [hst]; rfl, by rw [hst]; rfl, by rw [hst]; rfl,
      by rw [hst]; exact fun _ _ _ => rfl⟩ : FlitKept s t).trans delivered_flitKept
  have hfree : plyHolds (arrive (sendFlit t lane g) lane) = false := by
    rw [plyHolds, arbRes, hkept.spindle]
    exact hp
  refine ⟨arrive (sendFlit t lane g) lane, ?_, hkept, fun l m o => ?_, fun ho => delivered_opt g ?_⟩
  · rw [statusArrives, if_neg (by omega), flitArrives_fresh h hsrc (by simp [isOf, hty, htag]), takeStatus, htag, hg]
    dsimp only
    rw [hf]
    dsimp only
    rw [← hg, hfree]
    rfl
  · rw [delivered_res, hst]
    rfl
  · rw [hst]
    exact ho

/-! ## Calibration under a flit -/

/-- The effective values do not depend on the link's entries. -/
theorem Brought.effective (h : Brought s u r) (i : Nat) : Machine.effective u i = Machine.effective s i ∧ Machine.clamped u i = Machine.clamped s i ∧
    atLimit u i = atLimit s i := by
  have hov : ∀ o ∈ overlays, ∀ k ∈ [1, 2, 3], o.factory + k ≠ Ent.PLY_STATE ∧ o.factory + k ≠ Ent.PLY_FLITS := by decide
  have hg : ∀ o ∈ overlays, ∀ k ∈ [1, 2, 3], u.getS (o.factory + k) = s.getS (o.factory + k) := fun o ho k hk =>
    State.getS_congr (h.get (hov o ho k hk).1 (hov o ho k hk).2)
  have hd (a b c : Nat) : calDelta u a b c = calDelta s a b c := by rw [calDelta, calRow, h.kept.keeper]; rfl
  cases ho : overlays[i]? with
  | none => simp only [Machine.effective, clamped, atLimit, ho, and_self]
  | some o =>
    have hm := List.mem_of_getElem? ho
    have hs : overlaySum u o = overlaySum s o := by rw [overlaySum, hg o hm 1 (by decide), hd, overlaySum]
    have he : Machine.effective u i = Machine.effective s i := by
      simp only [Machine.effective, ho, hs, hg o hm 2 (by decide), hg o hm 3 (by decide)]
    exact ⟨he, by simp only [clamped, ho, he, hs], by simp only [atLimit, ho, he, hg o hm 2 (by decide), hg o hm 3 (by decide)]⟩

/-! ## What the results leave in the entries -/

theorem resultNotice_get (s : State) {e : Nat} (h : e ≠ Ent.NOTICE_PENDING) : (resultNotice s).get e = s.get e := raise_get s h

/-- The CHAMBER monitor leaves the flyer and every entry that no alert writes. -/
theorem chamberCheck_kept (s : State) (r : OptResult) : CheckKept s (chamberCheck s r) := by
  have ha (s : State) (i k w : Nat) (v x : Int) : CheckKept s (monitorAlert s .spindle 0x48 i k w v x false) :=
    checkKept_of_frame (monitorAlert_frameKept (fun _ _ _ => rfl) (fun _ _ => rfl) (fun _ _ _ _ _ => rfl) (List.Subset.refl _) s _ (by decide) i k w v x false)
  have he (s : State) (i : Nat) : CheckKept s (monitorEnd s 0x48 i) := ⟨rfl, rfl, fun _ _ => rfl⟩
  have hi {s a b : State} {c : Prop} [Decidable c] (h : CheckKept s a) (g : CheckKept s b) : CheckKept s (if c then a else b) := by
    split <;> assumption
  exact .trans (hi (ha s _ _ _ _ _) (he s _)) (hi (ha _ _ _ _ _ _) (he _ _))

theorem heatResult_flyer (s : State) (r : CodeResult) : (heatResult s r).flyer = s.flyer := by
  have h := congrArg State.flyer (heatResult_frameKept (F := fun s => (forgetNotices s).onSpindle fun x => { x with temps := [] })
    (idx := [0x100E, 0x2100, 0x2101, 0x2102, 0x2103, 0x2104, 0x2105, 0x2106]) (fun _ _ _ => rfl) (fun _ _ => rfl) (List.Subset.refl _) s r).rest
  exact h

theorem coResult_flyer (s : State) (r : CoResult) : (coResult s r).flyer = s.flyer := by
  have h := congrArg State.flyer (coResult_frameKept (F := forgetNotices)
    (idx := [0x100E, 0x2201, 0x2202, 0x2203, 0x2204, 0x2205, 0x2206]) (fun _ _ _ => rfl) (List.Subset.refl _) s r).rest
  exact h

theorem auxResult_flyer (s : State) (r : CodeResult) : (auxResult s r).flyer = s.flyer := by
  have h := congrArg State.flyer (auxResult_frameKept (F := forgetNotices)
    (idx := [0x100E, 0x220A, 0x220B, 0x220C, 0x220D]) (fun _ _ _ => rfl) (List.Subset.refl _) s r).rest
  exact h

theorem supplyResult_flyer (s : State) (r : SupplyResult) : (supplyResult s r).flyer = s.flyer := by
  have h := congrArg State.flyer (supplyResult_frameKept (F := forgetNotices)
    (idx := [0x100E, 0x2300, 0x2303, 0x2304]) (fun _ _ _ => rfl) (List.Subset.refl _) s r).rest
  exact h

theorem heatExtremes_get (s : State) (v : Int) {e : Nat} (h1 : e ≠ Ent.HEAT_MIN) (h2 : e ≠ Ent.HEAT_MAX) : (heatExtremes s v).get e = s.get e := by
  have h (c : Bool) : (if c = true then s.putS Ent.HEAT_MIN v else s).get e = s.get e := by
    split
    · exact State.putS_get s h1
    · rfl
  unfold heatExtremes
  dsimp only
  rw [apply_ite (State.get · e), State.putS_get _ h2, h, ite_self]

/-- The entries of a heat result: its own, and the temperature where one is computed. -/
theorem heatResult_entries (s : State) (r : CodeResult) :
    (heatResult s r).get Ent.HEAT_CODE = r.code.toNat ∧ (heatResult s r).get Ent.HEAT_TIME = r.tick ∧
    (heatResult s r).get Ent.HEAT_FLAGS = heatFlags s r.code.toNat ∧ Counted s (heatResult s r) Ent.HEAT_COUNT := by
  have h : ∀ e ∈ [Ent.HEAT_CODE, Ent.HEAT_TIME, Ent.HEAT_FLAGS, Ent.HEAT_COUNT], (heatResult s r).get e =
      ((((s.put Ent.HEAT_CODE r.code.toNat).put Ent.HEAT_TIME r.tick).put Ent.HEAT_FLAGS (heatFlags s r.code.toNat)).bump Ent.HEAT_COUNT).get e := by
    intro e he
    have hne : ∀ e ∈ [Ent.HEAT_CODE, Ent.HEAT_TIME, Ent.HEAT_FLAGS, Ent.HEAT_COUNT], e ≠ Ent.NOTICE_PENDING ∧ e ≠ Ent.HEAT_TEMP ∧ e ≠ Ent.HEAT_ROR ∧
        e ≠ Ent.HEAT_MIN ∧ e ≠ Ent.HEAT_MAX := by decide
    obtain ⟨h1, h2, h3, h4, h5⟩ := hne e he
    unfold heatResult
    dsimp only
    rw [resultNotice_get _ h1]
    split
    · exact State.putS_get _ h2
    · rw [State.putS_get _ h3, State.onSpindle_get, heatExtremes_get _ _ h4 h5, State.putS_get _ h2]
  refine ⟨(h _ (by decide)).trans ?_, (h _ (by decide)).trans ?_, (h _ (by decide)).trans ?_, (h _ (by decide)).trans ?_⟩
  · rw [State.bump_get _ (by decide), State.get_put_ne _ (by decide), State.get_put_ne _ (by decide), State.get_put_self]
  · rw [State.bump_get _ (by decide), State.get_put_ne _ (by decide), State.get_put_self]
  · rw [State.bump_get _ (by decide), State.get_put_self]
  · rw [State.bump_get_self, State.get_put_ne _ (by decide), State.get_put_ne _ (by decide), State.get_put_ne _ (by decide)]

theorem heatResult_temp (s : State) (r : CodeResult) {x : Frac} (h : heatTemp s r.code.toNat = some x) :
    (heatResult s r).getS Ent.HEAT_TEMP = satSigned 32 (f32Of x) := by
  refine (State.getS_congr ?_).trans (State.getS_putS_self s (e := Ent.HEAT_TEMP) (by decide) _)
  unfold heatResult
  dsimp only
  rw [resultNotice_get _ (by decide), h]
  dsimp only
  rw [State.putS_get _ (by decide), State.onSpindle_get, heatExtremes_get _ _ (by decide) (by decide), State.putS, State.get_put_self, State.putS,
    State.get_put_self]

theorem heatResult_noTemp (s : State) (r : CodeResult) (h : heatTemp s r.code.toNat = none) :
    (heatResult s r).get Ent.HEAT_TEMP = 0 ∧ bit ((heatResult s r).get Ent.HEAT_FLAGS) 3 = true ∧ (heatResult s r).spindle.temps = s.spindle.temps := by
  have he : heatResult s r = resultNotice (((((s.put Ent.HEAT_CODE r.code.toNat).put Ent.HEAT_TIME r.tick).put Ent.HEAT_FLAGS
      (heatFlags s r.code.toNat)).bump Ent.HEAT_COUNT).putS Ent.HEAT_TEMP 0) := by
    unfold heatResult
    dsimp only
    rw [h]
  refine ⟨?_, ?_, ?_⟩
  · rw [he, resultNotice_get _ (by decide), State.putS, State.get_put_self]
    decide
  · obtain ⟨-, -, hf, -⟩ := heatResult_entries s r
    rw [hf, heatFlags, h, if_pos Option.isNone_none]
    split_ifs <;> decide
  · rw [he, resultNotice, raise_spindle]
    rfl

/-! ### CO -/

/-- A signed entry of 4 bytes that holds a value, limited to its range. -/
theorem getS_of_word {e : Nat} {v : Int} (hz : entrySize e = 4) (h : t.get e = ofSigned 32 (satSigned 32 v)) : t.getS e = satSigned 32 v := by
  rw [State.getS, h, hz]
  exact toSigned_ofSigned_sat (by omega) v

theorem State.get_putS_word (s : State) {e : Nat} (hz : entrySize e = 4) (v : Int) : (s.putS e v).get e = ofSigned 32 (satSigned 32 v) := by
  rw [State.putS, State.get_put_self, hz]

/-- The entries of a CO result but for its pulse. -/
def coStored (s : State) (r : CoResult) : State :=
  ((((s.putS Ent.CO_CODE r.code).putS Ent.CO_CURRENT (f32Of (coCurrent r.code))).putS Ent.CO_PPM (f32Opt (coPpm s r.code))).put Ent.CO_TIME r.tick).put
    Ent.CO_FLAGS (coFlags s r)

theorem coResult_eq (s : State) (r : CoResult) : coResult s r = resultNotice (if bit r.flags 7 then
    (((coStored s r).putS Ent.CO_PULSE_DI r.di).put Ent.CO_PULSE_PASS (if pulsePasses (coStored s r) r.di then 1 else 0)).put Ent.CO_PULSE_TIME r.stepAt
    else coStored s r) := rfl

theorem coStored_kept (s : State) (r : CoResult) : DictKept [0x2201, 0x2202, 0x2203, 0x2204, 0x2205] s (coStored s r) :=
  ((((put_dictKept s _ (by decide)).trans (put_dictKept _ _ (by decide))).trans (put_dictKept _ _ (by decide))).trans
    (put_dictKept _ _ (by decide))).trans (put_dictKept _ _ (by decide))

theorem coResult_get (s : State) (r : CoResult) {e : Nat} (h : e ∉ [Ent.CO_PULSE_DI, Ent.CO_PULSE_PASS, Ent.CO_PULSE_TIME, Ent.NOTICE_PENDING]) :
    (coResult s r).get e = (coStored s r).get e := by
  simp only [List.mem_cons, List.not_mem_nil, or_false, not_or] at h
  obtain ⟨h1, h2, h3, h4⟩ := h
  rw [coResult_eq, resultNotice_get _ h4]
  split
  · rw [State.get_put_ne _ h3, State.get_put_ne _ h2, State.putS_get _ h1]
  · rfl

theorem coResult_entries (s : State) (r : CoResult) :
    (coResult s r).getS Ent.CO_CODE = satSigned 32 r.code ∧ (coResult s r).getS Ent.CO_CURRENT = satSigned 32 (f32Of (coCurrent r.code)) ∧
    (coResult s r).getS Ent.CO_PPM = satSigned 32 (f32Opt (coPpm s r.code)) ∧ (coResult s r).get Ent.CO_TIME = r.tick ∧
    (coResult s r).get Ent.CO_FLAGS = coFlags s r := by
  refine ⟨getS_of_word (by decide) ?_, getS_of_word (by decide) ?_, getS_of_word (by decide) ?_, ?_, ?_⟩
  · rw [coResult_get s r (by decide), coStored, State.get_put_ne _ (by decide), State.get_put_ne _ (by decide), State.putS_get _ (by decide),
      State.putS_get _ (by decide), State.get_putS_word _ (by decide)]
  · rw [coResult_get s r (by decide), coStored, State.get_put_ne _ (by decide), State.get_put_ne _ (by decide), State.putS_get _ (by decide),
      State.get_putS_word _ (by decide)]
  · rw [coResult_get s r (by decide), coStored, State.get_put_ne _ (by decide), State.get_put_ne _ (by decide), State.get_putS_word _ (by decide)]
  · rw [coResult_get s r (by decide), coStored, State.get_put_ne _ (by decide), State.get_put_self]
  · rw [coResult_get s r (by decide), coStored, State.get_put_self]

/-- A result that carries a pulse publishes it. -/
theorem coResult_pulse (s : State) {r : CoResult} (h : bit r.flags 7 = true) :
    (coResult s r).get Ent.CO_PULSE_TIME = r.stepAt ∧ (coResult s r).get Ent.CO_PULSE_PASS = if pulsePasses s r.di then 1 else 0 := by
  have hg (e : Nat) (he : e / 256 ∉ [0x2201, 0x2202, 0x2203, 0x2204, 0x2205]) : (coStored s r).getS e = s.getS e :=
    State.getS_congr ((coStored_kept s r).get e he)
  have hp : pulsePasses (coStored s r) r.di = pulsePasses s r.di := by rw [pulsePasses, hg _ (by decide), hg _ (by decide), pulsePasses]
  rw [coResult_eq, if_pos h, hp, resultNotice_get _ (by decide), resultNotice_get _ (by decide)]
  exact ⟨State.get_put_self _ _ _, (State.get_put_ne _ (by decide) _).trans (State.get_put_self _ _ _)⟩

theorem coResult_noPulse (s : State) {r : CoResult} (h : bit r.flags 7 = false) : (coResult s r).get Ent.CO_PULSE_TIME = s.get Ent.CO_PULSE_TIME := by
  rw [coResult_eq, if_neg (by simp [h]), resultNotice_get _ (by decide)]
  exact (coStored_kept s r).get _ (by decide)

/-! ### The auxiliary input, the supply and the queues -/

theorem auxResult_entries (s : State) (r : CodeResult) :
    (auxResult s r).getS Ent.AIN_CODE = satSigned 32 r.code ∧ (auxResult s r).getS Ent.AIN_MV = satSigned 32 (f32Of (ainMv s r.code)) ∧
    (auxResult s r).get Ent.AIN_TIME = r.tick ∧ (auxResult s r).get Ent.AIN_FLAGS = ainFlags s r := by
  refine ⟨getS_of_word (by decide) ?_, getS_of_word (by decide) ?_, ?_, ?_⟩ <;> unfold auxResult <;> dsimp only
  · rw [resultNotice_get _ (by decide), State.get_put_ne _ (by decide), State.get_put_ne _ (by decide), State.putS_get _ (by decide),
      State.get_putS_word _ (by decide)]
  · rw [resultNotice_get _ (by decide), State.get_put_ne _ (by decide), State.get_put_ne _ (by decide), State.get_putS_word _ (by decide)]
  · rw [resultNotice_get _ (by decide), State.get_put_ne _ (by decide), State.get_put_self]
  · rw [resultNotice_get _ (by decide), State.get_put_self]

theorem supplyResult_entries (s : State) (r : SupplyResult) :
    (supplyResult s r).get Ent.VDD_NOW = vddSum s r.vdd ∧ (supplyResult s r).getS (Ent.DIE_TEMP 2) = satSigned 32 (tempF32 r.flyerT) ∧
    (supplyResult s r).getS (Ent.DIE_TEMP 3) = satSigned 32 (tempF32 r.keeperT) ∧ (supplyResult s r).get Ent.SUPPLY_TIME = r.tick := by
  refine ⟨?_, getS_of_word (by decide) ?_, getS_of_word (by decide) ?_, ?_⟩ <;> unfold supplyResult <;> dsimp only
  · rw [resultNotice_get _ (by decide), State.get_put_ne _ (by decide), State.putS_get _ (by decide), State.putS_get _ (by decide), State.get_put_self]
  · rw [resultNotice_get _ (by decide), State.get_put_ne _ (by decide), State.putS_get _ (by decide), State.get_putS_word _ (by decide)]
  · rw [resultNotice_get _ (by decide), State.get_put_ne _ (by decide), State.get_putS_word _ (by decide)]
  · rw [resultNotice_get _ (by decide), State.get_put_self]

@[simp] theorem noteLevel_spindle (s : State) (q n : Nat) : (noteLevel s q n).spindle = s.spindle := notePeak_spindle _ q n

@[simp] theorem noteLevel_flyer (s : State) (q n : Nat) : (noteLevel s q n).flyer = s.flyer := notePeak_flyer _ q n

theorem noteLevel_get (s : State) (q n : Nat) {e : Nat} (h1 : e ≠ Ent.Q_LEVEL q) (h2 : e ≠ Ent.Q_PEAK q) : (noteLevel s q n).get e = s.get e :=
  (notePeak_get _ h2).trans (State.get_put_ne s h1 n)

theorem noteLevel_level (s : State) (q n : Nat) (h : Ent.Q_LEVEL q ≠ Ent.Q_PEAK q) : (noteLevel s q n).get (Ent.Q_LEVEL q) = n :=
  (notePeak_get _ h).trans (State.get_put_self s _ n)

/-- A queue report fills its entries, and tells the spindle die what has left queue 01. -/
theorem queueResult_entries (s : State) (r : QueueReport) :
    (queueResult s r).get Ent.HORN_QUEUE = r.level ∧ (queueResult s r).get (Ent.Q_LEVEL 1) = r.level ∧ (queueResult s r).spindle.freed = r.removed ∧
    (queueResult s r).spindle.placed = (if r.mark then 0 else s.spindle.placed) ∧ (queueResult s r).spindle.dropSeen = r.discarded ∧
    (queueResult s r).flyer = s.flyer := by
  have hl (s : State) (n : Nat) : (noteLevel (noteLevel (noteLevel (noteLevel (noteLevel s 1 r.level) 6 r.q06) 7 r.q07) 4 r.q04) 5 n).get (Ent.Q_LEVEL 1) =
      r.level := by
    rw [noteLevel_get _ _ _ (by decide) (by decide), noteLevel_get _ _ _ (by decide) (by decide), noteLevel_get _ _ _ (by decide) (by decide),
      noteLevel_get _ _ _ (by decide) (by decide), noteLevel_level _ _ _ (by decide)]
  unfold queueResult
  dsimp only
  refine ⟨?_, hl _ _, by simp, by simp, by simp, by simp⟩
  rw [noteLevel_get _ _ _ (by decide) (by decide), noteLevel_get _ _ _ (by decide) (by decide), noteLevel_get _ _ _ (by decide) (by decide),
    noteLevel_get _ _ _ (by decide) (by decide), noteLevel_get _ _ _ (by decide) (by decide), State.onSpindle_get, State.bumpBy_get _ (by decide),
    State.get_put_self]

/-! ### Optical -/

/-- The entries that an optical result fills before its backstop values, its supply and its monitor. -/
def optStored (s : State) (r : OptResult) : State :=
  let s1 := ((s.put Ent.OPT_TAG r.tag).put Ent.OPT_TIME r.tick).putS Ent.OPT_S_IR r.sIr
  let s2 := ((s1.putS Ent.OPT_S_BL r.sBl).put Ent.OPT_REF_IR r.rIr).put Ent.OPT_REF_BL r.rBl
  let s3 := ((s2.put Ent.OPT_DARK r.dark).putS Ent.OPT_Y_IR (f32Opt (resultYIr s r))).putS Ent.OPT_Y_BL (f32Opt (resultYBl s r))
  ((s3.putS Ent.OPT_RATIO (f32Opt (ratioOf (resultYIr s r) (resultYBl s r)))).put Ent.OPT_FLAGS (optFlags s r)).bump Ent.OPT_COUNT

theorem optStored_entries (s : State) (r : OptResult) :
    (optStored s r).get Ent.OPT_TAG = r.tag ∧ (optStored s r).get Ent.OPT_TIME = r.tick ∧
    (optStored s r).get Ent.OPT_S_IR = ofSigned 32 (satSigned 32 r.sIr) ∧ (optStored s r).get Ent.OPT_REF_BL = r.rBl ∧
    (optStored s r).get Ent.OPT_DARK = r.dark ∧ (optStored s r).get Ent.OPT_FLAGS = optFlags s r ∧ Counted s (optStored s r) Ent.OPT_COUNT := by
  have hk : DictKept [0x200A, 0x200B, 0x200C, 0x200D] (((((((s.put Ent.OPT_TAG r.tag).put Ent.OPT_TIME r.tick).putS Ent.OPT_S_IR r.sIr).putS Ent.OPT_S_BL r.sBl).put
      Ent.OPT_REF_IR r.rIr).put Ent.OPT_REF_BL r.rBl).put Ent.OPT_DARK r.dark) (optStored s r) :=
    ((((put_dictKept _ _ (by decide)).trans (put_dictKept _ _ (by decide))).trans (put_dictKept _ _ (by decide))).trans
      (put_dictKept _ _ (by decide))).trans (put_dictKept _ _ (by decide))
  refine ⟨(hk.get _ (by decide)).trans ?_, (hk.get _ (by decide)).trans ?_, (hk.get _ (by decide)).trans ?_, (hk.get _ (by decide)).trans ?_,
    (hk.get _ (by decide)).trans ?_, ?_, ?_⟩
  · rw [State.get_put_ne _ (by decide), State.get_put_ne _ (by decide), State.get_put_ne _ (by decide), State.putS_get _ (by decide),
      State.putS_get _ (by decide), State.get_put_ne _ (by decide), State.get_put_self]
  · rw [State.get_put_ne _ (by decide), State.get_put_ne _ (by decide), State.get_put_ne _ (by decide), State.putS_get _ (by decide),
      State.putS_get _ (by decide), State.get_put_self]
  · rw [State.get_put_ne _ (by decide), State.get_put_ne _ (by decide), State.get_put_ne _ (by decide), State.putS_get _ (by decide),
      State.get_putS_word _ (by decide)]
  · rw [State.get_put_ne _ (by decide), State.get_put_self]
  · rw [State.get_put_self]
  · rw [optStored, State.bump_get _ (by decide), State.get_put_self]
  · have hb : DictKept [0x2005, 0x2006, 0x2007, 0x2008, 0x2009, 0x200A, 0x200B, 0x200C] s
        ((((((((((((s.put Ent.OPT_TAG r.tag).put Ent.OPT_TIME r.tick).putS Ent.OPT_S_IR r.sIr).putS Ent.OPT_S_BL r.sBl).put
          Ent.OPT_REF_IR r.rIr).put Ent.OPT_REF_BL r.rBl).put Ent.OPT_DARK r.dark).putS Ent.OPT_Y_IR (f32Opt (resultYIr s r))).putS Ent.OPT_Y_BL
          (f32Opt (resultYBl s r))).putS Ent.OPT_RATIO (f32Opt (ratioOf (resultYIr s r) (resultYBl s r))))).put Ent.OPT_FLAGS (optFlags s r)) :=
      ((((((put_dictKept s _ (by decide)).trans (put_dictKept _ _ (by decide))).trans (put_dictKept _ _ (by decide))).trans
        ((put_dictKept _ _ (by decide)).trans (put_dictKept _ _ (by decide)))).trans ((put_dictKept _ _ (by decide)).trans (put_dictKept _ _ (by decide)))).trans
        ((put_dictKept _ _ (by decide)).trans (put_dictKept _ _ (by decide)))).trans ((put_dictKept _ _ (by decide)).trans (put_dictKept _ _ (by decide)))
    rw [Counted, optStored, State.bump_get_self]
    exact congrArg (fun n => min (n + 1) _) (hb.get _ (by decide))

theorem optStored_kept (s : State) (r : OptResult) :
    FrameKept id [0x2005, 0x2006, 0x2007, 0x2008, 0x2009, 0x200A, 0x200B, 0x200C, 0x200D] s (optStored s r) := by
  unfold optStored
  dsimp only
  refine .trans ?_ (bump_frameKept _ (by decide))
  refine .trans (.trans ?_ (putS_frameKept _ _ (by decide))) (put_frameKept _ _ (by decide))
  refine .trans (.trans (.trans ?_ (put_frameKept _ _ (by decide))) (putS_frameKept _ _ (by decide))) (putS_frameKept _ _ (by decide))
  refine .trans (.trans (.trans ?_ (putS_frameKept _ _ (by decide))) (put_frameKept _ _ (by decide))) (put_frameKept _ _ (by decide))
  exact .trans (.trans (put_frameKept _ _ (by decide)) (put_frameKept _ _ (by decide))) (putS_frameKept _ _ (by decide))

/-- An optical result's entries before its monitor. -/
def optPublished (s : State) (r : OptResult) : State :=
  let c := if bit (optFlags s r) 0 then (optStored s r).bump Ent.OPT_SAT_COUNT else optStored s r
  let b := backstopValues s r
  let c := ((c.putS Ent.OPT_BS_IR b.1).putS Ent.OPT_BS_BL b.2.1).putS Ent.OPT_BS_RATIO (f32Opt b.2.2)
  (c.put Ent.VDD_LOADED (vddSum s r.loaded)).put Ent.VDD_MIN (min (c.get Ent.VDD_MIN) (vddSum s r.loaded))

theorem optResult_eq (s : State) (r : OptResult) : optResult s r = resultNotice (chamberCheck (optPublished s r) r) := rfl

theorem optPublished_kept (s : State) (r : OptResult) : FrameKept id [0x200E, 0x200F, 0x2301, 0x2306] (optStored s r) (optPublished s r) := by
  have hc : FrameKept id [0x200E, 0x200F, 0x2301, 0x2306] (optStored s r)
      (if bit (optFlags s r) 0 then (optStored s r).bump Ent.OPT_SAT_COUNT else optStored s r) := .ite (bump_frameKept _ (by decide)) (.refl _)
  unfold optPublished
  dsimp only
  refine hc.trans (.trans ?_ (put_frameKept _ _ (by decide)))
  refine .trans ?_ (put_frameKept _ _ (by decide))
  exact ((putS_frameKept _ _ (by decide)).trans (putS_frameKept _ _ (by decide))).trans (putS_frameKept _ _ (by decide))

theorem flyer_of_entries {idx : List Nat} (h : FrameKept id idx s t) : t.flyer = s.flyer := by
  have hf := congrArg State.flyer h.rest
  exact hf

theorem optResult_flyer (s : State) (r : OptResult) : (optResult s r).flyer = s.flyer := by
  rw [optResult_eq, resultNotice, raise_flyer, (chamberCheck_kept _ r).flyer, flyer_of_entries (optPublished_kept s r),
    flyer_of_entries (optStored_kept s r)]

theorem optResult_get (s : State) (r : OptResult) {e : Nat} (h1 : e / 256 ∉ [0x200E, 0x200F, 0x2301, 0x2306]) (h2 : e / 256 ∉ monitorIdx) :
    (optResult s r).get e = (optStored s r).get e := by
  have hn : e ≠ Ent.NOTICE_PENDING := by rintro rfl; exact h2 (by decide)
  rw [optResult_eq, resultNotice_get _ hn, (chamberCheck_kept _ r).get e h2, (optPublished_kept s r).ents.get e h1]

/-- The entries of an optical result. -/
theorem optResult_entries (s : State) (r : OptResult) :
    (optResult s r).get Ent.OPT_TAG = r.tag ∧ (optResult s r).get Ent.OPT_TIME = r.tick ∧ (optResult s r).getS Ent.OPT_S_IR = satSigned 32 r.sIr ∧
    (optResult s r).get Ent.OPT_REF_BL = r.rBl ∧ (optResult s r).get Ent.OPT_DARK = r.dark ∧ (optResult s r).get Ent.OPT_FLAGS = optFlags s r ∧
    Counted s (optResult s r) Ent.OPT_COUNT := by
  obtain ⟨h1, h2, h3, h4, h5, h6, h7⟩ := optStored_entries s r
  have h {e : Nat} (h1 : e / 256 ∉ [0x200E, 0x200F, 0x2301, 0x2306]) (h2 : e / 256 ∉ monitorIdx) : (optResult s r).get e = (optStored s r).get e :=
    optResult_get s r h1 h2
  exact ⟨(h (by decide) (by decide)).trans h1, (h (by decide) (by decide)).trans h2, getS_of_word (by decide) ((h (by decide) (by decide)).trans h3),
    (h (by decide) (by decide)).trans h4, (h (by decide) (by decide)).trans h5, (h (by decide) (by decide)).trans h6,
    (h (by decide) (by decide)).trans h7⟩

/-! ## What the result unit computes is not the link's -/

section
variable (h : Brought s u r)
include h

theorem Brought.effectives : Machine.effective u = Machine.effective s := funext fun i => (h.effective i).1

theorem Brought.clampeds : clamped u = clamped s := funext fun i => (h.effective i).2.1

theorem Brought.atLimits : atLimit u = atLimit s := funext fun i => (h.effective i).2.2

theorem Brought.vddSum (n : Nat) : Machine.vddSum u n = Machine.vddSum s n := by rw [Machine.vddSum, vddOffset, h.effectives]; rfl

theorem Brought.optFlags (x : OptResult) : Machine.optFlags u x = Machine.optFlags s x := by
  have h1 : u.get Ent.REF_NOM_IR = s.get Ent.REF_NOM_IR := h.get (by decide) (by decide)
  have h2 : u.get Ent.REF_NOM_BL = s.get Ent.REF_NOM_BL := h.get (by decide) (by decide)
  unfold Machine.optFlags resultYIr resultYBl resultIr resultBl
  rw [h.effectives, h.atLimits, h1, h2]

theorem Brought.heatTemp (c : Nat) : Machine.heatTemp u c = Machine.heatTemp s c := by
  have h1 : u.get Ent.NTC_NOM = s.get Ent.NTC_NOM := h.get (by decide) (by decide)
  have h2 : u.getS Ent.NTC_BETA = s.getS Ent.NTC_BETA := State.getS_congr (h.get (by decide) (by decide))
  have h3 : u.get Ent.NTC_REF = s.get Ent.NTC_REF := h.get (by decide) (by decide)
  simp only [Machine.heatTemp, h1, h2, h3, h.effectives]

theorem Brought.heatFlags (c : Nat) : Machine.heatFlags u c = Machine.heatFlags s c := by
  simp only [Machine.heatFlags, h.clampeds, h.heatTemp]

theorem Brought.coPpm (c : Int) : Machine.coPpm u c = Machine.coPpm s c := by simp only [Machine.coPpm, h.effectives]

theorem Brought.coFlags (x : CoResult) : Machine.coFlags u x = Machine.coFlags s x := by
  simp only [Machine.coFlags, h.coPpm, h.clampeds, h.effectives]

theorem Brought.pulsePasses (n : Nat) : Machine.pulsePasses u n = Machine.pulsePasses s n := by
  have h1 : u.getS Ent.CO_PULSE_LO = s.getS Ent.CO_PULSE_LO := State.getS_congr (h.get (by decide) (by decide))
  have h2 : u.getS Ent.CO_PULSE_HI = s.getS Ent.CO_PULSE_HI := State.getS_congr (h.get (by decide) (by decide))
  simp only [Machine.pulsePasses, h1, h2]

theorem Brought.ainMv (c : Int) : Machine.ainMv u c = Machine.ainMv s c := by
  have h1 : u.get Ent.AIN_PGA = s.get Ent.AIN_PGA := h.get (by decide) (by decide)
  simp only [Machine.ainMv, h1, h.effectives]

theorem Brought.ainFlags (x : CodeResult) : Machine.ainFlags u x = Machine.ainFlags s x := by simp only [Machine.ainFlags, h.clampeds]

/-- A count of the result is a count from before the flit. -/
theorem Brought.counted {e : Nat} (h1 : e ≠ Ent.PLY_STATE) (h2 : e ≠ Ent.PLY_FLITS) (hc : Counted u t e) : Counted s t e := by
  rw [Counted, ← h.get h1 h2]
  exact hc

end

/-! ## Each kind -/

section
variable (h : fresh s lane = true) (hl : lane ≠ .s2f) (hq : s.spindle.stq.length < 4) (hp : plyHolds s = false)
include h hl hq hp

theorem statusOptical_results (r : OptResult) (hr : s.flyer.res.opt = some r) (hf : (Flight.opt r).fit = .opt r) :
    Answers (.statusOptical lane) s fun t =>
      t.flyer.res.opt = none ∧ t.get Ent.OPT_TAG = r.tag ∧ t.get Ent.OPT_TIME = r.tick ∧ t.getS Ent.OPT_S_IR = satSigned 32 r.sIr ∧
      t.get Ent.OPT_REF_BL = r.rBl ∧ t.get Ent.OPT_DARK = r.dark ∧ t.get Ent.OPT_FLAGS = optFlags s r ∧ Counted s t Ent.OPT_COUNT := by
  have ho : r.offered = false := congrArg OptResult.offered (Flight.opt.inj hf).symm
  obtain ⟨u, hu, b⟩ := statusArrives_brings (kind := 1) (r := { s.flyer.res with opt := none }) h hl hq hp (by simp [takeResult, hr, ho]) rfl
    ((statusOf_opt r).trans (congrArg some hf))
  obtain ⟨h1, h2, h3, h4, h5, h6, h7⟩ := optResult_entries u r
  have hs : (optResult u r).flyer.res.opt = none := by rw [optResult_flyer]; exact b.opt rfl
  have hu : statusArrives s lane 1 = optResult u r := hu
  refine answers_next (t := statusArrives s lane 1) rfl ?_
  rw [hu]
  exact ⟨hs, h1, h2, h3, h4, h5, h6.trans (b.optFlags r), b.counted (by decide) (by decide) h7⟩

theorem statusHeat_brings (r : CodeResult) (hr : s.flyer.res.heat = some r) (hf : (Flight.heat r).fit = .heat r) :
    ∃ u, statusArrives s lane 2 = heatResult u r ∧ Brought s u { s.flyer.res with heat := none } :=
  statusArrives_brings (kind := 2) (r := { s.flyer.res with heat := none }) h hl hq hp (by simp [takeResult, hr]) rfl
    ((statusOf_heat r).trans (congrArg some hf))

theorem statusHeat_results (r : CodeResult) (x : Frac) (hr : s.flyer.res.heat = some r) (hf : (Flight.heat r).fit = .heat r)
    (hx : heatTemp s r.code.toNat = some x) : Answers (.statusHeat lane) s fun t =>
      t.flyer.res.heat = none ∧ t.get Ent.HEAT_CODE = r.code.toNat ∧ t.getS Ent.HEAT_TEMP = satSigned 32 (f32Of x) ∧ t.get Ent.HEAT_TIME = r.tick ∧
      t.get Ent.HEAT_FLAGS = heatFlags s r.code.toNat ∧ Counted s t Ent.HEAT_COUNT := by
  obtain ⟨u, hu, b⟩ := statusHeat_brings h hl hq hp r hr hf
  obtain ⟨h1, h2, h3, h4⟩ := heatResult_entries u r
  have hs : u.flyer.res.heat = none := congrArg Results.heat (b.slots [] false none)
  refine answers_next (t := statusArrives s lane 2) rfl ?_
  rw [hu]
  exact ⟨(congrArg (·.res.heat) (heatResult_flyer u r)).trans hs, h1, heatResult_temp u r ((b.heatTemp _).trans hx), h2, h3.trans (b.heatFlags _),
    b.counted (by decide) (by decide) h4⟩

theorem statusHeat_noTemp (r : CodeResult) (hr : s.flyer.res.heat = some r) (hf : (Flight.heat r).fit = .heat r) (hx : heatTemp s r.code.toNat = none) :
    Answers (.statusHeat lane) s fun t =>
      t.flyer.res.heat = none ∧ t.get Ent.HEAT_CODE = r.code.toNat ∧ t.get Ent.HEAT_TEMP = 0 ∧ bit (t.get Ent.HEAT_FLAGS) 3 = true ∧
      t.spindle.temps = s.spindle.temps := by
  obtain ⟨u, hu, b⟩ := statusHeat_brings h hl hq hp r hr hf
  obtain ⟨h1, -, -, -⟩ := heatResult_entries u r
  obtain ⟨ht, hb, hm⟩ := heatResult_noTemp u r ((b.heatTemp _).trans hx)
  have hs : u.flyer.res.heat = none := congrArg Results.heat (b.slots [] false none)
  refine answers_next (t := statusArrives s lane 2) rfl ?_
  rw [hu]
  exact ⟨(congrArg (·.res.heat) (heatResult_flyer u r)).trans hs, h1, ht, hb, hm.trans (congrArg Spindle.temps b.kept.spindle)⟩

theorem statusCo_results (r : CoResult) (hr : s.flyer.res.co = some r) (hf : (Flight.co r).fit = .co r) : Answers (.statusCo lane) s fun t =>
      t.flyer.res.co = none ∧ t.getS Ent.CO_CODE = satSigned 32 r.code ∧ t.getS Ent.CO_CURRENT = satSigned 32 (f32Of (coCurrent r.code)) ∧
      t.getS Ent.CO_PPM = satSigned 32 (f32Opt (coPpm s r.code)) ∧ t.get Ent.CO_TIME = r.tick ∧ t.get Ent.CO_FLAGS = coFlags s r ∧
      (bit r.flags 7 = true → t.get Ent.CO_PULSE_TIME = r.stepAt ∧ t.get Ent.CO_PULSE_PASS = if pulsePasses s r.di then 1 else 0) ∧
      (bit r.flags 7 = false → t.get Ent.CO_PULSE_TIME = s.get Ent.CO_PULSE_TIME) := by
  obtain ⟨u, hu, b⟩ := statusArrives_brings (kind := 3) (r := { s.flyer.res with co := none }) h hl hq hp (by simp [takeResult, hr]) rfl
    ((statusOf_co r).trans (congrArg some hf))
  obtain ⟨h1, h2, h3, h4, h5⟩ := coResult_entries u r
  have hs : u.flyer.res.co = none := congrArg Results.co (b.slots [] false none)
  refine answers_next (t := statusArrives s lane 3) rfl ?_
  rw [hu]
  refine ⟨(congrArg (·.res.co) (coResult_flyer u r)).trans hs, h1, h2, (b.coPpm r.code) ▸ h3, h4, h5.trans (b.coFlags r), fun hb => ?_, fun hb => ?_⟩
  · exact b.pulsePasses r.di ▸ coResult_pulse u hb
  · exact (coResult_noPulse u hb).trans (b.get (by decide) (by decide))

theorem statusAux_results (r : CodeResult) (hr : s.flyer.res.aux = some r) (hf : (Flight.aux r).fit = .aux r) : Answers (.statusAux lane) s fun t =>
      t.flyer.res.aux = none ∧ t.getS Ent.AIN_CODE = satSigned 32 r.code ∧ t.getS Ent.AIN_MV = satSigned 32 (f32Of (ainMv s r.code)) ∧
      t.get Ent.AIN_TIME = r.tick ∧ t.get Ent.AIN_FLAGS = ainFlags s r := by
  obtain ⟨u, hu, b⟩ := statusArrives_brings (kind := 4) (r := { s.flyer.res with aux := none }) h hl hq hp (by simp [takeResult, hr]) rfl
    ((statusOf_aux r).trans (congrArg some hf))
  obtain ⟨h1, h2, h3, h4⟩ := auxResult_entries u r
  have hs : u.flyer.res.aux = none := congrArg Results.aux (b.slots [] false none)
  refine answers_next (t := statusArrives s lane 4) rfl ?_
  rw [hu]
  exact ⟨(congrArg (·.res.aux) (auxResult_flyer u r)).trans hs, h1, b.ainMv r.code ▸ h2, h3, h4.trans (b.ainFlags r)⟩

theorem statusSupply_results (r : SupplyResult) (hr : s.flyer.res.supply = some r) (hf : (Flight.supply r).fit = .supply r) :
    Answers (.statusSupply lane) s fun t =>
      t.flyer.res.supply = none ∧ t.get Ent.VDD_NOW = vddSum s r.vdd ∧ t.getS (Ent.DIE_TEMP 2) = satSigned 32 (tempF32 r.flyerT) ∧
      t.getS (Ent.DIE_TEMP 3) = satSigned 32 (tempF32 r.keeperT) ∧ t.get Ent.SUPPLY_TIME = r.tick := by
  obtain ⟨u, hu, b⟩ := statusArrives_brings (kind := 5) (r := { s.flyer.res with supply := none }) h hl hq hp (by simp [takeResult, hr]) rfl
    ((statusOf_supply r).trans (congrArg some hf))
  obtain ⟨h1, h2, h3, h4⟩ := supplyResult_entries u r
  have hs : u.flyer.res.supply = none := congrArg Results.supply (b.slots [] false none)
  refine answers_next (t := statusArrives s lane 5) rfl ?_
  rw [hu]
  exact ⟨(congrArg (·.res.supply) (supplyResult_flyer u r)).trans hs, h1.trans (b.vddSum r.vdd), h2, h3, h4⟩

theorem statusQueues_results (r : QueueReport) (hr : s.flyer.res.queues = some r) (hf : (Flight.queues r).fit = .queues r) :
    Answers (.statusQueues lane) s fun t =>
      t.flyer.res.queues = none ∧ t.get Ent.HORN_QUEUE = r.level ∧ t.get (Ent.Q_LEVEL 1) = r.level ∧ t.spindle.freed = r.removed ∧
      t.spindle.placed = (if r.mark then 0 else s.spindle.placed) ∧ t.spindle.dropSeen = r.discarded := by
  obtain ⟨u, hu, b⟩ := statusArrives_brings (kind := 6) (r := { s.flyer.res with queues := none }) h hl hq hp (by simp [takeResult, hr]) rfl
    ((statusOf_queues r).trans (congrArg some hf))
  obtain ⟨h1, h2, h3, h4, h5, h6⟩ := queueResult_entries u r
  have hs : u.flyer.res.queues = none := congrArg Results.queues (b.slots [] false none)
  refine answers_next (t := statusArrives s lane 6) rfl ?_
  rw [hu]
  exact ⟨(congrArg (·.res.queues) h6).trans hs, h1, h2, h3, by rw [← b.kept.spindle]; exact h4, h5⟩

end

/-- Settles O18, kind by kind. -/
theorem statusResults : Obligations.StatusResults := by
  unfold Obligations.StatusResults
  intro s lane h hl hq hp
  exact ⟨statusOptical_results h hl hq hp, statusHeat_results h hl hq hp, statusHeat_noTemp h hl hq hp, statusCo_results h hl hq hp,
    statusAux_results h hl hq hp, statusSupply_results h hl hq hp, statusQueues_results h hl hq hp⟩

end Sys2Proof.Machine
end

section
/-! CLAIMS. Writes to the sensors and to calibration (R47, R55, R104, R106, R119, R123 to R128). -/
namespace Sys2Proof.Machine
variable {s t : State} {u : User} {e v : Nat}

/-! ## The keeper's memory and what a write beside its store leaves of it -/

/-- The one-time writes and the delta rows are as before, and so are the N writes in progress and every entry whose index is not listed. -/
structure MemoryKept (idx : List Nat) (s t : State) : Prop where
  written : t.keeper.written = s.keeper.written
  calRows : t.keeper.calRows = s.keeper.calRows
  dict : DictKept idx s t

theorem MemoryKept.refl (idx : List Nat) (s : State) : MemoryKept idx s s := ⟨rfl, rfl, .refl s⟩

theorem MemoryKept.trans {idx : List Nat} {r : State} (h : MemoryKept idx s t) (g : MemoryKept idx t r) : MemoryKept idx s r :=
  ⟨g.written.trans h.written, g.calRows.trans h.calRows, h.dict.trans g.dict⟩

theorem MemoryKept.mono {idx more : List Nat} (h : MemoryKept idx s t) (hs : idx ⊆ more) : MemoryKept more s t := ⟨h.written, h.calRows, h.dict.mono hs⟩

theorem MemoryKept.ite {idx : List Nat} {a b : State} {c : Prop} [Decidable c] (ha : MemoryKept idx s a) (hb : MemoryKept idx s b) :
    MemoryKept idx s (if c then a else b) := by
  split <;> assumption

theorem put_memoryKept {idx : List Nat} (s : State) (v : Nat) (h : e / 256 ∈ idx) : MemoryKept idx s (s.put e v) := ⟨rfl, rfl, put_dictKept s v h⟩

/-- The indices of the entries that a mode change may write. -/
def modeIdx : List Nat :=
  [0x100E, 0x1018, 0x101B, 0x101C, 0x101F, 0x1020, 0x120D, 0x120E, 0x2407, 0x2408, 0x2409, 0x240B, 0x2412, 0x2413, 0x2600, 0x2601, 0x2602, 0x2607, 0x2608,
    0x4106, 0x5003]

theorem modeEntry_idx (h : modeEntry e = true) : e / 256 ∈ modeIdx := by
  have hm : ∀ x ∈ [Ent.LISTEN_ONLY, Ent.MODE, Ent.MODE_SINCE, Ent.MODE_CHANGES, Ent.LAST_ALARM_TIME, Ent.LAST_ALARM_KIND, Ent.ALARM_COUNT, Ent.ECHO_COUNT,
      Ent.HUSH_COUNT, Ent.HUSH_LEFT, Ent.COMMISSIONED_AT, Ent.SERVICE_SECONDS, Ent.ST_FAILS, Ent.ST_ABORTS, Ent.ST_STATE, Ent.ST_SPREAD,
      Ent.ST_NEXT_DUE, Ent.NOTICE_PENDING, Ent.Q_PEAK 2, Ent.Q_PEAK 4, Ent.Q_FULL 2, Ent.Q_FULL 4], x / 256 ∈ modeIdx := by decide
  simp only [modeEntry, Bool.or_eq_true, beq_iff_eq, List.contains_iff_mem] at h
  rcases h with h | h
  · exact hm e h
  · rw [h]; decide

theorem ModeKept.memory (h : ModeKept s t) : MemoryKept modeIdx s t := by
  have hn (e : Nat) (he : e / 256 ∉ modeIdx) : modeEntry e = false := Bool.eq_false_iff.2 fun hm => he (modeEntry_idx hm)
  exact ⟨by rw [h.keeper], by rw [h.keeper], fun e he => h.get e (hn e he), fun e u he => h.getU e u (hn e he), by rw [h.keeper]⟩

/-- The indices of the entries that an event, a rest word of GAS, a measurement's start and an answer may write. -/
def besideIdx : List Nat := [0x101A, 0x101D] ++ modeIdx ++ riseIdx ++ restIdx ++ commitIdx

theorem clearFault_memoryKept (s : State) (n : Nat) : MemoryKept besideIdx s (clearFault s n) := by
  have hp : MemoryKept besideIdx s (s.put Ent.FAULT_CAUSE (clearBits (s.get Ent.FAULT_CAUSE) n)) := put_memoryKept s _ (by decide)
  have hb := put_memoryKept (idx := besideIdx) (e := Ent.BASE_MODE) (s.put Ent.FAULT_CAUSE (clearBits (s.get Ent.FAULT_CAUSE) n))
    (modeCode (baseMode (s.put Ent.FAULT_CAUSE (clearBits (s.get Ent.FAULT_CAUSE) n)))) (by decide)
  exact .ite (.refl _ s) (hp.trans (hb.trans ((afterEvent_kept _ 0x43).memory.mono (by decide))))

theorem sendShadow_memoryKept (s : State) : MemoryKept besideIdx s (sendShadow s) := by
  have hd : DictKept demandIdx s (sendShadow s) := DictKept.foldl (fun s i => sbQueue_dictKept s .keeper 0xD 1 (shadowBlock s i)) (List.range 4) s
  exact ⟨by rw [sendShadow_keeper], by rw [sendShadow_keeper], hd.mono (by decide)⟩

/-! ## CO enabled (R104, R166) -/

theorem raiseGas_flyer (s : State) : (raiseGas s).flyer = s.flyer := by
  unfold raiseGas
  split
  · simp [setRest, isFlyerDom, domNum, sendDomain, onDom]
  · rfl

theorem raiseGas_memoryKept (s : State) : MemoryKept besideIdx s (raiseGas s) := by
  have hk : (setRest s .gas 1).keeper = s.keeper := by simp [setRest, isFlyerDom, domNum, sendDomain, onDom]
  exact .ite ⟨by rw [hk], by rw [hk], (setRest_restKept s .gas 1).mono (by decide)⟩ (.refl _ s)

theorem coTick_memoryKept (s : State) : MemoryKept besideIdx s (coTick s) := by
  have h := coTick_frameKept (F := fun s => ((forgetNotices s).onFlyer fun x => { x with doms := [] }).onSense fun x => { x with co := none, coWait := false })
    (idx := riseIdx) (fun _ _ _ => rfl) (fun _ _ => rfl) (List.Subset.refl _) (fun _ _ _ => rfl) s
  have hw := congrArg (·.keeper.written) h.rest
  have hc := congrArg (·.keeper.calRows) h.rest
  exact ⟨hw, hc, h.ents.mono (by decide)⟩

theorem coEnabled_memoryKept (s : State) (old v : Nat) : MemoryKept besideIdx s (coEnabled s old v) :=
  .ite ((raiseGas_memoryKept s).trans (coTick_memoryKept _)) (.refl _ s)

/-- CO enabled anew measures at once. -/
theorem coEnabled_starts {old : Nat} (ho : old ≠ 1) (hc : s.get Ent.CO_ENABLE = 1) (hs : schedules s = true) (hn : s.flyer.sense.co = none) :
    (coEnabled s old 1).flyer.sense.co = some (flyerTime s) := by
  have hf := raiseGas_flyer s
  have hg : (raiseGas s).get Ent.CO_ENABLE = 1 := by
    unfold raiseGas
    split
    · exact ((setRest_restKept s .gas 1).get _ (by decide)).trans hc
    · exact hc
  have hs' : schedules (raiseGas s) = true := by rw [schedules, hf]; exact hs
  rw [coEnabled, if_pos ⟨rfl, ho⟩, coTick_of_on hs' hg, hf, hn, if_neg (by simp), coStart_sense, flyerTime, hf]
  rfl

/-! ## The keeper commits -/

/-- What the answer to a committed write leaves: the flyer, the keeper's memory and every entry but those of answers. -/
structure Answered (s t : State) : Prop where
  flyer : t.flyer = s.flyer
  memory : MemoryKept commitIdx s t

theorem Answered.trans {r : State} (h : Answered s t) (g : Answered t r) : Answered s r := ⟨g.flyer.trans h.flyer, h.memory.trans g.memory⟩

theorem answered_of_same (hf : t.flyer = s.flyer) (hk : t.keeper = s.keeper) (h : DictKept commitIdx s t) : Answered s t :=
  ⟨hf, by rw [hk], by rw [hk], h⟩

theorem onTag_answered (s : State) (f : Tag → Tag) : Answered s (s.onTag f) := answered_of_same rfl rfl (onTag_dictKept s f)
theorem onDict_answered (s : State) (f : Dict → Dict) : Answered s (s.onDict f) := answered_of_same rfl rfl (dictKept_of_ent rfl rfl)
theorem used_answered (s : State) : Answered s s.used := answered_of_same rfl rfl (used_dictKept s)

theorem put_answered (s : State) (v : Nat) (h : e / 256 ∈ commitIdx) : Answered s (s.put e v) := answered_of_same rfl rfl (put_dictKept s v h)

theorem sendInf_answered (s : State) (b : Bytes) : Answered s (sendInf s b) := by
  unfold sendInf sendBlock
  dsimp only
  exact (onTag_answered s _).trans (onTag_answered _ _)

theorem apduAnswer_answered (s : State) (b : Bytes) (n : Nat) : Answered s (apduAnswer s b n) := by
  have h : Answered s (((s.bump Ent.TAG_APDUS).put Ent.TAG_LAST_SW n).onTag fun t => { t with pendingApdu := none }) :=
    ((put_answered s _ (by decide)).trans (put_answered _ _ (by decide))).trans (onTag_answered _ _)
  unfold apduAnswer
  dsimp only
  split
  · exact h.trans (onTag_answered _ _)
  · exact h.trans (sendInf_answered _ _)

theorem demandCrypto_answered (s : State) : Answered s (demand s .crypto) := by
  have hx (s : State) : (beginExit s .crypto none).flyer = s.flyer := by
    unfold beginExit
    dsimp only
    rw [if_neg (show ¬Domain.crypto = .net by decide), if_neg (fun h => absurd h.1 (by decide)), setDomNow, if_neg (by decide)]
    exact State.put_flyer _ _ _
  have hr (s : State) (w n : Nat) : (refuse s .crypto w n).keeper.written = s.keeper.written ∧ (refuse s .crypto w n).keeper.calRows = s.keeper.calRows := by
    rw [refuse, raise_keeper', State.put_keeper, State.put_keeper, State.bump_keeper]
    exact ⟨rfl, rfl⟩
  have h : (demand s .crypto).flyer = s.flyer ∧ (demand s .crypto).keeper.written = s.keeper.written ∧
      (demand s .crypto).keeper.calRows = s.keeper.calRows := by
    unfold demand raiseDomain
    split
    · rw [if_neg (by decide), hx, refuse_flyer, beginExit_keeper]
      exact ⟨rfl, hr _ _ _⟩
    · rw [hx, beginExit_keeper]
      exact ⟨rfl, rfl, rfl⟩
    · rw [hx, beginExit_keeper]
      exact ⟨rfl, rfl, rfl⟩
    · exact ⟨rfl, rfl, rfl⟩
  exact ⟨h.1, h.2.1, h.2.2, (demand_dictKept s .crypto).mono (by decide)⟩

theorem writeAnswer_answered (s : State) (c : Nat) : Answered s (writeAnswer s c) := by
  have hd : Answered s ((demand s .crypto).onTag fun t => { t with c := t.c + 1 }) :=
    (demandCrypto_answered s).trans (onTag_answered _ _)
  unfold writeAnswer
  dsimp only
  split
  · exact hd.trans (apduAnswer_answered _ _ _)
  · exact (hd.trans (used_answered _)).trans (apduAnswer_answered _ _ _)

theorem deliverT_answered (s : State) : Answered s (deliverT s) := by
  unfold deliverT
  split
  · dsimp only
    split
    · exact ((onDict_answered s _).trans (onTag_answered _ _)).trans (apduAnswer_answered _ _ _)
    · exact ((onDict_answered s _).trans (onTag_answered _ _)).trans (writeAnswer_answered _ _)
  · exact answered_of_same rfl rfl (.refl s)

/-- A committed write of one entry is applied, and its answer leaves the flyer, the keeper's memory and the entries. -/
theorem commits_of_answered {q : Request} {p : State → Prop} (hq : q.op = 2)
    (hj : ∀ rest, (applyWrites (jobTaken s rest) q.user [(e, v)]).keeper.jobs = rest)
    (hp : ∀ rest t, Answered (applyWrites (jobTaken s rest) q.user [(e, v)]) t → p t) : Commits s q e v p := by
  intro rest hs
  have hc : jobComplete s = respondJob (applyWrites (jobTaken s rest) q.user [(e, v)]) q Sc.ok [] := jobComplete_front hs
  have hr : Answered (applyWrites (jobTaken s rest) q.user [(e, v)]) (jobComplete s) := by
    rw [hc]
    exact answered_of_same (respondJob_flyer ..) (respondJob_keeper ..) ((respondJob_dictKept _ _ _ _).mono responseIdx_commit)
  have ht := hr.trans (deliverT_answered _)
  have hl : (deliverT (jobComplete s)).getU Ent.LAST_STATUS q.user = Sc.ok := by
    rw [(deliverT_dictKept _).getU _ _ (by decide), hc]
    exact respondJob_lastStatus (by omega) (by omega)
  exact answers_next (t := deliverT (jobComplete s)) rfl ⟨ht.memory.dict.jobs.trans (hj rest), hl, hp rest _ ht⟩

/-! ## CO_ENABLE and AIN_PERIOD -/

/-- A stored entry that has no meaning of its own at its store goes to what follows a store. -/
theorem applyWrite_stored {r : EntryRow} (hr : findRow e = some r) (hf : decide (r.cls = .f) = false) (hp : r.perUser = false)
    (hn : isDelta e = false ∧ isMono e = false ∧ isCleared e = false)
    (he : e ∉ [Ent.NOTICE_PENDING, Ent.NOTICE_MASK, Ent.FAULT_CAUSE, Ent.ALARM_FW, Ent.HP_BAUD] ∧ ¬(0x1300 ≤ e / 256 ∧ e / 256 ≤ 0x1304)) :
    applyWrite s u e v = afterStore (s.put e v) e (s.get e) v := by
  obtain ⟨hd, hm, hc⟩ := hn
  obtain ⟨he, ha⟩ := he
  simp only [List.mem_cons, List.not_mem_nil, or_false, not_or] at he
  obtain ⟨h1, h2, h3, h4, h5⟩ := he
  rw [applyWrite, hr]
  dsimp only
  rw [hd, hm, hc, hp, if_neg Bool.false_ne_true, if_neg Bool.false_ne_true, if_neg (of_decide_eq_false hf), if_neg h1, if_neg h2,
    if_neg Bool.false_ne_true, if_neg h3, if_neg Bool.false_ne_true, if_neg h4, if_neg ha, if_neg h5]

theorem applyWrite_coEnable : applyWrite s u Ent.CO_ENABLE v =
    coEnabled ((s.put Ent.CO_ENABLE v).onKeeper fun k => { k with written := Ent.CO_ENABLE :: k.written }) (s.get Ent.CO_ENABLE) v := by
  have hrow : ((findRow Ent.CO_ENABLE).map fun r => (decide (r.cls = .f), r.perUser)) = some (false, false) := by decide +kernel
  obtain ⟨r, hr, hx⟩ := Option.map_eq_some_iff.1 hrow
  obtain ⟨hf, hp⟩ := Prod.mk.inj hx
  exact applyWrite_stored hr hf hp (by decide) (by decide)

theorem applyWrite_ainPeriod : applyWrite s u Ent.AIN_PERIOD v = ainChanged (s.put Ent.AIN_PERIOD v) (s.get Ent.AIN_PERIOD) v := by
  have hrow : ((findRow Ent.AIN_PERIOD).map fun r => (decide (r.cls = .f), r.perUser)) = some (false, false) := by decide +kernel
  obtain ⟨r, hr, hx⟩ := Option.map_eq_some_iff.1 hrow
  obtain ⟨hf, hp⟩ := Prod.mk.inj hx
  exact applyWrite_stored hr hf hp (by decide) (by decide)

/-- An accepted write of a stored entry, by its address, is handed to the keeper. -/
theorem numWrite_starts (hr : (findRow e).map (·.action) = some false) (hn : isN e = true) (hc : e ≠ Ent.COMMIT) (hv : v < 256 ^ entrySize e)
    (h : accepts s (numReq u e v) = true) :
    access s (numReq u e v) = claimPlace (s.onKeeper fun k => { k with jobs := k.jobs ++ [nvmJob (numReq u e v) e v] }) (numReq u e v) := by
  have hx := access_commits rfl h (row_of_findRow hr) (by rwa [numReq_entAt]) (by rwa [numReq_entAt])
  rwa [numReq_entAt, numReq_value hv] at hx

theorem coEnable_starts (hv : v < 256) (h : accepts s (numReq u Ent.CO_ENABLE v) = true) :
    Starts (.coEnableWrite u v) s (numReq u Ent.CO_ENABLE v) Ent.CO_ENABLE v := by
  have hz : entrySize Ent.CO_ENABLE = 1 := by decide +kernel
  exact congrArg Host.Outcome.next (numWrite_starts (by decide +kernel) (by decide +kernel) (by decide) (by rwa [hz]) h)

theorem ainPeriod_starts (hv : v < 65536) (h : accepts s (numReq u Ent.AIN_PERIOD v) = true) :
    Starts (.ainPeriodWrite u v) s (numReq u Ent.AIN_PERIOD v) Ent.AIN_PERIOD v := by
  have hz : entrySize Ent.AIN_PERIOD = 2 := by decide +kernel
  exact congrArg Host.Outcome.next (numWrite_starts (by decide +kernel) (by decide +kernel) (by decide) (by rwa [hz]) h)

theorem coEnable_commits : Commits s (numReq u Ent.CO_ENABLE v) Ent.CO_ENABLE v fun t =>
    t.get Ent.CO_ENABLE = v ∧ Ent.CO_ENABLE ∈ t.keeper.written ∧
    (v = 1 → s.get Ent.CO_ENABLE ≠ 1 → schedules s = true → s.flyer.sense.co = none → t.flyer.sense.co = some (flyerTime s)) := by
  have hk (rest : List NvmJob) := coEnabled_memoryKept (((jobTaken s rest).put Ent.CO_ENABLE v).onKeeper fun k => { k with written := Ent.CO_ENABLE :: k.written })
    ((jobTaken s rest).get Ent.CO_ENABLE) v
  refine commits_of_answered rfl (fun rest => ?_) fun rest t ht => ?_
  · rw [applyWrites_one _ _ _ _ (by decide), applyWrite_coEnable, (hk rest).dict.jobs]
    rfl
  · rw [applyWrites_one _ _ _ _ (by decide), applyWrite_coEnable] at ht
    refine ⟨?_, ?_, fun h1 ho hs hn => ?_⟩
    · rw [ht.memory.dict.get _ (by decide), (hk rest).dict.get _ (by decide)]
      exact State.get_put_self _ _ _
    · rw [ht.memory.written, (hk rest).written]
      exact List.mem_cons_self
    · rw [ht.flyer, h1]
      exact coEnabled_starts (s := ((jobTaken s rest).put Ent.CO_ENABLE 1).onKeeper _) ho ((State.onKeeper_get _ _ _).trans (State.get_put_self _ _ _)) hs hn

theorem auxTick_memoryKept (s : State) : MemoryKept besideIdx s (auxTick s) := by
  have h := auxTick_frameKept (F := fun s => ((forgetNotices s).onFlyer fun x => { x with doms := [] }).onSense fun x => { x with aux := none, auxWait := false })
    (idx := riseIdx) (fun _ _ _ => rfl) (fun _ _ => rfl) (List.Subset.refl _) (fun _ _ _ => rfl) s
  have hw := congrArg (·.keeper.written) h.rest
  have hc := congrArg (·.keeper.calRows) h.rest
  exact ⟨hw, hc, h.ents.mono (by decide)⟩

theorem ainChanged_memoryKept (s : State) (old v : Nat) : MemoryKept besideIdx s (ainChanged s old v) :=
  .ite ⟨rfl, rfl, dictKept_of_ent rfl rfl⟩ (.ite (auxTick_memoryKept s) (.refl _ s))

theorem ainPeriod_commits : Commits s (numReq u Ent.AIN_PERIOD v) Ent.AIN_PERIOD v fun t =>
    t.get Ent.AIN_PERIOD = v ∧
    (v ≠ 0 → s.get Ent.AIN_PERIOD = 0 → schedules s = true → s.flyer.sense.aux = none → t.flyer.sense.aux = some (flyerTime s)) := by
  have hk (rest : List NvmJob) := ainChanged_memoryKept ((jobTaken s rest).put Ent.AIN_PERIOD v) ((jobTaken s rest).get Ent.AIN_PERIOD) v
  refine commits_of_answered rfl (fun rest => ?_) fun rest t ht => ?_
  · rw [applyWrites_one _ _ _ _ (by decide), applyWrite_ainPeriod, (hk rest).dict.jobs]
    rfl
  · rw [applyWrites_one _ _ _ _ (by decide), applyWrite_ainPeriod] at ht
    refine ⟨?_, fun hv ho hs hn => ?_⟩
    · rw [ht.memory.dict.get _ (by decide), (hk rest).dict.get _ (by decide)]
      exact State.get_put_self _ _ _
    · have hp : ((jobTaken s rest).put Ent.AIN_PERIOD v).get Ent.AIN_PERIOD ≠ 0 := by rwa [State.get_put_self]
      have hsame : ((jobTaken s rest).put Ent.AIN_PERIOD v).flyer = s.flyer := rfl
      have ho : (jobTaken s rest).get Ent.AIN_PERIOD = 0 := ho
      rw [ht.flyer, ainChanged, if_neg hv, if_pos ho, auxTick_of_period (by rw [schedules, hsame]; exact hs) hp, hsame, hn, if_neg (by simp), auxStart_sense]
      rfl

/-! ## OPT_REQUEST and CO_PULSE -/

theorem optRequest_serves (h : accepts s (numReq u Ent.OPT_REQUEST v) = true) : Serves (.optRequest u v) s (numReq u Ent.OPT_REQUEST v)
    (if optRequestStatus s = Sc.ok then s.onSense fun x => { x with reqAccepted := true } else s) (optRequestStatus s) := by
  have ha : (findRow Ent.OPT_REQUEST).map (·.action) = some true := by decide +kernel
  have hx := access_action rfl h (by rw [numReq_entAt]; decide) (row_of_findRow ha) (by rw [numReq_entAt]; decide)
  rw [numReq_entAt, action_OPT_REQUEST, perform_plain _ (engineOf_numReq (by decide))] at hx
  exact congrArg Host.Outcome.next hx

theorem coPulse_serves (h : accepts s (numReq u Ent.CO_PULSE v) = true) : Serves (.coPulse u v) s (numReq u Ent.CO_PULSE v)
    (if pulseStatus s = Sc.ok then (rise s .gas).onSense fun x => { x with pulse := .step (flyerTime s) } else s) (pulseStatus s) := by
  have ha : (findRow Ent.CO_PULSE).map (·.action) = some true := by decide +kernel
  have hx := access_action rfl h (by rw [numReq_entAt]; decide) (row_of_findRow ha) (by rw [numReq_entAt]; decide)
  rw [numReq_entAt, action_CO_PULSE, perform_plain _ (engineOf_numReq (by decide))] at hx
  exact congrArg Host.Outcome.next hx

/-! ## Factory calibration (R124, R125) -/

/-- An entry of class F stands at none of the indices that a write beside its store may touch. -/
theorem factory_idx : ∀ r ∈ entryRows, r.cls = .f → r.idx ∉ 0x2200 :: besideIdx ∧ r.idx ∉ [0x6100, 0x6101, 0x6102] ∧
    r.idx ≠ Ent.MONO_INC 0 / 256 ∧ r.idx ≠ Ent.COMMIT / 256 := by decide +kernel

theorem findRow_mem {r : EntryRow} (h : findRow e = some r) : r ∈ entryRows ∧ r.idx = e / 256 := by
  have hp := List.find?_some h
  simp only [Bool.and_eq_true, beq_iff_eq] at hp
  exact ⟨List.mem_of_find?_eq_some h, hp.1.1⟩

/-- An entry of class F, in what its writes need. -/
theorem factory_parts {r : EntryRow} (h : findRow e = some r) (hf : r.cls = .f) :
    e / 256 ∉ 0x2200 :: besideIdx ∧ isDelta e = false ∧ isMono e = false ∧ e ≠ Ent.COMMIT ∧ isN e = true := by
  obtain ⟨hm, hi⟩ := findRow_mem h
  obtain ⟨h1, h3, h4, h5⟩ := factory_idx r hm hf
  rw [hi] at h1 h3 h4 h5
  simp only [List.mem_cons, List.not_mem_nil, or_false, not_or] at h3
  refine ⟨h1, ?_, ?_, fun he => h5 (he ▸ rfl), ?_⟩
  · refine Bool.eq_false_iff.2 fun hd => ?_
    simp only [isDelta, Bool.and_eq_true, decide_eq_true_eq] at hd
    omega
  · simpa [isMono] using h4
  · simp [isN, h, hf]

theorem applyWrite_factory {r : EntryRow} (h : findRow e = some r) (hf : r.cls = .f) : applyWrite s u e v = writeOnce s e v := by
  obtain ⟨-, hd, hm, -, -⟩ := factory_parts h hf
  rw [applyWrite, h]
  dsimp only
  rw [hd, hm, if_neg Bool.false_ne_true, if_neg Bool.false_ne_true, if_pos hf]

theorem burn_written (s : State) (e v : Nat) : (burn s e v).keeper.written = e :: s.keeper.written := rfl

/-- The set of R125 is complete after a write that completes it, so that was a write of one of its entries. -/
theorem backstopSet_of_completed (h0 : backstopSetWritten s = false) (h1 : backstopSetWritten (burn s e v) = true) : ∃ p ∈ backstopSet, p.1 = e := by
  by_contra hn
  push Not at hn
  have hs : backstopSetWritten s = true := by
    rw [backstopSetWritten, List.all_eq_true] at h1 ⊢
    intro p hp
    have hc := h1 p hp
    rw [burn_written, List.contains_cons, Bool.or_eq_true, beq_iff_eq] at hc
    exact hc.resolve_left (hn p hp)
  simp [hs] at h0

theorem backstopSetDone_memoryKept (s : State) :
    MemoryKept besideIdx (s.put Ent.BS_SHADOW_CRC (crc16 (shadowImage s))) (backstopSetDone s) :=
  (clearFault_memoryKept (s.put Ent.BS_SHADOW_CRC (crc16 (shadowImage s))) 128).trans (sendShadow_memoryKept _)

/-- The completion of the set stores the shadow CRC and sends the copy; every other entry of the keeper's memory stands. -/
theorem backstopSetDone_get (s : State) (he : e / 256 ∉ besideIdx) :
    (backstopSetDone s).get e = if e = Ent.BS_SHADOW_CRC then crc16 (shadowImage s) else s.get e := by
  rw [(backstopSetDone_memoryKept s).dict.get e he]
  split_ifs with hs
  · rw [hs, State.get_put_self]
  · exact State.get_put_ne _ hs _

theorem backstopSetDone_memory (s : State) : (backstopSetDone s).keeper.written = s.keeper.written ∧ (backstopSetDone s).keeper.jobs = s.keeper.jobs :=
  ⟨(backstopSetDone_memoryKept s).written, (backstopSetDone_memoryKept s).dict.jobs⟩

/-- A one-time write with the completion of the backstop set. -/
def onceStored (s : State) (e v : Nat) : State :=
  if !backstopSetWritten s && backstopSetWritten (burn s e v) then backstopSetDone (burn s e v) else burn s e v

theorem writeOnce_kept (s : State) (e v : Nat) : MemoryKept (0x2200 :: besideIdx) (onceStored s e v) (writeOnce s e v) := by
  have hc (s : State) (v : Nat) : MemoryKept (0x2200 :: besideIdx) s (coEnabled (s.put Ent.CO_ENABLE v) (s.get Ent.CO_ENABLE) v) :=
    (put_memoryKept s v (by decide)).trans ((coEnabled_memoryKept _ _ _).mono (List.subset_cons_self _ _))
  exact .ite (hc _ v) (.refl _ _)

theorem onceStored_memory (s : State) (e v : Nat) : (onceStored s e v).keeper.written = e :: s.keeper.written ∧
    (onceStored s e v).keeper.jobs = s.keeper.jobs := by
  unfold onceStored
  split
  · exact backstopSetDone_memory (burn s e v)
  · exact ⟨rfl, rfl⟩

theorem onceStored_get (s : State) (v : Nat) (he : e / 256 ∉ besideIdx) : (onceStored s e v).get e = v := by
  have hb : (burn s e v).get e = v := State.get_put_self _ _ _
  unfold onceStored
  split
  · rename_i h
    simp only [Bool.and_eq_true, Bool.not_eq_true'] at h
    obtain ⟨p, hp, rfl⟩ := backstopSet_of_completed h.1 h.2
    have hne : ∀ p ∈ backstopSet, p.1 ≠ Ent.BS_SHADOW_CRC := by decide
    rw [backstopSetDone_get _ he, if_neg (hne p hp), hb]
  · exact hb

/-- Two states agree on the shadow copy where they agree on the set. -/
theorem shadowImage_congr (h : ∀ p ∈ backstopSet, t.get p.1 = s.get p.1) : shadowImage t = shadowImage s := by
  have hl : backstopSet.map (fun p => leBytes p.2 (t.get p.1)) = backstopSet.map fun p => leBytes p.2 (s.get p.1) :=
    List.map_congr_left fun p hp => by rw [h p hp]
  rw [shadowImage, shadowImage, List.flatMap_def, List.flatMap_def, hl]

theorem backstopSet_idx : ∀ p ∈ backstopSet, p.1 / 256 ∉ 0x2200 :: besideIdx ∧ p.1 / 256 ∉ commitIdx ∧ p.1 ≠ Ent.BS_SHADOW_CRC := by decide

theorem calFactory_commits {idx sub : Nat} {x : Bytes} (hr : (rowAt idx sub).map (·.cls) = some .f) :
    Commits s (writeReq u idx sub x) (entAt idx sub) (leNat x) fun t =>
      t.get (entAt idx sub) = leNat x ∧ entAt idx sub ∈ t.keeper.written ∧
      (backstopSetWritten s = false → backstopSetWritten t = true → t.get Ent.BS_SHADOW_CRC = crc16 (shadowImage t)) := by
  obtain ⟨r, hrow, hf⟩ := Option.map_eq_some_iff.1 hr
  have hfind := rowAt_findRow hrow
  obtain ⟨hi, hd, -, -, -⟩ := factory_parts hfind hf
  have hb : entAt idx sub / 256 ∉ besideIdx := fun h => hi (List.mem_cons_of_mem _ h)
  have hc : entAt idx sub / 256 ∉ commitIdx := fun h => hb (List.mem_append_right _ h)
  refine commits_of_answered rfl (fun rest => ?_) fun rest t ht => ?_
  · rw [applyWrites_one _ _ _ _ hd, applyWrite_factory hfind hf, (writeOnce_kept _ _ _).dict.jobs, (onceStored_memory _ _ _).2]
    rfl
  · rw [applyWrites_one _ _ _ _ hd, applyWrite_factory hfind hf] at ht
    have hk := writeOnce_kept (jobTaken s rest) (entAt idx sub) (leNat x)
    have hw : t.keeper.written = entAt idx sub :: s.keeper.written := by rw [ht.memory.written, hk.written, (onceStored_memory _ _ _).1]; rfl
    have hg {e : Nat} (h1 : e / 256 ∉ 0x2200 :: besideIdx) : t.get e = (onceStored (jobTaken s rest) (entAt idx sub) (leNat x)).get e := by
      rw [ht.memory.dict.get _ fun h => h1 (List.mem_cons_of_mem _ (List.mem_append_right _ h)), hk.dict.get _ h1]
    refine ⟨?_, by rw [hw]; exact List.mem_cons_self, fun h0 h1 => ?_⟩
    · rw [hg hi, onceStored_get _ _ hb]
    · have hset : backstopSetWritten (burn (jobTaken s rest) (entAt idx sub) (leNat x)) = true := by
        rw [← h1, backstopSetWritten, backstopSetWritten, burn_written, hw]
        rfl
      have hdone : onceStored (jobTaken s rest) (entAt idx sub) (leNat x) = backstopSetDone (burn (jobTaken s rest) (entAt idx sub) (leNat x)) := by
        have h0 : backstopSetWritten (jobTaken s rest) = false := h0
        rw [onceStored, h0, hset]
        rfl
      have himg : shadowImage t = shadowImage (burn (jobTaken s rest) (entAt idx sub) (leNat x)) := shadowImage_congr fun p hp => by
        obtain ⟨hp1, -, hp3⟩ := backstopSet_idx p hp
        rw [hg hp1, hdone, backstopSetDone_get _ (fun h => hp1 (List.mem_cons_of_mem _ h)), if_neg hp3]
      rw [himg, hg (by decide), hdone, backstopSetDone_get _ (by decide), if_pos rfl]

theorem calFactory_starts {idx sub : Nat} {x : Bytes} (hr : (rowAt idx sub).map (·.cls) = some .f) (ha : (rowAt idx sub).map (·.action) = some false)
    (h : accepts s (writeReq u idx sub x) = true) : Starts (.calFactoryWrite u idx sub x) s (writeReq u idx sub x) (entAt idx sub) (leNat x) := by
  obtain ⟨r, hrow, hf⟩ := Option.map_eq_some_iff.1 hr
  obtain ⟨-, -, -, hc, hn⟩ := factory_parts (rowAt_findRow hrow) hf
  refine congrArg Host.Outcome.next (access_commits (q := writeReq u idx sub x) rfl h (fun r' hr' => ?_) hc hn)
  rw [show rowAt idx sub = some r' from hr', Option.map_some, Option.some.injEq] at ha
  exact ha

/-! ## Deltas (R126 to R128) -/

/-- The rows of deltas are stored entries of the keeper. -/
theorem delta_rows : ∀ r ∈ entryRows, r.idx ∈ [0x6100, 0x6101, 0x6102] → r.action = false ∧ r.cls ≠ .v := by decide +kernel

theorem isDelta_idx (h : isDelta e = true) : e / 256 ∈ [0x6100, 0x6101, 0x6102] := by
  simp only [isDelta, Bool.and_eq_true, decide_eq_true_eq] at h
  simp only [List.mem_cons, List.not_mem_nil, or_false]
  omega

theorem calDelta_starts {idx sub : Nat} {x : Bytes} (hd : isDelta (entAt idx sub) = true) (h : accepts s (writeReq u idx sub x) = true) :
    Starts (.calDeltaWrite u idx sub x) s (writeReq u idx sub x) (entAt idx sub) (leNat x) := by
  have hparts (r : EntryRow) (hr : rowAt idx sub = some r) : r.action = false ∧ r.cls ≠ .v := by
    obtain ⟨hm, hi⟩ := findRow_mem (rowAt_findRow hr)
    exact delta_rows r hm (hi ▸ isDelta_idx hd)
  obtain ⟨-, -, -, -, r, hr, -, -⟩ := accepts_parts h
  have hn : isN (entAt idx sub) = true := by
    have hr' : rowAt idx sub = some r := hr
    simp [isN, rowAt_findRow hr', (hparts r hr).2]
  have hc : entAt idx sub ≠ Ent.COMMIT := fun he => by rw [he] at hd; exact absurd hd (by decide)
  exact congrArg Host.Outcome.next (access_commits (q := writeReq u idx sub x) rfl h (fun r hr => (hparts r hr).1) hc hn)

/-- One delta is written: its row is rewritten. -/
theorem applyWrites_delta (hd : isDelta e = true) : applyWrites s u [(e, v)] = s.onKeeper fun x =>
    { x with calRows := x.calRows.set (deltaRow e) (calRewrite (calRow s (deltaRow e)) [(e % 256, toSigned (8 * entrySize e) v)]) } := by
  have ha : applyWrite s u e v = s := by
    unfold applyWrite
    split
    · rfl
    · rw [if_pos hd]
  have hk : deltaRow e = 0 ∨ deltaRow e = 1 ∨ deltaRow e = 2 := by
    have hi := isDelta_idx hd
    simp only [List.mem_cons, List.not_mem_nil, or_false] at hi
    unfold deltaRow
    omega
  rcases hk with hk | hk | hk <;> simp [applyWrites, writeRows, ha, hd, hk]

theorem calDelta_commits {idx sub : Nat} {x : Bytes} (hs : sub < 256) (hd : isDelta (entAt idx sub) = true) :
    Commits s (writeReq u idx sub x) (entAt idx sub) (leNat x) fun t =>
      t.keeper.calRows = s.keeper.calRows.set (deltaRow (entAt idx sub)) (calRewrite (calRow s (deltaRow (entAt idx sub)))
        [(sub, toSigned (8 * entrySize (entAt idx sub)) (leNat x))]) := by
  have hm : entAt idx sub % 256 = sub := by unfold entAt; omega
  refine commits_of_answered rfl (fun rest => by rw [applyWrites_delta hd]; rfl) fun rest t ht => ?_
  rw [applyWrites_delta hd, hm] at ht
  exact ht.memory.calRows

/-- Settles O21, clause by clause. -/
theorem sensingWrites : Obligations.SensingWrites := by
  unfold Obligations.SensingWrites
  intro s u v
  exact ⟨optRequest_serves, coPulse_serves, coEnable_starts, fun _ => coEnable_commits, ainPeriod_starts, fun _ => ainPeriod_commits,
    fun _ _ _ => calFactory_starts, fun _ _ _ => calFactory_commits, fun _ _ _ => calDelta_starts, fun _ _ _ _ hs => calDelta_commits hs⟩

end Sys2Proof.Machine
end

section
/-! CLAIMS. Refutation: step 5 of the self-test with the counter of failed records at its end (R45, R152, R325). -/
namespace Sys2Proof.Machine

/-- Step 5 of the self-test runs. Slot 0 holds the log's one record, which bears the number 1, and LOG_CRC_ERR stands at the end of a K16 counter. -/
def countEnded : State :=
  (((handedOver.put Ent.MODE (modeCode .selftest)).put Ent.LOG_NEXT 1).put Ent.LOG_CRC_ERR 65535).onLog (fun l =>
    { l with slots := sparseSet [] 0 (1 :: zeros 31) l.slots }) |>.onSelfTest fun t => { t with step := 5 }

/-- The record fails its check. -/
theorem countEnded_fault : chainFaults countEnded = 1 := by decide +kernel

/-- The counter stays at its end. -/
theorem countEnded_stays : (stepNvm countEnded).get Ent.LOG_CRC_ERR = 65535 := by decide +kernel

/-- Refutes O28: LOG_CRC_ERR is a K16 counter, which a failed record leaves at 65,535 (R45, R325); the clause on step 5 has it count on to the end of
a K32 one. -/
theorem not_selftestSteps : ¬ Obligations.SelftestSteps := by
  intro h
  obtain ⟨-, -, -, -, hnvm, -⟩ := h countEnded ⟨0xE, .keeper, 0, []⟩ 0
  obtain ⟨t, ht, -, -, -, hcount, -⟩ := hnvm rfl
  have hexec : exec .stNvm countEnded = .next (stepNvm countEnded) := congrArg Host.Outcome.next (if_pos rfl)
  have hstep : stepNvm countEnded = t := Host.Outcome.next.inj (hexec.symm.trans ht)
  have hcounted : (stepNvm countEnded).get Ent.LOG_CRC_ERR = 65536 := by
    rw [hstep, hcount, countEnded_fault]
    decide +kernel
  exact absurd (countEnded_stays.symm.trans hcounted) (by decide)

end Sys2Proof.Machine
end

section
/-! CLAIMS. Refutation: a horn fault in an on-phase in which the bridge is not yet driven (R145, R149). -/
namespace Sys2Proof.Machine

/-- After a fault the horn is driven exactly where an on-phase begins with it: one is on, and the drive bit does not stand yet. -/
theorem hornFault_on (s : State) : (hornFault s).flyer.horn.on = (soundingNow s.flyer.horn && !s.flyer.horn.drive) := by
  have hs (a b : Bool) : soundingNow { s.flyer.horn with stopped := a, fault := b } = soundingNow s.flyer.horn := rfl
  rw [hornFault, State.bump_flyer, State.onHorn_flyer]
  simp only [hornOutputs, driveNow, phaseBegin, hs]
  cases hp : soundingNow s.flyer.horn <;> cases hd : s.flyer.horn.drive
  case true.false => exact Bool.and_eq_true_iff.2 ⟨hp, rfl⟩
  case true.true => exact Bool.and_eq_false_iff.2 (.inr rfl)
  all_goals exact Bool.and_eq_false_iff.2 (.inl hp)

/-- T3 stands at the start of its first on-phase with VBOOST at its target, and the drive bit does not stand: a command that begins an on-phase sets it
at once. -/
def undriven : State := handedOver.onFlyer fun f => { f with up := true, horn := { f.horn with pattern := .t3, ready := true, boost := 12000 } }

/-- Refutes O27: a fault of VBOOST in an on-phase that has no drive bit begins the drive anew, as at the start of a phase. The clause asks of VBOOST's
target alone, and not that the drive bit follow the on-phase. -/
theorem not_hornCommands : ¬ Obligations.HornCommands := by
  intro h
  obtain ⟨-, -, -, -, hfault, -⟩ := h undriven .M []
  obtain ⟨t, ht, -, hoff, -⟩ := hfault rfl (by decide)
  have hstep : hornFault undriven = t := Host.Outcome.next.inj ht
  have hon : (hornFault undriven).flyer.horn.on = true := (hornFault_on undriven).trans (by decide)
  rw [hstep, hoff] at hon
  exact absurd hon (by decide)

end Sys2Proof.Machine
end

section
/-! SUPPORT. What an operation leaves of one power domain (R160 to R178): the words that the keeper holds of it, its own sequencer's state, and the
target and the message of its sequencer. -/
namespace Sys2Proof.Machine
variable {s t r : State} {d d' : Domain} {idx : List Nat}

/-- The indices of REST, DOMAIN_STATE, REFUSALS, LAST_REFUSER, ENTRIES, WAKES and LAST_WAKE. -/
def domIdx : List Nat := [0x1100, 0x1101, 0x1102, 0x1103, 0x1104, 0x1105, 0x1106]

/-- The words of a domain (R178). -/
def domWords (d : Domain) : List Nat := domIdx.map fun i => 256 * i + domId d

/-- A domain is left as it is; a wake that its entry holds, and the retry of a refused entry, apart. -/
structure DomKept (d : Domain) (s t : State) : Prop where
  get : ∀ e ∈ domWords d, t.get e = s.get e
  flyDom : isFlyerDom d = true → flyDom t d = flyDom s d
  target : (domSeq t d).target = (domSeq s d).target
  owed : (domSeq t d).owed = (domSeq s d).owed

theorem DomKept.refl (s : State) : DomKept d s s := ⟨fun _ _ => rfl, fun _ => rfl, rfl, rfl⟩

theorem DomKept.trans (h : DomKept d s t) (g : DomKept d t r) : DomKept d s r :=
  ⟨fun e he => (g.get e he).trans (h.get e he), fun hd => (g.flyDom hd).trans (h.flyDom hd), g.target.trans h.target, g.owed.trans h.owed⟩

theorem DomKept.ite {a b : State} {c : Prop} [Decidable c] (ha : DomKept d s a) (hb : DomKept d s b) : DomKept d s (if c then a else b) := by
  split <;> assumption

theorem DomKept.foldl_mem {α : Type} {f : State → α → State} {l : List α} (h : ∀ s, ∀ x ∈ l, DomKept d s (f s x)) (s : State) :
    DomKept d s (l.foldl f s) := by
  induction l generalizing s with
  | nil => exact .refl s
  | cons x l ih => exact (h s x List.mem_cons_self).trans (ih (fun s y hy => h s y (List.mem_cons_of_mem x hy)) _)

theorem DomKept.foldl {α : Type} {f : State → α → State} (h : ∀ s x, DomKept d s (f s x)) (l : List α) (s : State) : DomKept d s (l.foldl f s) :=
  .foldl_mem (fun s x _ => h s x) s

/-! ### The words -/

theorem domId_lt (d : Domain) : domId d < 256 := by
  have := domNum_le d
  unfold domId
  omega

theorem domId_inj (h : d ≠ d') : domId d ≠ domId d' := fun he => domNum_inj h (Nat.add_left_cancel he)

theorem domWords_parts {e : Nat} (h : e ∈ domWords d) : e / 256 ∈ domIdx ∧ e % 256 = domId d := by
  have := domId_lt d
  obtain ⟨i, hi, rfl⟩ := List.mem_map.1 h
  rw [show (256 * i + domId d) / 256 = i by omega]
  exact ⟨hi, by omega⟩

theorem domWord_mem {i : Nat} (h : i ∈ domIdx) (d : Domain) : 256 * i + domId d ∈ domWords d := List.mem_map_of_mem h

theorem rest_mem (d : Domain) : Ent.REST (domId d) ∈ domWords d := domWord_mem (i := 0x1100) (by decide) d
theorem domState_mem (d : Domain) : Ent.DOMAIN_STATE (domId d) ∈ domWords d := domWord_mem (i := 0x1101) (by decide) d
theorem refusals_mem (d : Domain) : Ent.REFUSALS (domId d) ∈ domWords d := domWord_mem (i := 0x1102) (by decide) d
theorem lastRefuser_mem (d : Domain) : Ent.LAST_REFUSER (domId d) ∈ domWords d := domWord_mem (i := 0x1103) (by decide) d
theorem entries_mem (d : Domain) : Ent.ENTRIES (domId d) ∈ domWords d := domWord_mem (i := 0x1104) (by decide) d
theorem wakes_mem (d : Domain) : Ent.WAKES (domId d) ∈ domWords d := domWord_mem (i := 0x1105) (by decide) d
theorem lastWake_mem (d : Domain) : Ent.LAST_WAKE (domId d) ∈ domWords d := domWord_mem (i := 0x1106) (by decide) d

/-- A domain's state as its words and its sequencer show it. -/
theorem DomKept.domState (h : DomKept d s t) : domState t d = domState s d := h.get _ (domState_mem d)

theorem DomKept.domNow (h : DomKept d s t) : domNow t d = domNow s d := by
  unfold Machine.domNow
  split
  next hd => rw [h.flyDom hd]
  next => exact h.domState

/-! ### Where no domain is concerned -/

/-- The sequencers are as before, and so are the words where they are not written. -/
theorem domKept_of (hg : ∀ e ∈ domWords d, t.get e = s.get e) (hf : t.flyer.doms = s.flyer.doms) (hd : t.doms = s.doms) : DomKept d s t where
  get := hg
  flyDom _ := by simp only [Machine.flyDom, hf]
  target := by simp only [domSeq, hd]
  owed := by simp only [domSeq, hd]

theorem domKept_of_ent (he : t.ent = s.ent) (hf : t.flyer.doms = s.flyer.doms) (hd : t.doms = s.doms) : DomKept d s t :=
  domKept_of (fun e _ => by simp only [State.get, he]) hf hd

theorem onSpindle_domKept (s : State) (f : Spindle → Spindle) : DomKept d s (s.onSpindle f) := domKept_of_ent rfl rfl rfl
theorem onCan_domKept (s : State) (f : Can → Can) : DomKept d s (s.onCan f) := onSpindle_domKept s _
theorem onPage_domKept (s : State) (u : User) (f : Page → Page) : DomKept d s (s.onPage u f) := onSpindle_domKept s _
theorem onKeeper_domKept (s : State) (f : Keeper → Keeper) : DomKept d s (s.onKeeper f) := domKept_of_ent rfl rfl rfl
theorem onPly_domKept (s : State) (f : Ply → Ply) : DomKept d s (s.onPly f) := domKept_of_ent rfl rfl rfl
theorem onTag_domKept (s : State) (f : Tag → Tag) : DomKept d s (s.onTag f) := domKept_of_ent rfl rfl rfl

theorem DictKept.domKept (h : DictKept idx s t) (hi : ∀ i ∈ domIdx, i ∉ idx) (hf : t.flyer.doms = s.flyer.doms) (hd : t.doms = s.doms) :
    DomKept d s t :=
  domKept_of (fun e he => h.get e (hi _ (domWords_parts he).1)) hf hd

theorem put_domKept (s : State) {e : Nat} (v : Nat) (h : e / 256 ∉ domIdx) : DomKept d s (s.put e v) :=
  domKept_of (fun _ he => State.get_put_ne s (by rintro rfl; exact h (domWords_parts he).1) v) rfl rfl

theorem putU_domKept (s : State) {e : Nat} (u : User) (v : Nat) (h : e / 256 ∉ domIdx) : DomKept d s (s.putU e u v) :=
  domKept_of (fun _ he => State.get_putU_ne s (by rintro rfl; exact h (domWords_parts he).1) u v) rfl rfl

theorem notePeak_domKept (s : State) (q n : Nat) (h : Ent.Q_PEAK q / 256 ∉ domIdx) : DomKept d s (notePeak s q n) := .ite (put_domKept s n h) (.refl s)

theorem noteFull_domKept (s : State) (q : Nat) (h : Ent.Q_FULL q / 256 ∉ domIdx) : DomKept d s (noteFull s q) := .ite (put_domKept s _ h) (.refl s)

theorem sbQueue_domKept (s : State) (die : Die) (ty dst : Nat) (p : Bytes) : DomKept d s (sbQueue s die ty dst p) :=
  domKept_of (fun e he => sbQueue_get s (by rintro rfl; exact absurd (domWords_parts he).1 (by decide))
    (by rintro rfl; exact absurd (domWords_parts he).1 (by decide))) (by rw [sbQueue_flyer]) (by rw [sbQueue_doms])

theorem raise_domKept (s : State) (n : Nat) : DomKept d s (raise s n) :=
  (raise_dictKept s n).domKept (by decide) (by rw [raise_flyer]) (by rw [raise_doms])

theorem respond_domKept (s : State) (q : Request) (c : Nat) (v : Bytes) : DomKept d s (respond s q c v) :=
  (respond_dictKept s q c v).domKept (by decide) (by rw [respond_flyer]) (by rw [respond_doms])

/-! ### The mode machine (R82 to R90) -/

theorem modeEntry_notDom {e : Nat} (h : e ∈ domWords d) : modeEntry e = false := by
  obtain ⟨i, hi, rfl⟩ := List.mem_map.1 h
  fin_cases hi <;> cases d <;> decide

theorem ModeKept.domKept (h : ModeKept s t) : DomKept d s t :=
  domKept_of (fun e he => h.get e (modeEntry_notDom he)) (by rw [h.flyer]) h.doms

theorem afterEvent_domKept (s : State) (src : Nat) : DomKept d s (afterEvent s src) :=
  (put_domKept s _ (by decide)).trans (afterEvent_kept s src).domKept

theorem setAlarmFw_domKept (s : State) (k : Nat) : DomKept d s (setAlarmFw s k) :=
  ((put_domKept s k (by decide)).trans (alarmEnds_kept _).domKept).trans (afterEvent_domKept _ _)

theorem refreshRelayed_domKept (s : State) : DomKept d s (refreshRelayed s) := by
  have hp : DomKept d s (s.put Ent.ALARM_RELAYED (relayedValue s)) := put_domKept s _ (by decide)
  refine .ite ?_ (.ite ?_ hp)
  · exact (hp.trans (.ite (enterMode_kept _ _ _ (by decide)).domKept (.refl _))).trans (afterEvent_domKept _ _)
  · exact (hp.trans (.ite (enterMode_kept _ _ _ (baseMode_ne_retired _)).domKept (.refl _))).trans (afterEvent_domKept _ _)

/-! ### Where another domain is concerned -/

/-- A word of another domain is stored. -/
theorem putWord_domKept (s : State) {e : Nat} (v : Nat) (hm : e ∈ domWords d') (h : d' ≠ d) : DomKept d s (s.put e v) :=
  domKept_of (fun _ he => State.get_put_ne s (by
    rintro rfl
    exact domId_inj h ((domWords_parts hm).2.symm.trans (domWords_parts he).2)) v) rfl rfl

theorem onDom_domKept (s : State) (f : DomSeq → DomSeq) (h : d' ≠ d) : DomKept d s (onDom s d' f) := by
  have hs : domSeq (onDom s d' f) d = domSeq s d := by simp [domSeq, onDom, domNum_inj h]
  exact ⟨fun _ _ => rfl, fun _ => rfl, by rw [hs], by rw [hs]⟩

/-- A sequencer that keeps its target and what it owes. -/
theorem onDom_domKept_self (s : State) (d : Domain) {f : DomSeq → DomSeq} (ht : ∀ q, (f q).target = q.target) (ho : ∀ q, (f q).owed = q.owed) :
    DomKept d s (onDom s d f) := by
  have hs : domSeq (onDom s d f) d = f (domSeq s d) ∨ domSeq (onDom s d f) d = domSeq s d := by
    by_cases hl : domNum d < s.doms.length
    · exact .inl (by simp [domSeq, onDom, List.getD_eq_getElem?_getD, hl])
    · exact .inr (by simp [domSeq, onDom, List.getD_eq_getElem?_getD, hl])
  rcases hs with hs | hs
  · exact ⟨fun _ _ => rfl, fun _ => rfl, by rw [hs, ht], by rw [hs, ho]⟩
  · exact ⟨fun _ _ => rfl, fun _ => rfl, by rw [hs], by rw [hs]⟩

theorem onFlyDom_domKept (s : State) (f : FlyDom → FlyDom) (hd' : isFlyerDom d' = true) (h : d' ≠ d) : DomKept d s (onFlyDom s d' f) := by
  refine ⟨fun _ _ => rfl, fun hd => ?_, rfl, rfl⟩
  have hn : domNum d' - 9 ≠ domNum d - 9 := by
    have := domNum_inj h
    simp only [isFlyerDom, Bool.and_eq_true, decide_eq_true_eq] at hd hd'
    omega
  simp [flyDom, onFlyDom, hn]

theorem setDomNow_domKept (s : State) (c : Nat) (h : d' ≠ d) : DomKept d s (setDomNow s d' c) := by
  unfold setDomNow
  split
  next hd' => exact onFlyDom_domKept s _ hd' h
  next => exact putWord_domKept s c (domState_mem d') h

theorem refuse_domKept (s : State) (w n : Nat) (h : d' ≠ d) : DomKept d s (refuse s d' w n) :=
  (((putWord_domKept s _ (refusals_mem d') h).trans (putWord_domKept _ _ (lastRefuser_mem d') h)).trans (put_domKept _ _ (by decide))).trans (raise_domKept _ _)

theorem beginExit_domKept (s : State) (src : Option Nat) (h : d' ≠ d) : DomKept d s (beginExit s d' src) := by
  have ht : DomKept d s (if d' = .core ∧ domNow s d' = 1 then sendTime s else s) := .ite (sbQueue_domKept s _ _ _ _) (.refl s)
  have hx := ht.trans (setDomNow_domKept _ 4 h)
  unfold beginExit
  cases src with
  | none => exact .ite (hx.trans (onSpindle_domKept _ _)) hx
  | some n =>
    have hn := hx.trans (putWord_domKept _ n (lastWake_mem d') h)
    exact .ite (hn.trans (onSpindle_domKept _ _)) hn

theorem raiseDomain_domKept_ne (s : State) (src : Option Nat) (o : Domain) (h : d' ≠ d) : DomKept d s (raiseDomain s src o d') := by
  unfold raiseDomain
  split
  · exact .ite (onDom_domKept s _ h) ((refuse_domKept s _ _ h).trans (beginExit_domKept _ src h))
  · exact beginExit_domKept s src h
  · exact beginExit_domKept s src h
  · exact .refl s

theorem leaveOff_domKept (s : State) : DomKept d s (leaveOff s) := by
  have hc : DomKept d s (countReset s 5) := (put_domKept s _ (by decide)).trans (put_domKept _ _ (by decide))
  have hr : ∀ t : State, DomKept d t (releaseSpindle t) := fun t =>
    ((onSpindle_domKept t _).trans (onKeeper_domKept _ _)).trans (sbQueue_domKept _ _ _ _ _)
  exact hc.trans (.ite (hr _) (.refl _))

theorem wakeDomain_domKept_ne (s : State) (src : Nat) (o : Domain) (h : d' ≠ d) : DomKept d s (wakeDomain s src o d') :=
  .ite ((raiseDomain_domKept_ne s _ o h).trans (leaveOff_domKept _)) (raiseDomain_domKept_ne s _ o h)

end Sys2Proof.Machine
end

section
/-! SUPPORT. The wake of a domain (R168, R170, R172): what it leaves of a domain that is up, and what it does to one at rest or entering. -/
namespace Sys2Proof.Machine
variable {s t r : State} {d d' o : Domain} {src : Nat}

/-! ### A domain that is up -/

/-- The domain is ON or on its way there: no wake changes anything of it. -/
abbrev Risen (s : State) (d : Domain) : Prop := domNow s d = 2 ∨ domNow s d = 4

/-- A domain that is up is left as it is. -/
def RisenKept (d : Domain) (s t : State) : Prop := Risen s d → DomKept d s t

theorem DomKept.risen (h : DomKept d s t) (hr : Risen s d) : Risen t d := by simpa only [Risen, h.domNow] using hr

theorem DomKept.risenKept (h : DomKept d s t) : RisenKept d s t := fun _ => h

theorem RisenKept.refl (s : State) : RisenKept d s s := fun _ => .refl s

theorem RisenKept.trans (h : RisenKept d s t) (g : RisenKept d t r) : RisenKept d s r := fun hr => (h hr).trans (g ((h hr).risen hr))

theorem RisenKept.ite {a b : State} {c : Prop} [Decidable c] (ha : RisenKept d s a) (hb : RisenKept d s b) : RisenKept d s (if c then a else b) := by
  split <;> assumption

theorem RisenKept.foldl {α : Type} {f : State → α → State} (h : ∀ s x, RisenKept d s (f s x)) (l : List α) (s : State) :
    RisenKept d s (l.foldl f s) := by
  induction l generalizing s with
  | nil => exact .refl s
  | cons x l ih => exact (h s x).trans (ih _)

theorem raiseDomain_risen (h : Risen s d) (source : Option Nat) (o : Domain) : raiseDomain s source o d = s := by
  rcases h with h | h <;> simp only [raiseDomain, h]

theorem raiseDomain_risenKept (s : State) (source : Option Nat) (o d' : Domain) : RisenKept d s (raiseDomain s source o d') := fun hr => by
  by_cases he : d' = d
  · subst he
    rw [raiseDomain_risen hr]
    exact .refl s
  · exact raiseDomain_domKept_ne s source o he

/-- After it has reached the domain, a wake can only release the spindle die. -/
theorem wakeDomain_raised (s : State) (src : Nat) (o d' : Domain) : DomKept d (raiseDomain s (some src) o d') (wakeDomain s src o d') :=
  .ite (leaveOff_domKept _) (.refl _)

theorem wakeDomain_risenKept (s : State) (src : Nat) (o d' : Domain) : RisenKept d s (wakeDomain s src o d') :=
  (raiseDomain_risenKept s (some src) o d').trans (wakeDomain_raised s src o d').risenKept

theorem wake_risenKept (s : State) (src : Nat) (more : List Domain) : RisenKept d s (wake s src more) := by
  unfold wake
  refine .ite (.refl s) ?_
  split
  · exact .refl s
  · exact .foldl (fun s d' => wakeDomain_risenKept s _ _ d') _ s

/-- A wake that reaches a domain, and leaves it up, does to it what its own step does. -/
theorem wake_reaches {more rest : List Domain} (hl : wakeLost s src = false) (hr : raisedBy s src more = o :: rest) (hd : d ∈ withNeeds (o :: rest))
    (hup : ∀ u, DomKept d s u → Risen (wakeDomain u src o d) d) :
    ∃ u, DomKept d s u ∧ DomKept d (wakeDomain u src o d) (wake s src more) := by
  obtain ⟨before, after, hsplit, hnot⟩ := List.eq_append_cons_of_mem hd
  have hfold : wake s src more = (d :: after).foldl (fun s d' => wakeDomain s src o d') (before.foldl (fun s d' => wakeDomain s src o d') s) := by
    rw [wake, if_neg (by simp [hl]), hr, ← List.foldl_append, ← hsplit]
  have hbefore : DomKept d s (before.foldl (fun s d' => wakeDomain s src o d') s) :=
    .foldl_mem (fun u d' hm => wakeDomain_domKept_ne u src o (by rintro rfl; exact hnot hm)) s
  refine ⟨_, hbefore, ?_⟩
  rw [hfold]
  exact RisenKept.foldl (fun s d' => wakeDomain_risenKept s src o d') after _ (hup _ hbefore)

/-! ### The domain's own steps -/

/-- A domain of the flyer that is not ON stands in the flyer's list. -/
theorem flyDom_held (h : domNow s d ≠ 2) (hd : isFlyerDom d = true) : domNum d - 9 < s.flyer.doms.length := by
  by_contra hl
  refine h ?_
  rw [domNow, if_pos hd, flyDom, List.getD_eq_getElem?_getD, List.getElem?_eq_none (by omega)]
  rfl

theorem setDomNow_domNow (c : Nat) (h : isFlyerDom d = true → domNum d - 9 < s.flyer.doms.length) : domNow (setDomNow s d c) d = c := by
  unfold domNow setDomNow
  split
  next hd => rw [onFlyDom_flyDom s (h hd)]
  next => exact State.get_put_self _ _ _

theorem put_domNow {e : Nat} (v : Nat) (h : Ent.DOMAIN_STATE (domId d) ≠ e) : domNow (s.put e v) d = domNow s d := by
  unfold domNow domState
  rw [State.get_put_ne s h]
  rfl

theorem setDomNow_get {e : Nat} (c : Nat) (h : e ≠ Ent.DOMAIN_STATE (domId d)) : (setDomNow s d c).get e = s.get e := by
  unfold setDomNow
  split
  · rfl
  · exact State.get_put_ne s h c

/-- An exit begins in WAKING, notes its source, and leaves the domain's other words. -/
theorem beginExit_begins (s : State) (d : Domain) (n : Nat) (h : domNow s d ≠ 2) :
    domNow (beginExit s d (some n)) d = 4 ∧ (beginExit s d (some n)).get (Ent.LAST_WAKE (domId d)) = n ∧
    ∀ e ∈ domWords d, e ≠ Ent.DOMAIN_STATE (domId d) → e ≠ Ent.LAST_WAKE (domId d) → (beginExit s d (some n)).get e = s.get e := by
  have ht : DomKept d s (if d = .core ∧ domNow s d = 1 then sendTime s else s) := .ite (sbQueue_domKept s _ _ _ _) (.refl s)
  have hw : ∃ f, beginExit s d (some n) =
      ((setDomNow (if d = .core ∧ domNow s d = 1 then sendTime s else s) d 4).put (Ent.LAST_WAKE (domId d)) n).onSpindle f := by
    unfold beginExit
    dsimp only
    split
    · exact ⟨_, rfl⟩
    · exact ⟨id, rfl⟩
  obtain ⟨f, hw⟩ := hw
  generalize (if d = .core ∧ domNow s d = 1 then sendTime s else s) = u at ht hw
  have hne : domNow u d ≠ 2 := by rwa [ht.domNow]
  rw [hw]
  refine ⟨?_, State.get_put_self _ _ _, fun e he hs hl => ?_⟩
  · have hk : domNow ((setDomNow u d 4).put (Ent.LAST_WAKE (domId d)) n) d = 4 := by
      rw [put_domNow n (by unfold Ent.DOMAIN_STATE Ent.LAST_WAKE; omega), setDomNow_domNow 4 (flyDom_held hne)]
    exact (onSpindle_domKept _ f).domNow.trans hk
  · rw [State.onSpindle_get, State.get_put_ne _ hl, setDomNow_get 4 hs, ht.get e he]

/-- A refusal is counted and names its refuser (R169). -/
theorem refuse_counted (s : State) (d : Domain) (w n : Nat) :
    Counted s (refuse s d w n) (Ent.REFUSALS (domId d)) ∧ (refuse s d w n).get (Ent.LAST_REFUSER (domId d)) = w := by
  have hlt := domId_lt d
  have hr : ∀ {u : State} {e : Nat}, e ∈ domWords d → (raise u 15).get e = u.get e := fun he => (raise_domKept _ 15).get _ he
  unfold refuse Counted
  rw [hr (refusals_mem d), hr (lastRefuser_mem d)]
  refine ⟨?_, ?_⟩
  · rw [State.get_put_ne _ (by unfold Ent.REFUSALS Ent.LAST_REFUSAL; omega), State.get_put_ne _ (by unfold Ent.REFUSALS Ent.LAST_REFUSER; omega),
      State.bump_get_self]
  · rw [State.get_put_ne _ (by unfold Ent.LAST_REFUSER Ent.LAST_REFUSAL; omega), State.get_put_self]

/-- Nothing but the words of refusals changes with one. -/
theorem refuse_domNow (s : State) (d : Domain) (w n : Nat) : domNow (refuse s d w n) d = domNow s d := by
  have hlt := domId_lt d
  have hne : Ent.DOMAIN_STATE (domId d) ≠ Ent.LAST_REFUSAL := by unfold Ent.DOMAIN_STATE Ent.LAST_REFUSAL; omega
  rw [refuse, (raise_domKept _ 15).domNow, put_domNow _ hne, put_domNow _ (by unfold Ent.DOMAIN_STATE Ent.LAST_REFUSER; omega), State.bump_eq,
    put_domNow _ (by unfold Ent.DOMAIN_STATE Ent.REFUSALS; omega)]

/-! ### What a wake does to the domain that it reaches -/

/-- A domain at rest begins its exit (R177). -/
theorem wakeDomain_leavesRest (src : Nat) (o : Domain) (h : domNow s d < 2) :
    domNow (wakeDomain s src o d) d = 4 ∧ (wakeDomain s src o d).get (Ent.LAST_WAKE (domId d)) = src := by
  obtain ⟨hnow, hsrc, -⟩ := beginExit_begins s d src (by omega)
  have hk := wakeDomain_raised (d := d) s src o d
  rw [raiseDomain_rest s h] at hk
  exact ⟨hk.domNow.trans hnow, (hk.get _ (lastWake_mem d)).trans hsrc⟩

/-- An entry is aborted and counted with the owner of the source as its refuser (R168), but for CORE, CODE and DATA. -/
theorem wakeDomain_aborts (src : Nat) (o : Domain) (h : domNow s d = 3) (hd : ¬(d = .core ∨ d = .code ∨ d = .data)) :
    domNow (wakeDomain s src o d) d = 4 ∧ (wakeDomain s src o d).get (Ent.LAST_WAKE (domId d)) = src ∧
    Counted s (wakeDomain s src o d) (Ent.REFUSALS (domId d)) ∧ (wakeDomain s src o d).get (Ent.LAST_REFUSER (domId d)) = domId o := by
  have hraise : raiseDomain s (some src) o d = beginExit (refuse s d (domId o) (domSeq s d).target) d (some src) := by
    simp only [raiseDomain, h, if_neg hd]
  have hk := wakeDomain_raised (d := d) s src o d
  rw [hraise] at hk
  obtain ⟨hcount, hwho⟩ := refuse_counted s d (domId o) (domSeq s d).target
  obtain ⟨hnow, hsrc, hother⟩ := beginExit_begins (refuse s d (domId o) (domSeq s d).target) d src (by rw [refuse_domNow]; omega)
  refine ⟨hk.domNow.trans hnow, (hk.get _ (lastWake_mem d)).trans hsrc, ?_, ?_⟩
  · rw [Counted, hk.get _ (refusals_mem d), hother _ (refusals_mem d) (by unfold Ent.REFUSALS Ent.DOMAIN_STATE; omega)
      (by unfold Ent.REFUSALS Ent.LAST_WAKE; omega), hcount]
  · rw [hk.get _ (lastRefuser_mem d), hother _ (lastRefuser_mem d) (by unfold Ent.LAST_REFUSER Ent.DOMAIN_STATE; omega)
      (by unfold Ent.LAST_REFUSER Ent.LAST_WAKE; omega), hwho]

end Sys2Proof.Machine
end

section
/-! SUPPORT. The parsers of frames, which run as CORE comes back (R184, R190, R337, R360), leave a domain that is up as it is: they queue requests and
answers, and raise what these need. -/
namespace Sys2Proof.Machine
variable {d : Domain}

theorem onSpindle_risenKept (s : State) (f : Spindle → Spindle) : RisenKept d s (s.onSpindle f) := (onSpindle_domKept s f).risenKept
theorem onKeeper_risenKept (s : State) (f : Keeper → Keeper) : RisenKept d s (s.onKeeper f) := (onKeeper_domKept s f).risenKept

theorem put_risenKept (s : State) {e : Nat} (v : Nat) (h : e / 256 ∉ domIdx) : RisenKept d s (s.put e v) := (put_domKept s v h).risenKept

/-- An entry that each host port has its own of. -/
theorem putPort_risenKept (s : State) {f : Nat → Nat} (p : Port) (v : Nat) (h : ∀ n ∈ [1, 2, 3], f n / 256 ∉ domIdx) :
    RisenKept d s (s.put (f (portNum p)) v) :=
  put_risenKept s v (h _ (by cases p <;> decide))

/-! ### Pushes and requests -/

theorem raiseNet_risenKept (s : State) : RisenKept d s (raiseNet s) := raiseDomain_risenKept _ _ _ _

theorem canPush_risenKept (s : State) (fs : List Frame) : RisenKept d s (canPush s fs).1 := by
  unfold canPush
  split_ifs
  · exact put_risenKept s _ (by decide)
  · exact (noteFull_domKept s 9 (by decide)).risenKept.trans (put_risenKept _ _ (by decide))
  · exact ((onSpindle_risenKept s _).trans (notePeak_domKept _ 9 _ (by decide)).risenKept).trans (raiseNet_risenKept _)

theorem canPushOwn_risenKept (s : State) (fn : Nat) (datas : List Bytes) : RisenKept d s (canPushOwn s fn datas) :=
  .ite (.refl s) (canPush_risenKept s _)

theorem raiseCore_risenKept (s : State) : RisenKept d s (raiseCore s) :=
  .ite (.refl s) (.foldl (fun _ _ => raiseDomain_risenKept _ _ _ _) _ s)

theorem enqueue_risenKept (s : State) (q : Request) : RisenKept d s (enqueue s q).1 := by
  unfold enqueue
  dsimp only
  split
  · exact ((raiseCore_risenKept s).trans (onSpindle_risenKept _ _)).trans (notePeak_domKept _ 10 _ (by decide)).risenKept
  · exact ((raiseCore_risenKept s).trans (noteFull_domKept _ 10 (by decide)).risenKept).trans
      (put_risenKept _ _ (by cases q.user <;> decide))

/-! ### CAN (R331 to R344) -/

theorem parserAnswer_risenKept (s : State) (q : Request) (c : Nat) : RisenKept d s (parserAnswer s q c) := canPushOwn_risenKept s 3 _

theorem requestComplete_risenKept (s : State) (q : Request) : RisenKept d s (requestComplete s q) := by
  unfold requestComplete
  split
  · exact (put_risenKept s _ (by decide)).trans (canPushOwn_risenKept _ 3 _)
  · exact .ite (enqueue_risenKept s q) ((enqueue_risenKept s q).trans (parserAnswer_risenKept _ q _))

theorem firstSegment_risenKept (s : State) (q : Request) : RisenKept d s (firstSegment s q) := by
  unfold firstSegment
  split
  · exact .ite (onSpindle_risenKept s _) (parserAnswer_risenKept s q _)
  · exact onSpindle_risenKept s _

theorem dropSegment_risenKept (s : State) : RisenKept d s (dropSegment s) :=
  .ite ((put_risenKept s _ (by decide)).trans (onSpindle_risenKept _ _)) (.refl s)

theorem secondSegment_risenKept (s : State) (q : Request) : RisenKept d s (secondSegment s q) := by
  unfold secondSegment
  split
  · exact .ite ((onSpindle_risenKept s _).trans (requestComplete_risenKept _ _)) (dropSegment_risenKept s)
  · exact .refl s

theorem requestRx_risenKept (s : State) (target : Nat) (p : Bytes) : RisenKept d s (requestRx s target p) :=
  .ite (.refl s) (.ite (parserAnswer_risenKept s _ _) (.ite (secondSegment_risenKept s _) (.ite (firstSegment_risenKept s _)
    (requestComplete_risenKept s _))))

theorem beaconRx_risenKept (s : State) (b0 b1 : Byte) : RisenKept d s (beaconRx s b0 b1) := by
  have hc : RisenKept d s ((s.bump Ent.BEACONS_RX).put Ent.LAST_BEACON (b0.toNat % 8 + 256 * (b1.toNat % 16))) :=
    (put_risenKept s _ (by decide)).trans (put_risenKept _ _ (by decide))
  exact .ite ((hc.trans (onKeeper_risenKept _ _)).trans (refreshRelayed_domKept _).risenKept) hc

theorem ownIdRx_risenKept (s : State) (fn node : Nat) : RisenKept d s (ownIdRx s fn node) := by
  have hc : DomKept d s (nodeConflict s 0x1FF (fn * 128 + node)) :=
    ((((put_domKept s _ (by decide)).trans (put_domKept _ _ (by decide))).trans (put_domKept _ _ (by decide))).trans
      (put_domKept _ _ (by decide))).trans (raise_domKept _ 16)
  exact .ite hc.risenKept (.refl s)

theorem parseRx_risenKept (s : State) (f : CanRx) : RisenKept d s (parseRx s f) := by
  cases f with
  | beacon b0 b1 => exact beaconRx_risenKept s b0 b1
  | source n => exact ownIdRx_risenKept s 1 n
  | request target p => exact requestRx_risenKept s target p
  | other => exact .refl s
  | time n v => exact .ite (enqueue_risenKept s _) (.refl s)
  | heartbeat n => exact ownIdRx_risenKept s 6 n

theorem parserRun_risenKept (s : State) : RisenKept d s (parserRun s) :=
  .ite ((onSpindle_risenKept s _).trans (.foldl parseRx_risenKept _ _)) (.refl s)

/-! ### Host ports (R354 to R360) -/

theorem portAnswer_risenKept (s : State) (p : Port) (r : Response) : RisenKept d s (portAnswer s p r) :=
  .ite (putPort_risenKept s p _ (by decide)) (onSpindle_risenKept s _)

theorem offer_risenKept (s : State) (p : Port) (q : Request) : RisenKept d s (offer s p q) :=
  .ite ((enqueue_risenKept s q).trans (putPort_risenKept _ p _ (by decide))) ((enqueue_risenKept s q).trans (portAnswer_risenKept _ p _))

theorem hostRequest_risenKept (s : State) (p : Port) (q : Request) : RisenKept d s (hostRequest s p q) := by
  refine .ite (portAnswer_risenKept s p _) (.ite (putPort_risenKept s p _ (by decide)) ?_)
  split
  · exact .ite ((portAnswer_risenKept s p _).trans (putPort_risenKept _ p _ (by decide))) (offer_risenKept s p q)
  · exact offer_risenKept s p q

theorem frameRx_risenKept (s : State) (p : Port) (f : Bytes) : RisenKept d s (frameRx s p f) :=
  .ite (putPort_risenKept s p _ (by decide)) ((putPort_risenKept s p _ (by decide)).trans (hostRequest_risenKept _ p _))

theorem framesRun_risenKept (s : State) (p : Port) : RisenKept d s (framesRun s p) :=
  .ite ((onSpindle_risenKept s _).trans (.foldl (fun s f => frameRx_risenKept s p f) _ _)) (.refl s)

theorem parsersRun_risenKept (s : State) : RisenKept d s (parsersRun s) := (parserRun_risenKept s).trans (.foldl framesRun_risenKept _ _)

end Sys2Proof.Machine
end

section
/-! SUPPORT. What going OFF loses (R163) is nothing of the domain's words or of the sequencers. -/
namespace Sys2Proof.Machine
variable {d : Domain}

/-- Entries whose row a predicate does not name are left as they are. -/
theorem dropEntries_get (s : State) {p : EntryRow → Bool} {e : Nat} (h : ((findRow e).map p).getD false = false) : (s.dropEntries p).get e = s.get e := by
  unfold State.get State.dropEntries
  dsimp only
  induction s.ent with
  | nil => rfl
  | cons c l ih =>
    by_cases hk : c.1 = e * 8
    · simp [h, sparseGet, hk]
    · by_cases hp : ((findRow (c.1 / 8)).map p).getD false = true
      · simpa [List.filter_cons, hp, sparseGet, hk] using ih
      · simpa [List.filter_cons, hp, sparseGet, hk] using ih

/-- The keeper holds the words of every domain (R178). -/
theorem domWords_held {e : Nat} (h : e ∈ domWords d) : (findRow e).map (·.held) = some .keeper := by
  obtain ⟨i, hi, rfl⟩ := List.mem_map.1 h
  fin_cases hi <;> cases d <;> rfl

theorem dropEntries_domKept (s : State) {p : EntryRow → Bool} {h : Holder} (hp : ∀ r, p r = (r.held == h)) (hk : h ≠ .keeper) :
    DomKept d s (s.dropEntries p) := by
  refine domKept_of (fun e he => dropEntries_get s ?_) rfl rfl
  obtain ⟨r, hr, hh⟩ := Option.map_eq_some_iff.1 (domWords_held he)
  simp [hr, hp, hh, Ne.symm hk]

theorem clearPage_domKept (s : State) (u : User) : DomKept d s (clearPage s u) := by
  refine domKept_of (fun e he => ?_) (by rw [clearPage_flyer]) (by rw [clearPage_doms])
  obtain ⟨i, hi, rfl⟩ := List.mem_map.1 he
  refine clearPage_get s ?_ ?_ <;> fin_cases hi <;> cases d <;> decide

theorem releaseClaims_domKept (s : State) (u : User) : DomKept d s (releaseClaims s u) :=
  .foldl_mem (fun s g hg => .ite ((put_domKept s _ (by revert hg; revert g; decide)).trans (raise_domKept _ 12)) (.refl s)) s

theorem portReset_domKept (s : State) (p : Port) : DomKept d s (portReset s p) := by
  have hd : DomKept d s (dropStaged (dropRequests s (portUser p)) (portUser p)) := domKept_of_ent rfl rfl rfl
  have hc := (hd.trans (releaseClaims_domKept _ (portUser p))).trans (clearPage_domKept _ (portUser p))
  have hp : ∀ t : State, DomKept d t (t.onPort p fun h => { h with chosen := 0, part := false, frames := [], answer := none, kept := none }) :=
    fun _ => domKept_of_ent rfl rfl rfl
  exact (hc.trans (hp _)).trans (put_domKept _ _ (by cases p <;> decide))

theorem countPageLosses_domKept (s : State) : DomKept d s (countPageLosses s) :=
  .foldl (fun s u => .ite (.refl s) (put_domKept s _ (by cases u <;> decide))) users s

/-- CRYPTO loses its pages, what its jobs wait for, its scratch and the big-number engine's work. -/
theorem loseCrypto_domKept (s : State) : DomKept d s (loseContents s .crypto) := by
  have hc : DomKept d s (clearPages (countPageLosses s)) := (countPageLosses_domKept s).trans (.foldl clearPage_domKept users _)
  have hf : ∀ (t : State) p, DomKept d t (rngForget t p) := fun _ _ => domKept_of_ent rfl rfl rfl
  have hm : ∀ t : State, DomKept d t ((t.onMem fun m => { m with scratch := {} }).onSpindle fun x => { x with bn := {} }) :=
    fun _ => domKept_of_ent rfl rfl rfl
  rw [loseContents]
  exact ((hc.trans (hf _ _)).trans (hm _)).trans (.foldl (fun t u => onPage_domKept t u _) users _)

/-- The contents lost on the way to OFF are none of the keeper's words. -/
theorem loseContents_domKept (s : State) (d' : Domain) : DomKept d s (loseContents s d') := by
  cases d'
  case crypto => exact loseCrypto_domKept s
  all_goals rw [loseContents]
  case code =>
    have hm : DomKept d s (((s.onMem fun m => { m with code := { fill := .free s.free } }).used).onCore fun c =>
      { c with svctl := c.svctl &&& 2, lockByMode := false }) := domKept_of_ent rfl rfl rfl
    exact (hm.trans (put_domKept _ _ (by decide))).trans (put_domKept _ _ (by decide))
  case capt =>
    have hm : DomKept d s (s.onMem fun m => { m with capt := { fill := .free s.free } }).used := domKept_of_ent rfl rfl rfl
    exact hm.trans (put_domKept _ _ (by decide))
  case net =>
    exact ((dropEntries_domKept s (h := .net) (fun _ => rfl) (by decide)).trans (clearPage_domKept _ .N)).trans (onCan_domKept _ _)
  case host =>
    exact (DomKept.trans (.foldl portReset_domKept _ s) (dropEntries_domKept _ (h := .host) (fun _ => rfl) (by decide))).trans
      (onSpindle_domKept _ _)
  case tag =>
    have ha : DomKept d s (endAuth s) := .trans (clearPage_domKept s .T) (onTag_domKept _ _)
    exact (ha.trans (put_domKept _ _ (by decide))).trans (onTag_domKept _ _)
  case core | plyS | opt | heat | horn | ind | plyF | backstop | keep => exact .refl s
  case data | rng | gas | tamper => exact domKept_of_ent rfl rfl rfl

end Sys2Proof.Machine
end

section
/-! SUPPORT. An entry and an exit of a domain (R164 to R168, R173, R177): what starting, refusing and completing one do to the domain. -/
namespace Sys2Proof.Machine
variable {s t : State} {d d' : Domain} {r w : Nat}

/-! ### The level sources as an entry starts (R170) -/

/-- An entry under way changes nothing that a level source is judged by. -/
structure SourcesKept (s t : State) : Prop where
  get : ∀ e, e / 256 ≠ 0x1101 → t.get e = s.get e
  getU : ∀ e v, e / 256 ≠ 0x1101 → t.getU e v = s.getU e v
  off : ∀ d, (domState t d == 0) = (domState s d == 0)
  keeper : t.keeper = s.keeper
  spindle : t.spindle = s.spindle
  pads : t.pads = s.pads

theorem SourcesKept.portEnabled (h : SourcesKept s t) (p : Port) : portEnabled t p = portEnabled s p := by
  unfold Machine.portEnabled
  rw [h.get _ (by cases p <;> decide)]

theorem SourcesKept.irqAsserted (h : SourcesKept s t) (p : Port) : irqAsserted t p = irqAsserted s p := by
  have ho : (domState t .host != 0) = (domState s .host != 0) := congrArg (! ·) (h.off .host)
  have hs : ∀ v, signalled t v = signalled s v := fun v => by rw [signalled, h.getU _ _ (by decide), h.getU _ _ (by decide), signalled]
  have hr : ∀ v, headResponse t v = headResponse s v := fun v => by unfold headResponse; rw [h.spindle]
  simp only [Machine.irqAsserted, ho, hs, hr, h.portEnabled, h.getU _ _ (show Ent.HP_IRQ_RESP / 256 ≠ 0x1101 by decide), h.spindle]

theorem SourcesKept.levelOn (h : SourcesKept s t) (src : Nat) : levelOn t src = levelOn s src := by
  unfold Machine.levelOn portLow
  simp only [h.irqAsserted, h.portEnabled, h.pads, h.spindle, h.get Ent.BS_ALARM (by decide)]

/-- The level sources of R170. -/
abbrev levelSources : List Nat := [0x06, 0x07, 0x08, 0x09, 0x0A]

theorem SourcesKept.wakeLost (h : SourcesKept s t) {src : Nat} (hm : src ∈ levelSources) : wakeLost t src = wakeLost s src := by
  fin_cases hm
  · exact h.off .host
  · rfl
  · rfl
  · exact h.off .tamper
  · simp only [Machine.wakeLost, h.off, h.keeper]

theorem SourcesKept.levelSource (h : SourcesKept s t) (d : Domain) : levelSource t d = levelSource s d := by
  have hr : ∀ src, raisedBy t src [] = raisedBy s src [] := fun src => by unfold raisedBy; rw [h.keeper]
  refine List.find?_congr fun src hm => ?_
  rw [h.levelOn, h.wakeLost hm, hr]

/-! ### An entry starts -/

/-- The domain is ENTERING its rest state. -/
def entered (s : State) (d : Domain) (r : Nat) : State :=
  onDom (setDomNow s d 3) d fun q => { q with target := r, wake := none, idleTried := false }

theorem beginEntry_eq (s : State) (d : Domain) (r : Nat) :
    beginEntry s d r = levelWake (if d = .core ∧ r = 0 then startReset (entered s d r) 5 else entered s d r) d := rfl

theorem flyDom_inRange (hf : s.flyer.doms.length = 7) (hd : isFlyerDom d = true) : domNum d - 9 < s.flyer.doms.length := by
  simp only [isFlyerDom, Bool.and_eq_true, decide_eq_true_eq] at hd
  omega

theorem onDom_domSeq (hd : s.doms.length = 19) (f : DomSeq → DomSeq) : domSeq (onDom s d f) d = f (domSeq s d) := by
  have hl : domNum d < s.doms.length := by have := domNum_le d; omega
  simp [domSeq, onDom, List.getD_eq_getElem?_getD, hl]

theorem entered_begun (hf : s.flyer.doms.length = 7) (hd : s.doms.length = 19) (r : Nat) :
    domNow (entered s d r) d = 3 ∧ (domSeq (entered s d r) d).target = r := by
  refine ⟨setDomNow_domNow (s := s) 3 (flyDom_inRange hf), ?_⟩
  rw [entered, onDom_domSeq (by rw [setDomNow_doms, hd])]

theorem entered_sourcesKept (r : Nat) (h : domNow s d = 2) : SourcesKept s (entered s d r) := by
  cases hd : isFlyerDom d with
  | true =>
    have he : setDomNow s d 3 = onFlyDom s d fun x => { x with state := 3 } := if_pos hd
    exact ⟨fun _ _ => by rw [entered, he]; rfl, fun _ _ _ => by rw [entered, he]; rfl, fun _ => by rw [entered, he]; rfl, by rw [entered, he]; rfl,
      by rw [entered, he]; rfl, by rw [entered, he]; rfl⟩
  | false =>
    have he : setDomNow s d 3 = setDomState s d 3 := if_neg (by simp [hd])
    have h2 : domState s d = 2 := by simpa only [domNow, hd, Bool.false_eq_true, if_false] using h
    have hm := domId_lt d
    have hne : ∀ e, e / 256 ≠ 0x1101 → e ≠ Ent.DOMAIN_STATE (domId d) := by
      rintro _ hi rfl
      exact hi (by unfold Ent.DOMAIN_STATE; omega)
    refine ⟨fun e hi => ?_, fun e v hi => ?_, fun d' => ?_, by rw [entered, he]; rfl, by rw [entered, he]; rfl, by rw [entered, he]; rfl⟩
    · rw [entered, he]
      exact State.get_put_ne s (hne e hi) 3
    · rw [entered, he]
      exact State.getU_put_ne s (hne e hi) v 3
    · rw [entered, he]
      by_cases hdd : d' = d
      · subst hdd
        have h3 : domState (onDom (setDomState s d' 3) d' fun q => { q with target := r, wake := none, idleTried := false }) d' = 3 :=
          State.get_put_self _ _ _
        rw [h3, h2]
        rfl
      · have hk : DomKept d' s (setDomState s d 3) := putWord_domKept s 3 (domState_mem d) (Ne.symm hdd)
        rw [(hk.trans (onDom_domKept _ _ (Ne.symm hdd))).domState]

/-- With no refuser, and no level source to wake it again, the domain enters its rest state. -/
theorem tryEntry_enters (retry : Bool) (hm : mayEnter s d = true) (hi : domIdle s d = true) (hl : levelSource s d = none)
    (hc : ¬(d = .core ∧ restNow s d = 0)) (hr : refusers s d (restNow s d) = []) : tryEntry s d retry = entered s d (restNow s d) := by
  have h2 : domNow s d = 2 := by
    simp only [mayEnter, Bool.and_eq_true, beq_iff_eq] at hm
    exact hm.1.1.1.2
  have hw : levelWake (entered s d (restNow s d)) d = entered s d (restNow s d) := by
    unfold levelWake
    rw [(entered_sourcesKept _ h2).levelSource, hl]
  simp only [tryEntry, hm, hr, hi, Bool.not_true, Bool.false_eq_true, if_false, if_true, beginEntry_eq, if_neg hc, hw]

/-- The first refuser is the one that is recorded (R167). -/
theorem tryEntry_refused {ws : List Nat} (retry : Bool) (hm : mayEnter s d = true) (hi : domIdle s d = true)
    (hr : refusers s d (restNow s d) = w :: ws) :
    tryEntry s d retry = onDom (refuse s d w (restNow s d)) d fun q => { q with idleTried := true } := by
  simp only [tryEntry, hm, hr, hi, Bool.not_true, Bool.false_eq_true, if_false, Bool.true_or, if_true]

/-! ### CODE and DATA behind CORE (R164) -/

theorem levelWake_domKept_ne (s : State) (h : d' ≠ d) : DomKept d s (levelWake s d') := by
  unfold levelWake
  split
  · exact wakeDomain_domKept_ne s _ _ h
  · exact .refl s

theorem tryEntry_domKept_ne (s : State) (retry : Bool) (h : d' ≠ d) (hc : d' ≠ .core) : DomKept d s (tryEntry s d' retry) := by
  have he : DomKept d s (beginEntry s d' (restNow s d')) := by
    rw [beginEntry_eq, if_neg fun hn => hc hn.1]
    exact ((setDomNow_domKept s 3 h).trans (onDom_domKept _ _ h)).trans (levelWake_domKept_ne _ h)
  unfold tryEntry
  refine .ite (.refl s) ?_
  split
  · exact .ite ((refuse_domKept s _ _ h).trans (onDom_domKept _ _ h)) (.refl s)
  · exact .ite he (.refl s)

theorem arbLeave_domKept (s : State) : DomKept d s (arbLeave s) := by
  have hk : ∀ t : State, ∀ k ∈ resources,
      DomKept d t ((onArb t k fun r => { r with pend := [], owner := none, heldFor := 0 }).put (Ent.OWNER_NOW k) 0x80) := fun t k hk =>
    (onSpindle_domKept t _).trans (put_domKept _ _ (by revert hk; revert k; decide))
  exact ((onSpindle_domKept s _).trans (.foldl_mem hk _)).trans (put_domKept _ _ (by decide))

/-- What follows CORE's entry concerns CODE, DATA and the arbiter. -/
theorem entryStart_tried (s : State) (d : Domain) (retry : Bool) : DomKept d (tryEntry s d retry) (entryStart s d retry) := by
  unfold entryStart
  dsimp only
  split
  next h =>
    obtain ⟨rfl, -, -⟩ := h
    exact ((tryEntry_domKept_ne _ retry (by decide) (by decide)).trans (tryEntry_domKept_ne _ retry (by decide) (by decide))).trans (arbLeave_domKept _)
  next => exact .refl _

end Sys2Proof.Machine
end

section
/-! SUPPORT. An entry completes, an exit completes (R163, R172, R177); CORE's entry into OFF (R165). -/
namespace Sys2Proof.Machine
variable {s : State} {d : Domain}

/-! ### An entry completes -/

theorem discharge_domKept (s : State) (d' : Domain) : DomKept d s (discharge s d') := .ite (domKept_of_ent rfl rfl rfl) (.refl s)

/-- The entry is counted in its target, before anything is lost. -/
def enteredTarget (s : State) (d : Domain) : State :=
  if isFlyerDom d then discharge (setDomNow s d (domSeq s d).target) d
  else (discharge (setDomNow s d (domSeq s d).target) d).bump (Ent.ENTRIES (domId d))

theorem entryComplete_eq (h : domNow s d = 3) (hw : (domSeq s d).wake = none) (hc : ¬(d = .core ∧ (domSeq s d).target = 0 ∧ s.spindle.alive = true)) :
    entryComplete s d = onDom (if (domSeq s d).target = 0 then loseContents (enteredTarget s d) d else enteredTarget s d) d
      fun q => { q with wake := none } := by
  have hn : ¬(domNow s d ≠ 3 ∨ (d = .core ∧ (domSeq s d).target = 0 ∧ s.spindle.alive = true)) := by
    rintro (h3 | h3)
    · exact h3 h
    · exact hc h3
  simp only [entryComplete, if_neg hn, hw]
  rfl

theorem enteredTarget_domNow (h : domNow s d = 3) : domNow (enteredTarget s d) d = (domSeq s d).target := by
  have hd : domNow (discharge (setDomNow s d (domSeq s d).target) d) d = (domSeq s d).target := by
    rw [(discharge_domKept _ d).domNow, setDomNow_domNow _ (flyDom_held (by omega))]
  unfold enteredTarget
  split
  · exact hd
  · rw [State.bump_eq, put_domNow _ (by unfold Ent.DOMAIN_STATE Ent.ENTRIES; omega), hd]

theorem enteredTarget_counted (hf : isFlyerDom d = false) : Counted s (enteredTarget s d) (Ent.ENTRIES (domId d)) := by
  rw [enteredTarget, if_neg (by simp [hf]), Counted, State.bump_get_self, (discharge_domKept _ d).get _ (entries_mem d),
    setDomNow_get _ (by unfold Ent.ENTRIES Ent.DOMAIN_STATE; omega)]

theorem enteredTarget_boost (s : State) : (enteredTarget s .horn).flyer.horn.boost = 0 := by
  have hb : ∀ h : Horn, (setBoost h 0).boost = 0 := fun h => by
    unfold setBoost
    split
    · assumption
    · rfl
  exact hb _

theorem entryComplete_completes (h : domNow s d = 3) (hw : (domSeq s d).wake = none)
    (hc : ¬(d = .core ∧ (domSeq s d).target = 0 ∧ s.spindle.alive = true)) :
    domNow (entryComplete s d) d = (domSeq s d).target ∧ (isFlyerDom d = false → Counted s (entryComplete s d) (Ent.ENTRIES (domId d))) ∧
      (d = .capt → (domSeq s d).target = 0 → (entryComplete s d).get Ent.CAPT_HELD = 0) ∧ (d = .horn → (entryComplete s d).flyer.horn.boost = 0) := by
  have hk : DomKept d (enteredTarget s d) (entryComplete s d) := by
    rw [entryComplete_eq h hw hc]
    exact .trans (.ite (loseContents_domKept _ d) (.refl _)) (onDom_domKept_self _ d (fun _ => rfl) fun _ => rfl)
  refine ⟨hk.domNow.trans (enteredTarget_domNow h), fun hf => (hk.get _ (entries_mem d)).trans (enteredTarget_counted hf), ?_, ?_⟩
  · rintro rfl h0
    rw [entryComplete_eq h hw hc, if_pos h0, State.onDom_get, loseContents, State.get_put_self]
  · rintro rfl
    rw [entryComplete_eq h hw hc]
    simp only [loseContents, ite_self]
    exact enteredTarget_boost s

/-! ### An exit completes -/

theorem turnOn_on (h : domNow s d = 4) : domNow (turnOn s d) d = 2 ∧ (isFlyerDom d = false → Counted s (turnOn s d) (Ent.WAKES (domId d))) := by
  have h2 : domNow (setDomNow s d 2) d = 2 := setDomNow_domNow 2 (flyDom_held (by omega))
  unfold turnOn
  split
  next hf => exact ⟨h2, fun hn => absurd hf (by simp [hn])⟩
  next =>
    refine ⟨?_, fun _ => ?_⟩
    · rw [State.bump_eq, put_domNow _ (by unfold Ent.DOMAIN_STATE Ent.WAKES; omega), h2]
    · rw [Counted, State.bump_get_self, setDomNow_get _ (by unfold Ent.WAKES Ent.DOMAIN_STATE; omega)]

theorem startBurst_domKept (s : State) (b : Bool) : DomKept d s (startBurst s b) := by
  rw [startBurst]
  exact ((put_domKept s _ (by decide)).trans (put_domKept _ _ (by decide))).trans (onPly_domKept _ _)

theorem startWaiting_domKept (s : State) : DomKept d s (startWaiting s) :=
  .ite (.ite (startBurst_domKept s _) (.ite (startBurst_domKept s _) (.refl s))) (.refl s)

theorem arbReturn_domKept (s : State) : DomKept d s (arbReturn s) :=
  .foldl_mem (fun s k hk => put_domKept s _ (by revert hk; revert k; decide)) s

theorem processSwitches_domKept (s : State) : DomKept d s (processSwitches s) := .ite (domKept_of_ent rfl rfl rfl) (.refl s)

/-- What follows an exit concerns the arbiter, the link and the switches. -/
theorem exitComplete_turned (h : domNow s d = 4) : DomKept d (turnOn s d) (exitComplete s d) := by
  unfold exitComplete
  rw [if_neg (by simp [h])]
  cases d
  case core => exact arbReturn_domKept _
  case plyS | plyF => exact startWaiting_domKept _
  case tamper => exact processSwitches_domKept _
  all_goals exact .refl _

theorem exitComplete_on (h : domNow s d = 4) :
    domNow (parsersRun (exitComplete s d)) d = 2 ∧
      (isFlyerDom d = false → Counted s (parsersRun (exitComplete s d)) (Ent.WAKES (domId d))) := by
  obtain ⟨h2, hcount⟩ := turnOn_on h
  have hx := exitComplete_turned h
  have hk := hx.trans (parsersRun_risenKept (exitComplete s d) (.inl (hx.domNow.trans h2)))
  exact ⟨hk.domNow.trans h2, fun hf => (hk.get _ (wakes_mem d)).trans (hcount hf)⟩

/-! ### CORE enters OFF: the reset sequence of the spindle die begins (R165) -/

theorem startReset_domKept (hs : s.keeper.seq = .released) (hf : s.flyer.up = true) (cause : Nat) : DomKept d s (startReset s cause) := by
  have hup : (setAlarmFw (s.onKeeper fun k => { k with wdt := none }) 0).flyer.up = true := by rw [setAlarmFw_flyer]; exact hf
  unfold startReset
  rw [if_neg (not_not_intro hs)]
  dsimp only
  rw [if_pos hup]
  exact (((onKeeper_domKept s _).trans (setAlarmFw_domKept _ 0)).trans (onKeeper_domKept _ _)).trans (sbQueue_domKept _ _ _ _ _)

theorem raiseDomain_seq (s : State) (source : Option Nat) (o d : Domain) : (raiseDomain s source o d).keeper.seq = s.keeper.seq := by
  have hr : ∀ w n, (refuse s d w n).keeper.seq = s.keeper.seq := fun w n => by rw [refuse, raise_keeper']; rfl
  unfold raiseDomain
  split
  · split
    · rfl
    · rw [beginExit_keeper, hr]
  · rw [beginExit_keeper]
  · rw [beginExit_keeper]
  · rfl

/-- While CORE is not OFF, no wake releases the spindle die. -/
theorem levelWake_seq (h : domState s .core ≠ 0) (d : Domain) : (levelWake s d).keeper.seq = s.keeper.seq := by
  unfold levelWake
  split
  · unfold wakeDomain
    dsimp only
    rw [if_neg fun hc => h hc.2, raiseDomain_seq]
  · rfl

/-- A wake during CORE's entry is held (R172). -/
theorem levelWake_held (h : domState s .core = 3) : DomKept .core s (levelWake s .core) := by
  have hr : ∀ src o, DomKept .core s (raiseDomain s (some src) o .core) := fun src o => by
    have h3 : domNow s .core = 3 := h
    simp only [raiseDomain, h3, true_or, if_true]
    exact onDom_domKept_self s .core (fun _ => rfl) fun _ => rfl
  unfold levelWake
  split
  · exact (hr _ _).trans (wakeDomain_raised s _ _ _)
  · exact .refl s

theorem tryEntry_seq (h : domState s .core ≠ 0) (hd : d ≠ .core) (retry : Bool) : (tryEntry s d retry).keeper.seq = s.keeper.seq := by
  have hb : (beginEntry s d (restNow s d)).keeper.seq = s.keeper.seq := by
    have hk : DomKept .core s (entered s d (restNow s d)) := (setDomNow_domKept s 3 hd).trans (onDom_domKept _ _ hd)
    rw [beginEntry_eq, if_neg fun hn => hd hn.1, levelWake_seq (by rwa [hk.domState]), entered, State.onDom_keeper, setDomNow_keeper]
  unfold tryEntry
  split
  · rfl
  · split
    · split
      · rw [State.onDom_keeper, refuse, raise_keeper']
        rfl
      · rfl
    · split
      · exact hb
      · rfl

theorem arbLeave_keeper (s : State) : (arbLeave s).keeper = s.keeper := foldl_same (g := State.keeper) _ resources fun _ _ => rfl

theorem entryStart_seq (s : State) (retry : Bool) : (entryStart s .core retry).keeper.seq = (tryEntry s .core retry).keeper.seq := by
  unfold entryStart
  dsimp only
  split
  next h =>
    have h3 : domState (tryEntry s .core retry) .core ≠ 0 := by omega
    have hc : domState (tryEntry (tryEntry s .core retry) .code retry) .core ≠ 0 := by
      rwa [(tryEntry_domKept_ne _ retry (by decide) (by decide)).domState]
    rw [arbLeave_keeper, tryEntry_seq hc (by decide), tryEntry_seq h3 (by decide)]
  next => rfl

end Sys2Proof.Machine
end

section
/-! CLAIMS. Rest words, entries, wakes and exits of the power domains (R160 to R177). LAST_WAKE is noted for the flyer's domains too (log 12). -/
namespace Sys2Proof.Machine
variable {s : State} {d : Domain} {u : User} {ss v r : Nat}

/-! ## Rest words (R161, R162, R166) -/

theorem domOf_some (h : domOf ss = some d) : ss = domId d := by
  have := List.find?_some h
  simp only [beq_iff_eq] at this
  exact this.symm

theorem restOf_lt (h : restOf v = some r) : v < 2 ^ 32 := by
  have hc : ∀ k, k < 4 → wideCode k < 2 ^ 32 := by decide
  unfold restOf at h
  split_ifs at h with h1 h2 h3
  · exact h1 ▸ hc 1 (by decide)
  · exact h2 ▸ hc 2 (by decide)
  · exact h3 ▸ hc 3 (by decide)

/-- REST is a word of four bytes whose write is an action, of no crypto engine. -/
theorem rest_row (d : Domain) : (findRow (Ent.REST (domId d))).map (·.action) = some true ∧ entrySize (Ent.REST (domId d)) = 4 ∧
    isMono (Ent.REST (domId d)) = false ∧ Ent.REST (domId d) ∉ engineEntries ∧ Ent.REST (domId d) ≠ Ent.COMMIT := by
  cases d <;> decide

theorem action_REST (s : State) (u : User) (b : Bytes) (d : Domain) : action s u (Ent.REST (domId d)) b = restWrite s d (leNat b) := by
  cases d <;> rfl

/-- An accepted write of a rest word is judged by its state and answered at once. -/
theorem access_rest (h : accepts s (numReq u (Ent.REST (domId d)) v) = true) (hv : restOf v = some r) :
    access s (numReq u (Ent.REST (domId d)) v) =
      respond (restWrite s d v).1 (numReq u (Ent.REST (domId d)) v) (restWrite s d v).2 [] := by
  obtain ⟨ha, hsize, hm, he, hc⟩ := rest_row d
  have hval : leNat (numReq u (Ent.REST (domId d)) v).value = v := numReq_value (by rw [hsize]; exact restOf_lt hv)
  have hw : writeAccess s (numReq u (Ent.REST (domId d)) v) = .done (restWrite s d v).1 (restWrite s d v).2 := by
    rw [writeAccess_action h ha hc, hm, action_REST, hval]
    rfl
  exact access_done rfl h hw (engineOf_numReq he)

theorem refuse_restWord (s : State) (d : Domain) (w n : Nat) :
    (refuse s d w n).get (Ent.REST (domId d)) = s.get (Ent.REST (domId d)) := by
  have hlt := domId_lt d
  rw [refuse, (raise_domKept (d := d) _ 15).get _ (rest_mem d), State.get_put_ne _ (by unfold Ent.REST Ent.LAST_REFUSAL; omega),
    State.get_put_ne _ (by unfold Ent.REST Ent.LAST_REFUSER; omega), State.bump_eq, State.get_put_ne _ (by unfold Ent.REST Ent.REFUSALS; omega)]

theorem beginExit_restWord (n : Nat) (h : domNow s d ≠ 2) : (beginExit s d (some n)).get (Ent.REST (domId d)) = s.get (Ent.REST (domId d)) := by
  obtain ⟨-, -, hother⟩ := beginExit_begins s d n h
  exact hother _ (rest_mem d) (by unfold Ent.REST Ent.DOMAIN_STATE; omega) (by unfold Ent.REST Ent.LAST_WAKE; omega)

theorem raiseDomain_restWord (s : State) (src : Nat) (o d : Domain) :
    (raiseDomain s (some src) o d).get (Ent.REST (domId d)) = s.get (Ent.REST (domId d)) := by
  unfold raiseDomain
  split
  case h_1 h3 =>
    split
    · exact State.onDom_get ..
    · rw [beginExit_restWord src (by rw [refuse_domNow]; omega), refuse_restWord]
  case h_2 h1 => exact beginExit_restWord src (by omega)
  case h_3 h0 => exact beginExit_restWord src (by omega)
  case h_4 => rfl

/-- No wake writes a rest word. -/
theorem wakeDomain_restWord (s : State) (src : Nat) (o d' d : Domain) :
    (wakeDomain s src o d').get (Ent.REST (domId d)) = s.get (Ent.REST (domId d)) := by
  by_cases h : d' = d
  · subst h
    exact ((wakeDomain_raised s src o d').get _ (rest_mem d')).trans (raiseDomain_restWord s src o d')
  · exact (wakeDomain_domKept_ne s src o h).get _ (rest_mem d)

theorem wake_restWord (s : State) (src : Nat) (more : List Domain) (d : Domain) :
    (wake s src more).get (Ent.REST (domId d)) = s.get (Ent.REST (domId d)) := by
  unfold wake
  split
  · rfl
  · split
    · rfl
    · exact foldl_same (g := fun s => s.get (Ent.REST (domId d))) s _ fun s d' => wakeDomain_restWord s src _ d' d

theorem setRest_stored (s : State) (d : Domain) (r : Nat) : (setRest s d r).get (Ent.REST (domId d)) = wideCode (r + 1) := by
  have hp : (s.put (Ent.REST (domId d)) (wideCode (r + 1))).get (Ent.REST (domId d)) = wideCode (r + 1) := State.get_put_self _ _ _
  unfold setRest
  dsimp only
  split
  · rw [sendDomain, (sbQueue_domKept (d := d) _ _ _ _ _).get _ (rest_mem d), State.onDom_get, hp]
  · unfold restRaised
    split
    · rw [wake_restWord, hp]
    · exact hp

theorem sendDomain_owed (hd : s.doms.length = 19) (r : Nat) : (domSeq (sendDomain s d r) d).owed = some r := by
  rw [sendDomain, (sbQueue_domKept _ _ _ _ _).owed, onDom_domSeq hd]

theorem setRest_owed (hd : s.doms.length = 19) (hf : isFlyerDom d = true) (r : Nat) : (domSeq (setRest s d r) d).owed = some r := by
  rw [setRest, if_pos hf]
  exact sendDomain_owed (by rw [State.put_doms, hd]) r

theorem restWrite_stores (hd : s.doms.length = 19) (ha : accepts s (numReq u (Ent.REST ss) v) = true) (hs : domOf ss = some d)
    (hv : restOf v = some r) (hr : staticRefuser s d r = none) :
    Answers (.restWrite u ss v) s fun t =>
      t.get (Ent.REST ss) = wideCode (r + 1) ∧ t.getU Ent.LAST_STATUS u = Sc.ok ∧ (isFlyerDom d = true → (domSeq t d).owed = some r) := by
  obtain rfl := domOf_some hs
  have hw : restWrite s d v = (setRest s d r, Sc.ok) := by simp only [restWrite, hv, hr]
  have hx := access_rest ha hv
  rw [hw] at hx
  have hk := respond_domKept (d := d) (setRest s d r) (numReq u (Ent.REST (domId d)) v) Sc.ok []
  exact answers_responded rfl hx ⟨(hk.get _ (rest_mem d)).trans (setRest_stored s d r), numReq_status, fun hf => hk.owed.trans (setRest_owed hd hf r)⟩

theorem restWrite_refused {who : Nat} (ha : accepts s (numReq u (Ent.REST ss) v) = true) (hs : domOf ss = some d) (hv : restOf v = some r)
    (hr : staticRefuser s d r = some who) :
    Serves (.restWrite u ss v) s (numReq u (Ent.REST ss) v) (refuse s d who r) Sc.state := by
  obtain rfl := domOf_some hs
  have hw : restWrite s d v = (refuse s d who r, Sc.state) := by simp only [restWrite, hv, hr]
  have hx := access_rest ha hv
  rw [hw] at hx
  exact congrArg Host.Outcome.next hx

/-! ## Entries (R164 to R167) -/

/-- What an idle domain's try comes to: its entry, or the refusal of the first refuser. -/
theorem entryStart_outcome (hf : s.flyer.doms.length = 7) (hd : s.doms.length = 19) (hm : mayEnter s d = true) (hi : domIdle s d = true)
    (hl : levelSource s d = none) (hc : d = .core → restState s d = 1) (retry : Bool) :
    if refusers s d (restNow s d) = [] then
      domNow (entryStart s d retry) d = 3 ∧ (domSeq (entryStart s d retry) d).target = restNow s d
    else domNow (entryStart s d retry) d = 2 ∧ Counted s (entryStart s d retry) (Ent.REFUSALS (domId d)) ∧
      (entryStart s d retry).get (Ent.LAST_REFUSER (domId d)) = (refusers s d (restNow s d)).headD 0 := by
  have hk := entryStart_tried s d retry
  cases hr : refusers s d (restNow s d) with
  | nil =>
    have hoff : ¬(d = .core ∧ restNow s d = 0) := by
      rintro ⟨rfl, h0⟩
      have h1 : restNow s .core = 1 := hc rfl
      omega
    obtain ⟨h3, ht⟩ := entered_begun (d := d) hf hd (restNow s d)
    rw [tryEntry_enters retry hm hi hl hoff hr] at hk
    exact ⟨hk.domNow.trans h3, hk.target.trans ht⟩
  | cons w ws =>
    obtain ⟨hcount, hwho⟩ := refuse_counted s d w (restNow s d)
    have h2 : domNow s d = 2 := by
      simp only [mayEnter, Bool.and_eq_true, beq_iff_eq] at hm
      exact hm.1.1.1.2
    rw [tryEntry_refused retry hm hi hr] at hk
    have hq := (onDom_domKept_self (refuse s d w (restNow s d)) d (f := fun q => { q with idleTried := true }) (fun _ => rfl) fun _ => rfl).trans hk
    exact ⟨hq.domNow.trans ((refuse_domNow s d w _).trans h2), (hq.get _ (refusals_mem d)).trans hcount, (hq.get _ (lastRefuser_mem d)).trans hwho⟩

/-- CORE whose rest is OFF enters it by way of the spindle die's reset (R165). -/
theorem entryStart_coreOff (hf : s.flyer.doms.length = 7) (hd : s.doms.length = 19) (hm : mayEnter s .core = true) (hi : domIdle s .core = true)
    (h0 : restState s .core = 0) (hr : refusers s .core 0 = []) (hs : s.keeper.seq = .released) (hu : s.flyer.up = true) :
    domState (entryStart s .core false) .core = 3 ∧ (entryStart s .core false).keeper.seq = .quiet 5 := by
  have hrest : restNow s .core = 0 := h0
  have ht : tryEntry s .core false = levelWake (startReset (entered s .core 0) 5) .core := by
    simp only [tryEntry, hm, hrest, hr, hi, Bool.not_true, Bool.false_eq_true, if_false, if_true, beginEntry_eq, and_self]
  have hs' : (entered s .core 0).keeper.seq = .released := by rw [entered, State.onDom_keeper, setDomNow_keeper, hs]
  have h3 : domState (startReset (entered s .core 0) 5) .core = 3 :=
    (startReset_domKept (d := .core) hs' hu 5).domState.trans (entered_begun (d := .core) hf hd 0).1
  have hk := (levelWake_held h3).trans (ht ▸ entryStart_tried s .core false)
  refine ⟨hk.domState.trans h3, ?_⟩
  rw [entryStart_seq, ht, levelWake_seq (by omega), (startReset_quiet hs' hu 5).1]

/-! ## Wakes (R168, R170, R177) -/

theorem wake_leavesRest {src : Nat} {more rest : List Domain} {owner : Domain} (hl : wakeLost s src = false) (hr : raisedBy s src more = owner :: rest)
    (hd : d ∈ withNeeds (owner :: rest)) (h : domNow s d < 2) :
    domNow (wake s src more) d = 4 ∧ (wake s src more).get (Ent.LAST_WAKE (domId d)) = src := by
  have hstep : ∀ w, DomKept d s w → domNow (wakeDomain w src owner d) d = 4 ∧ (wakeDomain w src owner d).get (Ent.LAST_WAKE (domId d)) = src :=
    fun w hk => wakeDomain_leavesRest src owner (by rwa [hk.domNow])
  obtain ⟨w, hw, hk⟩ := wake_reaches hl hr hd fun w hk => .inr (hstep w hk).1
  exact ⟨hk.domNow.trans (hstep w hw).1, (hk.get _ (lastWake_mem d)).trans (hstep w hw).2⟩

theorem wake_aborts {src : Nat} {more rest : List Domain} {owner : Domain} (hl : wakeLost s src = false) (hr : raisedBy s src more = owner :: rest)
    (hd : d ∈ owner :: rest) (h : domNow s d = 3) (hc : ¬(d = .core ∨ d = .code ∨ d = .data)) :
    domNow (wake s src more) d = 4 ∧ (wake s src more).get (Ent.LAST_WAKE (domId d)) = src ∧
    Counted s (wake s src more) (Ent.REFUSALS (domId d)) ∧ (wake s src more).get (Ent.LAST_REFUSER (domId d)) = domId owner := by
  have hneeds : d ∈ withNeeds (owner :: rest) := by
    unfold withNeeds
    split
    · exact List.mem_append_left _ hd
    · exact hd
  have hstep : ∀ w, DomKept d s w → domNow w d = 3 := fun w hk => by rw [hk.domNow, h]
  obtain ⟨w, hw, hk⟩ := wake_reaches hl hr hneeds fun w hk => .inr (wakeDomain_aborts src owner (hstep w hk) hc).1
  obtain ⟨h4, hsrc, hcount, hwho⟩ := wakeDomain_aborts src owner (hstep w hw) hc
  refine ⟨hk.domNow.trans h4, (hk.get _ (lastWake_mem d)).trans hsrc, ?_, (hk.get _ (lastRefuser_mem d)).trans hwho⟩
  rw [Counted, hk.get _ (refusals_mem d), hcount, hw.get _ (refusals_mem d)]

/-! ## The isolation window (R173) -/

theorem windowEnd_late {low : List Port} (h : domState s .host = 3) (hl : low.any (portEnabled s) = true) :
    domState (windowEnd s .host low) .host = 4 ∧ Counted s (windowEnd s .host low) Ent.LATE_WAKES ∧
      (windowEnd s .host low).get (Ent.LAST_WAKE (domId .host)) = 0x0E := by
  have hw : windowEnd s .host low = (wake s 0x0E []).bump Ent.LATE_WAKES := by simp [windowEnd, h, hl]
  have hk : DomKept .host (wake s 0x0E []) ((wake s 0x0E []).bump Ent.LATE_WAKES) := put_domKept _ _ (by decide)
  obtain ⟨h4, hsrc, -⟩ := wake_aborts (s := s) (d := .host) (src := 0x0E) (more := []) rfl rfl List.mem_cons_self h (by decide)
  rw [hw]
  refine ⟨hk.domState.trans h4, ?_, (hk.get _ (lastWake_mem .host)).trans hsrc⟩
  rw [Counted, State.bump_get_self, (wake_restKept s _ _).get _ (by decide)]

theorem windowEnd_completes {low : List Port} (hd : d = .host ∨ d = .net) (h : domState s d = 3) (hl : d = .host → low.any (portEnabled s) = false)
    (hw : (domSeq s d).wake = none) :
    domState (windowEnd s d low) d = (domSeq s d).target ∧ Counted s (windowEnd s d low) (Ent.ENTRIES (domId d)) := by
  have hf : isFlyerDom d = false ∧ d ≠ .core := by rcases hd with rfl | rfl <;> decide
  have hnow : ∀ t : State, domNow t d = domState t d := fun t => by simp only [domNow, hf.1, Bool.false_eq_true, if_false]
  have he : windowEnd s d low = entryComplete s d := by
    rcases hd with rfl | rfl
    · simp [windowEnd, h, hl rfl]
    · simp [windowEnd, h]
  obtain ⟨ht, hcount, -⟩ := entryComplete_completes ((hnow s).trans h) hw fun hc => hf.2 hc.1
  rw [he, ← hnow]
  exact ⟨ht, hcount hf.1⟩

/-- Settles O29, clause by clause. -/
theorem domainCommands : Obligations.DomainCommands := by
  intro s d hf hd
  refine ⟨fun u ss v r ha hs hv hr => restWrite_stores hd ha hs hv hr, fun u ss v r who ha hs hv hr => restWrite_refused ha hs hv hr,
    fun hm hi hl hc => answers_next rfl (entryStart_outcome hf hd hm hi hl hc false),
    fun hm hi h0 hr _ hs hu => answers_next rfl (entryStart_coreOff hf hd hm hi h0 hr hs hu),
    fun ht hm hi hl hc => answers_next (congrArg Host.Outcome.next (if_pos ht)) (entryStart_outcome hf hd hm hi hl hc true),
    fun h hw hc => answers_next rfl (entryComplete_completes h hw hc),
    fun src more owner rest hl hr hm h _ => answers_next rfl (wake_leavesRest hl hr hm h),
    fun src more owner rest hl hr hm h h1 h2 h3 _ _ => answers_next rfl (wake_aborts hl hr hm h (by simp [h1, h2, h3])),
    fun h => answers_next rfl (exitComplete_on h),
    fun low h _ hl => answers_next rfl (windowEnd_late h hl),
    fun low hn h hl hw => answers_next rfl (windowEnd_completes hn h hl hw)⟩

end Sys2Proof.Machine
end

section
/-! CLAIMS. The crystal and its fallback, the FLL, CLK_XO (R180 to R182, R304, R305). CLK_STATUS has no stored lock bit: the FLL counts as locked while
CORE is ON (log 44). -/
namespace Sys2Proof.Machine
variable {s : State}

/-! ## A bit that is set, a bit that is cleared -/

theorem setBits_bit (s : State) (e i : Nat) : bit ((s.setBits e (2 ^ i)).get e) i = true := by
  rw [State.setBits_eq, State.get_put_self, bit, Nat.testBit_or, Nat.testBit_two_pow_self, Bool.or_true]

theorem clearBits_bit (n i : Nat) : bit (clearBits n (2 ^ i)) i = false := by
  rw [bit, clearBits, Nat.and_two_pow]
  cases h : n.testBit i with
  | false => simpa using h
  | true =>
    have hn : 2 ^ i + (n - 2 ^ i) = n := Nat.add_sub_cancel' (Nat.ge_two_pow_of_testBit h)
    have ht : (!(n - 2 ^ i).testBit i) = true := by rw [← Nat.testBit_two_pow_add_eq, hn, h]
    simpa using ht

/-! ## The crystal of CLK_AON (R182) -/

/-- An alert writes the entries of the monitors, of their records and of the notices only. -/
theorem monitorAlert_get (s : State) (d : Die) {ty : Nat} (ht : ty ≤ 0x100) (inst kind src : Nat) (v w : Int) (z : Bool) (e : Nat)
    (he : e / 256 ∉ monitorIdx) : (monitorAlert s d ty inst kind src v w z).get e = s.get e :=
  (monitorAlert_frameKept (F := fun _ => s) (fun _ _ _ => rfl) (fun _ _ => rfl) (fun _ _ _ _ _ => rfl) (List.Subset.refl _)
    s d ht inst kind src v w z).ents.get e he

/-- Once a condition has ended it does not hold. -/
theorem monitorEnd_ended (s : State) (ty inst : Nat) : (ty, inst) ∉ (monitorEnd s ty inst).log.active := by simp [monitorEnd]

/-- The fallback counts the loss, sets its bit and raises the alert of the clock-frequency monitor; what the alert reads is free (log 45). -/
theorem crystalLost_alerts (h : onFallback s = false) : ∃ v w, crystalLost s =
    monitorAlert ((s.used.used.bump Ent.AON_LOSSES).setBits Ent.TIME_FLAGS 2) .keeper 0x43 3 0 0x30 v w false :=
  ⟨_, _, if_neg (Bool.eq_false_iff.1 h)⟩

theorem crystalLost_falls (h : onFallback s = false) :
    onFallback (crystalLost s) = true ∧ Counted s (crystalLost s) Ent.AON_LOSSES ∧ (0x43, 3) ∈ (crystalLost s).log.active := by
  obtain ⟨v, w, he⟩ := crystalLost_alerts h
  have hk := monitorAlert_get ((s.used.used.bump Ent.AON_LOSSES).setBits Ent.TIME_FLAGS 2) .keeper (ty := 0x43) (by decide) 3 0 0x30 v w false
  rw [he]
  refine ⟨?_, ?_, (monitorAlert_active ..).2 (.inr rfl)⟩
  · rw [onFallback, hk Ent.TIME_FLAGS (by decide)]
    exact setBits_bit _ _ 1
  · rw [Counted, hk Ent.AON_LOSSES (by decide), State.setBits_get _ (by decide)]
    exact State.bump_get_self _ _

theorem crystalReturn_returns (h : onFallback s = true) :
    onFallback (crystalReturn s) = false ∧ (0x43, 3) ∉ (crystalReturn s).log.active ∧
      (crystalReturn s).get Ent.TIME_FLAGS = clearBits (s.get Ent.TIME_FLAGS) 2 := by
  have he : crystalReturn s = monitorEnd (s.put Ent.TIME_FLAGS (clearBits (s.get Ent.TIME_FLAGS) 2)) 0x43 3 := if_pos h
  have hf : (crystalReturn s).get Ent.TIME_FLAGS = clearBits (s.get Ent.TIME_FLAGS) 2 := he ▸ State.get_put_self _ _ _
  refine ⟨?_, he ▸ monitorEnd_ended _ _ _, hf⟩
  rw [onFallback, hf]
  exact clearBits_bit _ 1

/-! ## The FLL and CLK_XO (R180, R181) -/

theorem execFllUnlock_counts (ha : s.spindle.alive = true) (hc : domState s .core = 2) : execFllUnlock s = .next (s.bump Ent.FLL_UNLOCKS) := by
  simp [execFllUnlock, ha, hc]

theorem execXoCheckEnd_notes (found : Bool) (ha : s.spindle.alive = true) (hx : s.spindle.xoChecked = false) :
    execXoCheckEnd found s = .next (s.onSpindle fun x => { x with xoChecked := true, xoFound := found }) := by
  simp [execXoCheckEnd, ha, hx]

/-- Where NET runs or rises on a crystal whose start has not failed yet, the failure is counted and stands until NET rises again. -/
theorem execXoStartFail_counts (ha : s.spindle.alive = true) (hx : s.spindle.xoFound = true) (hf : s.spindle.xoFail = false)
    (hn : domState s .net = 2 ∨ domState s .net = 4) :
    execXoStartFail s = .next ((s.bump Ent.XO_FAILS).onSpindle fun x => { x with xoFail := true }) := by
  simp [execXoStartFail, ha, hx, hf, hn]

/-- Settles O30, clause by clause. -/
theorem clockCommands : Obligations.ClockCommands := by
  intro s
  refine ⟨fun h => answers_next rfl (crystalLost_falls h), fun h => answers_next rfl (crystalReturn_returns h),
    fun ha hc => answers_next (execFllUnlock_counts ha hc) rfl, fun found ha hx => answers_next (execXoCheckEnd_notes found ha hx) rfl,
    fun ha hx hf hn => answers_next (execXoStartFail_counts ha hx hf hn) ⟨rfl, ?_⟩⟩
  rw [Counted, State.onSpindle_get]
  exact State.bump_get_self _ _

end Sys2Proof.Machine
end

section
/-! SUPPORT. What an operation outside the arbiter leaves of it (R197 to R209). -/
namespace Sys2Proof.Machine
variable {s t r : State} {idx : List Nat}

/-- The indices of the arbiter's entries (R209). -/
def fabricIdx : List Nat :=
  [0x1300, 0x1301, 0x1302, 0x1303, 0x1304, 0x1305, 0x1306, 0x1307, 0x1308, 0x1309, 0x130A, 0x130B, 0x130C, 0x130D, 0x130E, 0x130F, 0x1310, 0x1311]

/-- The resources, the requests and the core's count of cycles. -/
def fabricOf (s : State) : List ArbRes × List ArbAsk × BitVec 64 := (s.spindle.arb, s.spindle.asks, s.spindle.core.mcycle)

/-- The arbiter is left as it is: its resources, its requests, the cycles counted, every entry of its indices. -/
structure FabricKept (s t : State) : Prop where
  fabric : fabricOf t = fabricOf s
  get : ∀ e, e / 256 ∈ fabricIdx → t.get e = s.get e

theorem FabricKept.arb (h : FabricKept s t) : t.spindle.arb = s.spindle.arb := congrArg (·.1) h.fabric
theorem FabricKept.asks (h : FabricKept s t) : t.spindle.asks = s.spindle.asks := congrArg (·.2.1) h.fabric
theorem FabricKept.mcycle (h : FabricKept s t) : t.spindle.core.mcycle = s.spindle.core.mcycle := congrArg (·.2.2) h.fabric

theorem FabricKept.refl (s : State) : FabricKept s s := ⟨rfl, fun _ _ => rfl⟩

theorem FabricKept.trans (h : FabricKept s t) (g : FabricKept t r) : FabricKept s r :=
  ⟨g.fabric.trans h.fabric, fun e he => (g.get e he).trans (h.get e he)⟩

theorem FabricKept.ite {a b : State} {c : Prop} [Decidable c] (ha : FabricKept s a) (hb : FabricKept s b) : FabricKept s (if c then a else b) := by
  split <;> assumption

theorem FabricKept.foldl_mem {α : Type} {f : State → α → State} {l : List α} (h : ∀ s, ∀ x ∈ l, FabricKept s (f s x)) (s : State) :
    FabricKept s (l.foldl f s) := by
  induction l generalizing s with
  | nil => exact .refl s
  | cons x l ih => exact (h s x List.mem_cons_self).trans (ih (fun s y hy => h s y (List.mem_cons_of_mem x hy)) _)

theorem FabricKept.foldl {α : Type} {f : State → α → State} (h : ∀ s x, FabricKept s (f s x)) (l : List α) (s : State) : FabricKept s (l.foldl f s) :=
  .foldl_mem (fun s x _ => h s x) s

/-! ### Stores, and updates of other parts of the state -/

theorem fabricKept_of_ent (he : t.ent = s.ent) (hf : fabricOf t = fabricOf s) : FabricKept s t := ⟨hf, fun e _ => by simp only [State.get, he]⟩

theorem put_fabricKept (s : State) {e : Nat} (v : Nat) (h : e / 256 ∉ fabricIdx) : FabricKept s (s.put e v) :=
  ⟨rfl, fun _ he => State.get_put_ne s (by rintro rfl; exact h he) v⟩

theorem putU_fabricKept (s : State) {e : Nat} (u : User) (v : Nat) (h : e / 256 ∉ fabricIdx) : FabricKept s (s.putU e u v) :=
  ⟨rfl, fun _ he => State.get_putU_ne s (by rintro rfl; exact h he) u v⟩

theorem DictKept.fabricKept (h : DictKept idx s t) (hi : ∀ i ∈ fabricIdx, i ∉ idx) (hf : fabricOf t = fabricOf s) : FabricKept s t :=
  ⟨hf, fun e he => h.get e (hi _ he)⟩

theorem onSpindle_fabricKept (s : State) {f : Spindle → Spindle} (h : fabricOf (s.onSpindle f) = fabricOf s) : FabricKept s (s.onSpindle f) :=
  fabricKept_of_ent rfl h

theorem onCore_fabricKept (s : State) {f : Core → Core} (h : ∀ c, (f c).mcycle = c.mcycle) : FabricKept s (s.onCore f) :=
  fabricKept_of_ent rfl (by simp [fabricOf, State.onCore, h])

theorem onLoader_fabricKept (s : State) (f : Loader → Loader) : FabricKept s (s.onLoader f) := fabricKept_of_ent rfl rfl
theorem onDict_fabricKept (s : State) (f : Dict → Dict) : FabricKept s (s.onDict f) := fabricKept_of_ent rfl rfl
theorem onPage_fabricKept (s : State) (u : User) (f : Page → Page) : FabricKept s (s.onPage u f) := fabricKept_of_ent rfl rfl
theorem onSha_fabricKept (s : State) (u : User) (f : ShaCtx → ShaCtx) : FabricKept s (s.onSha u f) := fabricKept_of_ent rfl rfl
theorem onBnUser_fabricKept (s : State) (u : User) (f : BnUser → BnUser) : FabricKept s (s.onBnUser u f) := fabricKept_of_ent rfl rfl
theorem onTag_fabricKept (s : State) (f : Tag → Tag) : FabricKept s (s.onTag f) := fabricKept_of_ent rfl rfl

/-- The part of the state that a frame keeps where it keeps the arbiter. -/
def fabricPart (s : State) : State :=
  { State.reset with
    spindle := { State.reset.spindle with
      arb := s.spindle.arb, asks := s.spindle.asks, core := { State.reset.spindle.core with mcycle := s.spindle.core.mcycle } } }

theorem FrameKept.fabricKept (h : FrameKept fabricPart idx s t) (hi : ∀ i ∈ fabricIdx, i ∉ idx) : FabricKept s t := by
  have hf := congrArg fabricOf h.rest
  exact h.ents.fabricKept hi hf

theorem fabricKept_of_entries (h : FrameKept id idx s t) (hi : ∀ i ∈ fabricIdx, i ∉ idx) : FabricKept s t := by
  have hf := congrArg fabricOf h.rest
  exact h.ents.fabricKept hi hf

/-! ### Notices, messages, records -/

theorem raise_fabricKept (s : State) (n : Nat) : FabricKept s (raise s n) :=
  (raise_frameKept (F := fabricPart) (fun _ _ _ => rfl) s n (List.mem_singleton_self _)).fabricKept (by decide)

theorem sbQueue_fabricKept (s : State) (d : Die) (ty dst : Nat) (p : Bytes) : FabricKept s (sbQueue s d ty dst p) :=
  (sbQueue_frameKept (F := fabricPart) (idx := [0x120D, 0x120E]) (fun _ _ => rfl) s d ty dst p (by decide) (by decide)).fabricKept (by decide)

theorem logDie_fabricKept (s : State) (d : Die) (ty src : Nat) (b : Bytes) : FabricKept s (logDie s d ty src b) :=
  (logDie_frameKept (F := fabricPart) (fun _ _ => rfl) (List.Subset.refl _) s d ty src b).fabricKept (by decide)

/-! ### Responses, and the pages that they end with -/

theorem noteStatus_fabricKept (s : State) (q : Request) (c : Nat) : FabricKept s (noteStatus s q c) :=
  (noteStatus_dictKept s q c).fabricKept (by decide) (by simp [fabricOf])

theorem answer_fabricKept (s : State) (q : Request) (c : Nat) (v : Bytes) : FabricKept s (answer s q c v) := by
  obtain ⟨l, r, h⟩ := answer_dict (s := s) (q := q) (c := c) (v := v)
  exact (answer_dictKept s q c v).fabricKept (by decide) (by simp [fabricOf, h])

theorem respondJob_fabricKept (s : State) (q : Request) (c : Nat) (v : Bytes) : FabricKept s (respondJob s q c v) :=
  .ite (.refl s) (.ite ((noteStatus_fabricKept s q c).trans (answer_fabricKept _ q c v)) ((noteStatus_fabricKept s q c).trans (onDict_fabricKept _ _)))

theorem clearPage_fabricKept (s : State) (u : User) : FabricKept s (clearPage s u) := by
  have hj : FabricKept s (endJobs s u Sc.state) := .foldl (fun s q => respondJob_fabricKept s q _ _) _ s
  have he : ∀ e ∈ clearedEntries, e / 256 ∉ fabricIdx := by decide
  unfold clearPage
  dsimp only
  refine .trans ?_ (.foldl_mem (l := clearedEntries) (fun s e hm => putU_fabricKept s u 0 (he e hm)) _)
  exact (hj.trans (onPage_fabricKept _ u _)).trans (onBnUser_fabricKept _ u _)

/-! ### A domain brought up for work (R168) -/

theorem beginExit_fabricKept (s : State) (d : Domain) : FabricKept s (beginExit s d none) := by
  have hx : FabricKept s (setDomNow (if d = .core ∧ domNow s d = 1 then sendTime s else s) d 4) :=
    .trans (.ite (sbQueue_fabricKept _ _ _ _ _) (.refl s)) (.ite (fabricKept_of_ent rfl rfl) (put_fabricKept _ _ (by cases d <;> decide)))
  exact .ite (hx.trans (onSpindle_fabricKept _ rfl)) hx

theorem refuse_fabricKept (s : State) (d : Domain) (w n : Nat) : FabricKept s (refuse s d w n) :=
  (((put_fabricKept s _ (by cases d <;> decide)).trans (put_fabricKept _ _ (by cases d <;> decide))).trans (put_fabricKept _ _ (by decide))).trans
    (raise_fabricKept _ _)

theorem demand_fabricKept (s : State) (d : Domain) : FabricKept s (demand s d) := by
  unfold demand raiseDomain
  split
  · exact .ite (fabricKept_of_ent rfl rfl) ((refuse_fabricKept _ _ _ _).trans (beginExit_fabricKept _ _))
  · exact beginExit_fabricKept _ _
  · exact beginExit_fabricKept _ _
  · exact .refl s

/-! ### The result unit (R110) -/

theorem chamberCheck_fabricKept (s : State) (x : OptResult) : FabricKept s (chamberCheck s x) := by
  have ha : ∀ (s : State) (i k w : Nat) (v y : Int), FabricKept s (monitorAlert s .spindle 0x48 i k w v y false) := fun s i k w v y =>
    (monitorAlert_frameKept (F := fabricPart) (fun _ _ _ => rfl) (fun _ _ => rfl) (fun _ _ _ _ _ => rfl) (List.Subset.refl _)
      s .spindle (by decide) i k w v y false).fabricKept (by decide)
  have he : ∀ (s : State) (i : Nat), FabricKept s (monitorEnd s 0x48 i) := fun _ _ => fabricKept_of_ent rfl rfl
  exact .trans (.ite (ha _ _ _ _ _ _) (he _ _)) (.ite (ha _ _ _ _ _ _) (he _ _))

theorem optResult_fabricKept (s : State) (x : OptResult) : FabricKept s (optResult s x) := by
  have hp := (fabricKept_of_entries (optStored_kept s x) (by decide)).trans (fabricKept_of_entries (optPublished_kept s x) (by decide))
  rw [optResult_eq]
  exact (hp.trans (chamberCheck_fabricKept _ x)).trans (raise_fabricKept _ _)

theorem resultUnit_fabricKept (s : State) (f : Flight) : FabricKept s (resultUnit s f) := by
  cases f with
  | opt x => exact optResult_fabricKept s x
  | heat x => exact (heatResult_frameKept (F := fabricPart) (fun _ _ _ => rfl) (fun _ _ => rfl) (List.Subset.refl _) s x).fabricKept (by decide)
  | co x => exact (coResult_frameKept (F := fabricPart) (fun _ _ _ => rfl) (List.Subset.refl _) s x).fabricKept (by decide)
  | aux x => exact (auxResult_frameKept (F := fabricPart) (fun _ _ _ => rfl) (List.Subset.refl _) s x).fabricKept (by decide)
  | supply x => exact (supplyResult_frameKept (F := fabricPart) (fun _ _ _ => rfl) (List.Subset.refl _) s x).fabricKept (by decide)
  | queues x => exact (queueResult_frameKept (F := fabricPart) (fun _ _ _ _ => rfl) (List.Subset.refl _) s x).fabricKept (by decide)

theorem drainResults_fabricKept (s : State) : FabricKept s (drainResults s) :=
  .ite (.refl s) ((onSpindle_fabricKept s rfl).trans (.foldl resultUnit_fabricKept _ _))

end Sys2Proof.Machine
end

section
/-! SUPPORT. The effects of a bite on its requester leave the arbiter alone (R207, R208). -/
namespace Sys2Proof.Machine
variable {s : State}

/-! ### CORE_I and CORE_D -/

theorem lockUp_fabricKept (s : State) (cause epc : Word) : FabricKept s (lockUp s cause epc) :=
  ((onSpindle_fabricKept s rfl).trans (put_fabricKept _ _ (by decide))).trans (sbQueue_fabricKept _ _ _ _ _)

theorem raiseTrap_fabricKept (s : State) {cause : Nat} (tval : Word) (h : cause < 255) : FabricKept s (raiseTrap s cause tval) := by
  have hi : Ent.TRAPS (cause + 1) / 256 = 0x150A := by unfold Ent.TRAPS; omega
  have hp : FabricKept s (s.bump (Ent.TRAPS (cause + 1))) := put_fabricKept s _ (by rw [hi]; decide)
  exact .ite ((hp.trans (put_fabricKept _ _ (by decide))).trans (lockUp_fabricKept _ _ _))
    ((hp.trans (put_fabricKept _ _ (by decide))).trans (onCore_fabricKept _ fun _ => rfl))

theorem accessFault_fabricKept (s : State) {cause : Nat} (addr : Word) (kind status regions : Nat) (h : cause < 255) :
    FabricKept s (accessFault s cause addr kind status regions) := by
  have hm : FabricKept s (if kind = 3 ∨ kind = 4 ∨ kind = 5 then s.bump Ent.MPU_FAULTS else s) := .ite (put_fabricKept s _ (by decide)) (.refl s)
  unfold accessFault
  dsimp only
  refine .trans (.trans hm ?_) (raiseTrap_fabricKept _ addr h)
  exact .ite (.refl _) (onCore_fabricKept _ fun _ => rfl)

theorem dropWaiting_fabricKept (s : State) (u : User) (p : Request → Bool) : FabricKept s (dropWaiting s u p) := fabricKept_of_ent rfl rfl

theorem dropAsked_fabricKept (s : State) : FabricKept s (dropAsked s) := by
  unfold dropAsked
  split
  · exact .refl s
  · exact ((onDict_fabricKept s _).trans (dropWaiting_fabricKept _ _ _)).trans (onCore_fabricKept _ fun _ => rfl)

/-- The core's transfer completes as an access fault, where the hart runs. -/
theorem biteCore_fabricKept (s : State) {cause : Nat} (h : cause < 255) (addr : Word) :
    FabricKept s (if coreRuns s then takeExc (dropAsked s) (accessExc s.spindle.core cause addr 7 0) else s) :=
  .ite ((dropAsked_fabricKept s).trans (accessFault_fabricKept _ _ _ _ _ h)) (.refl s)

/-! ### LOADER -/

theorem loaderFail_fabricKept (s : State) (reason : Nat) : FabricKept s (loaderFail s reason) := fabricKept_of_ent rfl rfl

/-! ### The host ports and TAG -/

theorem dropRequests_fabricKept (s : State) (u : User) : FabricKept s (dropRequests s u) :=
  .trans (onDict_fabricKept s fun d => { d with
    reqs := d.reqs.set u ((d.reqs.get u).map fun r => { r with dropped := true }), resps := d.resps.set u (dropClaims (d.resps.get u)) })
    (dropWaiting_fabricKept _ u fun q => q.user == u)

theorem releaseClaims_fabricKept (s : State) (u : User) : FabricKept s (releaseClaims s u) :=
  .foldl_mem (fun s g hg => .ite ((put_fabricKept s _ (by revert hg; revert g; decide)).trans (raise_fabricKept _ 12)) (.refl s)) s

theorem portReset_fabricKept (s : State) (p : Port) : FabricKept s (portReset s p) := by
  have hd := (dropRequests_fabricKept s (portUser p)).trans (onDict_fabricKept _ fun d => { d with staged := d.staged.set (portUser p) [] })
  have hc := (hd.trans (releaseClaims_fabricKept _ (portUser p))).trans (clearPage_fabricKept _ (portUser p))
  have hp : ∀ t : State, FabricKept t (t.onPort p fun h => { h with chosen := 0, part := false, frames := [], answer := none, kept := none }) :=
    fun _ => fabricKept_of_ent rfl rfl
  exact (hc.trans (hp _)).trans (put_fabricKept _ _ (by cases p <;> decide))

theorem sendInf_fabricKept (s : State) (rest : Bytes) : FabricKept s (sendInf s rest) := by
  unfold sendInf sendBlock
  dsimp only
  exact (onTag_fabricKept s _).trans (onTag_fabricKept _ _)

theorem apduAnswer_fabricKept (s : State) (data : Bytes) (sw : Nat) : FabricKept s (apduAnswer s data sw) := by
  have h : FabricKept s (((s.bump Ent.TAG_APDUS).put Ent.TAG_LAST_SW sw).onTag fun t => { t with pendingApdu := none }) :=
    ((put_fabricKept s _ (by decide)).trans (put_fabricKept _ _ (by decide))).trans (onTag_fabricKept _ _)
  unfold apduAnswer
  dsimp only
  split
  · exact h.trans (onTag_fabricKept _ _)
  · exact h.trans (sendInf_fabricKept _ _)

theorem writeAnswer_fabricKept (s : State) (c : Nat) : FabricKept s (writeAnswer s c) := by
  have hd : FabricKept s ((demand s .crypto).onTag fun t => { t with c := t.c + 1 }) := (demand_fabricKept s .crypto).trans (onTag_fabricKept _ _)
  unfold writeAnswer
  dsimp only
  split
  · exact hd.trans (apduAnswer_fabricKept _ _ _)
  · have hu : ∀ t : State, FabricKept t t.used := fun _ => fabricKept_of_ent rfl rfl
    exact (hd.trans (hu _)).trans (apduAnswer_fabricKept _ _ _)

theorem timeoutT_fabricKept (s : State) : FabricKept s (timeoutT s) := by
  have hd : FabricKept s (dropT s) := (dropRequests_fabricKept s .T).trans (fabricKept_of_ent rfl rfl)
  unfold timeoutT
  split
  · exact .ite (hd.trans (apduAnswer_fabricKept _ _ _)) (hd.trans (writeAnswer_fabricKept _ _))
  · exact .refl s

/-! ### AES, SHA, BIGNUM -/

theorem biteAes_fabricKept (s : State) : FabricKept s (biteAes s) := by
  unfold biteAes
  split
  · exact .refl s
  · rename_i u _
    have hp : ∀ f, FabricKept s ((s.onSpindle fun x => { x with aesLast := u }).onPage u f) := fun _ => fabricKept_of_ent rfl rfl
    dsimp only
    split
    · exact (hp _).trans (respondJob_fabricKept _ _ _ _)
    · exact (hp _).trans (onCore_fabricKept _ fun _ => rfl)

theorem biteSha_fabricKept (s : State) : FabricKept s (biteSha s) := by
  have hj : ∀ j, FabricKept s (s.onSpindle fun x => { x with shaJobs := x.shaJobs.erase j }) := fun _ => onSpindle_fabricKept s rfl
  unfold biteSha
  split
  · exact .refl s
  · dsimp only
    split
    · exact (hj _).trans (onLoader_fabricKept _ _)
    · exact ((hj _).trans (onSha_fabricKept _ _ _)).trans (onCore_fabricKept _ fun _ => rfl)
    · exact ((hj _).trans (onSha_fabricKept _ _ _)).trans (respondJob_fabricKept _ _ _ _)

theorem bnFinish_fabricKept (s : State) (u : User) (status detail : Nat) : FabricKept s (bnFinish s u status detail) := by
  have hc : ∀ t, FabricKept t (bnCount t status detail) := fun t =>
    ((put_fabricKept t _ (by decide)).trans (.ite (put_fabricKept _ _ (by decide)) (.refl _))).trans (.ite (put_fabricKept _ _ (by decide)) (.refl _))
  exact ((onBnUser_fabricKept s u _).trans (hc _)).trans (.ite (onCore_fabricKept _ fun _ => rfl) (.refl _))

theorem bnRelease_fabricKept (s : State) : FabricKept s (bnRelease s) := fabricKept_of_ent rfl rfl
theorem bnForget_fabricKept (s : State) : FabricKept s (bnForget s) := fabricKept_of_ent rfl rfl

theorem bnAbort_fabricKept (s : State) (status : Nat) : FabricKept s (bnAbort s status) := by
  have hr : FabricKept s (bnRelease (bnForget s)) := (bnForget_fabricKept s).trans (bnRelease_fabricKept _)
  unfold bnAbort
  dsimp only
  split
  · exact hr.trans (sbQueue_fabricKept _ _ _ _ _)
  · exact hr.trans (loaderFail_fabricKept _ _)
  · exact hr
  · exact hr

theorem biteBn_fabricKept (s : State) : FabricKept s (biteBn s) := by
  unfold biteBn
  split
  · exact (((FabricKept.ite (.ite (onBnUser_fabricKept s _ _) (.refl s)) (.refl s)).trans (bnForget_fabricKept _)).trans
      (bnFinish_fabricKept _ _ _ _)).trans (bnRelease_fabricKept _)
  · exact bnAbort_fabricKept s _
  · exact bnAbort_fabricKept s _
  · exact .refl s

/-! ### The port reset of any requester, and the record -/

theorem bitePort_fabricKept (s : State) (req res : Nat) (write : Bool) (addr : Nat) : FabricKept s (bitePort s req res write addr) := by
  unfold bitePort
  dsimp only
  split
  · exact .ite (loaderFail_fabricKept s 8) (.refl s)
  · exact biteCore_fabricKept s (by decide) _
  · exact biteCore_fabricKept s (by split <;> decide) _
  · exact portReset_fabricKept s .A
  · exact portReset_fabricKept s .B
  · exact portReset_fabricKept s .C
  · exact fabricKept_of_ent rfl rfl
  · exact timeoutT_fabricKept s
  · exact (onSpindle_fabricKept s rfl).trans (drainResults_fabricKept _)
  · exact biteAes_fabricKept s
  · exact biteBn_fabricKept s
  · exact biteSha_fabricKept s
  · exact .refl s

theorem biteRecord_fabricKept (s : State) (req res : Nat) (write : Bool) (addr : Nat) : FabricKept s (biteRecord s req res write addr) := by
  have hl : FabricKept s (s.onLog fun x => { x with fwdAt := sparseSet 0 req (s.keeper.aon + 1) x.fwdAt }) := fabricKept_of_ent rfl rfl
  exact .ite (.refl s) (hl.trans (logDie_fabricKept _ _ _ _ _))

end Sys2Proof.Machine
end

section
/-! SUPPORT. Rules of the arbiter's operations (R197 to R205): what each does to a resource, to a request, to the entries. -/
namespace Sys2Proof.Machine
variable {s t r : State} {i j k : Nat}

theorem mem_resources : k ∈ resources ↔ 1 ≤ k ∧ k ≤ 6 := by
  simp only [resources, List.mem_cons, List.not_mem_nil, or_false]
  omega

/-! ### Resources and requests after an update -/

theorem arbRes_onArb (s : State) (k : Nat) (f : ArbRes → ArbRes) (i : Nat) :
    arbRes (onArb s k f) i = if k - 1 = i - 1 ∧ k - 1 < s.spindle.arb.length then f (arbRes s i) else arbRes s i := by
  by_cases hi : k - 1 = i - 1
  · by_cases hl : k - 1 < s.spindle.arb.length
    · rw [if_pos ⟨hi, hl⟩]
      simp [arbRes, onArb, List.getD_eq_getElem?_getD, ← hi, hl]
    · rw [if_neg fun h => hl h.2]
      simp [arbRes, onArb, List.getD_eq_getElem?_getD, ← hi, hl]
  · rw [if_neg fun h => hi h.1]
    simp [arbRes, onArb, List.getD_eq_getElem?_getD, hi]

theorem arbRes_onArb_self {f : ArbRes → ArbRes} (h : k - 1 < s.spindle.arb.length) : arbRes (onArb s k f) k = f (arbRes s k) := by
  rw [arbRes_onArb, if_pos ⟨rfl, h⟩]

theorem arbRes_onArb_ne (hi : i ∈ resources) (hk : k ∈ resources) (h : i ≠ k) (f : ArbRes → ArbRes) : arbRes (onArb s i f) k = arbRes s k := by
  rw [mem_resources] at hi hk
  rw [arbRes_onArb, if_neg (by omega)]

/-- An update that leaves the pending values alone. -/
theorem arbRes_onArb_pend {f : ArbRes → ArbRes} (hf : ∀ x, (f x).pend = x.pend) (i : Nat) : (arbRes (onArb s k f) i).pend = (arbRes s i).pend := by
  rw [arbRes_onArb]
  split
  · exact hf _
  · rfl

@[simp] theorem arbRes_put (e v : Nat) : arbRes (s.put e v) k = arbRes s k := rfl
@[simp] theorem setAsk_get (a : ArbAsk) (e : Nat) : (setAsk s j a).get e = s.get e := rfl
@[simp] theorem onArb_core (f : ArbRes → ArbRes) : (onArb s k f).spindle.core = s.spindle.core := rfl
@[simp] theorem onArb_asks (f : ArbRes → ArbRes) : (onArb s k f).spindle.asks = s.spindle.asks := rfl

theorem FabricKept.arbRes (h : FabricKept s t) (k : Nat) : arbRes t k = arbRes s k := by rw [Machine.arbRes, h.arb, Machine.arbRes]
theorem FabricKept.askOf (h : FabricKept s t) (j : Nat) : askOf t j = askOf s j := by rw [Machine.askOf, h.asks, Machine.askOf]

theorem askOf_setAsk (s : State) (j : Nat) (a : ArbAsk) (i : Nat) :
    askOf (setAsk s j a) i = if j = i ∧ j < s.spindle.asks.length then a else askOf s i := by
  by_cases hi : j = i
  · by_cases hl : j < s.spindle.asks.length
    · rw [if_pos ⟨hi, hl⟩]
      simp [askOf, setAsk, List.getD_eq_getElem?_getD, ← hi, hl]
    · rw [if_neg fun h => hl h.2]
      simp [askOf, setAsk, List.getD_eq_getElem?_getD, ← hi, hl]
  · rw [if_neg fun h => hi h.1]
    simp [askOf, setAsk, List.getD_eq_getElem?_getD, hi]

theorem askOf_setAsk_ne (h : j ≠ i) (a : ArbAsk) : askOf (setAsk s j a) i = askOf s i := by rw [askOf_setAsk, if_neg fun hn => h hn.1]

/-- A request that asks for something stands in the list. -/
theorem asked_lt (h : (askOf s j).left ≠ 0) : j < s.spindle.asks.length := by
  by_contra hl
  exact h (by rw [askOf, List.getD_eq_default _ _ (by omega)])

/-- A resource that a transfer holds stands in the list. -/
theorem owned_lt (h : (arbRes s k).owner = some j) : k - 1 < s.spindle.arb.length := by
  by_contra hl
  rw [arbRes, List.getD_eq_default _ _ (by omega)] at h
  cases h

/-! ### The registered requests and the winner (R199, R202, R203) -/

theorem mem_arbReqs : j ∈ arbReqs s k ↔ j < 12 ∧ (askOf s j).res = k ∧ (askOf s j).left ≠ 0 := by
  simp [arbReqs]

theorem slotWinner_mem {slot : Nat} {reqs : List Nat} (h : slotWinner s k slot reqs = some j) : j ∈ reqs := by
  unfold slotWinner at h
  dsimp only at h
  split at h
  next hc =>
    obtain rfl := Option.some.inj h
    simpa using hc
  next => simpa using List.find?_some h

/-- The best requester so far is one of those compared. -/
theorem creditWinner_mem {credit : Nat → Nat} {reqs : List Nat} (h : creditWinner credit reqs = some j) : j ∈ reqs := by
  unfold creditWinner at h
  revert h
  refine List.foldlRecOn _ _ (motive := fun b => b = some j → j ∈ reqs) (fun h => nomatch h) fun b ih x hx h => ?_
  have hm : x ∈ reqs := by simpa using (List.mem_filter.1 hx).2
  cases b with
  | none => exact Option.some.inj h ▸ hm
  | some y =>
    dsimp only at h
    split at h
    · exact Option.some.inj h ▸ hm
    · exact ih h

theorem arbWinner_mem (h : arbWinner s k = some j) : j ∈ arbReqs s k := by
  unfold arbWinner at h
  split at h
  · exact slotWinner_mem h
  · exact creditWinner_mem h

/-! ### Windows and wraps (R203, R205) -/

theorem windowStart_res (h : k - 1 < s.spindle.arb.length) : arbRes (windowStart s k) k = { arbRes s k with window := 0, spent := [] } :=
  arbRes_onArb_self h

theorem creditOf_fresh (h : (arbRes s k).spent = []) : creditOf s k j = octByte (s.get (Ent.CREDIT_REFILL k)) j := by
  simp [creditOf, h]

/-- The pending values of a resource stored. -/
def pendStored (s : State) (l : List (Nat × Nat)) : State := l.foldl (fun s w => s.put w.1 w.2) s

theorem pendStored_spindle (s : State) (l : List (Nat × Nat)) : (pendStored s l).spindle = s.spindle :=
  foldl_same s l (g := State.spindle) fun _ _ => rfl

theorem pendStored_get_ne {l : List (Nat × Nat)} {e : Nat} (h : ∀ p ∈ l, p.1 ≠ e) : (pendStored s l).get e = s.get e := by
  induction l generalizing s with
  | nil => rfl
  | cons p l ih =>
    have hp : (s.put p.1 p.2).get e = s.get e := State.get_put_ne s (Ne.symm (h p List.mem_cons_self)) p.2
    exact (ih (s := s.put p.1 p.2) fun q hq => h q (List.mem_cons_of_mem p hq)).trans hp

theorem pendStored_get {l : List (Nat × Nat)} {p : Nat × Nat} (hn : (l.map (·.1)).Nodup) (hp : p ∈ l) : (pendStored s l).get p.1 = p.2 := by
  induction l generalizing s with
  | nil => cases hp
  | cons q l ih =>
    obtain ⟨hq, hn⟩ := List.nodup_cons.1 hn
    rcases List.mem_cons.1 hp with rfl | hp
    · have hl : ∀ x ∈ l, x.1 ≠ p.1 := fun x hx he => hq (List.mem_map.2 ⟨x, hx, he⟩)
      exact (pendStored_get_ne (s := s.put p.1 p.2) hl).trans (State.get_put_self s p.1 p.2)
    · exact ih hn hp

theorem wrapApply_empty (h : (arbRes s k).pend = []) : wrapApply s k = s.put (Ent.SLOT_NOW k) 0 := if_pos h

/-- A wrap before ARB_PENDING shows it: the slot is 0, every pending value stored, a new window begun. -/
def wrapped (s : State) (k : Nat) : State :=
  windowStart (onArb (pendStored (s.put (Ent.SLOT_NOW k) 0) (arbRes s k).pend) k fun x => { x with pend := [] }) k

theorem wrapApply_pending (h : (arbRes s k).pend ≠ []) :
    wrapApply s k = (wrapped s k).put Ent.ARB_PENDING (withBit ((wrapped s k).get Ent.ARB_PENDING) (k - 1) false) := if_neg h

theorem wrapped_res (h : k - 1 < s.spindle.arb.length) : arbRes (wrapped s k) k = { arbRes s k with pend := [], window := 0, spent := [] } := by
  have hl : k - 1 < (pendStored (s.put (Ent.SLOT_NOW k) 0) (arbRes s k).pend).spindle.arb.length := by rwa [pendStored_spindle]
  have hr : arbRes (pendStored (s.put (Ent.SLOT_NOW k) 0) (arbRes s k).pend) k = arbRes s k := by
    rw [arbRes, pendStored_spindle]
    rfl
  rw [wrapped, windowStart_res (by simpa [onArb] using hl), arbRes_onArb_self hl, hr]

theorem wrapped_get (s : State) (k e : Nat) : (wrapped s k).get e = (pendStored (s.put (Ent.SLOT_NOW k) 0) (arbRes s k).pend).get e := rfl

theorem withBit_clears (n i : Nat) : bit (withBit n i false) i = false := by
  have h : withBit n i false = clearBits n (2 ^ i) := by
    rw [withBit, clearBits, Nat.and_two_pow]
    cases n.testBit i <;> simp
  rw [h, clearBits_bit]

/-! ### The clocks (R202, R203) -/

theorem windowTick_cases (s : State) (k : Nat) :
    windowTick s k = windowStart s k ∨ windowTick s k = onArb s k fun x => { x with window := x.window + 1 } :=
  ite_eq_or_eq _ _ _

theorem windowTick_pend (s : State) (k i : Nat) : (arbRes (windowTick s k) i).pend = (arbRes s i).pend := by
  rcases windowTick_cases s k with h | h <;> rw [h]
  · exact arbRes_onArb_pend (f := fun x => { x with window := 0, spent := [] }) (fun _ => rfl) i
  · exact arbRes_onArb_pend (f := fun x => { x with window := x.window + 1 }) (fun _ => rfl) i

@[simp] theorem windowTick_get (s : State) (k e : Nat) : (windowTick s k).get e = s.get e := by
  rcases windowTick_cases s k with h | h <;> rw [h] <;> rfl

@[simp] theorem windowTick_core (s : State) (k : Nat) : (windowTick s k).spindle.core = s.spindle.core := by
  rcases windowTick_cases s k with h | h <;> rw [h] <;> rfl

@[simp] theorem windowTick_asks (s : State) (k : Nat) : (windowTick s k).spindle.asks = s.spindle.asks := by
  rcases windowTick_cases s k with h | h <;> rw [h] <;> rfl

theorem wrapApply_core (s : State) (k : Nat) : (wrapApply s k).spindle.core = s.spindle.core := by
  by_cases h : (arbRes s k).pend = []
  · rw [wrapApply_empty h, State.put_spindle]
  · rw [wrapApply_pending h, State.put_spindle, wrapped, windowStart, onArb_core, onArb_core, pendStored_spindle, State.put_spindle]

theorem wrapApply_asks (s : State) (k : Nat) : (wrapApply s k).spindle.asks = s.spindle.asks := by
  by_cases h : (arbRes s k).pend = []
  · rw [wrapApply_empty h, State.put_spindle]
  · rw [wrapApply_pending h, State.put_spindle, wrapped, windowStart, onArb_asks, onArb_asks, pendStored_spindle, State.put_spindle]

theorem arbClock_core (s : State) (k : Nat) : (arbClock s k).spindle.core = s.spindle.core := by
  unfold arbClock
  dsimp only
  split
  · rw [wrapApply_core, windowTick_core]
  · rw [State.put_spindle, windowTick_core]

theorem arbClock_asks (s : State) (k : Nat) : (arbClock s k).spindle.asks = s.spindle.asks := by
  unfold arbClock
  dsimp only
  split
  · rw [wrapApply_asks, windowTick_asks]
  · rw [State.put_spindle, windowTick_asks]

/-- Without a pending value the wrap of the slot counter is a step like any other. -/
theorem arbClock_empty (h : (arbRes s k).pend = []) : arbClock s k = (windowTick s k).put (Ent.SLOT_NOW k) (nextSlot (s.get (Ent.SLOT_NOW k))) := by
  unfold arbClock
  dsimp only
  rw [windowTick_get]
  split
  next h0 => rw [wrapApply_empty (by rw [windowTick_pend, h]), h0]
  next => rfl

/-- No resource has a pending value. -/
def NoPend (s : State) : Prop := ∀ i ∈ resources, (arbRes s i).pend = []

/-- The clock of another resource: where no value is pending, none is afterwards, and the slot counter is as before. -/
def SlotKept (k : Nat) (s t : State) : Prop := NoPend s → NoPend t ∧ t.get (Ent.SLOT_NOW k) = s.get (Ent.SLOT_NOW k)

theorem SlotKept.trans (h : SlotKept k s t) (g : SlotKept k t r) : SlotKept k s r := fun hs =>
  have ⟨hp, hg⟩ := h hs
  have ⟨hp', hg'⟩ := g hp
  ⟨hp', hg'.trans hg⟩

theorem arbClock_noPend (h : NoPend s) (hi : i ∈ resources) : NoPend (arbClock s i) := fun k hk => by
  rw [arbClock_empty (h i hi), arbRes_put, windowTick_pend, h k hk]

theorem arbClock_slotKept (hi : i ∈ resources) (hk : i ≠ k) : SlotKept k s (arbClock s i) := fun h => by
  refine ⟨arbClock_noPend h hi, ?_⟩
  rw [arbClock_empty (h i hi), State.get_put_ne _ (by unfold Ent.SLOT_NOW; omega), windowTick_get]

/-- A fold whose other steps leave what one step sees and does: up to a state like the first, that step, and a state like the one after it. -/
theorem foldl_reaches {α : Type} {R : State → State → Prop} {f : State → α → State} {l : List α} {x : α} (hrefl : ∀ s, R s s)
    (htrans : ∀ {s t u}, R s t → R t u → R s u) (hl : l.Nodup) (hx : x ∈ l) (h : ∀ s, ∀ y ∈ l, y ≠ x → R s (f s y)) (s : State) :
    ∃ u, R s u ∧ R (f u x) (l.foldl f s) := by
  have hfold : ∀ m : List α, (∀ y ∈ m, y ∈ l ∧ y ≠ x) → ∀ s, R s (m.foldl f s) := by
    intro m hm
    induction m with
    | nil => exact hrefl
    | cons y m ih =>
      have hy := hm y List.mem_cons_self
      exact fun s => htrans (h s y hy.1 hy.2) (ih (fun z hz => hm z (List.mem_cons_of_mem y hz)) _)
  obtain ⟨a, b, rfl⟩ := List.append_of_mem hx
  obtain ⟨-, hb, hab⟩ := List.nodup_append.1 hl
  refine ⟨a.foldl f s, hfold a (fun y hy => ⟨List.mem_append_left _ hy, hab y hy x List.mem_cons_self⟩) s, ?_⟩
  rw [List.foldl_append, List.foldl_cons]
  refine hfold b (fun y hy => ⟨List.mem_append_right _ (List.mem_cons_of_mem x hy), ?_⟩) _
  rintro rfl
  exact (List.nodup_cons.1 hb).1 hy

theorem resources_nodup : resources.Nodup := by decide

/-- The slot counter of every resource moves on, where no value is pending (R202). -/
theorem clocked_slot (h : NoPend s) (hk : k ∈ resources) : (clocked s).get (Ent.SLOT_NOW k) = nextSlot (s.get (Ent.SLOT_NOW k)) := by
  obtain ⟨u, hu, ht⟩ := foldl_reaches (R := SlotKept k) (f := arbClock) (fun s hs => ⟨hs, rfl⟩) SlotKept.trans resources_nodup hk
    (fun s i hi hn => arbClock_slotKept hi hn) (countCycle s)
  obtain ⟨hp, hg⟩ := hu h
  rw [clocked, (ht (arbClock_noPend hp hk)).2, arbClock_empty (hp k hk), State.get_put_self, hg]
  rfl

theorem clocks_core (l : List Nat) (s : State) : (l.foldl arbClock s).spindle.core = s.spindle.core :=
  foldl_same s l (g := fun s => s.spindle.core) arbClock_core

theorem clocks_asks (l : List Nat) (s : State) : (l.foldl arbClock s).spindle.asks = s.spindle.asks :=
  foldl_same s l (g := fun s => s.spindle.asks) arbClock_asks

theorem clocked_core (s : State) : (clocked s).spindle.core = (countCycle s).spindle.core := by rw [clocked, clocks_core]

theorem clocked_asks (s : State) : (clocked s).spindle.asks = s.spindle.asks := by
  rw [clocked, clocks_asks]
  rfl

theorem clocked_askOf (s : State) (j : Nat) : askOf (clocked s) j = askOf s j := by rw [askOf, clocked_asks, askOf]

theorem clocked_mcycle (s : State) : (clocked s).spindle.core.mcycle =
    if s.spindle.core.mcountinhibit.getLsbD 0 then s.spindle.core.mcycle else s.spindle.core.mcycle + 1 := by
  rw [clocked_core]
  simp only [countCycle, State.onCore, State.onSpindle_spindle]
  split <;> rfl

end Sys2Proof.Machine
end

section
/-! SUPPORT. The decision of a resource leaves the other resources and their requesters alone (R199 to R203, R206). -/
namespace Sys2Proof.Machine
variable {s t r : State} {i j k : Nat}

/-- The entries of a resource that its decisions read or write. -/
def resWords (k : Nat) : List Nat :=
  [Ent.ARB_MODE k, Ent.SLOT_TABLE k, Ent.BG_RANK k, Ent.CREDIT_REFILL k, Ent.SLOT_NOW k, Ent.OWNER_NOW k, Ent.HELD_CYCLES k]

/-- A resource as its decision sees it is left as it is, and so are the requests for it with the grants counted of their requesters. -/
structure DecisionKept (k : Nat) (s t : State) : Prop where
  res : arbRes t k = arbRes s k
  get : ∀ e ∈ resWords k, t.get e = s.get e
  askRes : ∀ j, (askOf t j).res = (askOf s j).res
  ask : ∀ j, (askOf s j).res = k → askOf t j = askOf s j
  grants : ∀ j < 12, (askOf s j).res = k → t.get (Ent.GRANTS (j + 1)) = s.get (Ent.GRANTS (j + 1))
  empty : ∀ j < 12, (askOf s j).res = k → t.get (Ent.EMPTY_GRANTS (j + 1)) = s.get (Ent.EMPTY_GRANTS (j + 1))

theorem DecisionKept.refl (k : Nat) (s : State) : DecisionKept k s s :=
  ⟨rfl, fun _ _ => rfl, fun _ => rfl, fun _ _ => rfl, fun _ _ _ => rfl, fun _ _ _ => rfl⟩

theorem DecisionKept.trans (h : DecisionKept k s t) (g : DecisionKept k t r) : DecisionKept k s r where
  res := g.res.trans h.res
  get e he := (g.get e he).trans (h.get e he)
  askRes j := (g.askRes j).trans (h.askRes j)
  ask j hj := (g.ask j ((h.askRes j).trans hj)).trans (h.ask j hj)
  grants j hl hj := (g.grants j hl ((h.askRes j).trans hj)).trans (h.grants j hl hj)
  empty j hl hj := (g.empty j hl ((h.askRes j).trans hj)).trans (h.empty j hl hj)

theorem DecisionKept.ite {a b : State} {c : Prop} [Decidable c] (ha : DecisionKept k s a) (hb : DecisionKept k s b) :
    DecisionKept k s (if c then a else b) := by
  split <;> assumption

theorem DecisionKept.foldl_mem {α : Type} {f : State → α → State} {l : List α} (h : ∀ s, ∀ x ∈ l, DecisionKept k s (f s x)) (s : State) :
    DecisionKept k s (l.foldl f s) := by
  induction l generalizing s with
  | nil => exact .refl k s
  | cons x l ih => exact (h s x List.mem_cons_self).trans (ih (fun s y hy => h s y (List.mem_cons_of_mem x hy)) _)

/-! ### What a decision reads -/

theorem DecisionKept.arbReqs (h : DecisionKept k s t) : arbReqs t k = arbReqs s k := by
  refine List.filter_congr fun j _ => ?_
  by_cases hj : (askOf s j).res = k
  · rw [h.ask j hj]
  · rw [h.askRes j, beq_eq_false_iff_ne.2 hj, Bool.false_and, Bool.false_and]

theorem DecisionKept.creditOf (h : DecisionKept k s t) : creditOf t k = creditOf s k := by
  funext j
  rw [Machine.creditOf, h.res, h.get _ (by simp [resWords]), Machine.creditOf]

theorem DecisionKept.arbWinner (h : DecisionKept k s t) : arbWinner t k = arbWinner s k := by
  simp only [Machine.arbWinner, slotWinner, h.arbReqs, h.creditOf, h.get (Ent.ARB_MODE k) (by simp [resWords]),
    h.get (Ent.SLOT_TABLE k) (by simp [resWords]), h.get (Ent.BG_RANK k) (by simp [resWords]), h.get (Ent.SLOT_NOW k) (by simp [resWords])]

theorem DecisionKept.arbHeld (h : DecisionKept k s t) (stalled : List Nat) : arbHeld t k stalled = arbHeld s k stalled := by
  rw [Machine.arbHeld, h.get _ (by simp [resWords]), Machine.arbHeld]

/-! ### Updates of other resources and requesters -/

theorem put_decisionKept {e : Nat} (v : Nat) (hw : e ∉ resWords k)
    (hj : ∀ j < 12, (askOf s j).res = k → e ≠ Ent.GRANTS (j + 1) ∧ e ≠ Ent.EMPTY_GRANTS (j + 1)) : DecisionKept k s (s.put e v) where
  res := rfl
  get x hx := State.get_put_ne s (by rintro rfl; exact hw hx) v
  askRes _ := rfl
  ask _ _ := rfl
  grants j hl hr := State.get_put_ne s (Ne.symm (hj j hl hr).1) v
  empty j hl hr := State.get_put_ne s (Ne.symm (hj j hl hr).2) v

/-- No entry of a resource stands among the counts of the requesters. -/
theorem count_notResWord {e : Nat} (h : 0x130800 ≤ e ∧ e < 0x130C00) (hk : k < 256) : e ∉ resWords k := by
  simp only [resWords, List.mem_cons, List.not_mem_nil, or_false, not_or, Ent.ARB_MODE, Ent.SLOT_TABLE, Ent.BG_RANK, Ent.CREDIT_REFILL,
    Ent.SLOT_NOW, Ent.OWNER_NOW, Ent.HELD_CYCLES]
  omega

/-- A word of another resource is stored. -/
theorem putWord_decisionKept {e : Nat} (v : Nat) (hi : i ∈ resources) (hk : k ∈ resources) (h : i ≠ k)
    (he : e = Ent.OWNER_NOW i ∨ e = Ent.HELD_CYCLES i) : DecisionKept k s (s.put e v) := by
  rw [mem_resources] at hi hk
  unfold Ent.OWNER_NOW Ent.HELD_CYCLES at he
  refine put_decisionKept v ?_ fun j hl _ => ?_
  · simp only [resWords, List.mem_cons, List.not_mem_nil, or_false, not_or, Ent.ARB_MODE, Ent.SLOT_TABLE, Ent.BG_RANK, Ent.CREDIT_REFILL,
      Ent.SLOT_NOW, Ent.OWNER_NOW, Ent.HELD_CYCLES]
    omega
  · unfold Ent.GRANTS Ent.EMPTY_GRANTS
    omega

/-- A requester of another resource is counted. -/
theorem putCount_decisionKept {e : Nat} (v : Nat) (hk : k ∈ resources) (hj : j < 12) (h : (askOf s j).res ≠ k)
    (he : e = Ent.GRANTS (j + 1) ∨ e = Ent.EMPTY_GRANTS (j + 1)) : DecisionKept k s (s.put e v) := by
  rw [mem_resources] at hk
  unfold Ent.GRANTS Ent.EMPTY_GRANTS at he
  refine put_decisionKept v (count_notResWord (by omega) (by omega)) fun i hl hi => ?_
  have hne : i ≠ j := by
    rintro rfl
    exact h hi
  unfold Ent.GRANTS Ent.EMPTY_GRANTS
  omega

theorem onArb_decisionKept (f : ArbRes → ArbRes) (hi : i ∈ resources) (hk : k ∈ resources) (h : i ≠ k) : DecisionKept k s (onArb s i f) where
  res := arbRes_onArb_ne hi hk h f
  get _ _ := rfl
  askRes _ := rfl
  ask _ _ := rfl
  grants _ _ _ := rfl
  empty _ _ _ := rfl

theorem askLess_res (s : State) (j i : Nat) : (askOf (askLess s j) i).res = (askOf s i).res := by
  rw [askLess, askOf_setAsk]
  split
  next h => rw [h.1]
  next => rfl

theorem askLess_decisionKept (h : (askOf s j).res ≠ k) : DecisionKept k s (askLess s j) where
  res := rfl
  get _ _ := rfl
  askRes i := askLess_res s j i
  ask i hi := askOf_setAsk_ne (by rintro rfl; exact h hi) _
  grants _ _ _ := rfl
  empty _ _ _ := rfl

/-! ### The delays (R206) -/

theorem losers_lt {stalled : List Nat} (h : j ∈ losers s k stalled) : j < 12 := by
  unfold losers at h
  split at h
  · exact (mem_arbReqs.1 h).1
  · exact (mem_arbReqs.1 (List.mem_of_mem_filter h)).1

/-- The runs of delay as a cycle leaves them. -/
def withRuns (s : State) (l : List Nat) : State := s.onSpindle fun x => { x with delayRun := l }

theorem withRuns_decisionKept (s : State) (l : List Nat) : DecisionKept k s (withRuns s l) :=
  ⟨rfl, fun _ _ => rfl, fun _ => rfl, fun _ _ => rfl, fun _ _ _ => rfl, fun _ _ _ => rfl⟩

theorem putDelay_decisionKept (s : State) {e : Nat} (v : Nat) (hk : k ∈ resources) (hj : j < 12)
    (he : e = Ent.DELAY_CYCLES (j + 1) ∨ e = Ent.DELAY_MAX (j + 1)) : DecisionKept k s (s.put e v) := by
  rw [mem_resources] at hk
  unfold Ent.DELAY_CYCLES Ent.DELAY_MAX at he
  refine put_decisionKept v (count_notResWord (by omega) (by omega)) fun i hl _ => ?_
  unfold Ent.GRANTS Ent.EMPTY_GRANTS
  omega

theorem delayed_decisionKept (s : State) (hk : k ∈ resources) (hj : j < 12) : DecisionKept k s (delayed s j) := by
  have hc : DecisionKept k s (s.bump (Ent.DELAY_CYCLES (j + 1))) := putDelay_decisionKept s _ hk hj (.inl rfl)
  have hd := hc.trans (withRuns_decisionKept _ (s.spindle.delayRun.set j (s.spindle.delayRun.getD j 0 + 1)))
  exact .ite (hd.trans (putDelay_decisionKept _ _ hk hj (.inr rfl))) hd

theorem delays_decisionKept (s : State) (stalled : List Nat) (hk : k ∈ resources) : DecisionKept k s (delays s stalled) := by
  refine (withRuns_decisionKept s _).trans (.foldl_mem (fun s j hj => ?_) _)
  obtain ⟨i, -, hi⟩ := List.mem_flatMap.1 hj
  exact delayed_decisionKept s hk (losers_lt hi)

/-! ### A grant, a decision -/

/-- A grant before it is charged: the owner, its grant counted, its request one transfer shorter or the grant empty. -/
def granted (s : State) (k j : Nat) (empty : Bool) : State :=
  if empty then ((s.put (Ent.OWNER_NOW k) j).bump (Ent.GRANTS (j + 1))).bump (Ent.EMPTY_GRANTS (j + 1))
  else askLess ((s.put (Ent.OWNER_NOW k) j).bump (Ent.GRANTS (j + 1))) j

/-- A credit of a requester spent. -/
def charged (j : Nat) (x : ArbRes) : ArbRes := { x with spent := ((List.range 12).map fun i => x.spent.getD i 0).set j (x.spent.getD j 0 + 1) }

theorem grant_eq (s : State) (k j : Nat) (empty : Bool) : grant s k j empty =
    if (granted s k j empty).get (Ent.ARB_MODE k) = 0 ∨ creditOf (granted s k j empty) k j = 0 then granted s k j empty
    else onArb (granted s k j empty) k (charged j) := rfl

/-- The charge of a grant changes the resource's credits only (R203). -/
theorem grant_cases (s : State) (k j : Nat) (empty : Bool) :
    grant s k j empty = granted s k j empty ∨ grant s k j empty = onArb (granted s k j empty) k (charged j) := by
  rw [grant_eq]
  exact ite_eq_or_eq _ _ _

/-- The resource's last transfer has completed. -/
def freed (s : State) (k : Nat) : State := onArb s k fun x => { x with owner := none, heldFor := 0 }

/-- The resource's last transfer has not completed in one more cycle. -/
def holding (s : State) (k : Nat) : State := onArb s k fun x => { x with owner := some (s.get (Ent.OWNER_NOW k)), heldFor := x.heldFor + 1 }

@[simp] theorem freed_get (k e : Nat) : (freed s k).get e = s.get e := rfl
@[simp] theorem askOf_freed (k j : Nat) : askOf (freed s k) j = askOf s j := rfl

theorem arbDecide_held (stalled withdrawn : List Nat) (hh : arbHeld s k stalled = true) :
    arbDecide s k stalled withdrawn = (holding s k).bump (Ent.HELD_CYCLES k) := if_pos hh

theorem arbDecide_grants (stalled withdrawn : List Nat) (hh : arbHeld s k stalled = false) (hw : arbWinner s k = some j) :
    arbDecide s k stalled withdrawn = grant (freed s k) k j (withdrawn.contains j) := by
  simp only [arbDecide, hh, hw, Bool.false_eq_true, if_false, freed]

theorem arbDecide_idles (stalled withdrawn : List Nat) (hh : arbHeld s k stalled = false) (hw : arbWinner s k = none) :
    arbDecide s k stalled withdrawn = (freed s k).put (Ent.OWNER_NOW k) 0x80 := by
  simp only [arbDecide, hh, hw, Bool.false_eq_true, if_false, freed]

/-- The three outcomes of a decision: held, granted, idle. -/
theorem arbDecide_cases (s : State) (k : Nat) (stalled withdrawn : List Nat) :
    arbDecide s k stalled withdrawn = (holding s k).bump (Ent.HELD_CYCLES k) ∨
      (∃ j ∈ arbReqs s k, arbDecide s k stalled withdrawn = grant (freed s k) k j (withdrawn.contains j)) ∨
      arbDecide s k stalled withdrawn = (freed s k).put (Ent.OWNER_NOW k) 0x80 := by
  cases hh : arbHeld s k stalled with
  | true => exact .inl (arbDecide_held stalled withdrawn hh)
  | false =>
    cases hw : arbWinner s k with
    | some j => exact .inr (.inl ⟨j, arbWinner_mem hw, arbDecide_grants stalled withdrawn hh hw⟩)
    | none => exact .inr (.inr (arbDecide_idles stalled withdrawn hh hw))

theorem granted_decisionKept (empty : Bool) (hi : i ∈ resources) (hk : k ∈ resources) (h : i ≠ k) (hj : j < 12) (hr : (askOf s j).res ≠ k) :
    DecisionKept k s (granted s i j empty) := by
  have ho : DecisionKept k s (s.put (Ent.OWNER_NOW i) j) := putWord_decisionKept _ hi hk h (.inl rfl)
  have hg : DecisionKept k s ((s.put (Ent.OWNER_NOW i) j).bump (Ent.GRANTS (j + 1))) := ho.trans (putCount_decisionKept _ hk hj hr (.inl rfl))
  exact .ite (hg.trans (putCount_decisionKept _ hk hj hr (.inr rfl))) (hg.trans (askLess_decisionKept hr))

theorem arbDecide_decisionKept (s : State) (stalled withdrawn : List Nat) (hi : i ∈ resources) (hk : k ∈ resources) (h : i ≠ k) :
    DecisionKept k s (arbDecide s i stalled withdrawn) := by
  have ha : ∀ (s : State) f, DecisionKept k s (onArb s i f) := fun _ f => onArb_decisionKept f hi hk h
  have hf : DecisionKept k s (freed s i) := ha s _
  rcases arbDecide_cases s i stalled withdrawn with he | ⟨j, hj, he⟩ | he
  · rw [he]
    exact (ha s _).trans (putWord_decisionKept _ hi hk h (.inr rfl))
  · obtain ⟨hj, hr, -⟩ := mem_arbReqs.1 hj
    have hg : DecisionKept k s (granted (freed s i) i j (withdrawn.contains j)) :=
      hf.trans (granted_decisionKept _ hi hk h hj (by rw [askOf_freed, hr]; exact h))
    rw [he]
    rcases grant_cases (freed s i) i j (withdrawn.contains j) with hc | hc <;> rw [hc]
    · exact hg
    · exact hg.trans (ha _ _)
  · rw [he]
    exact hf.trans (putWord_decisionKept _ hi hk h (.inl rfl))

/-! ### What a grant does -/

theorem granted_get (empty : Bool) {e : Nat} (h : e ≠ Ent.OWNER_NOW k ∧ e ≠ Ent.GRANTS (j + 1) ∧ e ≠ Ent.EMPTY_GRANTS (j + 1)) :
    (granted s k j empty).get e = s.get e := by
  obtain ⟨ho, hg, he⟩ := h
  cases empty
  · rw [granted, if_neg Bool.false_ne_true, askLess, setAsk_get, State.bump_get _ hg, State.get_put_ne _ ho]
  · rw [granted, if_pos rfl, State.bump_get _ he, State.bump_get _ hg, State.get_put_ne _ ho]

/-- No decision of a resource moves its slot counter. -/
theorem arbDecide_slot (s : State) (stalled withdrawn : List Nat) (hk : k ∈ resources) :
    (arbDecide s k stalled withdrawn).get (Ent.SLOT_NOW k) = s.get (Ent.SLOT_NOW k) := by
  rw [mem_resources] at hk
  rcases arbDecide_cases s k stalled withdrawn with he | ⟨j, hj, he⟩ | he <;> rw [he]
  · exact State.bump_get _ (by unfold Ent.SLOT_NOW Ent.HELD_CYCLES; omega)
  · have hl := (mem_arbReqs.1 hj).1
    have hg : (granted (freed s k) k j (withdrawn.contains j)).get (Ent.SLOT_NOW k) = s.get (Ent.SLOT_NOW k) :=
      granted_get _ (by unfold Ent.SLOT_NOW Ent.OWNER_NOW Ent.GRANTS Ent.EMPTY_GRANTS; omega)
    rcases grant_cases (freed s k) k j (withdrawn.contains j) with hc | hc <;> rw [hc]
    · exact hg
    · exact hg
  · exact State.get_put_ne _ (by unfold Ent.SLOT_NOW Ent.OWNER_NOW; omega) _

theorem granted_owner (s : State) (k j : Nat) (empty : Bool) (hk : k ∈ resources) (hj : j < 12) : (granted s k j empty).get (Ent.OWNER_NOW k) = j := by
  rw [mem_resources] at hk
  have hg : Ent.OWNER_NOW k ≠ Ent.GRANTS (j + 1) := by unfold Ent.OWNER_NOW Ent.GRANTS; omega
  have he : Ent.OWNER_NOW k ≠ Ent.EMPTY_GRANTS (j + 1) := by unfold Ent.OWNER_NOW Ent.EMPTY_GRANTS; omega
  cases empty
  · rw [granted, if_neg Bool.false_ne_true, askLess, setAsk_get, State.bump_get _ hg, State.get_put_self]
  · rw [granted, if_pos rfl, State.bump_get _ he, State.bump_get _ hg, State.get_put_self]

theorem granted_grants (s : State) (k j : Nat) (empty : Bool) (hk : k ∈ resources) (hj : j < 12) : Counted s (granted s k j empty) (Ent.GRANTS (j + 1)) := by
  rw [mem_resources] at hk
  have ho : Ent.GRANTS (j + 1) ≠ Ent.OWNER_NOW k := by unfold Ent.OWNER_NOW Ent.GRANTS; omega
  have he : Ent.GRANTS (j + 1) ≠ Ent.EMPTY_GRANTS (j + 1) := by unfold Ent.GRANTS Ent.EMPTY_GRANTS; omega
  cases empty
  · rw [Counted, granted, if_neg Bool.false_ne_true, askLess, setAsk_get, State.bump_get_self, State.get_put_ne _ ho]
  · rw [Counted, granted, if_pos rfl, State.bump_get _ he, State.bump_get_self, State.get_put_ne _ ho]

theorem granted_empty (s : State) (k j : Nat) (hk : k ∈ resources) (hj : j < 12) : Counted s (granted s k j true) (Ent.EMPTY_GRANTS (j + 1)) := by
  rw [mem_resources] at hk
  have ho : Ent.EMPTY_GRANTS (j + 1) ≠ Ent.OWNER_NOW k := by unfold Ent.OWNER_NOW Ent.EMPTY_GRANTS; omega
  have hg : Ent.EMPTY_GRANTS (j + 1) ≠ Ent.GRANTS (j + 1) := by unfold Ent.GRANTS Ent.EMPTY_GRANTS; omega
  rw [Counted, granted, if_pos rfl, State.bump_get_self, State.bump_get _ hg, State.get_put_ne _ ho]

theorem granted_left (s : State) (k j : Nat) (h : (askOf s j).left ≠ 0) : (askOf (granted s k j false) j).left = (askOf s j).left - 1 := by
  have hl := asked_lt h
  rw [granted, if_neg Bool.false_ne_true, askLess, askOf_setAsk, if_pos ⟨rfl, hl⟩]
  rfl

theorem granted_res (s : State) (k j i : Nat) (empty : Bool) : (askOf (granted s k j empty) i).res = (askOf s i).res := by
  cases empty
  · rw [granted, if_neg Bool.false_ne_true, askLess_res]
    rfl
  · rfl

/-- What the decision of a resource does to its winner (R199, R200). -/
structure Wins (k j : Nat) (empty : Bool) (s t : State) : Prop where
  owner : t.get (Ent.OWNER_NOW k) = j
  grants : Counted s t (Ent.GRANTS (j + 1))
  empties : empty = true → Counted s t (Ent.EMPTY_GRANTS (j + 1))
  left : empty = false → (askOf t j).left = (askOf s j).left - 1
  res : (askOf t j).res = k

theorem granted_wins (empty : Bool) (hk : k ∈ resources) (hm : j ∈ arbReqs s k) : Wins k j empty s (granted s k j empty) := by
  obtain ⟨hj, hr, hl⟩ := mem_arbReqs.1 hm
  exact ⟨granted_owner s k j empty hk hj, granted_grants s k j empty hk hj, fun he => he ▸ granted_empty s k j hk hj,
    fun he => he ▸ granted_left s k j hl, (granted_res s k j j empty).trans hr⟩

theorem arbDecide_wins (stalled withdrawn : List Nat) (hk : k ∈ resources) (hh : arbHeld s k stalled = false) (hw : arbWinner s k = some j) :
    Wins k j (withdrawn.contains j) s (arbDecide s k stalled withdrawn) := by
  have hg : Wins k j (withdrawn.contains j) (freed s k) (granted (freed s k) k j (withdrawn.contains j)) := granted_wins _ hk (arbWinner_mem (s := s) hw)
  rw [arbDecide_grants stalled withdrawn hh hw]
  rcases grant_cases (freed s k) k j (withdrawn.contains j) with he | he <;> rw [he] <;>
    exact ⟨hg.owner, hg.grants, hg.empties, hg.left, hg.res⟩

theorem arbDecide_idle (stalled withdrawn : List Nat) (hh : arbHeld s k stalled = false) (hw : arbWinner s k = none) :
    (arbDecide s k stalled withdrawn).get (Ent.OWNER_NOW k) = 0x80 := by
  rw [arbDecide_idles stalled withdrawn hh hw, State.get_put_self]

theorem arbDecide_holds (stalled withdrawn : List Nat) (hh : arbHeld s k stalled = true) :
    (arbDecide s k stalled withdrawn).get (Ent.OWNER_NOW k) = s.get (Ent.OWNER_NOW k) ∧
      Counted s (arbDecide s k stalled withdrawn) (Ent.HELD_CYCLES k) := by
  rw [Counted, arbDecide_held stalled withdrawn hh]
  exact ⟨State.bump_get _ (by unfold Ent.OWNER_NOW Ent.HELD_CYCLES; omega), State.bump_get_self _ _⟩

/-! ### A requester that asks for nothing -/

/-- A requester that asks for nothing goes on so, in a list of requests of the same length. -/
structure IdleKept (j : Nat) (s t : State) : Prop where
  length : t.spindle.asks.length = s.spindle.asks.length
  ask : (askOf s j).left = 0 → askOf t j = askOf s j

theorem IdleKept.trans (h : IdleKept j s t) (g : IdleKept j t r) : IdleKept j s r where
  length := g.length.trans h.length
  ask hj := (g.ask (by rw [h.ask hj, hj])).trans (h.ask hj)

theorem IdleKept.foldl {α : Type} {f : State → α → State} (h : ∀ s x, IdleKept j s (f s x)) (l : List α) (s : State) : IdleKept j s (l.foldl f s) := by
  induction l generalizing s with
  | nil => exact ⟨rfl, fun _ => rfl⟩
  | cons x l ih => exact (h s x).trans (ih _)

theorem idleKept_of_asks (h : t.spindle.asks = s.spindle.asks) : IdleKept j s t := ⟨by rw [h], fun _ => by rw [askOf, h, askOf]⟩

theorem askLess_idleKept (h : (askOf s i).left ≠ 0) : IdleKept j s (askLess s i) where
  length := List.length_set
  ask hj := askOf_setAsk_ne (by rintro rfl; exact h hj) _

theorem grant_idleKept (empty : Bool) (h : (askOf s i).left ≠ 0) : IdleKept j s (grant s k i empty) := by
  have ho : IdleKept j s ((s.put (Ent.OWNER_NOW k) i).bump (Ent.GRANTS (i + 1))) := idleKept_of_asks rfl
  have hg : IdleKept j s (granted s k i empty) := by
    cases empty
    · exact ho.trans (askLess_idleKept h)
    · exact idleKept_of_asks rfl
  rcases grant_cases s k i empty with he | he <;> rw [he]
  · exact hg
  · exact hg.trans (idleKept_of_asks rfl)

theorem arbDecide_idleKept (s : State) (stalled withdrawn : List Nat) : IdleKept j s (arbDecide s k stalled withdrawn) := by
  rcases arbDecide_cases s k stalled withdrawn with he | ⟨i, hi, he⟩ | he <;> rw [he]
  · exact idleKept_of_asks rfl
  · obtain ⟨-, -, hl⟩ := mem_arbReqs.1 hi
    have hf : IdleKept j s (freed s k) := idleKept_of_asks rfl
    exact hf.trans (grant_idleKept _ hl)
  · exact idleKept_of_asks rfl

/-! ### The core runs on -/

theorem grant_core (s : State) (k j : Nat) (empty : Bool) : (grant s k j empty).spindle.core = s.spindle.core := by
  rcases grant_cases s k j empty with he | he <;> rw [he] <;> cases empty <;> rfl

theorem arbDecide_core (s : State) (k : Nat) (stalled withdrawn : List Nat) : (arbDecide s k stalled withdrawn).spindle.core = s.spindle.core := by
  rcases arbDecide_cases s k stalled withdrawn with he | ⟨i, -, he⟩ | he <;> rw [he]
  · rfl
  · exact grant_core _ _ _ _
  · rfl

theorem delayed_spindle (s : State) (j : Nat) :
    (delayed s j).spindle.core = s.spindle.core ∧ (delayed s j).spindle.asks = s.spindle.asks := by
  unfold delayed
  dsimp only
  split <;> exact ⟨rfl, rfl⟩

theorem delays_core (s : State) (stalled : List Nat) : (delays s stalled).spindle.core = s.spindle.core :=
  (foldl_same _ (resources.flatMap fun k => losers s k stalled) (g := fun s => s.spindle.core) fun s j => (delayed_spindle s j).1).trans rfl

theorem delays_asks (s : State) (stalled : List Nat) : (delays s stalled).spindle.asks = s.spindle.asks :=
  (foldl_same _ (resources.flatMap fun k => losers s k stalled) (g := fun s => s.spindle.asks) fun s j => (delayed_spindle s j).2).trans rfl

end Sys2Proof.Machine
end

section
/-! CLAIMS. The arbiter's commands, the fabric watchdog, the kick of the watchdog (R197 to R209, R212, R234). Operands and the effects of a bite follow
logs 27 and 61; the window and the wrap commands do at once what a decision does (log 90). -/
namespace Sys2Proof.Machine
variable {s : State} {j k : Nat}

/-! ## Decisions (R199 to R203) -/

/-- The state after every resource has decided. -/
def decided (s : State) (stalled withdrawn : List Nat) : State :=
  resources.foldl (fun s k => arbDecide s k stalled withdrawn) (delays (clocked s) stalled)

/-- Withdrawn requests drop, new ones are registered. -/
def registered (s : State) (begins : List (Nat × Nat × Nat)) (withdrawn : List Nat) : State :=
  begins.foldl beginAsk (withdrawn.foldl (fun s j => setAsk s j {}) s)

theorem arbDecision_runs (begins : List (Nat × Nat × Nat)) (stalled withdrawn : List Nat) (h : arbRuns s = true) :
    arbDecision s begins stalled withdrawn = drainResults (registered (decided s stalled withdrawn) begins withdrawn) := if_pos h

/-- Up to what the other resources do, a resource decides in the state that its clock has reached. -/
theorem decided_reaches (s : State) (stalled withdrawn : List Nat) (hk : k ∈ resources) : ∃ u, DecisionKept k (clocked s) u ∧
    DecisionKept k (arbDecide u k stalled withdrawn) (decided s stalled withdrawn) := by
  obtain ⟨u, hu, ht⟩ := foldl_reaches (R := DecisionKept k) (f := fun s i => arbDecide s i stalled withdrawn) (.refl k) .trans resources_nodup hk
    (fun s i hi hn => arbDecide_decisionKept s stalled withdrawn hi hk hn) (delays (clocked s) stalled)
  exact ⟨u, (delays_decisionKept (clocked s) stalled hk).trans hu, ht⟩

theorem decided_held {stalled : List Nat} (withdrawn : List Nat) (hk : k ∈ resources) (hh : arbHeld (clocked s) k stalled = true) :
    (decided s stalled withdrawn).get (Ent.OWNER_NOW k) = (clocked s).get (Ent.OWNER_NOW k) ∧
      Counted (clocked s) (decided s stalled withdrawn) (Ent.HELD_CYCLES k) := by
  obtain ⟨u, hu, ht⟩ := decided_reaches s stalled withdrawn hk
  obtain ⟨ho, hc⟩ := arbDecide_holds stalled withdrawn ((hu.arbHeld stalled).trans hh)
  have hw : ∀ e, e = Ent.OWNER_NOW k ∨ e = Ent.HELD_CYCLES k → e ∈ resWords k := by rintro e (rfl | rfl) <;> simp [resWords]
  refine ⟨(ht.get _ (hw _ (.inl rfl))).trans (ho.trans (hu.get _ (hw _ (.inl rfl)))), ?_⟩
  rw [Counted, ht.get _ (hw _ (.inr rfl)), hc, hu.get _ (hw _ (.inr rfl))]

theorem decided_idle {stalled : List Nat} (withdrawn : List Nat) (hk : k ∈ resources) (hh : arbHeld (clocked s) k stalled = false)
    (hw : arbWinner (clocked s) k = none) : (decided s stalled withdrawn).get (Ent.OWNER_NOW k) = 0x80 := by
  obtain ⟨u, hu, ht⟩ := decided_reaches s stalled withdrawn hk
  rw [ht.get _ (by simp [resWords])]
  exact arbDecide_idle stalled withdrawn ((hu.arbHeld stalled).trans hh) (hu.arbWinner.trans hw)

theorem decided_wins {stalled : List Nat} (withdrawn : List Nat) (hk : k ∈ resources) (hh : arbHeld (clocked s) k stalled = false)
    (hw : arbWinner (clocked s) k = some j) : Wins k j (withdrawn.contains j) (clocked s) (decided s stalled withdrawn) := by
  obtain ⟨u, hu, ht⟩ := decided_reaches s stalled withdrawn hk
  obtain ⟨hj, hr, -⟩ := mem_arbReqs.1 (arbWinner_mem hw)
  have hd := arbDecide_wins stalled withdrawn hk ((hu.arbHeld stalled).trans hh) (hu.arbWinner.trans hw)
  refine ⟨(ht.get _ (by simp [resWords])).trans hd.owner, ?_, fun he => ?_, fun he => ?_, (ht.askRes j).trans hd.res⟩
  · rw [Counted, ht.grants j hj hd.res, hd.grants, hu.grants j hj hr]
  · rw [Counted, ht.empty j hj hd.res, hd.empties he, hu.empty j hj hr]
  · rw [ht.ask j hd.res, hd.left he, hu.ask j hr]

theorem decided_slot (s : State) (stalled withdrawn : List Nat) (hk : k ∈ resources) :
    (decided s stalled withdrawn).get (Ent.SLOT_NOW k) = (clocked s).get (Ent.SLOT_NOW k) := by
  obtain ⟨u, hu, ht⟩ := decided_reaches s stalled withdrawn hk
  rw [ht.get _ (by simp [resWords]), arbDecide_slot u stalled withdrawn hk, hu.get _ (by simp [resWords])]

theorem decisions_core (stalled withdrawn l : List Nat) (s : State) :
    (l.foldl (fun s k => arbDecide s k stalled withdrawn) s).spindle.core = s.spindle.core :=
  foldl_same s l (g := fun s => s.spindle.core) fun s k => arbDecide_core s k stalled withdrawn

theorem decided_core (s : State) (stalled withdrawn : List Nat) : (decided s stalled withdrawn).spindle.core = (clocked s).spindle.core := by
  rw [decided, decisions_core, delays_core]

theorem decided_idleKept (s : State) (stalled withdrawn : List Nat) (j : Nat) : IdleKept j s (decided s stalled withdrawn) := by
  have hd : IdleKept j s (delays (clocked s) stalled) := idleKept_of_asks ((delays_asks _ _).trans (clocked_asks s))
  exact hd.trans (.foldl (fun s k => arbDecide_idleKept s stalled withdrawn) resources _)

/-! ### Requests that drop or begin -/

theorem beginAsk_cases (s : State) (a : Nat × Nat × Nat) : beginAsk s a = setAsk s a.1 ⟨a.2.1, transfersOf a.2.1 a.2.2⟩ ∨ beginAsk s a = s :=
  ite_eq_or_eq _ _ _

theorem registered_get (s : State) (begins : List (Nat × Nat × Nat)) (withdrawn : List Nat) (e : Nat) :
    (registered s begins withdrawn).get e = s.get e := by
  refine (foldl_same _ begins (g := fun s => s.get e) fun s a => ?_).trans (foldl_same s withdrawn (g := fun s => s.get e) fun _ _ => rfl)
  rcases beginAsk_cases s a with h | h <;> rw [h]
  rfl

theorem registered_core (s : State) (begins : List (Nat × Nat × Nat)) (withdrawn : List Nat) :
    (registered s begins withdrawn).spindle.core = s.spindle.core := by
  refine (foldl_same _ begins (g := fun s => s.spindle.core) fun s a => ?_).trans (foldl_same s withdrawn (g := fun s => s.spindle.core) fun _ _ => rfl)
  rcases beginAsk_cases s a with h | h <;> rw [h]
  rfl

theorem withdrawn_askOf {withdrawn : List Nat} (h : j ∉ withdrawn) : askOf (withdrawn.foldl (fun s j => setAsk s j {}) s) j = askOf s j := by
  induction withdrawn generalizing s with
  | nil => rfl
  | cons i l ih =>
    rw [List.mem_cons, not_or] at h
    exact (ih (s := setAsk s i {}) h.2).trans (askOf_setAsk_ne (Ne.symm h.1) {})

theorem begun_askOf {begins : List (Nat × Nat × Nat)} (h : ∀ a ∈ begins, a.1 ≠ j) : askOf (begins.foldl beginAsk s) j = askOf s j := by
  induction begins generalizing s with
  | nil => rfl
  | cons a l ih =>
    have ha : askOf (beginAsk s a) j = askOf s j := by
      rcases beginAsk_cases s a with hb | hb <;> rw [hb]
      exact askOf_setAsk_ne (h a List.mem_cons_self) _
    exact (ih (s := beginAsk s a) fun b hb => h b (List.mem_cons_of_mem a hb)).trans ha

theorem registered_askOf {begins : List (Nat × Nat × Nat)} {withdrawn : List Nat} (hw : j ∉ withdrawn) (hb : ∀ a ∈ begins, a.1 ≠ j) :
    askOf (registered s begins withdrawn) j = askOf s j := (begun_askOf hb).trans (withdrawn_askOf hw)

theorem registered_one (s : State) (a : Nat × Nat × Nat) : registered s [a] [] = beginAsk s a := rfl

theorem beginAsk_askOf {n : Nat} (hl : j < s.spindle.asks.length) (h0 : (askOf s j).left = 0) (hr : arbReach k j = true) :
    askOf (beginAsk s (j, k, n)) j = ⟨k, transfersOf k n⟩ := by
  rw [beginAsk, if_pos ⟨h0, hr⟩, askOf_setAsk, if_pos ⟨rfl, hl⟩]

/-! ### One cycle -/

theorem resWord_fabric : ∀ k ∈ resources, Ent.SLOT_NOW k / 256 ∈ fabricIdx ∧ Ent.OWNER_NOW k / 256 ∈ fabricIdx ∧ Ent.HELD_CYCLES k / 256 ∈ fabricIdx := by
  decide

section
variable (begins : List (Nat × Nat × Nat)) (stalled withdrawn : List Nat) (h : arbRuns s = true)
include h

/-- The entries after a cycle are those after the decisions. -/
theorem arbDecision_get {e : Nat} (he : e / 256 ∈ fabricIdx) :
    (arbDecision s begins stalled withdrawn).get e = (decided s stalled withdrawn).get e := by
  rw [arbDecision_runs begins stalled withdrawn h, (drainResults_fabricKept _).get e he, registered_get]

theorem arbDecision_askOf (j : Nat) :
    askOf (arbDecision s begins stalled withdrawn) j = askOf (registered (decided s stalled withdrawn) begins withdrawn) j := by
  rw [arbDecision_runs begins stalled withdrawn h, (drainResults_fabricKept _).askOf j]

theorem arbDecision_mcycle : (arbDecision s begins stalled withdrawn).spindle.core.mcycle =
    if s.spindle.core.mcountinhibit.getLsbD 0 then s.spindle.core.mcycle else s.spindle.core.mcycle + 1 := by
  rw [arbDecision_runs begins stalled withdrawn h, (drainResults_fabricKept _).mcycle, registered_core, decided_core, clocked_mcycle]

theorem arbDecision_slot (hk : k ∈ resources) (hp : NoPend s) :
    (arbDecision s begins stalled withdrawn).get (Ent.SLOT_NOW k) = nextSlot (s.get (Ent.SLOT_NOW k)) := by
  rw [arbDecision_get begins stalled withdrawn h (resWord_fabric k hk).1, decided_slot s stalled withdrawn hk, clocked_slot hp hk]

theorem arbDecision_held (hk : k ∈ resources) (hh : arbHeld (clocked s) k stalled = true) :
    (arbDecision s begins stalled withdrawn).get (Ent.OWNER_NOW k) = (clocked s).get (Ent.OWNER_NOW k) ∧
      Counted (clocked s) (arbDecision s begins stalled withdrawn) (Ent.HELD_CYCLES k) := by
  obtain ⟨-, ho, hc⟩ := resWord_fabric k hk
  rw [Counted, arbDecision_get begins stalled withdrawn h ho, arbDecision_get begins stalled withdrawn h hc]
  exact decided_held withdrawn hk hh

theorem arbDecision_owner (hk : k ∈ resources) (hh : arbHeld (clocked s) k stalled = false) :
    (arbDecision s begins stalled withdrawn).get (Ent.OWNER_NOW k) = (arbWinner (clocked s) k).getD 0x80 := by
  rw [arbDecision_get begins stalled withdrawn h (resWord_fabric k hk).2.1]
  cases hw : arbWinner (clocked s) k with
  | none => exact decided_idle withdrawn hk hh hw
  | some j => exact (decided_wins withdrawn hk hh hw).owner

theorem arbDecision_winner (hk : k ∈ resources) (hh : arbHeld (clocked s) k stalled = false) (hw : arbWinner (clocked s) k = some j) :
    Counted (clocked s) (arbDecision s begins stalled withdrawn) (Ent.GRANTS (j + 1)) ∧
      (withdrawn.contains j = true → Counted (clocked s) (arbDecision s begins stalled withdrawn) (Ent.EMPTY_GRANTS (j + 1))) ∧
      (withdrawn.contains j = false → (∀ a ∈ begins, a.1 ≠ j) → (askOf (arbDecision s begins stalled withdrawn) j).left = (askOf s j).left - 1) := by
  have hj := (mem_arbReqs.1 (arbWinner_mem hw)).1
  have hd := decided_wins (withdrawn := withdrawn) hk hh hw
  have hg : Ent.GRANTS (j + 1) / 256 ∈ fabricIdx := by
    rw [show Ent.GRANTS (j + 1) / 256 = 0x1308 by unfold Ent.GRANTS; omega]
    decide
  have he : Ent.EMPTY_GRANTS (j + 1) / 256 ∈ fabricIdx := by
    rw [show Ent.EMPTY_GRANTS (j + 1) / 256 = 0x1309 by unfold Ent.EMPTY_GRANTS; omega]
    decide
  refine ⟨?_, fun hc => ?_, fun hc hb => ?_⟩
  · rw [Counted, arbDecision_get begins stalled withdrawn h hg]
    exact hd.grants
  · rw [Counted, arbDecision_get begins stalled withdrawn h he]
    exact hd.empties hc
  · rw [arbDecision_askOf begins stalled withdrawn h, registered_askOf (by simpa using hc) hb, hd.left hc, clocked_askOf]

/-- A resource in a cycle: its slot moves on, and it is held, or goes to its winner (R199 to R202). -/
theorem arbDecision_resource (hk : k ∈ resources) :
    (NoPend s → (arbDecision s begins stalled withdrawn).get (Ent.SLOT_NOW k) = nextSlot (s.get (Ent.SLOT_NOW k))) ∧
      if arbHeld (clocked s) k stalled then
        (arbDecision s begins stalled withdrawn).get (Ent.OWNER_NOW k) = (clocked s).get (Ent.OWNER_NOW k) ∧
          Counted (clocked s) (arbDecision s begins stalled withdrawn) (Ent.HELD_CYCLES k)
      else (arbDecision s begins stalled withdrawn).get (Ent.OWNER_NOW k) = (arbWinner (clocked s) k).getD 0x80 ∧
        ∀ j, arbWinner (clocked s) k = some j → Counted (clocked s) (arbDecision s begins stalled withdrawn) (Ent.GRANTS (j + 1)) ∧
          (withdrawn.contains j = true → Counted (clocked s) (arbDecision s begins stalled withdrawn) (Ent.EMPTY_GRANTS (j + 1))) ∧
          (withdrawn.contains j = false → (∀ a ∈ begins, a.1 ≠ j) →
            (askOf (arbDecision s begins stalled withdrawn) j).left = (askOf s j).left - 1) := by
  refine ⟨arbDecision_slot begins stalled withdrawn h hk, ?_⟩
  cases hh : arbHeld (clocked s) k stalled with
  | true =>
    rw [if_pos rfl]
    exact arbDecision_held begins stalled withdrawn h hk hh
  | false =>
    rw [if_neg Bool.false_ne_true]
    exact ⟨arbDecision_owner begins stalled withdrawn h hk hh, fun j hw => arbDecision_winner begins stalled withdrawn h hk hh hw⟩

end

/-- A requester that asks for nothing begins to ask for a resource that it can reach (R198). -/
theorem arbDecision_begins {n : Nat} (stalled : List Nat) (ha : s.spindle.asks.length = 12) (h : arbRuns s = true) (hj : j < 12)
    (hr : arbReach k j = true) (h0 : (askOf s j).left = 0) : askOf (arbDecision s [(j, k, n)] stalled []) j = ⟨k, transfersOf k n⟩ := by
  have hd := decided_idleKept s stalled [] j
  rw [arbDecision_askOf _ _ _ h, registered_one]
  exact beginAsk_askOf (by rw [hd.length, ha]; exact hj) (by rw [hd.ask h0, h0]) hr

/-! ## Windows and wraps (R203, R205) -/

theorem resource_inRange (ha : s.spindle.arb.length = 6) (hk : k ∈ resources) : k - 1 < s.spindle.arb.length := by
  rw [mem_resources] at hk
  omega

theorem windowStart_loads (hl : k - 1 < s.spindle.arb.length) :
    (arbRes (windowStart s k) k).window = 0 ∧ ∀ j, j < 12 → creditOf (windowStart s k) k j = octByte (s.get (Ent.CREDIT_REFILL k)) j := by
  have hr := windowStart_res hl
  exact ⟨by rw [hr], fun j _ => creditOf_fresh (by rw [hr])⟩

/-- Configuration entries are none of those that a wrap writes itself. -/
theorem config_ne {e : Nat} (hk : k ∈ resources) (h : 0x1300 ≤ e / 256 ∧ e / 256 ≤ 0x1304) : e ≠ Ent.SLOT_NOW k ∧ e ≠ Ent.ARB_PENDING := by
  rw [mem_resources] at hk
  unfold Ent.SLOT_NOW Ent.ARB_PENDING
  omega

theorem wrapApply_applies (hk : k ∈ resources) (hl : k - 1 < s.spindle.arb.length) (hn : ((arbRes s k).pend.map (·.1)).Nodup)
    (hc : ∀ p ∈ (arbRes s k).pend, 0x1300 ≤ p.1 / 256 ∧ p.1 / 256 ≤ 0x1304) :
    (wrapApply s k).get (Ent.SLOT_NOW k) = 0 ∧ (∀ p ∈ (arbRes s k).pend, (wrapApply s k).get p.1 = p.2) ∧ (arbRes (wrapApply s k) k).pend = [] ∧
      ((arbRes s k).pend ≠ [] → bit ((wrapApply s k).get Ent.ARB_PENDING) (k - 1) = false ∧ (arbRes (wrapApply s k) k).window = 0 ∧
        (arbRes (wrapApply s k) k).spent = []) := by
  by_cases h : (arbRes s k).pend = []
  · rw [wrapApply_empty h]
    exact ⟨State.get_put_self _ _ _, by simp [h], h, fun hne => absurd h hne⟩
  · have hs : Ent.SLOT_NOW k ≠ Ent.ARB_PENDING := by
      rw [mem_resources] at hk
      unfold Ent.SLOT_NOW Ent.ARB_PENDING
      omega
    rw [wrapApply_pending h, arbRes_put, wrapped_res hl]
    refine ⟨?_, fun p hp => ?_, rfl, fun _ => ⟨?_, rfl, rfl⟩⟩
    · rw [State.get_put_ne _ hs, wrapped_get, pendStored_get_ne fun p hp => (config_ne hk (hc p hp)).1, State.get_put_self]
    · rw [State.get_put_ne _ (config_ne hk (hc p hp)).2, wrapped_get, pendStored_get hn hp]
    · rw [State.get_put_self, withBit_clears]

/-! ## Configuration (R205) -/

/-- Every configuration entry is stored, of class V, one for all users. -/
theorem config_rows : ∀ r ∈ entryRows, 0x1300 ≤ r.idx ∧ r.idx ≤ 0x1304 → r.action = false ∧ r.cls = .v ∧ r.perUser = false := by decide +kernel

theorem config_row {e : Nat} {r : EntryRow} (hr : findRow e = some r) (h : 0x1300 ≤ e / 256 ∧ e / 256 ≤ 0x1304) :
    r.action = false ∧ r.cls = .v ∧ r.perUser = false := by
  obtain ⟨hm, hi⟩ := findRow_mem hr
  exact config_rows r hm (by rw [hi]; exact h)

/-- No other meaning of a store is that of a configuration entry's. -/
theorem config_plain {e : Nat} (h : 0x1300 ≤ e / 256 ∧ e / 256 ≤ 0x1304) : isDelta e = false ∧ isMono e = false ∧ isCleared e = false ∧
    e ∉ [Ent.NOTICE_PENDING, Ent.NOTICE_MASK, Ent.FAULT_CAUSE, Ent.ALARM_FW, Ent.COMMIT] := by
  have hne : ∀ x, x / 256 < 0x1300 ∨ 0x1304 < x / 256 → e ≠ x := by rintro x hx rfl; omega
  refine ⟨?_, ?_, ?_, ?_⟩
  · simp only [isDelta, Bool.and_eq_false_iff, decide_eq_false_iff_not]
    omega
  · rw [isMono, beq_eq_false_iff_ne, show Ent.MONO_INC 0 / 256 = 0x4111 from rfl]
    omega
  · simp only [isCleared, Bool.or_eq_false_iff, beq_eq_false_iff_ne]
    exact ⟨⟨hne _ (by decide), hne _ (by decide)⟩, hne _ (by decide)⟩
  · simp only [List.mem_cons, List.not_mem_nil, or_false, not_or]
    exact ⟨hne _ (by decide), hne _ (by decide), hne _ (by decide), hne _ (by decide), hne _ (by decide)⟩

/-- A configuration value is held pending, not stored. -/
theorem applyWrite_config {u : User} {e v : Nat} {r : EntryRow} (hr : findRow e = some r) (h : 0x1300 ≤ e / 256 ∧ e / 256 ≤ 0x1304) :
    applyWrite s u e v = arbHold s e v := by
  obtain ⟨-, hcls, hp⟩ := config_row hr h
  obtain ⟨hd, hm, hc, hn⟩ := config_plain h
  simp only [List.mem_cons, List.not_mem_nil, or_false, not_or] at hn
  obtain ⟨h1, h2, h3, h4, -⟩ := hn
  rw [applyWrite, hr]
  dsimp only
  rw [hd, hm, hc, hp, hcls, if_neg Bool.false_ne_true, if_neg Bool.false_ne_true, if_neg (by decide), if_neg h1, if_neg h2,
    if_neg Bool.false_ne_true, if_neg h3, if_neg Bool.false_ne_true, if_neg h4, if_pos h]

theorem access_config {u : User} {idx sub : Nat} {x : Bytes} (h : accepts s (writeReq u idx sub x) = true) (hi : 0x1300 ≤ idx ∧ idx ≤ 0x1304) :
    access s (writeReq u idx sub x) = respond (arbHold s (entAt idx sub) (leNat x)) (writeReq u idx sub x) Sc.ok [] := by
  obtain ⟨-, -, -, -, r, hr, -⟩ := accepts_parts h
  have hr : rowAt idx sub = some r := hr
  have hsub : sub < 256 := by
    by_contra hs
    rw [rowAt, if_pos (.inl (by omega))] at hr
    cases hr
  have hf := rowAt_findRow hr
  have he : 0x1300 ≤ entAt idx sub / 256 ∧ entAt idx sub / 256 ≤ 0x1304 := by
    unfold entAt
    omega
  obtain ⟨hd, hm, -, hn⟩ := config_plain he
  obtain ⟨ha, hcls, -⟩ := config_row hf he
  have hN : isN (entAt idx sub) = false := by simp [isN, hm, hf, hcls]
  have hact : ∀ r', rowAt idx sub = some r' → r'.action = false := fun r' hr' => Option.some.inj (hr.symm.trans hr') ▸ ha
  have hcommit : entAt idx sub ≠ Ent.COMMIT := fun hc => hn (by simp [hc])
  have hstore : access s (writeReq u idx sub x) = respond (applyWrites s u [(entAt idx sub, leNat x)]) (writeReq u idx sub x) Sc.ok [] :=
    access_store rfl h hact hcommit hN
  rw [hstore, applyWrites_one _ _ _ _ hd, applyWrite_config hf he]

/-! ## The fabric watchdog (R207) -/

/-- The bite's own counts and FWD_LAST. -/
def biteCounted (s : State) (req res : Nat) (write : Bool) : State :=
  ((s.bump (Ent.FWD_BITES (req + 1))).bump Ent.FWD_TOTAL).put Ent.FWD_LAST (res * 65536 + req * 256 + if write then 1 else 0)

/-- The transfer of a resource is aborted. -/
def aborted (s : State) (res : Nat) : State := (freed s res).put (Ent.OWNER_NOW res) 0x80

theorem bite_eq (s : State) (req res : Nat) (write : Bool) (addr : Nat) :
    bite s req res write addr = biteRecord (raise (biteCounted (bitePort (aborted s res) req res write addr) req res write) 18) req res write addr := rfl

theorem biteCounted_get {req res e : Nat} {write : Bool} (h : e ≠ Ent.FWD_BITES (req + 1) ∧ e ≠ Ent.FWD_TOTAL ∧ e ≠ Ent.FWD_LAST) :
    (biteCounted s req res write).get e = s.get e := by
  rw [biteCounted, State.get_put_ne _ h.2.2, State.bump_get _ h.2.1, State.bump_get _ h.1]

theorem bite_bites {req res : Nat} (write : Bool) (addr : Nat) (hl : res - 1 < s.spindle.arb.length) (hres : res ≤ 6) (hreq : req < 12) :
    (bite s req res write addr).get (Ent.OWNER_NOW res) = 0x80 ∧ (arbRes (bite s req res write addr) res).owner = none ∧
      Counted s (bite s req res write addr) (Ent.FWD_BITES (req + 1)) ∧ Counted s (bite s req res write addr) Ent.FWD_TOTAL ∧
      (bite s req res write addr).get Ent.FWD_LAST = res * 65536 + req * 256 + if write then 1 else 0 := by
  have hp := bitePort_fabricKept (aborted s res) req res write addr
  have ht := (raise_fabricKept (biteCounted (bitePort (aborted s res) req res write addr) req res write) 18).trans
    (biteRecord_fabricKept _ req res write addr)
  have ho : Ent.OWNER_NOW res / 256 ∈ fabricIdx := by
    rw [show Ent.OWNER_NOW res / 256 = 0x1307 by unfold Ent.OWNER_NOW; omega]
    decide
  have hb : Ent.FWD_BITES (req + 1) / 256 ∈ fabricIdx := by
    rw [show Ent.FWD_BITES (req + 1) / 256 = 0x130D by unfold Ent.FWD_BITES; omega]
    decide
  have ho' : Ent.OWNER_NOW res ≠ Ent.FWD_BITES (req + 1) ∧ Ent.OWNER_NOW res ≠ Ent.FWD_TOTAL ∧ Ent.OWNER_NOW res ≠ Ent.FWD_LAST := by
    unfold Ent.OWNER_NOW Ent.FWD_BITES Ent.FWD_TOTAL Ent.FWD_LAST
    omega
  have hb' : Ent.FWD_BITES (req + 1) ≠ Ent.FWD_TOTAL ∧ Ent.FWD_BITES (req + 1) ≠ Ent.FWD_LAST ∧ Ent.FWD_BITES (req + 1) ≠ Ent.OWNER_NOW res := by
    unfold Ent.OWNER_NOW Ent.FWD_BITES Ent.FWD_TOTAL Ent.FWD_LAST
    omega
  have hs : ∀ e, e / 256 ∈ fabricIdx → e ≠ Ent.OWNER_NOW res → (bitePort (aborted s res) req res write addr).get e = s.get e := fun e he hne => by
    rw [hp.get e he, aborted, State.get_put_ne _ hne, freed_get]
  rw [bite_eq]
  refine ⟨?_, ?_, ?_, ?_, ?_⟩
  · rw [ht.get _ ho, biteCounted_get ho', hp.get _ ho, aborted, State.get_put_self]
  · have hr : arbRes (aborted s res) res = { arbRes s res with owner := none, heldFor := 0 } := by
      rw [aborted, arbRes_put, freed, arbRes_onArb_self hl]
    rw [ht.arbRes, biteCounted, arbRes_put, State.bump_eq, arbRes_put, State.bump_eq, arbRes_put, hp.arbRes, hr]
  · rw [Counted, ht.get _ hb, biteCounted, State.get_put_ne _ hb'.2.1, State.bump_get _ hb'.1, State.bump_get_self, hs _ hb hb'.2.2]
  · have hne : Ent.FWD_TOTAL ≠ Ent.OWNER_NOW res := Ne.symm ho'.2.1
    rw [Counted, ht.get _ (by decide), biteCounted, State.get_put_ne _ (by decide), State.bump_get_self, State.bump_get _ (Ne.symm hb'.1),
      hs _ (by decide) hne]
  · rw [ht.get _ (by decide), biteCounted, State.get_put_self]

/-! ## The kick (R234) -/

theorem access_wdtKick {u : User} {v : Nat} (h : accepts s (numReq u Ent.WDT_KICK v) = true) :
    access s (numReq u Ent.WDT_KICK v) = respond (wdtKick s) (numReq u Ent.WDT_KICK v) Sc.ok [] := by
  have hr : (findRow Ent.WDT_KICK).map (·.action) = some true := by decide +kernel
  have hm : isMono Ent.WDT_KICK = false := by decide
  have hw : writeAccess s (numReq u Ent.WDT_KICK v) = .done (wdtKick s) Sc.ok := by
    rw [writeAccess_action h hr (by decide), action_WDT_KICK, hm, Bool.false_and, if_neg Bool.false_ne_true]
  exact access_done rfl h hw (engineOf_numReq (by decide))

/-- Settles O31, clause by clause. -/
theorem arbiterCommands : Obligations.ArbiterCommands := by
  intro s harb hasks
  refine ⟨fun begins stalled withdrawn h => answers_next rfl ⟨arbDecision_mcycle begins stalled withdrawn h, fun k hk =>
      arbDecision_resource begins stalled withdrawn h hk⟩,
    fun j k n stalled h hj hr h0 => answers_next rfl (arbDecision_begins stalled hasks h hj hr h0),
    fun res h hres => answers_next (congrArg Host.Outcome.next (if_pos h)) (windowStart_loads (resource_inRange harb hres)),
    fun res h hres hn hc => answers_next (congrArg Host.Outcome.next (if_pos h)) (wrapApply_applies hres (resource_inRange harb hres) hn hc),
    fun u idx sub x h hi => congrArg Host.Outcome.next (access_config h hi),
    fun req res write addr ha ho hf hr hq => ?_,
    fun u v h => congrArg Host.Outcome.next (access_wdtKick h)⟩
  have hl := owned_lt ho
  have hb : bites s req res = true := by simp [bites, ha, ho, hf]
  exact answers_next (congrArg Host.Outcome.next (if_pos (by rw [hb, hr, Bool.and_self]))) (bite_bites write addr hl (by omega) hq)

end Sys2Proof.Machine
end
